-- ==== Sys2Proof/Word.lean ====
section
/-! DEFINITION. The word types of the block and their plainest arithmetic. Quantities that the manual adds, compares
and clamps are `Nat` or `Int` in the unit of their object; quantities that it treats as bits (parity, CRC-32C,
SHA-256) are bit vectors. -/

namespace Sys2Proof

/-- One byte of a frame, a record or a stream (R427): a number below 256. -/
abbrev Byte := Nat

/-- The 32-bit word of CRC-32C and SHA-256. -/
abbrev W32 := BitVec 32

/-- Bit `i` of the number `n` (R12: bit 0 is the least significant). -/
def bit (n i : Nat) : Bool := n.testBit i

/-- Bits `[hi:lo]` of `n` (R12). -/
def bits (n hi lo : Nat) : Nat := n / 2 ^ lo % 2 ^ (hi + 1 - lo)

/-- A truth value as the level of a bit. -/
def b2n (b : Bool) : Nat := if b then 1 else 0

/-- The number of 1s in the low `w` bits of `n`. -/
def ones : Nat → Nat → Nat
  | 0, _ => 0
  | w + 1, n => n % 2 + ones w (n / 2)

/-- Even parity over the low `w` bits. -/
def evenParity (w n : Nat) : Bool := ones w n % 2 == 0

end Sys2Proof
end

