-- ==== Sys2Proof/Syntax.lean ====
section
/-! DEFINITION. The commands of the block: one constructor of `Instr` for each row of `spec/opcode_table.json`,
in the table's order, with the operands that the row's rule gives the event. An operand is either what names the
target of the event (a region, a string, a session) or what comes from outside the block with it (pickup codes, a
frame, a converter code, a byte of host memory). -/

namespace Sys2Proof

/-- The access paths of R432 and the mailbox of the register window that carries the request (R445). -/
inductive Path where
  | i3c | mbx0 | mbx1 | ring
deriving DecidableEq, Repr

/-- How one PMBus transaction of R403 and R455 ended. -/
inductive PmbResult where
  | ok        -- acknowledged, with correct PEC
  | noAck     -- the address was not acknowledged
  | clockLow  -- the segment's clock was held low beyond 35 ms
  | badPec    -- acknowledged, PEC failed
deriving DecidableEq, Repr

/-- The code of one pickup in one region-island cycle, with its parity bit checked (R46, R47). -/
structure Sample where
  code : Nat
  parityOk : Bool
deriving DecidableEq, Repr

/-- The twin detectors of R83. -/
inductive TwinId where
  | a | b
deriving DecidableEq, Repr

/-- What a parity error of R198 hits: a coefficient bank, a sharing integrator of a string, Kff, or the consensus term. -/
inductive ParityTarget where
  | bank | share (s : Nat) | kff | cons
deriving DecidableEq, Repr

/-- What SELFTEST measures on one converter (R356): its number, 70 for the board-analog one, the fused code of its check
reference, and the sum of its sixteen conversions of it. -/
structure RefCheck where
  conv : Nat
  fused : Nat
  sum : Nat
deriving DecidableEq, Repr

/-- A log whose stored sequence counter fails its parity (R513): the trace log or the fault log, and the sequence numbers
of its records whose CRC fails. -/
structure LogCheck where
  trace : Bool
  torn : List Nat
deriving DecidableEq, Repr

/-- What a learner parity error of R291 hits: a cell, or a learned-droop entry. -/
inductive CellTarget where
  | cell (r c : Nat) | droop (c rail : Nat)
deriving DecidableEq, Repr

/-- The inputs of the board-analog converter (R376). -/
inductive BaInput where
  | vin | trim | ref
deriving DecidableEq, Repr

/-- A dictionary value of one of the sequence-table objects of R381. -/
inductive TableObj where
  | a | aLen | b | bLen
deriving DecidableEq, Repr

/-- The commands and events of the block. `p` is the access path of a dictionary request and `sess` the session byte
it names (R434, R436). An operand with a default brings what is there only sometimes: a parity error of a memory that
the command reads (log 41), a page read in a follow-up, an identity that has been read. -/
inductive Instr where
  -- supplies, reset and start-up
  | suppliesGood
  | suppliesLost
  | resetNLow (logs : List LogCheck := [])
  | resetExit (riseAt : Nat)
  | selftestComplete (memFail twinFail : Bool) (refs : List RefCheck)
  | fuseloadComplete (image : List Byte)
  | courseDiscovery (c : Nat) (res : PmbResult) (ident : List Byte)
  | pmbusRetry (c : Nat) (res : PmbResult) (ident : List Byte)
  | discoverEnd (vinOk : Bool)
  | railRampStart
  | rampReferenceStart (rail : Nat)
  | positionJoin (rail p : Nat)
  | railPowerGood (rail : Nat)
  | railFailed (rail : Nat)
  | blockCmdShutdown (p : Path) (sess : Nat)
  | blockCmdStart (p : Path) (sess : Nat)
  | rampDownStart
  | railRampDownEnd (rail : Nat)
  | vinOkLoss
  | vinRestart
  -- the region island
  | regionCycle (r : Nat) (samples : List Sample)
  | fireFallingEdge (s : Nat)
  | fixedRateFire (r : Nat)
  | vminSourceChange (r : Nat)
  | strumDisagreeWindow
  | twinOvDisagreement (r : Nat)
  | twinParityReload (r : Nat) (t : TwinId)
  | strumRoundDue (r : Nat)
  | lockoutEnd (r : Nat)
  | spreadStrobe (r : Nat) (froms : List Nat)
  | strumReport (r : Nat)
  | damper (r : Nat)
  | shedArrival (s : Nat)
  | scoreboardChangeArrival (s : Nat)
  | pickupValidityArrival (r : Nat)
  | bandChangeArrival (r : Nat)
  | preparationTime (id : Nat)
  | preStrumStart (r : Nat)
  | preStrumEnd (r : Nat)
  | bumpHoldEnd (id : Nat)
  -- wake permits
  | wakeReqRise (r : Nat)
  | wakeGrant
  | wakeTimeout
  | rejoinAck (r : Nat)
  | wakeReqFall (r : Nat)
  -- courses
  | crsStatFrame (c word : Nat) (codingOk : Bool)
  | laneTimeout (c : Nat)
  | laneFltDamper (c : Nat)
  | laneVminDamper (c : Nat)
  | crsFltNFall (c : Nat)
  | crsFltNRise (c : Nat)
  | followUp (c statusWord : Nat) (iout : List (Nat × Nat) := [])
  | courseRecordCopy (c : Nat) (first second : List Byte) (ident : List Byte := [])
  | smbusAlert (seg : Nat) (addr : Option Nat)
  -- the control engine
  | controlPeriod
  | engineOutputs
  | outputsArrival
  | swapSample
  | bankCopyEnd
  | bankSwap (p : Path) (sess mask : Nat)
  | shadowWrite (p : Path) (sess ch sub : Nat) (value : Int)
  | chFlagsClear (p : Path) (sess ch mask : Nat)
  | bankParityError (ch : Nat) (t : ParityTarget)
  | trimPwmPeriod (high low : Nat)
  | trimInputLost
  | trimHoldExpiry
  -- frets
  | fretStepStart (r : Nat)
  | fretCmdReqRaise (r : Nat)
  | fretCmdAckRise (r : Nat)
  | fretCmdAckFall (r : Nat)
  | fretAckLate (r : Nat)
  | recoveryHoldExpiry (rail : Nat)
  | matchedEnableWrite (p : Path) (sess v : Nat)
  -- power and the cap
  | millisecondBoundary
  | frameReady
  | capStep
  | capoDelivery
  | thermalDecision
  | recoveryStep
  | capIrqClear (p : Path) (sess mask : Nat)
  -- hints
  | hint (word par : Nat)
  | hintRetire (id : Nat)
  | hintIrqClear (p : Path) (sess mask : Nat)
  | hintEntriesMaxRead (p : Path) (sess : Nat)
  | scoreboardEntryParity (id : Nat)
  | staticTableParity
  | staticTableReloaded (image : List Byte)
  -- the learner
  | activityFrame (r data par : Nat)
  | livePredictions
  | forwardRefresh
  | droopObservation (id : Nat)
  | learnerStep (badCounters : List Nat := [])
  | passCommit (k : Nat)
  | passDiscard (k : Nat) (parityIn : Option (Nat × Nat))
  | cellParityError (t : CellTarget)
  | groupEtaWrite (p : Path) (sess g : Nat) (v : Int)
  | groupFrozenWrite (p : Path) (sess g v : Nat)
  | slotApply (p : Path) (sess slot : Nat)
  | slotBuildEnd (slot : Nat)
  | shardHalt (p : Path) (sess k : Nat)
  | shardResume (p : Path) (sess k : Nat)
  | shardExport (p : Path) (sess k : Nat)
  | shardImport (p : Path) (sess k : Nat)
  | learnCellWrite (p : Path) (sess : Nat) (rec : List Byte)
  | learnIrqClear (p : Path) (sess mask : Nat)
  -- temperatures
  | scanReading (r : Nat) (value : Int) (parityOk : Bool)
  | calibrationSlot (q : Nat) (value : Int)
  | confirmationRead (q : Nat) (value : Int) (parityOk : Bool)
  | restartTimerExpiry
  | diodeClear (p : Path) (sess mask : Nat)
  | diodeForceWrite (p : Path) (sess mask : Nat)
  | thermalIrqClear (p : Path) (sess mask : Nat)
  -- pickups
  | pickupClear (p : Path) (sess r mask : Nat)
  | pickupForceWrite (p : Path) (sess r mask : Nat)
  -- converters
  | conversionResult (n : Nat) (nv : Int) (parityOk : Bool) (storeOk : Bool := true)
  | slopeTestEnd (s : Nat)
  | fireStrobe (n : Nat)
  | fireWaitTimeout (n : Nat)
  | conversionTimeout (n : Nat)
  | syncArmSingle (p : Path) (sess : Nat)
  | syncArmSweeps (p : Path) (sess : Nat)
  | syncCancel (p : Path) (sess : Nat)
  | syncTrigger
  | convUrgent (p : Path) (sess n v : Nat)
  | urgentRequest (n : Nat)
  | convTableWrite (p : Path) (sess n : Nat) (t : TableObj) (data : List Byte)
  | boardAnalogConversion (i : BaInput) (res : Option (Int × Bool))
  | energyQuarter (vs : Int)
  -- string commands
  | scoreboardParityError (s : Nat) (islandCopy : Bool := false)
  | parityReturnTimer (s : Nat)
  | stringCmdMute (p : Path) (sess s : Nat)
  | stringCmdReturn (p : Path) (sess s : Nat)
  | stringCmdSetBlind (p : Path) (sess s : Nat)
  | stringCmdClearBlind (p : Path) (sess s : Nat)
  | serviceClear (p : Path) (sess mask : Nat)
  -- the dictionary
  | open_ (p : Path) (sess : Nat)
  | close (p : Path) (sess : Nat)
  | read (p : Path) (sess idx sub off : Nat)
  | write (p : Path) (sess idx sub flags off : Nat) (data : List Byte)
  | registerWrite (p : Path) (sess idx sub : Nat) (v : Int)
  | sessionExpiry (slot : Nat)
  | i3cPrivateRead
  | i3cFrameDiscard
  | entdaa (addr : Nat)
  | setdasa (static addr : Nat)
  | rstdaa
  | getpid
  | getbcr
  | getdcr
  | getstatus
  | enec (events : Nat)
  | disec (events : Nat)
  | inBandInterrupt (won : Bool)
  | mbxGo (m : Nat)
  | ringRecord
  | commit (p : Path) (sess mask : Nat)
  | commitDiscard (p : Path) (sess mask : Nat)
  | commitGroupTaken (g : Nat)
  | keeperChallenge (p : Path) (sess : Nat)
  | keeperResponse (p : Path) (sess : Nat) (resp : List Byte)
  | challengeLapse (slot : Nat)
  | keeperLockoutEnd
  | keeperDrop (p : Path) (sess : Nat)
  | sessionEvict (p : Path) (sess slot : Nat)
  -- DMA and the string table
  | dmaStart (p : Path) (sess ch : Nat)
  | dmaAbort (p : Path) (sess ch : Nat)
  | dmaKick (p : Path) (sess ch : Nat)
  | descriptorFetch (ch : Nat)
  | dmaBurst (ch : Nat) (holdOk : Bool := true)
  | memoryWriteResponse (id : Nat) (err : Bool)
  | memoryReadBeat (id : Nat) (data : List Byte) (parityOk last err : Bool)
  | descriptorComplete (ch : Nat)
  | ownPoll (ch : Nat)
  | paceTimeout (ch : Nat)
  | memoryTimeout (id : Nat)
  | dmaIrqClear (p : Path) (sess ch mask : Nat)
  | stEnable (p : Path) (sess : Nat)
  | stDisable (p : Path) (sess : Nat)
  | stSweepEnd
  | stEntryFetched (s : Nat)
  | stWritebackDue (s : Nat)
  | stFlush (p : Path) (sess : Nat)
  | stHostFieldsWrite (p : Path) (sess : Nat) (fields : List Byte)
  | stCacheParity (s : Nat)
  -- the recorder
  | recordFormed
  | trigSnapCountWrite (p : Path) (sess t v : Nat)
  | faultFreeze (p : Path) (sess : Nat)
  | faultUnfreeze (p : Path) (sess : Nat)
  | freezeExpired
  | faultClear (p : Path) (sess : Nat)
  | traceClear (p : Path) (sess : Nat)
  | recQueueMaxRead (p : Path) (sess : Nat)
  -- clocks, the register port and test
  | refclkLost
  | refclkRegained
  | clockCheck (faulty : List Nat) (hmemMhz : Nat)
  | registerPortAccess (wr : Bool) (addr wdata wpar : Nat)
  | trstNLow
  | testModeFall
  | bypass
  | idcode
  | samplePreload (pins shiftIn : Nat)
  | extest (testMode : Bool)
  | testctrl (bitsIn : Nat) (testMode : Bool)
  | twinReloadComplete (r : Nat) (t : TwinId)
  | hourWindow
  | fullSpeedStart
  | testLogicReset
deriving DecidableEq, Repr

end Sys2Proof
end

