-- ==== Sys2Proof/Config.lean ====
section
/-! DEFINITION. What an integration of the block fixes (R1, R5, R9, R461), and the values that the manual leaves open. -/

namespace Sys2Proof

/-- The integration configuration. `variant` is 0 for Farod-3F, 1 for Farod-3L and 2 for Farod-3M (R5); `nVcore` and
`nStr` are `vcore_regions` and `vcore_strings_per_region` (R9); `staticAddr` is `i3c_static_addr` (R442). -/
structure Config where
  variant : Nat
  nVcore : Nat
  nStr : Nat
  staticAddr : Nat
deriving DecidableEq, Repr

namespace Config

/-- The maximum configuration in Farod-3F, which R1 makes the manual's subject. The static address is set at
integration, in 0x08 to 0x77 (R461); 0x2A is this model's choice. DESIGN CHOICE (log 3). -/
def max : Config := { variant := 0, nVcore := 64, nStr := 16, staticAddr := 0x2A }

/-- R5: the learner is present in Farod-3F alone. -/
def hasLearner (c : Config) : Bool := c.variant == 0
/-- R5: so is the integrating energy converter. -/
def hasIin (c : Config) : Bool := c.variant == 0
/-- R5: Farod-3F and Farod-3L have the DMA engine. -/
def hasDma (c : Config) : Bool := c.variant < 2
/-- R5: and the trace log. -/
def hasTrace (c : Config) : Bool := c.variant < 2

/-- `units` under R4 and R5. -/
def units (c : Config) : Nat :=
  b2n c.hasLearner + 2 * b2n c.hasIin + 4 * b2n c.hasDma + 8 * b2n c.hasTrace

/-- The on-die noise source of R452: the eight challenge bytes of the `n`th read of `keeper_challenge`, as one number.
No body: nothing is known of its value (log 4). -/
opaque noise (n : Nat) : BitVec 64

/-- Values that the manual states no result for: the `n`th such value taken. No body (log 5). -/
opaque freeNat (n : Nat) : Nat

end Config
end Sys2Proof
end

