-- ==== Sys2Proof/Machine/State.lean ====
section
/-! DEFINITION. The state of the block as plain data: one structure for each chapter of the manual, each field with
its value after reset as its default. Objects of the dictionary that are plain numbers and that no mechanism needs in
another form are held in `State.regs`, the register file keyed by dictionary address (R426); the others are computed
from the fields here when they are read. Times are block time in nanoseconds (R546); edge instants at the pins are in
units of 250 ps. -/

namespace Sys2Proof.Machine

/-- A sparse register file: the value at a dictionary address, in rising order of address, with nothing listed that
equals the object's value after reset. -/
abbrev RegFile := List (Nat × Int)

/-! ## Block states, supplies and reset (13_startup.md) -/

/-- R398. -/
inductive BState where
  | off | reset | selftest | fuseload | discover | ramp | run | service | cooldown | shutdown | halted
deriving DecidableEq, Repr

/-- What the block as a whole holds beyond its dictionary counters. -/
structure Block where
  /-- R398. After reset the block is in RESET, entered by a power-on (log 1). -/
  st : BState := .reset
  /-- R399: block time of the last state change. -/
  since : Nat := 0
  /-- R396: RESET is not left before these block times: supplies good for 10 µs, and 1,000 cycles of REFCLK. -/
  holdUntil : Nat := 10000
  refUntil : Nat := 10000
  /-- R397, kept across RESET_N. -/
  resetCause : Nat := 0
  resetCount : Nat := 0
  /-- R396: block time at which RESET_N rose, for `startup_time`. -/
  riseAt : Nat := 0
  /-- R416, R423. -/
  shutCause : Nat := 0
  shutPending : Bool := false
  /-- R418: block time of the last loss of VIN_OK. -/
  vinLostAt : Nat := 0
  /-- R412: PWR_GOOD; R346: THERM_TRIP_N asserted; R536: IRQ_N[0] asserted; R349: halted by the trip limit. -/
  pwrGood : Bool := false
  tripN : Bool := false
  irqSafety : Bool := false
  haltLimit : Bool := false
  /-- R154: reasons to be set at the next latch, and parity errors in the present hour window. -/
  reasonDue : Nat := 0
  parityHour : Nat := 0
  /-- R406: the order and length of the ramps of the present RAMP, and how many rails of it are settled. -/
  rampOrder : List Nat := [0, 1, 2]
  rampTime : Nat := 500
  rampIdx : Nat := 0
  /-- R417: the ramp-downs still to be made, in order, once begun. -/
  downLeft : List Nat := []
  downBegun : Bool := false
  /-- R373: block time at which conversions at full speed begin, once ordered, and whether they have begun. -/
  fullAt : Option Nat := none
  fullSpeed : Bool := false
  /-- R406, R423: the fused default order. -/
  fusedOrder : Nat := 0x24
deriving DecidableEq, Repr

/-! ## Rails (01_fabric.md, 05_control_engine.md, 13_startup.md) -/

/-- R424. -/
inductive RailSt where
  | off | ramping | good | notStarted | failed | down
deriving DecidableEq, Repr

/-- One rail and its rail channel. Voltages of the engine are in fvu (R170), delivered ones in 0.15625 mV. -/
structure Rail where
  st : RailSt := .off
  /-- R407: rise of CRS_EN, and start of the ramp reference. -/
  enAt : Option Nat := none
  refAt : Option Nat := none
  /-- R410: rotation positions joined. -/
  joined : List Nat := []
  /-- R408: V0 in 0.15625 mV, and the present ramp reference in fvu. -/
  v0 : Nat := 0
  vRamp : Int := 0
  /-- R417: block time at which the ramp-down began. -/
  downAt : Option Nat := none
  /-- R180 to R182: base, bump, filtered current, target. -/
  base : Int := 0
  bump : Int := 0
  iF : Int := 0
  target : Int := 0
  /-- R276, R182: request handed over at the last cycle 0, in 1.25 mV, with its start. -/
  req : Option (Nat × Nat) := none
  /-- R181: settled at the last cycle 0, as computed and as delivered at cycle 410. -/
  settledCalc : Bool := false
  settled : Bool := false
  /-- R171: set-point computed, written at cycle 400. -/
  spCalc : Nat := 0
  spOut : Nat := 0
  /-- R209: the needed fret that the computed and the delivered target used. -/
  needCalc : Nat := 0
  needOut : Nat := 0
  /-- R220 to R222: recovery, g_trans in 1/1000 of 1.25 mV, end of the hold. -/
  recov : Nat := 0
  gTrans : Nat := 36000
  recHold : Option Nat := none
  /-- R232: sums of P_k over the millisecond, the step and the frame, in 10 mA × 0.15625 mV. -/
  pMs : Int := 0
  pStep : Int := 0
  pFrame : Int := 0
deriving DecidableEq, Repr

/-! ## The region island (02_string_loop.md, 03_transients.md) -/

/-- R57. -/
inductive VSrc where
  | own | borrowed | fixedRate
deriving DecidableEq, Repr

/-- R50 to R54: one pickup. `cause` is its code of R51, 7 in probation, 0 valid, as the supervisor judges it; `isl` is
the validity in force in the region island. -/
structure Pickup where
  cause : Nat := 0
  isl : Bool := true
  v : Nat := 0
  clean : Bool := false
  sum : Nat := 0
  cnt : Nat := 0
  lo : Nat := 255
  hi : Nat := 0
  par : Nat := 0
  lowRun : Nat := 0
  highRun : Nat := 0
  stuckRun : Nat := 0
  doubtRun : Nat := 0
  probRun : Nat := 0
  o : Int := 0
  g : Nat := 128
deriving DecidableEq, Repr

/-- R79: the members of G1, in 250 ps. -/
structure G1 where
  tsw : Nat := 200
  toff : Nat := 40
  tonMin : Nat := 8
  tonMax : Nat := 160
deriving DecidableEq, Repr

/-- R119: the members of G4, in their register units. -/
structure G4 where
  depth : Nat := 24
  slope : Nat := 12
  rel : Nat := 48
  ov : Nat := 96
deriving DecidableEq, Repr

/-- R69: the ripple contribution of one pulse: amplitude in 0.15625 mV, slope in 1/64, on-time base in 1/64 ns, window
in ns, pulse length in 250 ps, age in cycles. -/
structure Contrib where
  amp : Nat
  slope : Nat
  tb : Nat
  win : Nat
  tonQ : Nat
  age : Nat
deriving DecidableEq, Repr

/-- R83: one twin, with its own copy of G4, its vmin history (latest first) and its over-voltage count. -/
structure Twin where
  g : G4 := {}
  loading : Option Nat := none
  hist : List Nat := []
  ov : Nat := 0
deriving DecidableEq, Repr

/-- R90: a strum episode or a spread round. -/
structure Episode where
  own : Bool
  round : Nat
deriving DecidableEq, Repr

/-- R213, R229. -/
inductive FretStep where
  | idle | upWait | up | down
deriving DecidableEq, Repr

/-- The string-loop controller of a region. -/
structure Loop where
  src : VSrc := .own
  /-- R56: consecutive cycles without a clean sample of a valid pickup of its own. -/
  miss : Nat := 0
  vmin : Nat := 0
  hasV : Bool := false
  /-- R59: reference in force, where the interpolation started, its end and its cycle (0 to 500); the value last
  delivered, without the guard. -/
  vref : Int := 0
  refFrom : Int := 0
  refTo : Int := 0
  refK : Nat := 500
  refBase : Int := 0
  /-- R408, R409: the reference without the guard of R56 in the same interpolation, and where it started: v_ramp. -/
  rampV : Int := 0
  rampFrom : Int := 0
  /-- R60, R61. -/
  ptr : Nat := 0
  lastFire : Option Nat := none
  tonBase : Nat := 0
  /-- R57: instant of the next fixed-rate fire in 250 ps, and the remainder carried. -/
  fixAt : Option Nat := none
  fixRem : Nat := 0
  contribs : List Contrib := []
  ys : List Int := []
  /-- R72, R74: the band in force in the island. -/
  band : Nat := 0
  /-- R411: since when vmin has lain within the window. R131: since when it has lain below `rail_vmin` − 100 mV. -/
  pgSince : Option Nat := none
  lowSince : Option Nat := none
deriving DecidableEq, Repr

/-- The transient actions of a region island. -/
structure Strum where
  a : Twin := {}
  b : Twin := {}
  ep : Option Episode := none
  lockUntil : Option Nat := none
  release : Bool := false
  /-- R60. It is set in every state in which the region does not fire. -/
  halt : Bool := true
  /-- R85: a twin has triggered alone; cycles left for the other. -/
  disWait : Option (TwinId × Nat) := none
  /-- R85: the twin whose over-voltage count is waited for, and the cycles left; 0 is a disagreement not yet taken. -/
  ovWait : Option (TwinId × Nat) := none
  window : Nat := 0
  /-- R93: the block time of the own episode whose strobe is on its way to the neighbours; the strobes that have come
  for the next cycle, by the region that sent them. -/
  spreadAt : Option Nat := none
  strobes : List Nat := []
  /-- R90: the latest fall of a strum pulse, in 250 ps. -/
  lastFall : Nat := 0
  /-- R94: report on its way, with the block time of the decision. -/
  report : Option Nat := none
  /-- R97: over-voltage threshold fixed at the start of a ramp-down (R417). -/
  downRef : Option Int := none
deriving DecidableEq, Repr

/-- R109 to R111: armed starts in order, each with the hint it belongs to (none: a wake permit), and the running
pre-strum as its start and the pulses left. `ready` is the earliest block time at which a strum cancels the one
armed first (its preparation time has come). -/
structure Pre where
  starts : List (Nat × Option Nat) := []
  ready : List Nat := []
  run : Option (Nat × Nat) := none
deriving DecidableEq, Repr

/-- R112 to R116: one wake handshake. -/
structure Wake where
  req : Bool := false
  gnt : Bool := false
  /-- R115: pending since this block time, on top of `waited` from before (waiting does not advance outside RUN and
  SERVICE); none when no request waits for its grant. -/
  since : Option Nat := none
  waited : Nat := 0
  granted : Option Nat := none
  /-- R121: block time of the request; R115: the provisional start of the pre-strum of a timed-out grant. -/
  reqAt : Nat := 0
  prov : Option Nat := none
  lastRise : Option Nat := none
  lastGrant : Option Nat := none
  hold : Bool := false
deriving DecidableEq, Repr

/-- R212 to R216: the fret of a region and its handshake. -/
structure Fret where
  fret : Nat := 0
  step : FretStep := .idle
  val : Nat := 0
  req : Bool := false
  ack : Bool := false
  settled : Nat := 0
  reqAt : Nat := 0
  ackAt : Nat := 0
  late : Bool := false
  overtaken : Bool := false
deriving DecidableEq, Repr

/-- Reports of one control period from a region island (R164, R218). -/
structure Report where
  fires : Nat := 0
  pulses : Nat := 0
  strum : Bool := false
  spread : Bool := false
  pre : Bool := false
  fixed : Bool := false
  srcChange : Bool := false
  vSum : Nat := 0
  vCnt : Nat := 0
  dMin : Option Int := none
deriving DecidableEq, Repr

/-- What the supervisor holds for a region: the latch of R42 and the runs of its rules. Currents are in 10 mA,
capabilities in 125 mA, utilisation in UQ4.12. -/
structure Sup where
  iReg : Nat := 0
  cAct : Nat := 0
  cSt : Nat := 0
  need : Nat := 0
  util : Nat := 0xFFFF
  mMean : Int := 0
  /-- R39: C_lat in 125 mA as latched, none before the first latch. -/
  cLat : Option Nat := none
  /-- R138: disturbed periods, latest first; whether the present one is; and the strings of the region that changed
  state or started a test, each with its period. -/
  distHist : List Bool := []
  distNow : Bool := false
  marks : List (Nat × Nat) := []
  vMean : Nat := 0
  lastRep : Report := {}
  hold : Nat := 0
  assist : Nat := 0
  ceiling : Nat := 15
  regHold : Bool := false
  /-- R148: a string of the region ended its return ramp at the last latch. -/
  rampEnded : Bool := false
  /-- R67: last VIN used, in mV. -/
  vin : Nat := 6000
  /-- R232, R238, R245: sums of I_reg over the step and the frame, number of periods, lowest vmin and its stamp. -/
  iStep : Nat := 0
  nStep : Nat := 0
  iFrame : Nat := 0
  nFrame : Nat := 0
  minV : Option (Nat × Nat) := none
  notOwn : Bool := false
  /-- R245: the prediction e(r) of the step in 1/16 of 10 mA, and the fret it refers to. -/
  est : Nat := 0
  estFret : Nat := 15
  /-- R247: the measured mean of the step in 1/16 of 10 mA, and the fret it refers to. -/
  meas : Nat := 0
  measFret : Nat := 0
  /-- R224: activity of the last period over 16 × 255 (none: missing), and its sum over the step. -/
  act : Option Nat := none
  actSum : Nat := 0
  /-- R280: the frame that has arrived for the period that ended at the last tick. -/
  frame : Option (List Nat) := none
  /-- R280: a frame for that period has been rejected and counted. -/
  frameBad : Bool := false
  /-- R279: last tag; the tag of the period that ended at the last cycle 0, none where it is unusable. -/
  tag : Nat := 0xFF
  tagDue : Option Nat := none
  /-- R218, R292: the last periods, latest first: start, end, lowest vmin − vref, fixed-rate mode. -/
  dLog : List (Nat × Nat × Option Int × Bool) := []
  /-- R339: thermal capo limit L(r). -/
  limit : Nat := 15
  /-- R313: a fault of the shard's window in this millisecond, the one before and the one before that. -/
  faultNow : Bool := false
  faultPrev : Bool := false
  faultOld : Bool := false
  /-- R252: some period of the millisecond had a capo above 0. -/
  capoSeen : Bool := false
  /-- R171: reference and on-time base computed, and written at cycle 400. -/
  vrCalc : Int := 0
  vrOut : Int := 0
  vrPrev : Int := 0
  tbCalc : Nat := 0
  tbOut : Nat := 0
deriving DecidableEq, Repr

structure Region where
  pk : List Pickup := []
  loop : Loop := {}
  strum : Strum := {}
  pre : Pre := {}
  wake : Wake := {}
  fret : Fret := {}
  rep : Report := {}
  sup : Sup := {}
deriving DecidableEq, Repr

/-! ## Strings (04_string_faults.md) -/

/-- R123. -/
inductive StrSt where
  | active | shed | blind | hiccup | returning | muted
deriving DecidableEq, Repr

inductive PulseKind where
  | ordinary | pre | strum | spread
deriving DecidableEq, Repr

/-- A pulse, with its edges at the pin in 250 ps as issued. -/
structure Pulse where
  riseQ : Nat
  fallQ : Nat
  kind : PulseKind
deriving DecidableEq, Repr

/-- R137 to R139: a test in progress. `finding` is 0 for a low reading, 1 RANGE, 2 STUCK. `pairs` counts the slope
test's conversions, two a pair, `rise` is the sum of falling-edge less rising-edge readings in 10 mA, `dI` over `dL` the
ΔI of R137 in 10 mA, exact. `shift` is false for absorbed and not disturbed, true for any other outcome. -/
structure SenseTest where
  p0 : Nat
  finding : Nat
  foundAt : Nat
  pairs : Nat := 0
  rise : Int := 0
  dI : Int := 0
  dL : Nat := 1
  slope : Option Bool := none
  shift : Option Bool := none
deriving DecidableEq, Repr

structure Str where
  st : StrSt := .active
  cause : Nat := 0
  blind : Bool := false
  blindCause : Nat := 0
  /-- R151: first latch of the ramp (engine period count), present step; whether it began under R150. -/
  rampAt : Option Nat := none
  rampStep : Nat := 0
  rampCmd : Bool := false
  retPending : Bool := false
  /-- R126: the supervisor cycle of the last transition. -/
  movedAt : Option Nat := none
  openCtr : Nat := 0
  openLow : Nat := 0
  hicHist : List Nat := []
  /-- R127: time of the PARITY rebuild whose return is due, and of the last PARITY mute. -/
  parAt : Option Nat := none
  parLast : Option Nat := none
  /-- The region island's copy (R125) and the levels in force there. -/
  isl : StrSt := .active
  islRho : Nat := 8
  islBlind : Bool := false
  /-- R127: the island's copy has a parity error and is being fetched again. -/
  islBad : Bool := false
  trim : Int := 0
  /-- The pulse whose FIRE line is high, and the last one issued (R362). -/
  pulse : Option Pulse := none
  last : Option Pulse := none
  offQ : Option Nat := none
  /-- R172: integrator in Q1.31, which clamp it met last, trim computed and written at cycle 400 in Q1.15. -/
  shI : Int := 0
  shMet : Int := 0
  trimCalc : Int := 0
  trimOut : Int := 0
  /-- R134, R364: FIRE-mode conversions in 10 mA. -/
  conv : Int := 0
  convN : Nat := 0
  sum : Int := 0
  cnt : Nat := 0
  mean : Int := 0
  hist : List Int := []
  /-- R134: m(r) at the last latch, none where the region has no other ACTIVE string; and over the last latches. -/
  mr : Option Int := none
  mrHist : List Int := []
  activeRun : Nat := 0
  rangeRun : Nat := 0
  stuckRun : Nat := 0
  lastCode : Option Nat := none
  satRun : Nat := 0
  /-- A RANGE (1) or STUCK (2) finding not yet acted on at a latch. -/
  finding : Nat := 0
  test : Option SenseTest := none
  /-- R484: the refinement as installed, and as conversions use it since the last cycle 0 (R487): on, gain, offset; the
  trim seed, and whether the seed is due. -/
  refine : Bool := false
  gain : Int := 0
  offset : Int := 0
  useRefine : Bool := false
  useGain : Int := 0
  useOffset : Int := 0
  seedOn : Bool := false
  seed : Int := 0
  seedDue : Bool := false
  installed : Bool := false
  refused : Bool := false
deriving DecidableEq, Repr

/-! ## Courses (04, 13, 16) -/

/-- R456: what the block sends on a segment, with the byte that it writes where it writes one. -/
inductive PmbusTxn where
  | page (n : Nat) | operation (v : Nat) | clearFaults | statusWord | statusIout | mfrId | mfrModel | mfrRevision
  | recordSelect (i : Nat) | recordData | recordAck
deriving DecidableEq, Repr

/-- R132: the follow-up of a course. -/
inductive Follow where
  | idle | waiting | running (again : Bool)
deriving DecidableEq, Repr

structure Course where
  present : Bool := false
  /-- R403: outcome of the last discovery, whether the present one has ended, and ABSENT until reset. -/
  outcome : Nat := 0
  done : Bool := false
  absent : Bool := false
  /-- R455: a failed transaction that waits for its retry: how it failed, how often, and when. -/
  fail : Option (PmbResult × Nat × Nat) := none
  ident : List Byte := []
  en : Bool := false
  damp : Bool := false
  flt : Bool := false
  fltAt : Nat := 0
  /-- R130, R131. -/
  sup : Bool := false
  lost : Bool := false
  frame : Nat := 0
  ref : Option Nat := none
  okAt : Nat := 0
  rejRun : Nat := 0
  okRun : Nat := 0
  prevNew : Option Bool := none
  backstop : Bool := false
  follow : Follow := .idle
  status : Nat := 0
  record : List Byte := []
  recState : Nat := 0
  /-- R404: the copy after DISCOVER is still to be made. -/
  copyDue : Bool := false
  /-- R132: STATUS_IOUT as the last follow-up read it: page and byte. -/
  iout : List (Nat × Nat) := []
  /-- R375: the latest TMON result word of the course as it stood at the last copy of its record (log 96). -/
  recTmon : Nat := 0
  /-- R402, R404, R456, R497: the transactions of the last work on the course, with the address that each went to. -/
  sent : List (Nat × PmbusTxn) := []
deriving DecidableEq, Repr

/-! ## The control engine (05_control_engine.md) -/

/-- One control-engine channel: two banks of 24 coefficients as value and shift, and the state of its loop. -/
structure Chan where
  bankA : List (Int × Nat) := []
  bankB : List (Int × Nat) := []
  actB : Bool := false
  req : Bool := false
  sampled : Bool := false
  copying : Bool := false
  stalled : List (Nat × Int) := []
  flags : Nat := 0
  live : Nat := 0
  /-- R198: outputs of the period before are delivered for one period. -/
  hold : Bool := false
  kff : Int := 1073741824
  kMet : Int := 0
  nPrev : Nat := 0
  c : Int := 0
  cMet : Int := 0
  off : Int := 0
  /-- R165: Kff, c and the offset as written at the last cycle 400. -/
  kffOut : Int := 1073741824
  cOut : Int := 0
  offOut : Int := 0
  dev : Int := 0
  bad : Nat := 0
  good : Nat := 0
  doubt : Bool := false
  doubtCalc : Option Bool := none
deriving DecidableEq, Repr

/-- R186: the members of G6. -/
structure G6 where
  mode : Nat := 0
  gain : Nat := 256
  offset : Int := 0
deriving DecidableEq, Repr

/-- The engine as a whole: where in its period it stands, and the trim input (R186 to R190; `val` in µV). -/
structure Engine where
  /-- True between a cycle 498 and the end of the bank copy, when shadow writes stall (R197). -/
  stall : Bool := false
  /-- Control periods computed (R163), and the block time of the last cycle 0. -/
  period : Nat := 0
  zeroAt : Nat := 0
  /-- R165: a computed period waits for its cycle 400; a written one for its arrival. -/
  computed : Bool := false
  written : Bool := false
  val : Int := 0
  raw : Int := 0
  usable : Bool := false
  pwmTicks : Nat := 0
  pwmAt : Nat := 0
  lost : Bool := false
  lostAt : Nat := 0
  decay : Bool := false
  baBad : Nat := 0
  /-- R280: ticks since the engine last began to run. R533: block time at which ACT_TICK last rose. -/
  ticks : Nat := 0
  tickAt : Nat := 0
deriving DecidableEq, Repr

/-! ## Commit groups as their consumers hold them (R390) -/

/-- R336, with the units of R352. -/
structure G2 where
  warn : Int := 760
  warnH : Int := 40
  thr : Int := 840
  thrH : Int := 40
  restart : Int := 680
deriving DecidableEq, Repr

structure G3 where
  cap : Nat := 3000
  step : Nat := 20
deriving DecidableEq, Repr

structure G5 where
  level : Nat := 30
  min : Nat := 4
  rejoin : Nat := 60
deriving DecidableEq, Repr

structure G7 where
  mode : Nat := 0
  grain : Nat := 1
deriving DecidableEq, Repr

/-- The sets that the consumers use: G1 and G4 as latched by the engine and as applied in the region islands, G2 as
the temperatures and as the throttle use it. -/
structure InUse where
  g1e : G1 := {}
  g1 : G1 := {}
  g2 : G2 := {}
  g2t : G2 := {}
  g3 : G3 := {}
  g4e : G4 := {}
  g4 : G4 := {}
  g5 : G5 := {}
  g6 : G6 := {}
  g7 : G7 := {}
deriving DecidableEq, Repr

/-! ## Power, the cap and telemetry (07_power_cap.md) -/

structure Cap where
  /-- P_lim of the last step and whether it changed there, in mW. -/
  pLim : Nat := 0
  pLimChanged : Bool := false
  /-- I_term in mW × 2⁻¹⁵, and the clamp it met last. -/
  iTerm : Int := 0
  iMet : Int := 0
  /-- The allocation a(r), f_max(r) and the capos computed and not yet delivered. -/
  alloc : List Nat := []
  fmax : List Nat := []
  next : Option (List Nat) := none
  dither : Option Nat := none
  sigma : Int := 0
  upper : List Bool := []
  floor : Bool := false
  disagree : Bool := false
  /-- R292: the shards that were in DISAGREE at its last clearing, and when that was. -/
  disLast : Nat × Nat := (0, 0)
  disFail : Nat := 0
  disPass : Nat := 0
  sense : Bool := false
  senseStep : Bool := false
  senseMs : Bool := false
  /-- R254: a sense has been at fault at some instant of the present period. -/
  senseNow : Bool := false
  /-- R240: CAP_FLOOR has been set at some instant of the present millisecond. -/
  floorSeen : Bool := false
  /-- R235: delivered and input energy of the last milliseconds, and how many since the entry into RUN. -/
  effHist : List (Int × Int) := []
  /-- R223: matched operation in use, and suspended in this millisecond. -/
  matched : Bool := false
  susp : Bool := false
  /-- R255, R224: sums over the step and the millisecond of P_est and of the nominal power. -/
  estStep : Int := 0
  estMs : Int := 0
  nomStep : Int := 0
  nomMs : Int := 0
  estShard : List Int := []
  measShard : List Int := []
  /-- Periods of the step and of the millisecond, and whether a step has begun since the entry into RUN. -/
  nStep : Nat := 0
  nMs : Nat := 0
  stepSeen : Bool := false
  /-- R237: remainders below 1 µJ, in nJ; R377: input energy of the millisecond in fJ, charge in pC, over-range. -/
  remDel : Nat := 0
  remIn : Nat := 0
  inFj : Int := 0
  inPc : Int := 0
  chargeRem : Int := 0
  pcRem : Int := 0
  overRange : Bool := false
  inMw : Nat := 0
deriving DecidableEq, Repr

/-- R238 to R241. A frame is its 672 bytes. -/
structure Telem where
  seq : Nat := 0
  ms : Nat := 0
  flags : Nat := 0
  inBad : Bool := false
  inSum : Nat := 0
  estSum : Int := 0
  done : Option (List Byte) := none
  latest : List Byte := []
  offered : Option (List Byte) := none
  begun : Bool := false
  waiting : Option (List Byte) := none
  lastSeq : Nat := 0
deriving DecidableEq, Repr

/-! ## Frets and margin recovery (06_frets.md) -/

/-- The tuning part as loaded and made consistent at FUSELOAD (R205 to R207), in 1.25 mV. -/
structure Tuning where
  chip : List Nat := List.replicate 16 0
  matched : List Nat := List.replicate 16 0
  mem : List Nat := [0, 0, 0, 0]
  gAge : Nat := 0
  floor : Nat := 16
  source : Nat := 0
  adjusted : Nat := 0
  exceed : Nat := 0
  grade : Nat := 0
  model : List Nat := []
deriving DecidableEq, Repr

/-- R218, R219: one class on one rail: rec in 1.25 mV, the undershoots (0.15625 mV) of the steps that covered the
rail, latest first, and the largest of the step in progress. -/
structure Rcv where
  rv : Nat := 0
  hist : List Nat := []
  now : Option Nat := none
deriving DecidableEq, Repr

/-! ## The hint scoreboard (08_learner.md) -/

/-- R268. `prepped`, `bumpOff` and `observed` record that the preparation time, the end of the bump hold and the droop
observation have been taken. -/
structure HintEntry where
  id : Nat
  cls : Nat
  start : Nat
  stop : Nat
  inten : Nat
  mask : Nat
  tag : Nat
  late : Bool
  mixed : Bool := false
  merges : Nat := 0
  prepped : Bool := false
  bumpOff : Bool := false
  observed : Bool := false
  /-- R278: regions that merges have added since the last cycle 0, as masks with the block time of the merge. -/
  joined : List (Nat × Nat) := []
deriving DecidableEq, Repr

structure Hints where
  entries : List HintEntry := []
  /-- R292: retired entries whose droop observation is still to come. -/
  gone : List HintEntry := []
  /-- R278: entries retired or discarded since the last cycle 0. -/
  past : List HintEntry := []
  /-- R276: retired entries whose request for a pre-bump still stands. -/
  asking : List HintEntry := []
  nextId : Nat := 1
  full : Bool := false
  last : Nat := 0
  lastAt : Option Nat := none
  max : Nat := 0
  /-- The static class table (R267): currents of class c and region r at 76c + r, droops at 3c + rail, leads at c. -/
  cur : List Nat := []
  droop : List Nat := []
  lead : List Nat := []
  /-- R273: the table is being reloaded. -/
  reload : Bool := false
deriving DecidableEq, Repr

/-! ## The learner (08_learner.md, 09_learner_update.md) -/

/-- R282, R288, R306: one cell. Weights 0 to 15 and, in `m` and `v`, the bias as entry 16. -/
structure Cell where
  w : List Int := List.replicate 16 0
  e : Int := -4
  b : Int := 0
  xbar : List Nat := List.replicate 16 0
  master : List Int := List.replicate 16 0
  m : List Int := List.replicate 17 0
  v : List Nat := List.replicate 17 0
  a : Nat := 0
  n : Nat := 0
  conf : Bool := false
  falls : Nat := 0
  resetW : Bool := false
  resetB : Bool := false
deriving DecidableEq, Repr

/-- R298: accumulators of one cell; `sat` the ones that have saturated in the step. -/
structure Acc where
  g : List Int := List.replicate 17 0
  sat : List Nat := []
deriving DecidableEq, Repr

/-- R306: a rule slot's set. -/
structure SlotSet where
  a1 : Int := 0
  a2 : Int := 0
  b1 : Int := 0
  b2 : Int := 0
  c1 : Int := 0
  c2 : Int := 0
  c3 : Int := 0
  flags : Nat := 0
deriving DecidableEq, Repr

/-- R310: the set in service, one built and waiting for a step start, one being built with the end of its build. -/
structure Slot where
  serve : SlotSet := {}
  ready : Option SlotSet := none
  build : Option (SlotSet × Nat) := none
deriving DecidableEq, Repr

/-- R302: group settings latched at the step start. -/
structure GroupLatch where
  eta : Int := 256
  decay : Int := 0
  slot : Nat := 8
  frozen : Bool := false
deriving DecidableEq, Repr

/-- R312 to R316: one shard. -/
structure Shard where
  counter : Nat := 0
  running : Bool := false
  doneAt : Nat := 0
  shadow : List (Nat × Cell) := []
  outcome : Nat := 0
  params : Nat := 0
  /-- R300: block time of the step start; R324: updates of the pass by group; R306: the parameters of the pass, counted
  from 0, at which something saturated, one entry for each saturation. -/
  startAt : Nat := 0
  upd : List (Nat × Nat) := []
  sats : List Nat := []
  /-- R315: the step in progress still waits for this shard. -/
  stepOpen : Bool := false
  /-- R318: 0 none, 1 export, 2 import; stream position and, for an import, the bytes taken of the record. -/
  xfer : Nat := 0
  pos : Nat := 0
  buf : List Byte := []
  refusedAll : Bool := false
  /-- R319: global step count at the start of the export. -/
  xferSteps : Nat := 0
  /-- R316: the parameters that the pass stopped last had processed. -/
  stopped : Nat := 0
deriving DecidableEq, Repr

structure Learner where
  cells : List (Nat × Cell) := []
  acc : List (Nat × Acc) := []
  accOld : List (Nat × Acc) := []
  fwd : List (Nat × Nat) := []
  /-- R292: learned droop in 1/8 of 1.25 mV and its count, at 3c + rail. -/
  droop : List (Nat × (Nat × Nat)) := []
  latch : List GroupLatch := List.replicate 64 {}
  slots : List Slot := []
  shards : List Shard := List.replicate 8 {}
  rcv : List (Nat × Rcv) := []
  /-- R297: the present millisecond began in RUN or SERVICE; the one before did, and its step is still to come. -/
  msRun : Bool := false
  stepPending : Bool := false
  /-- R230, R297: the control period in progress, and the one whose live predictions are due, belong to a millisecond that
  has a step. -/
  perRun : Bool := false
  dueRun : Bool := false
  lastXfer : Nat := 0
deriving DecidableEq, Repr

/-! ## Temperatures (10_thermal.md) -/

structure Diode where
  reading : Int := 0
  has : Bool := false
  parity : Bool := false
  cause : Nat := 0
  prob : Nat := 0
  good : Option (Int × Nat) := none
  /-- R344: the latest reading has made the diode trip-valid (log 19). -/
  tripOk : Bool := false
  temp : Int := 0
  hasTemp : Bool := false
  band : Nat := 0
  tband : Nat := 3
  warn : Bool := false
  trim : Int := 0
deriving DecidableEq, Repr

/-- R330, R343: one front end: consecutive failed calibrations, fused reference, confirmation in progress (diode and
the results so far), those waiting, and the end of the last calibration slot that it leaves out. -/
structure Front where
  failed : Bool := false
  calBad : Nat := 0
  ref : Int := 0
  conf : Option (Nat × List Bool) := none
  queue : List Nat := []
  skip : Nat := 0
deriving DecidableEq, Repr

structure Thermal where
  diodes : List Diode := List.replicate 76 {}
  fronts : List Front := List.replicate 4 {}
  n : Nat := 0
  /-- R340: block time of the last update at which some region was not below the recovery line. -/
  notCool : Nat := 0
  /-- R348: since when the restart condition has held. -/
  coolAt : Option Nat := none
  trips : List Nat := []
  shutdown : Int := 944
deriving DecidableEq, Repr

/-! ## Converters (11_converters.md) -/

/-- R369: an urgent request. `owner` is none for the host, the string for a supervisor request of the slope test
(`slope` true) or of the doubt check. -/
structure Urgent where
  input : Nat
  ts : Nat
  gain : Nat
  mode : Nat
  owner : Option Nat := none
  slope : Bool := false
deriving DecidableEq, Repr

/-- Where a conversion stands: waiting to hold since a block time, or held, in 250 ps. -/
structure Conv where
  failed : Bool := false
  /-- Tables in use and staged, each 16 words with a length (R357, R359). -/
  a : List Nat := []
  aLen : Nat := 16
  b : List Nat := []
  bLen : Nat := 4
  sa : List Nat := []
  saLen : Nat := 16
  sb : List Nat := []
  sbLen : Nat := 4
  idx : Nat := 0
  inB : Bool := false
  sinceB : Nat := 0
  armedAt : Nat := 0
  held : Option Nat := none
  timed : Bool := false
  /-- R363: the string of the entry was not in rotation when the entry armed, or has left it since. -/
  unarmed : Bool := false
  resampled : Bool := false
  /-- R371: this sweep of a capture has been interrupted here. R373: table A follows the table B conversion in progress. -/
  late : Bool := false
  toA : Bool := false
  urgent : Option Urgent := none
  queue : List Urgent := []
  coming : List Urgent := []
  sync : Bool := false
  resA : List Nat := List.replicate 16 0
  resB : List Nat := List.replicate 16 0
  urgRes : Nat := 0
  /-- R374: the check reference read outside its tolerance in the last table B sweep, and in the present one. -/
  refBad : Bool := false
  refOff : Bool := false
  /-- Latest result words of the two TMON inputs (R375). -/
  tmon : List Nat := [0, 0]
  parBad : Nat := 0
  refFused : Nat := 0
  trimOff : Int := 0
  trimGain : Int := 0
  /-- R67: last VIN-tap conversion, in mV. -/
  vinTap : Option Nat := none
deriving DecidableEq, Repr

/-- R365 to R367 and R376. -/
structure ConvGlobal where
  arm : Nat := 0
  left : Nat := 0
  running : Bool := false
  /-- Block time of the trigger of the sweep in progress. R365: trigger instants of `sync_string`, in 250 ps. -/
  trigAt : Nat := 0
  trigs : List Nat := []
  /-- Supervisor requests refused, retried at the next latch (R372). -/
  retry : List (Nat × Urgent) := []
  capture : List Nat := []
  words : List Nat := []
  unread : Bool := false
  /-- R476: channel 4 holds the completed sweep, or (`live`) the one still in progress. -/
  reading : Bool := false
  live : Bool := false
  doneGroups : List Nat := []
  /-- Board-analog: conversions of the period, last three codes, failed, bad references; VIN_SNS of the period. -/
  vinSum : Nat := 0
  vinCnt : Nat := 0
  vinSns : Nat := 0
  vinLast : Nat := 0
  trimCode : Nat := 0
  refCode : Nat := 0
  baFailed : Bool := false
  baBad : Nat := 0
  baRef : Nat := 0
  /-- R376: fused trims of the board-analog converter, and its conversions in a row with a parity error. -/
  baOff : Int := 0
  baGain : Int := 0
  baPar : Nat := 0
deriving DecidableEq, Repr

/-! ## The dictionary (14_dictionary.md) -/

/-- R434, R440, R441, R452: one session slot. -/
structure Session where
  gen : Nat := 0
  isOpen : Bool := false
  keeper : Bool := false
  last : Nat := 0
  chal : Option (List Byte × Nat) := none
  snap : Option (Nat × List Byte) := none
  wbuf : Option (Nat × List Byte) := none
deriving DecidableEq, Repr

/-- R445: one mailbox. -/
structure Mailbox where
  req : List Byte := List.replicate 128 0
  /-- The response buffer, and the length of the response in it. -/
  rsp : List Byte := List.replicate 128 0
  rspLen : Nat := 0
  busy : Bool := false
  done : Bool := false
deriving DecidableEq, Repr

/-- R442 to R444: the target. `out` is what the last private read or CCC returned, none for a NACK. -/
structure I3c where
  dyn : Nat := 0
  enint : Bool := false
  resp : Option (List Byte) := none
  out : Option (List Byte) := none
  ibi : Bool := false
  lines : Nat := 0
  payload : Nat := 0
  maker : Nat := 0
  inst : Nat := 0
deriving DecidableEq, Repr

structure Dict where
  sessions : List Session := List.replicate 11 {}
  mbx : List Mailbox := List.replicate 2 {}
  i3c : I3c := {}
  /-- R449: staged values by address of the member, and the groups pending. -/
  staged : RegFile := []
  pending : Nat := 0
  /-- R391: block time of the last commit of each group; for G7, none once it has been taken. -/
  commitAt : List (Option Nat) := List.replicate 8 none
  failures : Nat := 0
  lockUntil : Option Nat := none
  key : List Byte := []
  noiseK : Nat := 0
  /-- R438: the last response of any path: status and data. -/
  status : Nat := 0
  data : List Byte := []
  /-- R447: bytes 58 and 59 of the last ring record. -/
  ring : Nat × Nat := (0, 0)
deriving DecidableEq, Repr

/-! ## The DMA engine and the string table (15_dma.md) -/

/-- R493. -/
inductive DmaSt where
  | idle | fetching | transferring | waitReq | waitOwn | completing | halted | aborting
deriving DecidableEq, Repr

/-- What a transaction on the memory port is for: a descriptor, data in or out, the status bytes of a ring record,
the status word, word 0 with OWN cleared, a string-table entry in or out. -/
inductive TxKind where
  | desc | dataRd | dataWr | ringWr | status | own | stRd (i : Nat) | stWr (i : Nat)
deriving DecidableEq, Repr

/-- R531: a transaction: its ID, channel, byte address and length, the bytes written or read so far, the beats read so
far, when it was issued. `answered` is set once its whole response has come; its ID is then free. -/
structure Txn where
  id : Nat := 0
  ch : Nat
  kind : TxKind
  addr : Nat
  len : Nat
  data : List Byte := []
  beats : Nat := 0
  issuedAt : Nat := 0
  err : Bool := false
  parity : Bool := false
  answered : Bool := false
deriving DecidableEq, Repr

structure DmaCh where
  st : DmaSt := .idle
  /-- Status word last written or withheld (R472), and the code that the descriptor in execution is to end with. -/
  status : Nat := 0
  code : Nat := 0
  cur : Nat := 0
  words : List Nat := []
  /-- The words have come and have not been checked yet. -/
  fresh : Bool := false
  /-- Of the descriptor in execution: source bytes asked for, source bytes moved on to the destination, destination
  bytes confirmed in order, source bytes confirmed, source bytes left of the burst in progress. -/
  rd : Nat := 0
  pos : Nat := 0
  wconf : Nat := 0
  conf : Nat := 0
  burst : Nat := 0
  /-- R465: the holding register. -/
  hold : List Byte := []
  /-- The destination has ended before the descriptor (R481). -/
  early : Bool := false
  /-- R479: an ABORT that came during a completion. -/
  abort : Bool := false
  run : Nat := 0
  /-- R475: events by source. -/
  reqs : List Nat := [0, 0, 0, 0, 0]
  /-- Start of the present wait for a request or for OWN. -/
  waitAt : Nat := 0
  irq : Nat := 0
deriving DecidableEq, Repr

/-- R485: a cached entry with its 64 bytes; dirty since. -/
structure CacheEnt where
  s : Nat
  bytes : List Byte
  dirty : Option Nat := none
deriving DecidableEq, Repr

/-- R494: a read of `st_entry` or `st_host_fields` that waits for its entry: its path, session byte, sub-index, offset
and string. -/
structure WaitRead where
  path : Path
  sess : Nat
  sub : Nat
  off : Nat
  s : Nat
deriving DecidableEq, Repr

structure StrTab where
  /-- R494: 0 off, 1 sweeping, 2 on, 3 flushing, 4 fault. -/
  st : Nat := 0
  /-- R486: a sweep is under way, and the strings it has still to take, in order. -/
  sweeping : Bool := false
  sweep : List Nat := []
  /-- R485: the entry used last comes first. -/
  cache : List CacheEnt := []
  /-- R488: updates waiting, each a string and which field (0 mute, 1 hiccup, 2 blind, 3 record, 4 cause alone) with its
  value. -/
  queue : List (Nat × Nat × Nat) := []
  /-- R490: host writes that wait for their entry. -/
  hostWr : List (Nat × List Byte) := []
  reads : List WaitRead := []
  /-- R489: strings still to be refreshed. -/
  flush : List Nat := []
deriving DecidableEq, Repr

structure Dma where
  ch : List DmaCh := List.replicate 8 {}
  txns : List Txn := []
  /-- R462: transactions that wait for a place, in order. -/
  waiting : List Txn := []
  /-- Channel served last of each priority (R464), and the channel whose burst was the last to take the port. -/
  lastHi : Nat := 3
  lastLo : Nat := 7
  owner : Option Nat := none
  tab : StrTab := {}
deriving DecidableEq, Repr

/-! ## The event recorder (16_event_recorder.md) -/

/-- R499: a source as kind and index. -/
structure Source where
  kind : Nat := 0
  idx : Nat := 0
deriving DecidableEq, Repr

/-- R500: a trigger in the queue. `words` are snapshot words that do not come from the snapshot list (LOG_CLEARED and
course records), `part` the part of a course record with its log (1 fault and trace, 0 trace only). -/
structure Trig where
  ty : Nat
  detail : Nat
  src : Source := {}
  words : Option (List Nat) := none
  part : Option Nat := none
  route : Nat := 3
  /-- The supervisor cycle in which it fired. -/
  cyc : Nat := 0
deriving DecidableEq, Repr

/-- R499: a record. -/
structure LogRec where
  seq : Nat
  trigger : Nat
  flags : Nat
  words : List Nat
  source : Nat
deriving DecidableEq, Repr

structure Recorder where
  queue : List Trig := []
  queueMax : Nat := 0
  fault : List LogRec := []
  first : Nat := 0
  nextF : Nat := 0
  latest : Option LogRec := none
  hold : List LogRec := []
  holdOver : Nat := 0
  overflow : Nat := 0
  freeze : Option Nat := none
  /-- The trace log by position (R511), in rising order of position, and the next sequence number. -/
  trace : List (Nat × LogRec) := []
  nextT : Nat := 0
  lost : Nat := 0
  badCrc : Nat := 0
  /-- R502: the snapshot lists in use. -/
  snaps : List (List Nat) := []
deriving DecidableEq, Repr

/-! ## Clocks and test (17_ports.md) -/

/-- R541. -/
inductive TapInstr where
  | bypass | idcode | sample | extest | testctrl
deriving DecidableEq, Repr

structure Clocks where
  refLost : Bool := false
  /-- R527: HMEM_CLK as measured. -/
  hmem : Nat := 0
  bad : List Nat := []
  tap : TapInstr := .idcode
  ctrl : Nat := 0
  testMode : Bool := false
  /-- The data register selected, as it is shifted (R541), and the values that boundary cells drive in EXTEST (R542). -/
  shift : Nat := 0x30F3D157
  bound : Nat := 0
  /-- R529: the last access completed: read data and HREG_ERR. -/
  hregData : Nat := 0
  hregErr : Bool := false
deriving DecidableEq, Repr

/-! ## The whole state -/

structure State where
  cfg : Config
  /-- Block time (R546). -/
  now : Nat := 0
  blk : Block := {}
  rails : List Rail := []
  regions : List Region := []
  strings : List Str := []
  courses : List Course := []
  chans : List Chan := []
  eng : Engine := {}
  used : InUse := {}
  cap : Cap := {}
  telem : Telem := {}
  tune : Tuning := {}
  hints : Hints := {}
  learn : Learner := {}
  therm : Thermal := {}
  convs : List Conv := []
  cg : ConvGlobal := {}
  dict : Dict := {}
  dma : Dma := {}
  recd : Recorder := {}
  clk : Clocks := {}
  regs : RegFile := []
  /-- Free values taken so far (model's own, log 5). -/
  freeK : Nat := 0
  /-- The commands that wait, first in, first out. -/
  pending : List Instr := []
deriving DecidableEq, Repr

/-! ## Reset -/

/-- R179: the default coefficients of a region channel. -/
def regionBank : List (Int × Nat) :=
  [(107374, 0), (21475, 0), (0, 0), (168, 0), (1073741824, 0), (102, 0), (1, 10), (838861, 0), (0, 0)]
    ++ List.replicate 15 (0, 0)

/-- R185: of a rail channel. -/
def railBank : List (Int × Nat) := [(1, 3), (32768, 15)] ++ List.replicate 22 (0, 0)

/-- R357: an entry word from its input and sampling time at gain ×1. -/
def entryWord (input ts : Nat) : Nat := ts * 128 + input

/-- R358. -/
def defaultA : List Nat :=
  [0, 2, 4, 6, 8, 10, 12, 14, 1, 3, 5, 7, 9, 11, 13, 15].map (entryWord · 4)

def defaultB : List Nat :=
  [entryWord 16 32, entryWord 17 32, entryWord 18 16, entryWord 19 16] ++ List.replicate 12 (entryWord 0 4)

/-- R325: slot 0's default set; the other native slots hold zeros. -/
def slotZero : SlotSet :=
  { a1 := 28672, a2 := 4096, b1 := 32512, b2 := 256, c3 := 16384, flags := 3 }

/-- R309, R325: the fixed coefficients that the legacy slots read. -/
def slotLegacy : SlotSet := { a1 := 28672, a2 := 4096 }

/-- R504: the default snapshot lists, an entry being index, sub, rel and word (R501). The list of types 8 and 12 is
the one for a region source; R504 gives a second for a course source (see `snapList`). -/
def defaultSnaps : List (List Nat) :=
  (List.range 64).map fun t =>
    if t = 1 then [0x11000700]
    else if t = 8 ∨ t = 12 then [0x21001480, 0x21001380, 0x21000880]
    else if t = 9 then [0x58001700, 0x58001300, 0x58001400, 0x58001401]
    else if t = 13 ∨ t = 14 then [0x30000480, 0x30000880, 0x30000980]
    else if t = 30 ∨ t = 31 then [0x50000300, 0x50000B00, 0x51000800]
    else []

/-- Every unit of the block at its reset values, in a configuration. -/
def State.initial (cfg : Config) : State :=
  { cfg
    rails := List.replicate 3 {}
    regions := (List.range 76).map fun r =>
      { pk := List.replicate (if r < 64 then 9 else 4) {} }
    strings := List.replicate 1120 {}
    courses := List.replicate 140 {}
    chans := List.replicate 76 { bankA := regionBank, bankB := regionBank }
      ++ List.replicate 3 { bankA := railBank, bankB := railBank }
    convs := List.replicate 70 { a := defaultA, b := defaultB, sa := defaultA, sb := defaultB }
    learn := { slots := { serve := slotZero } :: List.replicate 7 {} ++
      [{}, { serve := slotLegacy }, { serve := slotLegacy }] }
    recd := { snaps := defaultSnaps } }

/-- The machine right after reset: the maximum configuration of Farod-3F in RESET, entered by a power-on, block time 0,
no command waiting. -/
def State.reset : State := State.initial Config.max

/-! ## How a step can stop -/

/-- Why a step stops with a fault: there is no such reason. The block has no state in which it stops (R398), every
command has an effect, and an event that the manual's rules rule out changes nothing. -/
inductive Fault where
deriving DecidableEq, Repr

/-- Why a step is refused. -/
inductive Refusal where
  /-- Raised by an arm of `exec` whose command has no meaning yet. Safe. -/
  | notModelled (mnemonic : String)
deriving DecidableEq, Repr

/-- What a meaning answers. -/
abbrev Out := Host.Outcome State Fault Refusal

end Sys2Proof.Machine
end

