-- ==== Sys2Proof/Machine/Regs.lean ====
section
/-! DEFINITION. The register file: dictionary addresses, a register as its address and its value after reset, and the
operations that read and write one (R426 to R429). -/

namespace Sys2Proof.Machine

/-- R426: index and sub-index as one number, `index * 256 + sub`. -/
def addrOf (index sub : Nat) : Nat := index * 256 + sub

/-- A plain numeric object: its dictionary address and its value after reset. -/
structure Reg where
  addr : Nat
  dflt : Int
deriving DecidableEq, Repr

/-- The value listed at an address. -/
def rfGet : RegFile → Nat → Option Int
  | [], _ => none
  | (k, v) :: m, a => if a = k then some v else rfGet m a

/-- Lists a value at an address, in rising order of address. -/
def rfPut : RegFile → Nat → Int → RegFile
  | [], a, x => [(a, x)]
  | (k, v) :: m, a, x =>
    if a < k then (a, x) :: (k, v) :: m
    else if a = k then (a, x) :: m
    else (k, v) :: rfPut m a x

/-- Lists nothing at an address. -/
def rfDel : RegFile → Nat → RegFile
  | [], _ => []
  | (k, v) :: m, a => if a = k then m else (k, v) :: rfDel m a

/-- Addresses rise strictly. -/
def rfWf : RegFile → Bool
  | [] => true
  | [_] => true
  | (k, _) :: (k', v') :: m => decide (k < k') && rfWf ((k', v') :: m)

/-- The value of a register. -/
def State.get (s : State) (g : Reg) : Int := (rfGet s.regs g.addr).getD g.dflt

/-- Its value as a number of R427 that is never negative. -/
def State.getN (s : State) (g : Reg) : Nat := (s.get g).toNat

/-- Writes a register; a register at its reset value is not listed. -/
def State.set (s : State) (g : Reg) (v : Int) : State :=
  { s with regs := if v = g.dflt then rfDel s.regs g.addr else rfPut s.regs g.addr v }

/-- A counter that wraps at 2^w. -/
def State.count (s : State) (g : Reg) (w : Nat) (k : Nat := 1) : State :=
  s.set g ((s.get g + k) % (2 ^ w : Nat))

/-- A counter that stops at its largest value of `w` bits. -/
def State.countSat (s : State) (g : Reg) (w : Nat) (k : Nat := 1) : State :=
  s.set g (min (s.get g + k) ((2 ^ w : Nat) - 1))

/-- Sets bits of a status register. -/
def State.orBits (s : State) (g : Reg) (m : Nat) : State := s.set g ((s.getN g ||| m : Nat) : Int)

/-- Clears bits of a status register. -/
def State.clrBits (s : State) (g : Reg) (m : Nat) : State :=
  s.set g ((s.getN g &&& (2 ^ 32 - 1 - m % 2 ^ 32) : Nat) : Int)

/-! ## The object table's types (R427, R428) -/

/-- R427; a BLOB with its length. -/
inductive Ty where
  | u8 | s8 | u16 | s16 | q15 | u32 | s32 | u64 | blob (n : Nat)
deriving DecidableEq, Repr

/-- R428. -/
inductive Acc' where
  | ro | rw | wo | cmd | rwk
deriving DecidableEq, Repr

/-- The unit of R5 that an object belongs to. -/
inductive Own where
  | always | learner | iin | dma | trace
deriving DecidableEq, Repr

/-- What a written value outside the range meets (R429): clamped to its ends, bits outside it ignored, or ACCESS. Of an
object that is only read, the range its value is shown in. -/
inductive Rng where
  | clamp (lo hi : Int) | bits (mask : Nat) | only (lo hi : Int) | whole
deriving DecidableEq, Repr

/-- One row of a dictionary table: `n` instances from index `base` on, `cnt` sub-indices from `sub` on; `grp` is the
commit group of a member, 0 for none. `reg i k` is the register of instance `i` and the `k`th sub-index. -/
structure ObjRow where
  base : Nat
  n : Nat
  sub : Nat
  cnt : Nat
  ty : Ty
  acc : Acc'
  rng : Rng
  grp : Nat
  own : Own
  reg : Nat → Nat → Reg

def Ty.length : Ty → Nat
  | .u8 | .s8 => 1
  | .u16 | .s16 | .q15 => 2
  | .u32 | .s32 => 4
  | .u64 => 8
  | .blob n => n

/-- Types whose raw value is two's complement (R427). -/
def Ty.signed : Ty → Bool
  | .s8 | .s16 | .q15 | .s32 => true
  | _ => false

end Sys2Proof.Machine
end

