-- ==== Sys2Proof/Machine/Objects.lean ====
section
/-! DEFINITION. The object dictionary's tables: every object that is a number, as a register with its address and its
value after reset, under the name the manual gives it, and the table of all objects with type, access right, range,
commit group and unit (R4, R44, R45, R79, R82, R119 to R122, R156 to R161, R199 to R201, R227 to R229, R258 to R261,
R294, R295, R323 to R326, R352, R381 to R384, R423 to R425, R458 to R461, R493, R494, R516 to R519, R547). Where an
object is computed from other state when it is read, `Machine/ObjRead.lean` says so and its register here holds
nothing. Objects whose index takes an instance have it as `i`, consecutive sub-indices of one name are numbered `k`. -/

namespace Sys2Proof.Machine

/-- R503: the default route of a trigger type, bit 0 the fault log and bit 1 the trace log. Reserved types have no
route stated and read 0 here. DESIGN CHOICE (log 6). -/
def defaultRoute (t : Nat) : Nat :=
  if t ∈ [0, 1, 8, 9, 13] then 3
  else if t ∈ [3, 4, 5, 6, 7, 11, 12, 17, 21, 23, 26, 30, 31, 34, 36, 37, 39, 40] then 1
  else if t = 19 then 3
  else if t ≤ 41 then 2
  else 0

namespace Obj

/-- R4, `0x1000.01`. -/
def vendor_id : Reg := ⟨0x100001, 18517⟩
/-- R4, `0x1000.02`. -/
def product_id : Reg := ⟨0x100002, 3901⟩
/-- R4, `0x1000.03`. -/
def version : Reg := ⟨0x100003, 196864⟩
/-- R4, `0x1000.04`. -/
def config_hash : Reg := ⟨0x100004, 0⟩
/-- R4, `0x1000.05`. -/
def variant : Reg := ⟨0x100005, 0⟩
/-- R4, `0x1010.01`. -/
def units : Reg := ⟨0x101001, 15⟩
/-- R4, `0x1010.02`. -/
def vcore_regions : Reg := ⟨0x101002, 64⟩
/-- R4, `0x1010.03`. -/
def vcore_strings_per_region : Reg := ⟨0x101003, 16⟩
/-- R4, `0x1010.04`. -/
def vmem_regions : Reg := ⟨0x101004, 8⟩
/-- R4, `0x1010.05`. -/
def vlnk_regions : Reg := ⟨0x101005, 4⟩
/-- R4, `0x1010.06`. -/
def strings_present : Reg := ⟨0x101006, 1120⟩
/-- R4, `0x1010.07`. -/
def courses_present : Reg := ⟨0x101007, 140⟩
/-- R4, `0x1010.08`. -/
def converters_present : Reg := ⟨0x101008, 70⟩
/-- R44, `0x200x.01`. -/
def rail_vmin (i : Nat) : Reg := ⟨0x200001 + 256 * i, [500, 650, 750].getD i 0⟩
/-- R44, `0x200x.02`. -/
def rail_vmax (i : Nat) : Reg := ⟨0x200002 + 256 * i, [950, 850, 950].getD i 0⟩
/-- R44, `0x200x.03`. -/
def rail_first_region (i : Nat) : Reg := ⟨0x200003 + 256 * i, 0⟩
/-- R44, `0x200x.04`. -/
def rail_regions_present (i : Nat) : Reg := ⟨0x200004 + 256 * i, 64⟩
/-- R44, `0x200x.05`. -/
def rail_strings_present (i : Nat) : Reg := ⟨0x200005 + 256 * i, 1024⟩
/-- R44, `0x200x.06`. -/
def rail_design_current (i : Nat) : Reg := ⟨0x200006 + 256 * i, 3200⟩
/-- R44, `0x200x.07`. -/
def rail_active_capability (i : Nat) : Reg := ⟨0x200007 + 256 * i, 0⟩
/-- R44, `0x200x.08`. -/
def rail_current (i : Nat) : Reg := ⟨0x200008 + 256 * i, 0⟩
/-- R45, `0x21xx.01`. -/
def region_rail (i : Nat) : Reg := ⟨0x210001 + 256 * i, 0⟩
/-- R45, `0x21xx.02`. -/
def region_grid_pos (i : Nat) : Reg := ⟨0x210002 + 256 * i, 0⟩
/-- R45, `0x21xx.03-.06`. -/
def region_neighbour (i : Nat) (k : Nat) : Reg := ⟨0x210003 + 256 * i + k, 0⟩
/-- R45, `0x21xx.07`. -/
def region_strings_present (i : Nat) : Reg := ⟨0x210007 + 256 * i, 16⟩
/-- R45, `0x21xx.08`. -/
def region_strings_muted (i : Nat) : Reg := ⟨0x210008 + 256 * i, 0⟩
/-- R45, `0x21xx.09`. -/
def region_current (i : Nat) : Reg := ⟨0x210009 + 256 * i, 0⟩
/-- R45, `0x21xx.0A`. -/
def region_active_capability (i : Nat) : Reg := ⟨0x21000A + 256 * i, 0⟩
/-- R45, `0x21xx.0B`. -/
def region_shortterm_capability (i : Nat) : Reg := ⟨0x21000B + 256 * i, 0⟩
/-- R45, `0x21xx.0C`. -/
def region_strings_needed (i : Nat) : Reg := ⟨0x21000C + 256 * i, 0⟩
/-- R45, `0x21xx.0D`. -/
def region_lateral_capability (i : Nat) : Reg := ⟨0x21000D + 256 * i, 0⟩
/-- R45, `0x21xx.0E`. -/
def region_utilisation (i : Nat) : Reg := ⟨0x21000E + 256 * i, 65535⟩
/-- R45, `0x21xx.0F-.12`. -/
def region_td_neighbour (i : Nat) (k : Nat) : Reg := ⟨0x21000F + 256 * i + k, 0⟩
/-- R79, `0x2200.01`. -/
def tsw_target : Reg := ⟨0x220001, 200⟩
/-- R79, `0x2200.02`. -/
def toff_min : Reg := ⟨0x220002, 40⟩
/-- R79, `0x2200.03`. -/
def ton_min : Reg := ⟨0x220003, 8⟩
/-- R79, `0x2200.04`. -/
def ton_max : Reg := ⟨0x220004, 160⟩
/-- R79, `0x2200.05`. -/
def fire_space_min : Reg := ⟨0x220005, 2⟩
/-- R79, `0x2200.06`. -/
def pick_dev_limit : Reg := ⟨0x220006, 20⟩
/-- R79, `0x2200.07`. -/
def pick_dev_periods : Reg := ⟨0x220007, 4⟩
/-- R79, `0x2200.08`. -/
def pick_stuck_periods : Reg := ⟨0x220008, 16⟩
/-- R79, `0x2200.09`. -/
def pick_parity_limit : Reg := ⟨0x220009, 16⟩
/-- R79, `0x2200.0A`. -/
def pick_probation : Reg := ⟨0x22000A, 16⟩
/-- R79, `0x2200.0B`. -/
def pick_borrow_guard : Reg := ⟨0x22000B, 8⟩
/-- R79, `0x2200.0C`. -/
def ripple_window : Reg := ⟨0x22000C, 50⟩
/-- R79, `0x2200.0D`. -/
def band_hyst : Reg := ⟨0x22000D, 24⟩
/-- R79, `0x2200.0E-.11`. -/
def band_amp (k : Nat) : Reg := ⟨0x22000E + k, [32, 28, 28, 24].getD k 0⟩
/-- R79, `0x2200.12-.15`. -/
def band_slope (k : Nat) : Reg := ⟨0x220012 + k, [64, 64, 68, 72].getD k 0⟩
/-- R79, `0x2200.16-.19`. -/
def band_ton_corr (k : Nat) : Reg := ⟨0x220016 + k, [256, 256, 252, 248].getD k 0⟩
/-- R79, `0x2200.1A-.1D`. -/
def band_tguard (k : Nat) : Reg := ⟨0x22001A + k, [4, 0, 0, 3].getD k 0⟩
/-- R82, `0x21xx.13`. -/
def region_vref (i : Nat) : Reg := ⟨0x210013 + 256 * i, 0⟩
/-- R82, `0x21xx.14`. -/
def region_vmin (i : Nat) : Reg := ⟨0x210014 + 256 * i, 0⟩
/-- R82, `0x21xx.15`. -/
def region_pickup_valid (i : Nat) : Reg := ⟨0x210015 + 256 * i, 511⟩
/-- R82, `0x21xx.16`. -/
def region_pickup_cause (i : Nat) : Reg := ⟨0x210016 + 256 * i, 0⟩
/-- R82, `0x21xx.17`. -/
def region_pickup_clear (i : Nat) : Reg := ⟨0x210017 + 256 * i, 0⟩
/-- R82, `0x21xx.18`. -/
def region_pickup_force (i : Nat) : Reg := ⟨0x210018 + 256 * i, 0⟩
/-- R82, `0x21xx.19`. -/
def region_vmin_source (i : Nat) : Reg := ⟨0x210019 + 256 * i, 0⟩
/-- R82, `0x21xx.1A`. -/
def region_band (i : Nat) : Reg := ⟨0x21001A + 256 * i, 0⟩
/-- R82, `0x21xx.1B`. -/
def region_vin (i : Nat) : Reg := ⟨0x21001B + 256 * i, 0⟩
/-- R82, `0x21xx.1C`. -/
def region_vin_source (i : Nat) : Reg := ⟨0x21001C + 256 * i, 0⟩
/-- R82, `0x21xx.1D`. -/
def region_ton_base (i : Nat) : Reg := ⟨0x21001D + 256 * i, 0⟩
/-- R82, `0x21xx.1E`. -/
def region_fire_count (i : Nat) : Reg := ⟨0x21001E + 256 * i, 0⟩
/-- R82, `0x21xx.1F`. -/
def region_pickup_cal (i : Nat) : Reg := ⟨0x21001F + 256 * i, 0⟩
/-- R119, `0x2200.20`. -/
def strum_depth : Reg := ⟨0x220020, 24⟩
/-- R119, `0x2200.21`. -/
def strum_slope : Reg := ⟨0x220021, 12⟩
/-- R119, `0x2200.22`. -/
def release_depth : Reg := ⟨0x220022, 48⟩
/-- R119, `0x2200.23`. -/
def ov_offset : Reg := ⟨0x220023, 96⟩
/-- R119, `0x2200.24`. -/
def strum_mult : Reg := ⟨0x220024, 40⟩
/-- R119, `0x2200.25`. -/
def strum_max : Reg := ⟨0x220025, 4⟩
/-- R119, `0x2200.26`. -/
def strum_lockout : Reg := ⟨0x220026, 200⟩
/-- R119, `0x2200.27`. -/
def ov_blank : Reg := ⟨0x220027, 40⟩
/-- R119, `0x2200.28`. -/
def strum_toff : Reg := ⟨0x220028, 8⟩
/-- R119, `0x2200.29`. -/
def twin_strum_limit : Reg := ⟨0x220029, 16⟩
/-- R119, `0x2200.2A`. -/
def shed_level : Reg := ⟨0x22002A, 30⟩
/-- R119, `0x2200.2B`. -/
def shed_min : Reg := ⟨0x22002B, 4⟩
/-- R119, `0x2200.2C`. -/
def rejoin_level : Reg := ⟨0x22002C, 60⟩
/-- R119, `0x2200.2D`. -/
def shed_hold : Reg := ⟨0x22002D, 20⟩
/-- R119, `0x2200.2E`. -/
def shed_interval : Reg := ⟨0x22002E, 2⟩
/-- R119, `0x2200.2F`. -/
def pre_mult : Reg := ⟨0x22002F, 26⟩
/-- R119, `0x2200.30`. -/
def pre_fires : Reg := ⟨0x220030, 4⟩
/-- R119, `0x2200.31`. -/
def pre_window : Reg := ⟨0x220031, 1000⟩
/-- R120, `0x200x.09`. -/
def rail_ov_ceiling (i : Nat) : Reg := ⟨0x200009 + 256 * i, [1050, 950, 1050].getD i 0⟩
/-- R120, `0x200x.0A`. -/
def rail_damped (i : Nat) : Reg := ⟨0x20000A + 256 * i, 0⟩
/-- R121, `0x21xx.20`. -/
def region_strum_count (i : Nat) : Reg := ⟨0x210020 + 256 * i, 0⟩
/-- R121, `0x21xx.21`. -/
def region_spread_count (i : Nat) : Reg := ⟨0x210021 + 256 * i, 0⟩
/-- R121, `0x21xx.22`. -/
def region_spread_refused (i : Nat) : Reg := ⟨0x210022 + 256 * i, 0⟩
/-- R121, `0x21xx.23`. -/
def region_strum_locked (i : Nat) : Reg := ⟨0x210023 + 256 * i, 0⟩
/-- R121, `0x21xx.24`. -/
def region_last_strum (i : Nat) : Reg := ⟨0x210024 + 256 * i, 0⟩
/-- R121, `0x21xx.25`. -/
def region_spread_enable (i : Nat) : Reg := ⟨0x210025 + 256 * i, 1⟩
/-- R121, `0x21xx.26`. -/
def region_release_count (i : Nat) : Reg := ⟨0x210026 + 256 * i, 0⟩
/-- R121, `0x21xx.27`. -/
def region_twin_disagree (i : Nat) : Reg := ⟨0x210027 + 256 * i, 0⟩
/-- R121, `0x21xx.28`. -/
def region_strings_shed (i : Nat) : Reg := ⟨0x210028 + 256 * i, 0⟩
/-- R121, `0x21xx.29`. -/
def region_shed_hold (i : Nat) : Reg := ⟨0x210029 + 256 * i, 0⟩
/-- R121, `0x21xx.2A`. -/
def region_prestrum (i : Nat) : Reg := ⟨0x21002A + 256 * i, 0⟩
/-- R121, `0x21xx.2B`. -/
def region_prestrum_start (i : Nat) : Reg := ⟨0x21002B + 256 * i, 0⟩
/-- R121, `0x21xx.2C`. -/
def region_prestrum_cancelled (i : Nat) : Reg := ⟨0x21002C + 256 * i, 0⟩
/-- R121, `0x21xx.2D`. -/
def region_wake_wait (i : Nat) : Reg := ⟨0x21002D + 256 * i, 0⟩
/-- R122, `0x2300.01`. -/
def wake_util_limit : Reg := ⟨0x230001, 90⟩
/-- R122, `0x2300.02`. -/
def wake_quiet : Reg := ⟨0x230002, 1000⟩
/-- R122, `0x2300.03`. -/
def wake_space : Reg := ⟨0x230003, 250⟩
/-- R122, `0x2300.04`. -/
def wake_max_wait : Reg := ⟨0x230004, 4000⟩
/-- R122, `0x2300.05`. -/
def wake_neigh_space : Reg := ⟨0x230005, 100⟩
/-- R122, `0x2300.06`. -/
def wake_ungate_delay : Reg := ⟨0x230006, 20⟩
/-- R122, `0x2300.07`. -/
def wake_grant_count : Reg := ⟨0x230007, 0⟩
/-- R122, `0x2300.08`. -/
def wake_timeout_count : Reg := ⟨0x230008, 0⟩
/-- R122, `0x2300.09`. -/
def wake_hold_requests : Reg := ⟨0x230009, 0⟩
/-- R122, `0x2300.0A`. -/
def wake_pending : Reg := ⟨0x23000A, 0⟩
/-- R156, `0x1100.04`. -/
def service_reasons : Reg := ⟨0x110004, 0⟩
/-- R156, `0x1100.05`. -/
def service_clear : Reg := ⟨0x110005, 0⟩
/-- R158, `0x3xxx.01`. -/
def string_state (i : Nat) : Reg := ⟨0x300001 + 256 * i, 0⟩
/-- R158, `0x3xxx.02`. -/
def string_cause (i : Nat) : Reg := ⟨0x300002 + 256 * i, 0⟩
/-- R158, `0x3xxx.03`. -/
def string_blind_cause (i : Nat) : Reg := ⟨0x300003 + 256 * i, 0⟩
/-- R158, `0x3xxx.04`. -/
def string_current (i : Nat) : Reg := ⟨0x300004 + 256 * i, 0⟩
/-- R158, `0x3xxx.05`. -/
def string_trim (i : Nat) : Reg := ⟨0x300005 + 256 * i, 0⟩
/-- R158, `0x3xxx.06`. -/
def string_ramp_level (i : Nat) : Reg := ⟨0x300006 + 256 * i, 0⟩
/-- R158, `0x3xxx.07`. -/
def string_ramp_step (i : Nat) : Reg := ⟨0x300007 + 256 * i, 0⟩
/-- R158, `0x3xxx.08`. -/
def string_open_counter (i : Nat) : Reg := ⟨0x300008 + 256 * i, 0⟩
/-- R158, `0x3xxx.09`. -/
def string_hiccup_count (i : Nat) : Reg := ⟨0x300009 + 256 * i, 0⟩
/-- R158, `0x3xxx.0A`. -/
def string_mute_count (i : Nat) : Reg := ⟨0x30000A + 256 * i, 0⟩
/-- R158, `0x3xxx.0B`. -/
def string_last_change (i : Nat) : Reg := ⟨0x30000B + 256 * i, 0⟩
/-- R158, `0x3xxx.0C`. -/
def string_cmd (i : Nat) : Reg := ⟨0x30000C + 256 * i, 0⟩
/-- R159, `0x38xx.01`. -/
def course_present (i : Nat) : Reg := ⟨0x380001 + 256 * i, 0⟩
/-- R159, `0x38xx.02`. -/
def course_stat_frame (i : Nat) : Reg := ⟨0x380002 + 256 * i, 0⟩
/-- R159, `0x38xx.03`. -/
def course_lane_state (i : Nat) : Reg := ⟨0x380003 + 256 * i, 0⟩
/-- R159, `0x38xx.04`. -/
def course_lane_errors (i : Nat) : Reg := ⟨0x380004 + 256 * i, 0⟩
/-- R159, `0x38xx.05`. -/
def course_flt (i : Nat) : Reg := ⟨0x380005 + 256 * i, 0⟩
/-- R159, `0x38xx.06`. -/
def course_backstop (i : Nat) : Reg := ⟨0x380006 + 256 * i, 0⟩
/-- R159, `0x38xx.07`. -/
def course_fault_count (i : Nat) : Reg := ⟨0x380007 + 256 * i, 0⟩
/-- R159, `0x38xx.08`. -/
def course_faults_hour (i : Nat) : Reg := ⟨0x380008 + 256 * i, 0⟩
/-- R159, `0x38xx.09`. -/
def course_status_word (i : Nat) : Reg := ⟨0x380009 + 256 * i, 0⟩
/-- R159, `0x38xx.0A`. -/
def course_ident (i : Nat) : Reg := ⟨0x38000A + 256 * i, 0⟩
/-- R160, `0x3900.01`. -/
def open_count : Reg := ⟨0x390001, 64⟩
/-- R160, `0x3900.02`. -/
def open_level : Reg := ⟨0x390002, 30⟩
/-- R160, `0x3900.03`. -/
def open_mean_min : Reg := ⟨0x390003, 200⟩
/-- R160, `0x3900.04`. -/
def absorb_ratio : Reg := ⟨0x390004, 50⟩
/-- R160, `0x3900.05`. -/
def sense_stuck_samples : Reg := ⟨0x390005, 64⟩
/-- R160, `0x3900.06`. -/
def sense_sat_periods : Reg := ⟨0x390006, 64⟩
/-- R160, `0x3900.07`. -/
def sense_share_dev : Reg := ⟨0x390007, 100⟩
/-- R160, `0x3900.08`. -/
def slope_min : Reg := ⟨0x390008, 50⟩
/-- R160, `0x3900.09`. -/
def string_l_nominal : Reg := ⟨0x390009, 400⟩
/-- R160, `0x3900.0A`. -/
def hiccup_max : Reg := ⟨0x39000A, 8⟩
/-- R160, `0x3900.0B`. -/
def hiccup_window : Reg := ⟨0x39000B, 100⟩
/-- R160, `0x3900.0C`. -/
def return_ramp : Reg := ⟨0x39000C, 4⟩
/-- R160, `0x3900.0D`. -/
def neigh_assist : Reg := ⟨0x39000D, 24⟩
/-- R160, `0x3900.0E`. -/
def assist_util : Reg := ⟨0x39000E, 80⟩
/-- R160, `0x3900.0F`. -/
def svc_region_muted : Reg := ⟨0x39000F, 3⟩
/-- R160, `0x3900.10`. -/
def svc_total_muted : Reg := ⟨0x390010, 24⟩
/-- R160, `0x3900.11`. -/
def svc_blind : Reg := ⟨0x390011, 8⟩
/-- R160, `0x3900.12`. -/
def svc_pickups : Reg := ⟨0x390012, 2⟩
/-- R160, `0x3900.13`. -/
def svc_parity_limit : Reg := ⟨0x390013, 16⟩
/-- R160, `0x3900.14`. -/
def course_fault_limit : Reg := ⟨0x390014, 4⟩
/-- R160, `0x3900.15`. -/
def parity_error_count : Reg := ⟨0x390015, 0⟩
/-- R160, `0x3900.16`. -/
def strings_muted_total : Reg := ⟨0x390016, 0⟩
/-- R160, `0x3900.17`. -/
def strings_blind_total : Reg := ⟨0x390017, 0⟩
/-- R161, `0x21xx.2E`. -/
def region_capo_ceiling (i : Nat) : Reg := ⟨0x21002E + 256 * i, 15⟩
/-- R161, `0x21xx.2F`. -/
def region_hold (i : Nat) : Reg := ⟨0x21002F + 256 * i, 0⟩
/-- R161, `0x21xx.30`. -/
def region_assist (i : Nat) : Reg := ⟨0x210030 + 256 * i, 0⟩
/-- R161, `0x21xx.31`. -/
def region_strings_blind (i : Nat) : Reg := ⟨0x210031 + 256 * i, 0⟩
/-- R161, `0x21xx.32`. -/
def region_strings_hiccup (i : Nat) : Reg := ⟨0x210032 + 256 * i, 0⟩
/-- R161, `0x21xx.33`. -/
def region_strings_returning (i : Nat) : Reg := ⟨0x210033 + 256 * i, 0⟩
/-- R199, `0x4000.01`. -/
def engine_period : Reg := ⟨0x400001, 500⟩
/-- R199, `0x4000.02`. -/
def bank_swap : Reg := ⟨0x400002, 0⟩
/-- R199, `0x4000.03`. -/
def bank_swap_pending : Reg := ⟨0x400003, 0⟩
/-- R199, `0x4000.04`. -/
def plaus_limit : Reg := ⟨0x400004, 16⟩
/-- R199, `0x4000.05`. -/
def plaus_periods : Reg := ⟨0x400005, 8⟩
/-- R199, `0x4000.06`. -/
def plaus_clear : Reg := ⟨0x400006, 16⟩
/-- R199, `0x4000.07`. -/
def trim_mode : Reg := ⟨0x400007, 0⟩
/-- R199, `0x4000.08`. -/
def trim_gain : Reg := ⟨0x400008, 256⟩
/-- R199, `0x4000.09`. -/
def trim_offset : Reg := ⟨0x400009, 0⟩
/-- R199, `0x4000.0A`. -/
def trim_rails : Reg := ⟨0x40000A, 1⟩
/-- R199, `0x4000.0B`. -/
def trim_hold : Reg := ⟨0x40000B, 10⟩
/-- R199, `0x4000.0C`. -/
def trim_value : Reg := ⟨0x40000C, 0⟩
/-- R199, `0x4000.0D`. -/
def trim_raw : Reg := ⟨0x40000D, 0⟩
/-- R199, `0x4000.0E`. -/
def trim_state : Reg := ⟨0x40000E, 0⟩
/-- R199, `0x4000.0F`. -/
def trim_pwm_period : Reg := ⟨0x40000F, 0⟩
/-- R199, `0x4000.10`. -/
def engine_period_count : Reg := ⟨0x400010, 0⟩
/-- R200, `0x41xx.01`. -/
def ch_type (i : Nat) : Reg := ⟨0x410001 + 256 * i, 0⟩
/-- R200, `0x41xx.02`. -/
def ch_active_bank (i : Nat) : Reg := ⟨0x410002 + 256 * i, 0⟩
/-- R200, `0x41xx.03`. -/
def ch_swap_count (i : Nat) : Reg := ⟨0x410003 + 256 * i, 0⟩
/-- R200, `0x41xx.04`. -/
def ch_flags (i : Nat) : Reg := ⟨0x410004 + 256 * i, 0⟩
/-- R200, `0x41xx.05`. -/
def ch_flags_live (i : Nat) : Reg := ⟨0x410005 + 256 * i, 0⟩
/-- R200, `0x41xx.06`. -/
def ch_flags_clear (i : Nat) : Reg := ⟨0x410006 + 256 * i, 0⟩
/-- R200, `0x41xx.07`. -/
def ch_kff (i : Nat) : Reg := ⟨0x410007 + 256 * i, 32768⟩
/-- R200, `0x41xx.08`. -/
def ch_cons_offset (i : Nat) : Reg := ⟨0x410008 + 256 * i, 0⟩
/-- R200, `0x41xx.09`. -/
def ch_ref_offset (i : Nat) : Reg := ⟨0x410009 + 256 * i, 0⟩
/-- R200, `0x41xx.0A`. -/
def ch_plaus_dev (i : Nat) : Reg := ⟨0x41000A + 256 * i, 0⟩
/-- R200, `0x41xx.0B`. -/
def ch_doubt (i : Nat) : Reg := ⟨0x41000B + 256 * i, 0⟩
/-- R200, `0x41xx.0C`. -/
def ch_doubt_count (i : Nat) : Reg := ⟨0x41000C + 256 * i, 0⟩
/-- R200, `0x41xx.10`. -/
def rail_sp_target (i : Nat) : Reg := ⟨0x410010 + 256 * i, 0⟩
/-- R200, `0x41xx.11`. -/
def rail_setpoint (i : Nat) : Reg := ⟨0x410011 + 256 * i, 0⟩
/-- R200, `0x41xx.12`. -/
def rail_bump (i : Nat) : Reg := ⟨0x410012 + 256 * i, 0⟩
/-- R200, `0x41xx.13`. -/
def rail_slew (i : Nat) : Reg := ⟨0x410013 + 256 * i, 20⟩
/-- R200, `0x41xx.14`. -/
def rail_bump_slew (i : Nat) : Reg := ⟨0x410014 + 256 * i, 80⟩
/-- R200, `0x41xx.15`. -/
def rail_load_line (i : Nat) : Reg := ⟨0x410015 + 256 * i, 0⟩
/-- R200, `0x41xx.16`. -/
def rail_sp_settled (i : Nat) : Reg := ⟨0x410016 + 256 * i, 0⟩
/-- R200, `0x41xx.17`. -/
def rail_current_filtered (i : Nat) : Reg := ⟨0x410017 + 256 * i, 0⟩
/-- R201, `0x42xx.01-.18`. -/
def coef_shadow (i : Nat) (k : Nat) : Reg := ⟨0x420001 + 256 * i + k, 0⟩
/-- R201, `0x42xx.21-.38`. -/
def shift_shadow (i : Nat) (k : Nat) : Reg := ⟨0x420021 + 256 * i + k, 0⟩
/-- R201, `0x42xx.41-.58`. -/
def coef_active (i : Nat) (k : Nat) : Reg := ⟨0x420041 + 256 * i + k, 0⟩
/-- R201, `0x42xx.61-.78`. -/
def shift_active (i : Nat) (k : Nat) : Reg := ⟨0x420061 + 256 * i + k, 0⟩
/-- R227, `0x4800.01-.10`. -/
def tune_chip (k : Nat) : Reg := ⟨0x480001 + k, 0⟩
/-- R227, `0x4800.11-.20`. -/
def tune_matched (k : Nat) : Reg := ⟨0x480011 + k, 0⟩
/-- R227, `0x4800.21`. -/
def tune_vmem : Reg := ⟨0x480021, 0⟩
/-- R227, `0x4800.22`. -/
def tune_vlnk : Reg := ⟨0x480022, 0⟩
/-- R227, `0x4800.23`. -/
def tune_vmem_matched : Reg := ⟨0x480023, 0⟩
/-- R227, `0x4800.24`. -/
def tune_vlnk_matched : Reg := ⟨0x480024, 0⟩
/-- R227, `0x4800.25`. -/
def age_guard : Reg := ⟨0x480025, 0⟩
/-- R227, `0x4800.26`. -/
def soundpost_floor : Reg := ⟨0x480026, 0⟩
/-- R227, `0x4800.27`. -/
def tguard : Reg := ⟨0x480027, 36⟩
/-- R227, `0x4800.28`. -/
def tune_source : Reg := ⟨0x480028, 0⟩
/-- R227, `0x4800.29`. -/
def tune_adjusted : Reg := ⟨0x480029, 0⟩
/-- R227, `0x4800.2A`. -/
def speed_grade : Reg := ⟨0x48002A, 0⟩
/-- R227, `0x4800.2B`. -/
def matched_enable : Reg := ⟨0x48002B, 0⟩
/-- R227, `0x4800.2C`. -/
def matched_state : Reg := ⟨0x48002C, 0⟩
/-- R227, `0x4800.2D`. -/
def matched_exceed : Reg := ⟨0x48002D, 0⟩
/-- R227, `0x4800.2E`. -/
def matched_ceiling_events : Reg := ⟨0x48002E, 0⟩
/-- R227, `0x4800.2F`. -/
def matched_model : Reg := ⟨0x48002F, 0⟩
/-- R227, `0x4800.30`. -/
def fret_ack_timeout : Reg := ⟨0x480030, 4000⟩
/-- R227, `0x4800.31`. -/
def fret_ack_late : Reg := ⟨0x480031, 0⟩
/-- R227, `0x4800.32`. -/
def recovery_enable : Reg := ⟨0x480032, 0⟩
/-- R227, `0x4800.33`. -/
def recovery_max : Reg := ⟨0x480033, 8⟩
/-- R227, `0x4800.34`. -/
def recovery_margin : Reg := ⟨0x480034, 8⟩
/-- R227, `0x4800.35`. -/
def recovery_window : Reg := ⟨0x480035, 64⟩
/-- R227, `0x4800.36`. -/
def recovery_hold : Reg := ⟨0x480036, 10⟩
/-- R227, `0x4800.37`. -/
def recovery_lead : Reg := ⟨0x480037, 8000⟩
/-- R227, `0x4800.38`. -/
def recovery_strum_resets : Reg := ⟨0x480038, 0⟩
/-- R227, `0x4800.39`. -/
def recovery_class : Reg := ⟨0x480039, 0⟩
/-- R228, `0x200x.0B`. -/
def rail_fret_needed (i : Nat) : Reg := ⟨0x20000B + 256 * i, 0⟩
/-- R228, `0x200x.0C`. -/
def rail_vtune (i : Nat) : Reg := ⟨0x20000C + 256 * i, 0⟩
/-- R228, `0x200x.0D`. -/
def rail_tguard (i : Nat) : Reg := ⟨0x20000D + 256 * i, 36⟩
/-- R228, `0x200x.0E`. -/
def rail_recovery (i : Nat) : Reg := ⟨0x20000E + 256 * i, 0⟩
/-- R228, `0x200x.0F`. -/
def rail_fret_fit (i : Nat) : Reg := ⟨0x20000F + 256 * i, 15⟩
/-- R229, `0x21xx.34`. -/
def region_fret (i : Nat) : Reg := ⟨0x210034 + 256 * i, 0⟩
/-- R229, `0x21xx.35`. -/
def region_fret_target (i : Nat) : Reg := ⟨0x210035 + 256 * i, 0⟩
/-- R229, `0x21xx.36`. -/
def region_fret_request (i : Nat) : Reg := ⟨0x210036 + 256 * i, 15⟩
/-- R229, `0x21xx.37`. -/
def region_fret_step (i : Nat) : Reg := ⟨0x210037 + 256 * i, 0⟩
/-- R229, `0x21xx.38`. -/
def region_fret_changes (i : Nat) : Reg := ⟨0x210038 + 256 * i, 0⟩
/-- R258, `0x5000.01`. -/
def cap_w : Reg := ⟨0x500001, 3000⟩
/-- R258, `0x5000.02`. -/
def thermal_step : Reg := ⟨0x500002, 20⟩
/-- R258, `0x5000.03`. -/
def cap_limit : Reg := ⟨0x500003, 0⟩
/-- R258, `0x5000.04`. -/
def cap_thermal_steps : Reg := ⟨0x500004, 0⟩
/-- R258, `0x5000.05`. -/
def cap_state : Reg := ⟨0x500005, 0⟩
/-- R258, `0x5000.06`. -/
def cap_binding : Reg := ⟨0x500006, 0⟩
/-- R258, `0x5000.07`. -/
def cap_ki : Reg := ⟨0x500007, 8192⟩
/-- R258, `0x5000.08`. -/
def cap_int_max : Reg := ⟨0x500008, 10⟩
/-- R258, `0x5000.09`. -/
def cap_int : Reg := ⟨0x500009, 0⟩
/-- R258, `0x5000.0A`. -/
def cap_int_hold : Reg := ⟨0x50000A, 0⟩
/-- R258, `0x5000.0B`. -/
def cap_used_power : Reg := ⟨0x50000B, 0⟩
/-- R258, `0x5000.0C`. -/
def cap_eff : Reg := ⟨0x50000C, 29491⟩
/-- R258, `0x5000.0D`. -/
def cap_util_max : Reg := ⟨0x50000D, 95⟩
/-- R258, `0x5000.0E`. -/
def cap_class_weight : Reg := ⟨0x50000E, 58123087930888129467517984631811969432229639361576439988433610796128943505536⟩
/-- R258, `0x5000.0F`. -/
def cap_dither_region : Reg := ⟨0x50000F, 255⟩
/-- R258, `0x5000.10`. -/
def cap_dither_upper : Reg := ⟨0x500010, 0⟩
/-- R258, `0x5000.11`. -/
def cap_floor_release : Reg := ⟨0x500011, 20⟩
/-- R258, `0x5000.12`. -/
def cap_floor_count : Reg := ⟨0x500012, 0⟩
/-- R258, `0x5000.13`. -/
def cap_floor_ms : Reg := ⟨0x500013, 0⟩
/-- R258, `0x5000.14`. -/
def disagree_pct : Reg := ⟨0x500014, 80⟩
/-- R258, `0x5000.15`. -/
def disagree_w : Reg := ⟨0x500015, 40⟩
/-- R258, `0x5000.16`. -/
def disagree_ms : Reg := ⟨0x500016, 4⟩
/-- R258, `0x5000.17`. -/
def disagree_clear : Reg := ⟨0x500017, 16⟩
/-- R258, `0x5000.18`. -/
def disagree_count : Reg := ⟨0x500018, 0⟩
/-- R258, `0x5000.19`. -/
def disagree_shards : Reg := ⟨0x500019, 0⟩
/-- R258, `0x5000.1A`. -/
def cap_irq_enable : Reg := ⟨0x50001A, 0⟩
/-- R258, `0x5000.1B`. -/
def cap_irq_status : Reg := ⟨0x50001B, 0⟩
/-- R258, `0x5000.1C`. -/
def cap_irq_clear : Reg := ⟨0x50001C, 0⟩
/-- R258, `0x5000.1D`. -/
def cap_step_count : Reg := ⟨0x50001D, 0⟩
/-- R259, `0x5100.01`. -/
def energy_delivered : Reg := ⟨0x510001, 0⟩
/-- R259, `0x5100.02`. -/
def energy_input : Reg := ⟨0x510002, 0⟩
/-- R259, `0x5100.03`. -/
def power_delivered : Reg := ⟨0x510003, 0⟩
/-- R259, `0x5100.04-.06`. -/
def power_rail (k : Nat) : Reg := ⟨0x510004 + k, 0⟩
/-- R259, `0x5100.07`. -/
def power_input : Reg := ⟨0x510007, 0⟩
/-- R259, `0x5100.08`. -/
def power_estimate : Reg := ⟨0x510008, 0⟩
/-- R260, `0x5200.01`. -/
def telem_mode : Reg := ⟨0x520001, 0⟩
/-- R260, `0x5200.02`. -/
def telem_grain : Reg := ⟨0x520002, 1⟩
/-- R260, `0x5200.03`. -/
def telem_frame : Reg := ⟨0x520003, 0⟩
/-- R260, `0x5200.04`. -/
def telem_seq : Reg := ⟨0x520004, 0⟩
/-- R260, `0x5200.05`. -/
def telem_dropped : Reg := ⟨0x520005, 0⟩
/-- R261, `0x21xx.39`. -/
def region_capo (i : Nat) : Reg := ⟨0x210039 + 256 * i, 0⟩
/-- R261, `0x21xx.3A`. -/
def region_capo_max (i : Nat) : Reg := ⟨0x21003A + 256 * i, 0⟩
/-- R261, `0x21xx.3B`. -/
def region_cap_current (i : Nat) : Reg := ⟨0x21003B + 256 * i, 0⟩
/-- R261, `0x21xx.3C`. -/
def region_cap_source (i : Nat) : Reg := ⟨0x21003C + 256 * i, 0⟩
/-- R261, `0x21xx.3D`. -/
def region_thr_req (i : Nat) : Reg := ⟨0x21003D + 256 * i, 0⟩
/-- R294, `0x6000.01`. -/
def conf_limit : Reg := ⟨0x600001, 250⟩
/-- R294, `0x6000.02`. -/
def conf_shift : Reg := ⟨0x600002, 8⟩
/-- R294, `0x6000.03`. -/
def conf_min_obs : Reg := ⟨0x600003, 4096⟩
/-- R294, `0x6000.04`. -/
def pred_floor_pct : Reg := ⟨0x600004, 50⟩
/-- R294, `0x6000.05`. -/
def droop_window : Reg := ⟨0x600005, 2000⟩
/-- R294, `0x6000.06`. -/
def droop_min_obs : Reg := ⟨0x600006, 8⟩
/-- R294, `0x6000.07`. -/
def lead_margin : Reg := ⟨0x600007, 10⟩
/-- R294, `0x6000.08`. -/
def learn_clamp_floor : Reg := ⟨0x600008, 0⟩
/-- R294, `0x6000.09`. -/
def learn_clamp_ceil : Reg := ⟨0x600009, 0⟩
/-- R294, `0x6000.0A`. -/
def learn_requant_up : Reg := ⟨0x60000A, 0⟩
/-- R294, `0x6000.0B`. -/
def learn_requant_down : Reg := ⟨0x60000B, 0⟩
/-- R294, `0x6000.0C`. -/
def learn_cell_resets : Reg := ⟨0x60000C, 0⟩
/-- R294, `0x6000.0D`. -/
def learn_confident_cells : Reg := ⟨0x60000D, 0⟩
/-- R294, `0x6000.0E`. -/
def learn_conf_changes : Reg := ⟨0x60000E, 0⟩
/-- R294, `0x6000.0F`. -/
def learn_act_missing : Reg := ⟨0x60000F, 0⟩
/-- R294, `0x6000.40-.5F`. -/
def learn_conf (k : Nat) : Reg := ⟨0x600040 + k, 0⟩
/-- R294, `0x6000.60-.7F`. -/
def learn_resid (k : Nat) : Reg := ⟨0x600060 + k, 0⟩
/-- R294, `0x6000.80-.9F`. -/
def learn_pred (k : Nat) : Reg := ⟨0x600080 + k, 0⟩
/-- R294, `0x6000.A0`. -/
def learn_droop : Reg := ⟨0x6000A0, 0⟩
/-- R294, `0x6000.A1`. -/
def learn_droop_obs : Reg := ⟨0x6000A1, 0⟩
/-- R294, `0x6000.A2`. -/
def learn_region_class : Reg := ⟨0x6000A2, 255⟩
/-- R295, `0x6400.01`. -/
def hint_accepted : Reg := ⟨0x640001, 0⟩
/-- R295, `0x6400.02`. -/
def hint_entries : Reg := ⟨0x640002, 0⟩
/-- R295, `0x6400.03`. -/
def hint_entries_max : Reg := ⟨0x640003, 0⟩
/-- R295, `0x6400.04`. -/
def hint_coalesced_class : Reg := ⟨0x640004, 0⟩
/-- R295, `0x6400.05`. -/
def hint_coalesced_near : Reg := ⟨0x640005, 0⟩
/-- R295, `0x6400.06`. -/
def hint_dropped : Reg := ⟨0x640006, 0⟩
/-- R295, `0x6400.07`. -/
def hint_late : Reg := ⟨0x640007, 0⟩
/-- R295, `0x6400.08`. -/
def hint_invalid : Reg := ⟨0x640008, 0⟩
/-- R295, `0x6400.09`. -/
def hint_discarded_state : Reg := ⟨0x640009, 0⟩
/-- R295, `0x6400.0A`. -/
def hint_merge_span : Reg := ⟨0x64000A, 1000⟩
/-- R295, `0x6400.0B`. -/
def hint_bump_hold : Reg := ⟨0x64000B, 200⟩
/-- R295, `0x6400.0C`. -/
def hint_last : Reg := ⟨0x64000C, 0⟩
/-- R295, `0x6400.0D`. -/
def hint_next_start : Reg := ⟨0x64000D, 0⟩
/-- R295, `0x6400.0E`. -/
def hint_bump_request : Reg := ⟨0x64000E, 0⟩
/-- R295, `0x6400.0F`. -/
def hint_irq_enable : Reg := ⟨0x64000F, 0⟩
/-- R295, `0x6400.10`. -/
def hint_irq_status : Reg := ⟨0x640010, 0⟩
/-- R295, `0x6400.11`. -/
def hint_irq_clear : Reg := ⟨0x640011, 0⟩
/-- R295, `0x6400.40-.5F`. -/
def class_static (k : Nat) : Reg := ⟨0x640040 + k, 0⟩
/-- R295, `0x6400.60`. -/
def class_static_droop : Reg := ⟨0x640060, 0⟩
/-- R295, `0x6400.61`. -/
def class_static_lead : Reg := ⟨0x640061, 0⟩
/-- R323, `0x6000.10`. -/
def learn_global_steps : Reg := ⟨0x600010, 0⟩
/-- R323, `0x6000.11`. -/
def learn_step_delay : Reg := ⟨0x600011, 900⟩
/-- R323, `0x6000.12`. -/
def learn_group_w : Reg := ⟨0x600012, 14074904626401341155369551180448584754667373453244490859944217516317499064576⟩
/-- R323, `0x6000.13`. -/
def learn_group_b : Reg := ⟨0x600013, 28605676609123373522249047338401577112724783293638600857052620215349734940960⟩
/-- R323, `0x6000.14`. -/
def learn_eta_stale_count : Reg := ⟨0x600014, 0⟩
/-- R323, `0x6000.15`. -/
def learn_cell_sel : Reg := ⟨0x600015, 0⟩
/-- R323, `0x6000.16`. -/
def learn_cell : Reg := ⟨0x600016, 0⟩
/-- R323, `0x6000.17`. -/
def learn_import_refused : Reg := ⟨0x600017, 0⟩
/-- R323, `0x6000.18`. -/
def learn_import_last : Reg := ⟨0x600018, 0⟩
/-- R323, `0x6000.19`. -/
def learn_irq_enable : Reg := ⟨0x600019, 0⟩
/-- R323, `0x6000.1A`. -/
def learn_irq_status : Reg := ⟨0x60001A, 0⟩
/-- R323, `0x6000.1B`. -/
def learn_irq_clear : Reg := ⟨0x60001B, 0⟩
/-- R324, `0x61xx.01`. -/
def group_eta (i : Nat) : Reg := ⟨0x610001 + 256 * i, 256⟩
/-- R324, `0x61xx.02`. -/
def group_decay (i : Nat) : Reg := ⟨0x610002 + 256 * i, 0⟩
/-- R324, `0x61xx.03`. -/
def group_rule (i : Nat) : Reg := ⟨0x610003 + 256 * i, 8⟩
/-- R324, `0x61xx.04`. -/
def group_frozen (i : Nat) : Reg := ⟨0x610004 + 256 * i, 0⟩
/-- R324, `0x61xx.05`. -/
def group_eta_written (i : Nat) : Reg := ⟨0x610005 + 256 * i, 0⟩
/-- R324, `0x61xx.06`. -/
def group_eta_stale (i : Nat) : Reg := ⟨0x610006 + 256 * i, 0⟩
/-- R324, `0x61xx.07`. -/
def group_members (i : Nat) : Reg := ⟨0x610007 + 256 * i, 1216⟩
/-- R324, `0x61xx.08`. -/
def group_updates (i : Nat) : Reg := ⟨0x610008 + 256 * i, 0⟩
/-- R325, `0x62xx.01`. -/
def slot_a1 (i : Nat) : Reg := ⟨0x620001 + 256 * i, if i = 0 then 28672 else 0⟩
/-- R325, `0x62xx.02`. -/
def slot_a2 (i : Nat) : Reg := ⟨0x620002 + 256 * i, if i = 0 then 4096 else 0⟩
/-- R325, `0x62xx.03`. -/
def slot_b1 (i : Nat) : Reg := ⟨0x620003 + 256 * i, if i = 0 then 32512 else 0⟩
/-- R325, `0x62xx.04`. -/
def slot_b2 (i : Nat) : Reg := ⟨0x620004 + 256 * i, if i = 0 then 256 else 0⟩
/-- R325, `0x62xx.05`. -/
def slot_c1 (i : Nat) : Reg := ⟨0x620005 + 256 * i, 0⟩
/-- R325, `0x62xx.06`. -/
def slot_c2 (i : Nat) : Reg := ⟨0x620006 + 256 * i, 0⟩
/-- R325, `0x62xx.07`. -/
def slot_c3 (i : Nat) : Reg := ⟨0x620007 + 256 * i, if i = 0 then 16384 else 0⟩
/-- R325, `0x62xx.08`. -/
def slot_flags (i : Nat) : Reg := ⟨0x620008 + 256 * i, if i = 0 then 3 else 0⟩
/-- R325, `0x62xx.09`. -/
def slot_apply (i : Nat) : Reg := ⟨0x620009 + 256 * i, 0⟩
/-- R325, `0x62xx.0A`. -/
def slot_ready (i : Nat) : Reg := ⟨0x62000A + 256 * i, 1⟩
/-- R325, `0x62xx.0B`. -/
def slot_users (i : Nat) : Reg := ⟨0x62000B + 256 * i, 0⟩
/-- R325, `0x62xx.0C-.13`. -/
def slot_applied (i : Nat) (k : Nat) : Reg := ⟨0x62000C + 256 * i + k, 0⟩
/-- R326, `0x63xx.01`. -/
def shard_counter (i : Nat) : Reg := ⟨0x630001 + 256 * i, 0⟩
/-- R326, `0x63xx.02`. -/
def shard_state (i : Nat) : Reg := ⟨0x630002 + 256 * i, 0⟩
/-- R326, `0x63xx.03`. -/
def shard_halt (i : Nat) : Reg := ⟨0x630003 + 256 * i, 0⟩
/-- R326, `0x63xx.04`. -/
def shard_last_outcome (i : Nat) : Reg := ⟨0x630004 + 256 * i, 0⟩
/-- R326, `0x63xx.05`. -/
def shard_commits (i : Nat) : Reg := ⟨0x630005 + 256 * i, 0⟩
/-- R326, `0x63xx.06`. -/
def shard_discards (i : Nat) : Reg := ⟨0x630006 + 256 * i, 0⟩
/-- R326, `0x63xx.07`. -/
def shard_skips (i : Nat) : Reg := ⟨0x630007 + 256 * i, 0⟩
/-- R326, `0x63xx.08`. -/
def shard_ctr_fixed (i : Nat) : Reg := ⟨0x630008 + 256 * i, 0⟩
/-- R326, `0x63xx.09`. -/
def shard_pass_cycles (i : Nat) : Reg := ⟨0x630009 + 256 * i, 0⟩
/-- R326, `0x63xx.0A`. -/
def shard_cells_visited (i : Nat) : Reg := ⟨0x63000A + 256 * i, 0⟩
/-- R326, `0x63xx.0B`. -/
def shard_grad_sat (i : Nat) : Reg := ⟨0x63000B + 256 * i, 0⟩
/-- R326, `0x63xx.0C`. -/
def shard_param_sat (i : Nat) : Reg := ⟨0x63000C + 256 * i, 0⟩
/-- R326, `0x63xx.0D`. -/
def shard_xfer (i : Nat) : Reg := ⟨0x63000D + 256 * i, 0⟩
/-- R352, `0x5800.01`. -/
def diode_reading : Reg := ⟨0x580001, 0⟩
/-- R352, `0x5800.02`. -/
def region_temp : Reg := ⟨0x580002, 0⟩
/-- R352, `0x5800.03`. -/
def diode_valid : Reg := ⟨0x580003, 0⟩
/-- R352, `0x5800.04`. -/
def diode_cause : Reg := ⟨0x580004, 0⟩
/-- R352, `0x5800.05`. -/
def diode_clear : Reg := ⟨0x580005, 0⟩
/-- R352, `0x5800.06`. -/
def diode_force : Reg := ⟨0x580006, 0⟩
/-- R352, `0x5800.07`. -/
def cross_limit : Reg := ⟨0x580007, 120⟩
/-- R352, `0x5800.08`. -/
def diode_probation : Reg := ⟨0x580008, 16⟩
/-- R352, `0x5800.09`. -/
def warn_level : Reg := ⟨0x580009, 760⟩
/-- R352, `0x5800.0A`. -/
def warn_hyst : Reg := ⟨0x58000A, 40⟩
/-- R352, `0x5800.0B`. -/
def throttle_level : Reg := ⟨0x58000B, 840⟩
/-- R352, `0x5800.0C`. -/
def throttle_hyst : Reg := ⟨0x58000C, 40⟩
/-- R352, `0x5800.0D`. -/
def shutdown_level : Reg := ⟨0x58000D, 0⟩
/-- R352, `0x5800.0E`. -/
def restart_level : Reg := ⟨0x58000E, 680⟩
/-- R352, `0x5800.0F`. -/
def thermal_state : Reg := ⟨0x58000F, 0⟩
/-- R352, `0x5800.10`. -/
def thermal_capo_limit : Reg := ⟨0x580010, 15⟩
/-- R352, `0x5800.11`. -/
def throttle_step_count : Reg := ⟨0x580011, 0⟩
/-- R352, `0x5800.12`. -/
def warn_count : Reg := ⟨0x580012, 0⟩
/-- R352, `0x5800.13`. -/
def trip_count : Reg := ⟨0x580013, 0⟩
/-- R352, `0x5800.14`. -/
def trip_history : Reg := ⟨0x580014, 0⟩
/-- R352, `0x5800.15`. -/
def trip_last_diode : Reg := ⟨0x580015, 255⟩
/-- R352, `0x5800.16`. -/
def restart_timer : Reg := ⟨0x580016, 0⟩
/-- R352, `0x5800.17`. -/
def hottest_reading : Reg := ⟨0x580017, 0⟩
/-- R352, `0x5800.18`. -/
def hottest_diode : Reg := ⟨0x580018, 255⟩
/-- R352, `0x5800.19`. -/
def front_end_failed : Reg := ⟨0x580019, 0⟩
/-- R352, `0x5800.1A`. -/
def tband : Reg := ⟨0x58001A, 65535⟩
/-- R352, `0x5800.1B`. -/
def trip_test_disabled : Reg := ⟨0x58001B, 0⟩
/-- R352, `0x5800.1C`. -/
def thermal_irq_enable : Reg := ⟨0x58001C, 0⟩
/-- R352, `0x5800.1D`. -/
def thermal_irq_status : Reg := ⟨0x58001D, 0⟩
/-- R352, `0x5800.1E`. -/
def thermal_irq_clear : Reg := ⟨0x58001E, 0⟩
/-- R381, `0x70xx.01`. -/
def conv_table_a (i : Nat) : Reg := ⟨0x700001 + 256 * i, 0⟩
/-- R381, `0x70xx.02`. -/
def conv_table_a_len (i : Nat) : Reg := ⟨0x700002 + 256 * i, 16⟩
/-- R381, `0x70xx.03`. -/
def conv_table_b (i : Nat) : Reg := ⟨0x700003 + 256 * i, 0⟩
/-- R381, `0x70xx.04`. -/
def conv_table_b_len (i : Nat) : Reg := ⟨0x700004 + 256 * i, 4⟩
/-- R381, `0x70xx.05`. -/
def conv_result_a (i : Nat) : Reg := ⟨0x700005 + 256 * i, 0⟩
/-- R381, `0x70xx.06`. -/
def conv_result_b (i : Nat) : Reg := ⟨0x700006 + 256 * i, 0⟩
/-- R381, `0x70xx.07`. -/
def conv_ref_fused (i : Nat) : Reg := ⟨0x700007 + 256 * i, 0⟩
/-- R381, `0x70xx.08`. -/
def conv_state (i : Nat) : Reg := ⟨0x700008 + 256 * i, 0⟩
/-- R381, `0x70xx.09`. -/
def conv_sweeps (i : Nat) : Reg := ⟨0x700009 + 256 * i, 0⟩
/-- R381, `0x70xx.0A`. -/
def conv_resampled (i : Nat) : Reg := ⟨0x70000A + 256 * i, 0⟩
/-- R381, `0x70xx.0B`. -/
def conv_timed (i : Nat) : Reg := ⟨0x70000B + 256 * i, 0⟩
/-- R381, `0x70xx.0C`. -/
def conv_urgent (i : Nat) : Reg := ⟨0x70000C + 256 * i, 0⟩
/-- R381, `0x70xx.0D`. -/
def conv_urgent_result (i : Nat) : Reg := ⟨0x70000D + 256 * i, 0⟩
/-- R382, `0x7060.01`. -/
def conv_mode : Reg := ⟨0x706001, 0⟩
/-- R382, `0x7060.02`. -/
def fire_sample_pos : Reg := ⟨0x706002, 128⟩
/-- R382, `0x7060.03`. -/
def fire_sample_adj : Reg := ⟨0x706003, 0⟩
/-- R382, `0x7060.04`. -/
def fire_wait : Reg := ⟨0x706004, 64⟩
/-- R382, `0x7060.05`. -/
def table_b_interval : Reg := ⟨0x706005, 64⟩
/-- R382, `0x7060.06`. -/
def ref_tolerance : Reg := ⟨0x706006, 8⟩
/-- R382, `0x7060.07`. -/
def conv_failed : Reg := ⟨0x706007, 0⟩
/-- R382, `0x7060.08`. -/
def sync_source : Reg := ⟨0x706008, 0⟩
/-- R382, `0x7060.09`. -/
def sync_string : Reg := ⟨0x706009, 0⟩
/-- R382, `0x7060.0A`. -/
def sync_delay : Reg := ⟨0x70600A, 0⟩
/-- R382, `0x7060.0B`. -/
def sync_arm : Reg := ⟨0x70600B, 0⟩
/-- R382, `0x7060.0C`. -/
def sync_sweeps : Reg := ⟨0x70600C, 1⟩
/-- R382, `0x7060.0D`. -/
def sync_missed : Reg := ⟨0x70600D, 0⟩
/-- R382, `0x7060.0E`. -/
def sync_dropped : Reg := ⟨0x70600E, 0⟩
/-- R382, `0x7060.0F`. -/
def sync_capture : Reg := ⟨0x70600F, 0⟩
/-- R382, `0x7060.10`. -/
def urgent_count : Reg := ⟨0x706010, 0⟩
/-- R382, `0x7060.11`. -/
def urgent_refused : Reg := ⟨0x706011, 0⟩
/-- R383, `0x7050.01`. -/
def ba_vin : Reg := ⟨0x705001, 0⟩
/-- R383, `0x7050.02`. -/
def ba_trim_code : Reg := ⟨0x705002, 0⟩
/-- R383, `0x7050.03`. -/
def ba_ref_code : Reg := ⟨0x705003, 0⟩
/-- R383, `0x7050.04`. -/
def ba_state : Reg := ⟨0x705004, 0⟩
/-- R384, `0x7100.01`. -/
def iin_shunt : Reg := ⟨0x710001, 1000⟩
/-- R384, `0x7100.02`. -/
def iin_current : Reg := ⟨0x710002, 0⟩
/-- R384, `0x7100.03`. -/
def iin_charge : Reg := ⟨0x710003, 0⟩
/-- R384, `0x7100.04`. -/
def iin_overrange : Reg := ⟨0x710004, 0⟩
/-- R384, `0x7100.05`. -/
def iin_state : Reg := ⟨0x710005, 0⟩
/-- R423, `0x1100.01`. -/
def block_state : Reg := ⟨0x110001, 4⟩
/-- R423, `0x1100.02`. -/
def block_cmd : Reg := ⟨0x110002, 0⟩
/-- R423, `0x1100.03`. -/
def block_state_since : Reg := ⟨0x110003, 0⟩
/-- R423, `0x1100.06`. -/
def reset_cause : Reg := ⟨0x110006, 0⟩
/-- R423, `0x1100.07`. -/
def reset_count : Reg := ⟨0x110007, 0⟩
/-- R423, `0x1100.08`. -/
def trip_restart_count : Reg := ⟨0x110008, 0⟩
/-- R423, `0x1100.09`. -/
def vin_loss_count : Reg := ⟨0x110009, 0⟩
/-- R423, `0x1100.0A`. -/
def vin_restart_count : Reg := ⟨0x11000A, 0⟩
/-- R423, `0x1100.0B`. -/
def shutdown_cause : Reg := ⟨0x11000B, 0⟩
/-- R423, `0x1100.0C`. -/
def shutdown_pending : Reg := ⟨0x11000C, 0⟩
/-- R423, `0x1100.0D`. -/
def ramp_order : Reg := ⟨0x11000D, 0⟩
/-- R423, `0x1100.0E`. -/
def ramp_time : Reg := ⟨0x11000E, 500⟩
/-- R423, `0x1100.0F`. -/
def pg_window : Reg := ⟨0x11000F, 24⟩
/-- R423, `0x1100.10`. -/
def pg_deadline : Reg := ⟨0x110010, 1000⟩
/-- R423, `0x1100.11`. -/
def startup_time : Reg := ⟨0x110011, 0⟩
/-- R423, `0x1100.12`. -/
def selftest_result : Reg := ⟨0x110012, 0⟩
/-- R423, `0x1100.13`. -/
def vin_restart_delay : Reg := ⟨0x110013, 10⟩
/-- R423, `0x1100.14`. -/
def shutdown_fret_wait : Reg := ⟨0x110014, 100⟩
/-- R424, `0x200x.10`. -/
def rail_state (i : Nat) : Reg := ⟨0x200010 + 256 * i, 0⟩
/-- R424, `0x200x.11`. -/
def rail_ramp_v0 (i : Nat) : Reg := ⟨0x200011 + 256 * i, 0⟩
/-- R424, `0x200x.12`. -/
def rail_pg_time (i : Nat) : Reg := ⟨0x200012 + 256 * i, 0⟩
/-- R425, `0x38xx.0B`. -/
def course_discover (i : Nat) : Reg := ⟨0x38000B + 256 * i, 0⟩
/-- R458, `0x1200.01`. -/
def commit : Reg := ⟨0x120001, 0⟩
/-- R458, `0x1200.02`. -/
def commit_pending : Reg := ⟨0x120002, 0⟩
/-- R458, `0x1200.03`. -/
def commit_discard : Reg := ⟨0x120003, 0⟩
/-- R458, `0x1200.04`. -/
def commit_count : Reg := ⟨0x120004, 0⟩
/-- R460, `0x9000.01`. -/
def keeper_challenge : Reg := ⟨0x900001, 0⟩
/-- R460, `0x9000.02`. -/
def keeper_response : Reg := ⟨0x900002, 0⟩
/-- R460, `0x9000.03`. -/
def keeper_state : Reg := ⟨0x900003, 0⟩
/-- R460, `0x9000.04`. -/
def keeper_failures : Reg := ⟨0x900004, 0⟩
/-- R460, `0x9000.05`. -/
def keeper_lockout_left : Reg := ⟨0x900005, 0⟩
/-- R460, `0x9000.06`. -/
def keeper_drop : Reg := ⟨0x900006, 0⟩
/-- R460, `0x9000.07`. -/
def keeper_grants : Reg := ⟨0x900007, 0⟩
/-- R460, `0x9000.08`. -/
def keeper_lockouts : Reg := ⟨0x900008, 0⟩
/-- R461, `0x9100.01`. -/
def session_table : Reg := ⟨0x910001, 0⟩
/-- R461, `0x9100.02`. -/
def session_own : Reg := ⟨0x910002, 255⟩
/-- R461, `0x9100.03`. -/
def session_idle_limit : Reg := ⟨0x910003, 1000⟩
/-- R461, `0x9100.04`. -/
def session_busy_count : Reg := ⟨0x910004, 0⟩
/-- R461, `0x9100.05`. -/
def session_expired_count : Reg := ⟨0x910005, 0⟩
/-- R461, `0x9100.06`. -/
def session_evict : Reg := ⟨0x910006, 0⟩
/-- R461, `0x9100.07`. -/
def i3c_static_addr : Reg := ⟨0x910007, 0⟩
/-- R461, `0x9100.08`. -/
def i3c_dynamic_addr : Reg := ⟨0x910008, 0⟩
/-- R461, `0x9100.09`. -/
def request_count : Reg := ⟨0x910009, 0⟩
/-- R493, `0x780x.01`. -/
def dma_desc_addr (i : Nat) : Reg := ⟨0x780001 + 256 * i, 0⟩
/-- R493, `0x780x.02`. -/
def dma_cmd (i : Nat) : Reg := ⟨0x780002 + 256 * i, 0⟩
/-- R493, `0x780x.03`. -/
def dma_state (i : Nat) : Reg := ⟨0x780003 + 256 * i, 0⟩
/-- R493, `0x780x.04`. -/
def dma_status (i : Nat) : Reg := ⟨0x780004 + 256 * i, 0⟩
/-- R493, `0x780x.05`. -/
def dma_cur_desc (i : Nat) : Reg := ⟨0x780005 + 256 * i, 0⟩
/-- R493, `0x780x.06`. -/
def dma_residue (i : Nat) : Reg := ⟨0x780006 + 256 * i, 0⟩
/-- R493, `0x780x.07`. -/
def dma_chain_limit (i : Nat) : Reg := ⟨0x780007 + 256 * i, 1024⟩
/-- R493, `0x780x.08`. -/
def dma_mem_timeout (i : Nat) : Reg := ⟨0x780008 + 256 * i, 50⟩
/-- R493, `0x780x.09`. -/
def dma_pace_timeout (i : Nat) : Reg := ⟨0x780009 + 256 * i, 0⟩
/-- R493, `0x780x.0A`. -/
def dma_own_poll (i : Nat) : Reg := ⟨0x78000A + 256 * i, 10⟩
/-- R493, `0x780x.0B`. -/
def dma_req_count (i : Nat) : Reg := ⟨0x78000B + 256 * i, 0⟩
/-- R493, `0x780x.0C`. -/
def dma_desc_done (i : Nat) : Reg := ⟨0x78000C + 256 * i, 0⟩
/-- R493, `0x780x.0D`. -/
def dma_bytes (i : Nat) : Reg := ⟨0x78000D + 256 * i, 0⟩
/-- R493, `0x780x.0E`. -/
def dma_irq_enable (i : Nat) : Reg := ⟨0x78000E + 256 * i, 0⟩
/-- R493, `0x780x.0F`. -/
def dma_irq_status (i : Nat) : Reg := ⟨0x78000F + 256 * i, 0⟩
/-- R493, `0x780x.10`. -/
def dma_irq_clear (i : Nat) : Reg := ⟨0x780010 + 256 * i, 0⟩
/-- R493, `0x780x.11`. -/
def dma_preempted (i : Nat) : Reg := ⟨0x780011 + 256 * i, 0⟩
/-- R493, `0x780x.12`. -/
def dma_run_count (i : Nat) : Reg := ⟨0x780012 + 256 * i, 0⟩
/-- R494, `0x7810.01`. -/
def st_base : Reg := ⟨0x781001, 0⟩
/-- R494, `0x7810.02`. -/
def st_enable : Reg := ⟨0x781002, 0⟩
/-- R494, `0x7810.03`. -/
def st_state : Reg := ⟨0x781003, 0⟩
/-- R494, `0x7810.04`. -/
def st_installed : Reg := ⟨0x781004, 0⟩
/-- R494, `0x7810.05`. -/
def st_bad_entries : Reg := ⟨0x781005, 0⟩
/-- R494, `0x7810.06`. -/
def st_bad_map : Reg := ⟨0x781006, 0⟩
/-- R494, `0x7810.07`. -/
def st_wb_delay : Reg := ⟨0x781007, 10⟩
/-- R494, `0x7810.08`. -/
def st_flush : Reg := ⟨0x781008, 0⟩
/-- R494, `0x7810.09`. -/
def st_sel : Reg := ⟨0x781009, 0⟩
/-- R494, `0x7810.0A`. -/
def st_entry : Reg := ⟨0x78100A, 0⟩
/-- R494, `0x7810.0B`. -/
def st_host_fields : Reg := ⟨0x78100B, 0⟩
/-- R494, `0x7810.0C`. -/
def st_cache_hits : Reg := ⟨0x78100C, 0⟩
/-- R494, `0x7810.0D`. -/
def st_cache_misses : Reg := ⟨0x78100D, 0⟩
/-- R494, `0x7810.0E`. -/
def st_writebacks : Reg := ⟨0x78100E, 0⟩
/-- R494, `0x7810.0F`. -/
def st_parity_refetch : Reg := ⟨0x78100F, 0⟩
/-- R494, `0x7810.10`. -/
def st_update_lost : Reg := ⟨0x781010, 0⟩
/-- R516, `0x8000.01`. -/
def fault_count : Reg := ⟨0x800001, 0⟩
/-- R516, `0x8000.02`. -/
def fault_first_seq : Reg := ⟨0x800002, 0⟩
/-- R516, `0x8000.03`. -/
def fault_write_seq : Reg := ⟨0x800003, 0⟩
/-- R516, `0x8000.04`. -/
def fault_overflow : Reg := ⟨0x800004, 0⟩
/-- R516, `0x8000.05`. -/
def fault_freeze : Reg := ⟨0x800005, 0⟩
/-- R516, `0x8000.06`. -/
def fault_freeze_left : Reg := ⟨0x800006, 0⟩
/-- R516, `0x8000.07`. -/
def fault_hold_count : Reg := ⟨0x800007, 0⟩
/-- R516, `0x8000.08`. -/
def fault_hold_overflow : Reg := ⟨0x800008, 0⟩
/-- R516, `0x8000.09`. -/
def fault_sel : Reg := ⟨0x800009, 0⟩
/-- R516, `0x8000.0A`. -/
def fault_record : Reg := ⟨0x80000A, 0⟩
/-- R516, `0x8000.0B`. -/
def fault_latest : Reg := ⟨0x80000B, 0⟩
/-- R516, `0x8000.0C`. -/
def fault_clear : Reg := ⟨0x80000C, 0⟩
/-- R516, `0x8000.10`. -/
def rec_lost : Reg := ⟨0x800010, 0⟩
/-- R516, `0x8000.11`. -/
def rec_queue_max : Reg := ⟨0x800011, 0⟩
/-- R516, `0x8000.12`. -/
def rec_bad_crc : Reg := ⟨0x800012, 0⟩
/-- R517, `0x8100.01`. -/
def trace_write_seq : Reg := ⟨0x810001, 4294967295⟩
/-- R517, `0x8100.02`. -/
def trace_sel : Reg := ⟨0x810002, 0⟩
/-- R517, `0x8100.03`. -/
def trace_record : Reg := ⟨0x810003, 0⟩
/-- R517, `0x8100.04`. -/
def trace_clear : Reg := ⟨0x810004, 0⟩
/-- R518, `0x82xx.01`. -/
def trig_route (i : Nat) : Reg := ⟨0x820001 + 256 * i, (defaultRoute i : Nat)⟩
/-- R518, `0x82xx.02`. -/
def trig_class (i : Nat) : Reg := ⟨0x820002 + 256 * i, 0⟩
/-- R518, `0x82xx.03`. -/
def trig_snap_count (i : Nat) : Reg := ⟨0x820003 + 256 * i, ((defaultSnaps.getD i []).length : Nat)⟩
/-- R518, `0x82xx.04-.0F`. -/
def trig_snap (i : Nat) (k : Nat) : Reg := ⟨0x820004 + 256 * i + k, ((defaultSnaps.getD i []).getD k 0 : Nat)⟩
/-- R518, `0x82xx.10`. -/
def trig_count (i : Nat) : Reg := ⟨0x820010 + 256 * i, 0⟩
/-- R519, `0x38xx.0C`. -/
def course_record (i : Nat) : Reg := ⟨0x38000C + 256 * i, 0⟩
/-- R519, `0x38xx.0D`. -/
def course_record_state (i : Nat) : Reg := ⟨0x38000D + 256 * i, 0⟩
/-- R519, `0x38xx.0E`. -/
def course_record_copies (i : Nat) : Reg := ⟨0x38000E + 256 * i, 0⟩
/-- R547, `0x1100.15`. -/
def block_time : Reg := ⟨0x110015, 0⟩
/-- R547, `0x1100.16`. -/
def refclk_state : Reg := ⟨0x110016, 0⟩
/-- R547, `0x1100.17`. -/
def refclk_lost_count : Reg := ⟨0x110017, 0⟩
/-- R547, `0x1100.18`. -/
def island_clock_fault : Reg := ⟨0x110018, 0⟩
/-- R547, `0x1100.19`. -/
def port_breach_count : Reg := ⟨0x110019, 0⟩
/-- R547, `0x1100.1A`. -/
def port_breach_last : Reg := ⟨0x11001A, 0⟩
/-- R547, `0x1100.1B`. -/
def hmem_clk_freq : Reg := ⟨0x11001B, 0⟩
/-- R547, `0x1100.1C`. -/
def jtag_idcode : Reg := ⟨0x11001C, 821285207⟩

end Obj

/-- Rows of the object table, part 0. -/
def objRows0 : List ObjRow := [
  ⟨0x1000, 1, 0x1, 1, .u16, .ro, .whole, 0, .always, fun _ _ => Obj.vendor_id⟩,
  ⟨0x1000, 1, 0x2, 1, .u16, .ro, .whole, 0, .always, fun _ _ => Obj.product_id⟩,
  ⟨0x1000, 1, 0x3, 1, .u32, .ro, .whole, 0, .always, fun _ _ => Obj.version⟩,
  ⟨0x1000, 1, 0x4, 1, .u32, .ro, .whole, 0, .always, fun _ _ => Obj.config_hash⟩,
  ⟨0x1000, 1, 0x5, 1, .u8, .ro, .clamp (0) 2, 0, .always, fun _ _ => Obj.variant⟩,
  ⟨0x1010, 1, 0x1, 1, .u32, .ro, .whole, 0, .always, fun _ _ => Obj.units⟩,
  ⟨0x1010, 1, 0x2, 1, .u8, .ro, .whole, 0, .always, fun _ _ => Obj.vcore_regions⟩,
  ⟨0x1010, 1, 0x3, 1, .u8, .ro, .clamp (8) 16, 0, .always, fun _ _ => Obj.vcore_strings_per_region⟩,
  ⟨0x1010, 1, 0x4, 1, .u8, .ro, .whole, 0, .always, fun _ _ => Obj.vmem_regions⟩,
  ⟨0x1010, 1, 0x5, 1, .u8, .ro, .whole, 0, .always, fun _ _ => Obj.vlnk_regions⟩,
  ⟨0x1010, 1, 0x6, 1, .u16, .ro, .clamp (224) 1120, 0, .always, fun _ _ => Obj.strings_present⟩,
  ⟨0x1010, 1, 0x7, 1, .u8, .ro, .clamp (28) 140, 0, .always, fun _ _ => Obj.courses_present⟩,
  ⟨0x1010, 1, 0x8, 1, .u8, .ro, .clamp (22) 70, 0, .always, fun _ _ => Obj.converters_present⟩,
  ⟨0x2000, 3, 0x1, 1, .u16, .ro, .whole, 0, .always, fun i _ => Obj.rail_vmin i⟩,
  ⟨0x2000, 3, 0x2, 1, .u16, .ro, .whole, 0, .always, fun i _ => Obj.rail_vmax i⟩,
  ⟨0x2000, 3, 0x3, 1, .u8, .ro, .whole, 0, .always, fun i _ => Obj.rail_first_region i⟩,
  ⟨0x2000, 3, 0x4, 1, .u8, .ro, .whole, 0, .always, fun i _ => Obj.rail_regions_present i⟩,
  ⟨0x2000, 3, 0x5, 1, .u16, .ro, .whole, 0, .always, fun i _ => Obj.rail_strings_present i⟩,
  ⟨0x2000, 3, 0x6, 1, .u16, .ro, .whole, 0, .always, fun i _ => Obj.rail_design_current i⟩,
  ⟨0x2000, 3, 0x7, 1, .u16, .ro, .clamp (0) 40960, 0, .always, fun i _ => Obj.rail_active_capability i⟩,
  ⟨0x2000, 3, 0x8, 1, .u32, .ro, .clamp (0) 400000, 0, .always, fun i _ => Obj.rail_current i⟩,
  ⟨0x2100, 76, 0x1, 1, .u8, .ro, .clamp (0) 2, 0, .always, fun i _ => Obj.region_rail i⟩,
  ⟨0x2100, 76, 0x2, 1, .u8, .ro, .whole, 0, .always, fun i _ => Obj.region_grid_pos i⟩,
  ⟨0x2100, 76, 0x3, 4, .u8, .ro, .whole, 0, .always, fun i k => Obj.region_neighbour i k⟩,
  ⟨0x2100, 76, 0x7, 1, .u8, .ro, .clamp (8) 16, 0, .always, fun i _ => Obj.region_strings_present i⟩,
  ⟨0x2100, 76, 0x8, 1, .u8, .ro, .clamp (0) 16, 0, .always, fun i _ => Obj.region_strings_muted i⟩,
  ⟨0x2100, 76, 0x9, 1, .u16, .ro, .whole, 0, .always, fun i _ => Obj.region_current i⟩,
  ⟨0x2100, 76, 0xA, 1, .u16, .ro, .clamp (0) 640, 0, .always, fun i _ => Obj.region_active_capability i⟩,
  ⟨0x2100, 76, 0xB, 1, .u16, .ro, .clamp (0) 1024, 0, .always, fun i _ => Obj.region_shortterm_capability i⟩,
  ⟨0x2100, 76, 0xC, 1, .u8, .ro, .whole, 0, .always, fun i _ => Obj.region_strings_needed i⟩,
  ⟨0x2100, 76, 0xD, 1, .u16, .ro, .clamp (0) 384, 0, .always, fun i _ => Obj.region_lateral_capability i⟩,
  ⟨0x2100, 76, 0xE, 1, .u16, .ro, .whole, 0, .always, fun i _ => Obj.region_utilisation i⟩,
  ⟨0x2100, 76, 0xF, 4, .u8, .ro, .whole, 0, .always, fun i k => Obj.region_td_neighbour i k⟩,
  ⟨0x2200, 1, 0x1, 1, .u16, .rw, .clamp (125) 500, 1, .always, fun _ _ => Obj.tsw_target⟩,
  ⟨0x2200, 1, 0x2, 1, .u16, .rw, .clamp (16) 160, 1, .always, fun _ _ => Obj.toff_min⟩,
  ⟨0x2200, 1, 0x3, 1, .u16, .rw, .clamp (8) 160, 1, .always, fun _ _ => Obj.ton_min⟩,
  ⟨0x2200, 1, 0x4, 1, .u16, .rw, .clamp (8) 160, 1, .always, fun _ _ => Obj.ton_max⟩,
  ⟨0x2200, 1, 0x5, 1, .u8, .rw, .clamp (1) 4, 0, .always, fun _ _ => Obj.fire_space_min⟩,
  ⟨0x2200, 1, 0x6, 1, .u8, .rw, .clamp (8) 80, 0, .always, fun _ _ => Obj.pick_dev_limit⟩,
  ⟨0x2200, 1, 0x7, 1, .u8, .rw, .clamp (1) 64, 0, .always, fun _ _ => Obj.pick_dev_periods⟩]

/-- Rows of the object table, part 1. -/
def objRows1 : List ObjRow := [
  ⟨0x2200, 1, 0x8, 1, .u8, .rw, .clamp (4) 255, 0, .always, fun _ _ => Obj.pick_stuck_periods⟩,
  ⟨0x2200, 1, 0x9, 1, .u8, .rw, .clamp (1) 255, 0, .always, fun _ _ => Obj.pick_parity_limit⟩,
  ⟨0x2200, 1, 0xA, 1, .u8, .rw, .clamp (4) 255, 0, .always, fun _ _ => Obj.pick_probation⟩,
  ⟨0x2200, 1, 0xB, 1, .u8, .rw, .clamp (0) 16, 0, .always, fun _ _ => Obj.pick_borrow_guard⟩,
  ⟨0x2200, 1, 0xC, 1, .u8, .ro, .clamp (31) 125, 0, .always, fun _ _ => Obj.ripple_window⟩,
  ⟨0x2200, 1, 0xD, 1, .u8, .ro, .whole, 0, .always, fun _ _ => Obj.band_hyst⟩,
  ⟨0x2200, 1, 0xE, 4, .u8, .rw, .clamp (0) 128, 0, .always, fun _ k => Obj.band_amp k⟩,
  ⟨0x2200, 1, 0x12, 4, .u8, .rw, .clamp (32) 128, 0, .always, fun _ k => Obj.band_slope k⟩,
  ⟨0x2200, 1, 0x16, 4, .u16, .rw, .clamp (224) 288, 0, .always, fun _ k => Obj.band_ton_corr k⟩,
  ⟨0x2200, 1, 0x1A, 4, .u8, .rw, .clamp (0) 16, 0, .always, fun _ k => Obj.band_tguard k⟩,
  ⟨0x2100, 76, 0x13, 1, .u16, .ro, .clamp (0) 6208, 0, .always, fun i _ => Obj.region_vref i⟩,
  ⟨0x2100, 76, 0x14, 1, .u16, .ro, .clamp (0) 6640, 0, .always, fun i _ => Obj.region_vmin i⟩,
  ⟨0x2100, 76, 0x15, 1, .u16, .ro, .whole, 0, .always, fun i _ => Obj.region_pickup_valid i⟩,
  ⟨0x2100, 76, 0x16, 1, .u32, .ro, .whole, 0, .always, fun i _ => Obj.region_pickup_cause i⟩,
  ⟨0x2100, 76, 0x17, 1, .u16, .cmd, .bits 0x1FF, 0, .always, fun i _ => Obj.region_pickup_clear i⟩,
  ⟨0x2100, 76, 0x18, 1, .u16, .rw, .bits 0x1FF, 0, .always, fun i _ => Obj.region_pickup_force i⟩,
  ⟨0x2100, 76, 0x19, 1, .u8, .ro, .clamp (0) 2, 0, .always, fun i _ => Obj.region_vmin_source i⟩,
  ⟨0x2100, 76, 0x1A, 1, .u8, .ro, .clamp (0) 3, 0, .always, fun i _ => Obj.region_band i⟩,
  ⟨0x2100, 76, 0x1B, 1, .u16, .ro, .clamp (0) 8000, 0, .always, fun i _ => Obj.region_vin i⟩,
  ⟨0x2100, 76, 0x1C, 1, .u8, .ro, .clamp (0) 2, 0, .always, fun i _ => Obj.region_vin_source i⟩,
  ⟨0x2100, 76, 0x1D, 1, .u16, .ro, .clamp (0) 2560, 0, .always, fun i _ => Obj.region_ton_base i⟩,
  ⟨0x2100, 76, 0x1E, 1, .u16, .ro, .clamp (0) 1000, 0, .always, fun i _ => Obj.region_fire_count i⟩,
  ⟨0x2100, 76, 0x1F, 1, .blob 18, .ro, .whole, 0, .always, fun i _ => Obj.region_pickup_cal i⟩,
  ⟨0x2200, 1, 0x20, 1, .u8, .rw, .clamp (8) 64, 4, .always, fun _ _ => Obj.strum_depth⟩,
  ⟨0x2200, 1, 0x21, 1, .u8, .rw, .clamp (4) 40, 4, .always, fun _ _ => Obj.strum_slope⟩,
  ⟨0x2200, 1, 0x22, 1, .u8, .rw, .clamp (16) 120, 4, .always, fun _ _ => Obj.release_depth⟩,
  ⟨0x2200, 1, 0x23, 1, .u8, .rw, .clamp (48) 200, 4, .always, fun _ _ => Obj.ov_offset⟩,
  ⟨0x2200, 1, 0x24, 1, .u8, .rw, .clamp (20) 80, 0, .always, fun _ _ => Obj.strum_mult⟩,
  ⟨0x2200, 1, 0x25, 1, .u8, .rw, .clamp (1) 8, 0, .always, fun _ _ => Obj.strum_max⟩,
  ⟨0x2200, 1, 0x26, 1, .u16, .ro, .whole, 0, .always, fun _ _ => Obj.strum_lockout⟩,
  ⟨0x2200, 1, 0x27, 1, .u8, .ro, .whole, 0, .always, fun _ _ => Obj.ov_blank⟩,
  ⟨0x2200, 1, 0x28, 1, .u8, .ro, .whole, 0, .always, fun _ _ => Obj.strum_toff⟩,
  ⟨0x2200, 1, 0x29, 1, .u8, .rw, .clamp (1) 255, 0, .always, fun _ _ => Obj.twin_strum_limit⟩,
  ⟨0x2200, 1, 0x2A, 1, .u8, .rw, .clamp (0) 50, 5, .always, fun _ _ => Obj.shed_level⟩,
  ⟨0x2200, 1, 0x2B, 1, .u8, .rw, .clamp (2) 16, 5, .always, fun _ _ => Obj.shed_min⟩,
  ⟨0x2200, 1, 0x2C, 1, .u8, .rw, .clamp (20) 95, 5, .always, fun _ _ => Obj.rejoin_level⟩,
  ⟨0x2200, 1, 0x2D, 1, .u8, .rw, .clamp (4) 200, 0, .always, fun _ _ => Obj.shed_hold⟩,
  ⟨0x2200, 1, 0x2E, 1, .u8, .rw, .clamp (1) 64, 0, .always, fun _ _ => Obj.shed_interval⟩,
  ⟨0x2200, 1, 0x2F, 1, .u8, .rw, .clamp (20) 40, 0, .always, fun _ _ => Obj.pre_mult⟩,
  ⟨0x2200, 1, 0x30, 1, .u8, .rw, .clamp (1) 16, 0, .always, fun _ _ => Obj.pre_fires⟩]

/-- Rows of the object table, part 2. -/
def objRows2 : List ObjRow := [
  ⟨0x2200, 1, 0x31, 1, .u16, .rw, .clamp (100) 10000, 0, .always, fun _ _ => Obj.pre_window⟩,
  ⟨0x2000, 3, 0x9, 1, .u16, .ro, .whole, 0, .always, fun i _ => Obj.rail_ov_ceiling i⟩,
  ⟨0x2000, 3, 0xA, 1, .u8, .ro, .clamp (0) 1, 0, .always, fun i _ => Obj.rail_damped i⟩,
  ⟨0x2100, 76, 0x20, 1, .u32, .ro, .whole, 0, .always, fun i _ => Obj.region_strum_count i⟩,
  ⟨0x2100, 76, 0x21, 1, .u32, .ro, .whole, 0, .always, fun i _ => Obj.region_spread_count i⟩,
  ⟨0x2100, 76, 0x22, 1, .u16, .ro, .whole, 0, .always, fun i _ => Obj.region_spread_refused i⟩,
  ⟨0x2100, 76, 0x23, 1, .u16, .ro, .whole, 0, .always, fun i _ => Obj.region_strum_locked i⟩,
  ⟨0x2100, 76, 0x24, 1, .u64, .ro, .whole, 0, .always, fun i _ => Obj.region_last_strum i⟩,
  ⟨0x2100, 76, 0x25, 1, .u8, .rw, .clamp (0) 1, 0, .always, fun i _ => Obj.region_spread_enable i⟩,
  ⟨0x2100, 76, 0x26, 1, .u16, .ro, .whole, 0, .always, fun i _ => Obj.region_release_count i⟩,
  ⟨0x2100, 76, 0x27, 1, .u32, .ro, .whole, 0, .always, fun i _ => Obj.region_twin_disagree i⟩,
  ⟨0x2100, 76, 0x28, 1, .u8, .ro, .clamp (0) 16, 0, .always, fun i _ => Obj.region_strings_shed i⟩,
  ⟨0x2100, 76, 0x29, 1, .u8, .ro, .clamp (0) 200, 0, .always, fun i _ => Obj.region_shed_hold i⟩,
  ⟨0x2100, 76, 0x2A, 1, .u8, .ro, .clamp (0) 2, 0, .always, fun i _ => Obj.region_prestrum i⟩,
  ⟨0x2100, 76, 0x2B, 1, .u64, .ro, .whole, 0, .always, fun i _ => Obj.region_prestrum_start i⟩,
  ⟨0x2100, 76, 0x2C, 1, .u16, .ro, .whole, 0, .always, fun i _ => Obj.region_prestrum_cancelled i⟩,
  ⟨0x2100, 76, 0x2D, 1, .u16, .ro, .whole, 0, .always, fun i _ => Obj.region_wake_wait i⟩,
  ⟨0x2300, 1, 0x1, 1, .u8, .rw, .clamp (50) 100, 0, .always, fun _ _ => Obj.wake_util_limit⟩,
  ⟨0x2300, 1, 0x2, 1, .u16, .rw, .clamp (0) 4000, 0, .always, fun _ _ => Obj.wake_quiet⟩,
  ⟨0x2300, 1, 0x3, 1, .u16, .ro, .whole, 0, .always, fun _ _ => Obj.wake_space⟩,
  ⟨0x2300, 1, 0x4, 1, .u16, .rw, .clamp (250) 65535, 0, .always, fun _ _ => Obj.wake_max_wait⟩,
  ⟨0x2300, 1, 0x5, 1, .u16, .rw, .clamp (0) 250, 0, .always, fun _ _ => Obj.wake_neigh_space⟩,
  ⟨0x2300, 1, 0x6, 1, .u16, .rw, .clamp (0) 1000, 0, .always, fun _ _ => Obj.wake_ungate_delay⟩,
  ⟨0x2300, 1, 0x7, 1, .u32, .ro, .whole, 0, .always, fun _ _ => Obj.wake_grant_count⟩,
  ⟨0x2300, 1, 0x8, 1, .u32, .ro, .whole, 0, .always, fun _ _ => Obj.wake_timeout_count⟩,
  ⟨0x2300, 1, 0x9, 1, .u16, .ro, .whole, 0, .always, fun _ _ => Obj.wake_hold_requests⟩,
  ⟨0x2300, 1, 0xA, 1, .blob 10, .ro, .whole, 0, .always, fun _ _ => Obj.wake_pending⟩,
  ⟨0x1100, 1, 0x4, 1, .u32, .ro, .whole, 0, .always, fun _ _ => Obj.service_reasons⟩,
  ⟨0x1100, 1, 0x5, 1, .u32, .rwk, .bits 0x3FF, 0, .always, fun _ _ => Obj.service_clear⟩,
  ⟨0x3000, 1120, 0x1, 1, .u8, .ro, .clamp (0) 5, 0, .always, fun i _ => Obj.string_state i⟩,
  ⟨0x3000, 1120, 0x2, 1, .u8, .ro, .clamp (0) 7, 0, .always, fun i _ => Obj.string_cause i⟩,
  ⟨0x3000, 1120, 0x3, 1, .u8, .ro, .clamp (0) 6, 0, .always, fun i _ => Obj.string_blind_cause i⟩,
  ⟨0x3000, 1120, 0x4, 1, .s32, .ro, .clamp (-200) 1000, 0, .always, fun i _ => Obj.string_current i⟩,
  ⟨0x3000, 1120, 0x5, 1, .q15, .ro, .whole, 0, .always, fun i _ => Obj.string_trim i⟩,
  ⟨0x3000, 1120, 0x6, 1, .u8, .ro, .whole, 0, .always, fun i _ => Obj.string_ramp_level i⟩,
  ⟨0x3000, 1120, 0x7, 1, .u8, .ro, .clamp (0) 15, 0, .always, fun i _ => Obj.string_ramp_step i⟩,
  ⟨0x3000, 1120, 0x8, 1, .u8, .ro, .whole, 0, .always, fun i _ => Obj.string_open_counter i⟩,
  ⟨0x3000, 1120, 0x9, 1, .u16, .ro, .whole, 0, .always, fun i _ => Obj.string_hiccup_count i⟩,
  ⟨0x3000, 1120, 0xA, 1, .u16, .ro, .whole, 0, .always, fun i _ => Obj.string_mute_count i⟩,
  ⟨0x3000, 1120, 0xB, 1, .u64, .ro, .whole, 0, .always, fun i _ => Obj.string_last_change i⟩]

/-- Rows of the object table, part 3. -/
def objRows3 : List ObjRow := [
  ⟨0x3000, 1120, 0xC, 1, .u8, .cmd, .only 1 4, 0, .always, fun i _ => Obj.string_cmd i⟩,
  ⟨0x3800, 140, 0x1, 1, .u8, .ro, .clamp (0) 1, 0, .always, fun i _ => Obj.course_present i⟩,
  ⟨0x3800, 140, 0x2, 1, .u32, .ro, .whole, 0, .always, fun i _ => Obj.course_stat_frame i⟩,
  ⟨0x3800, 140, 0x3, 1, .u8, .ro, .clamp (0) 1, 0, .always, fun i _ => Obj.course_lane_state i⟩,
  ⟨0x3800, 140, 0x4, 1, .u16, .ro, .whole, 0, .always, fun i _ => Obj.course_lane_errors i⟩,
  ⟨0x3800, 140, 0x5, 1, .u8, .ro, .clamp (0) 1, 0, .always, fun i _ => Obj.course_flt i⟩,
  ⟨0x3800, 140, 0x6, 1, .u8, .ro, .clamp (0) 1, 0, .always, fun i _ => Obj.course_backstop i⟩,
  ⟨0x3800, 140, 0x7, 1, .u16, .ro, .whole, 0, .always, fun i _ => Obj.course_fault_count i⟩,
  ⟨0x3800, 140, 0x8, 1, .u8, .ro, .whole, 0, .always, fun i _ => Obj.course_faults_hour i⟩,
  ⟨0x3800, 140, 0x9, 1, .u16, .ro, .whole, 0, .always, fun i _ => Obj.course_status_word i⟩,
  ⟨0x3800, 140, 0xA, 1, .blob 32, .ro, .whole, 0, .always, fun i _ => Obj.course_ident i⟩,
  ⟨0x3900, 1, 0x1, 1, .u8, .rw, .clamp (16) 255, 0, .always, fun _ _ => Obj.open_count⟩,
  ⟨0x3900, 1, 0x2, 1, .u8, .rw, .clamp (10) 100, 0, .always, fun _ _ => Obj.open_level⟩,
  ⟨0x3900, 1, 0x3, 1, .u16, .rw, .clamp (100) 400, 0, .always, fun _ _ => Obj.open_mean_min⟩,
  ⟨0x3900, 1, 0x4, 1, .u8, .rw, .clamp (30) 90, 0, .always, fun _ _ => Obj.absorb_ratio⟩,
  ⟨0x3900, 1, 0x5, 1, .u8, .rw, .clamp (16) 255, 0, .always, fun _ _ => Obj.sense_stuck_samples⟩,
  ⟨0x3900, 1, 0x6, 1, .u8, .rw, .clamp (8) 255, 0, .always, fun _ _ => Obj.sense_sat_periods⟩,
  ⟨0x3900, 1, 0x7, 1, .u16, .rw, .clamp (25) 400, 0, .always, fun _ _ => Obj.sense_share_dev⟩,
  ⟨0x3900, 1, 0x8, 1, .u8, .rw, .clamp (25) 90, 0, .always, fun _ _ => Obj.slope_min⟩,
  ⟨0x3900, 1, 0x9, 1, .u16, .rw, .clamp (100) 2000, 0, .always, fun _ _ => Obj.string_l_nominal⟩,
  ⟨0x3900, 1, 0xA, 1, .u8, .rw, .clamp (1) 16, 0, .always, fun _ _ => Obj.hiccup_max⟩,
  ⟨0x3900, 1, 0xB, 1, .u16, .ro, .whole, 0, .always, fun _ _ => Obj.hiccup_window⟩,
  ⟨0x3900, 1, 0xC, 1, .u8, .rw, .clamp (1) 64, 0, .always, fun _ _ => Obj.return_ramp⟩,
  ⟨0x3900, 1, 0xD, 1, .u8, .rw, .clamp (0) 24, 0, .always, fun _ _ => Obj.neigh_assist⟩,
  ⟨0x3900, 1, 0xE, 1, .u8, .rw, .clamp (50) 95, 0, .always, fun _ _ => Obj.assist_util⟩,
  ⟨0x3900, 1, 0xF, 1, .u8, .rw, .clamp (1) 16, 0, .always, fun _ _ => Obj.svc_region_muted⟩,
  ⟨0x3900, 1, 0x10, 1, .u16, .rw, .clamp (1) 1120, 0, .always, fun _ _ => Obj.svc_total_muted⟩,
  ⟨0x3900, 1, 0x11, 1, .u16, .rw, .clamp (1) 1120, 0, .always, fun _ _ => Obj.svc_blind⟩,
  ⟨0x3900, 1, 0x12, 1, .u8, .rw, .clamp (1) 9, 0, .always, fun _ _ => Obj.svc_pickups⟩,
  ⟨0x3900, 1, 0x13, 1, .u16, .rw, .clamp (1) 65535, 0, .always, fun _ _ => Obj.svc_parity_limit⟩,
  ⟨0x3900, 1, 0x14, 1, .u8, .rw, .clamp (1) 255, 0, .always, fun _ _ => Obj.course_fault_limit⟩,
  ⟨0x3900, 1, 0x15, 1, .u32, .ro, .whole, 0, .always, fun _ _ => Obj.parity_error_count⟩,
  ⟨0x3900, 1, 0x16, 1, .u16, .ro, .clamp (0) 1120, 0, .always, fun _ _ => Obj.strings_muted_total⟩,
  ⟨0x3900, 1, 0x17, 1, .u16, .ro, .clamp (0) 1120, 0, .always, fun _ _ => Obj.strings_blind_total⟩,
  ⟨0x2100, 76, 0x2E, 1, .u8, .ro, .clamp (0) 15, 0, .always, fun i _ => Obj.region_capo_ceiling i⟩,
  ⟨0x2100, 76, 0x2F, 1, .u8, .ro, .clamp (0) 1, 0, .always, fun i _ => Obj.region_hold i⟩,
  ⟨0x2100, 76, 0x30, 1, .u8, .ro, .clamp (0) 24, 0, .always, fun i _ => Obj.region_assist i⟩,
  ⟨0x2100, 76, 0x31, 1, .u8, .ro, .clamp (0) 16, 0, .always, fun i _ => Obj.region_strings_blind i⟩,
  ⟨0x2100, 76, 0x32, 1, .u8, .ro, .clamp (0) 16, 0, .always, fun i _ => Obj.region_strings_hiccup i⟩,
  ⟨0x2100, 76, 0x33, 1, .u8, .ro, .clamp (0) 16, 0, .always, fun i _ => Obj.region_strings_returning i⟩]

/-- Rows of the object table, part 4. -/
def objRows4 : List ObjRow := [
  ⟨0x4000, 1, 0x1, 1, .u16, .ro, .whole, 0, .always, fun _ _ => Obj.engine_period⟩,
  ⟨0x4000, 1, 0x2, 1, .blob 10, .cmd, .bits (2 ^ 80 - 1), 0, .always, fun _ _ => Obj.bank_swap⟩,
  ⟨0x4000, 1, 0x3, 1, .blob 10, .ro, .whole, 0, .always, fun _ _ => Obj.bank_swap_pending⟩,
  ⟨0x4000, 1, 0x4, 1, .u8, .rw, .clamp (4) 64, 0, .always, fun _ _ => Obj.plaus_limit⟩,
  ⟨0x4000, 1, 0x5, 1, .u8, .rw, .clamp (2) 64, 0, .always, fun _ _ => Obj.plaus_periods⟩,
  ⟨0x4000, 1, 0x6, 1, .u8, .rw, .clamp (2) 255, 0, .always, fun _ _ => Obj.plaus_clear⟩,
  ⟨0x4000, 1, 0x7, 1, .u8, .rw, .clamp (0) 2, 6, .always, fun _ _ => Obj.trim_mode⟩,
  ⟨0x4000, 1, 0x8, 1, .u16, .rw, .clamp (0) 512, 6, .always, fun _ _ => Obj.trim_gain⟩,
  ⟨0x4000, 1, 0x9, 1, .s16, .rw, .clamp (-256) 256, 6, .always, fun _ _ => Obj.trim_offset⟩,
  ⟨0x4000, 1, 0xA, 1, .u8, .rw, .bits 0x7, 0, .always, fun _ _ => Obj.trim_rails⟩,
  ⟨0x4000, 1, 0xB, 1, .u16, .rw, .clamp (0) 1000, 0, .always, fun _ _ => Obj.trim_hold⟩,
  ⟨0x4000, 1, 0xC, 1, .s16, .ro, .clamp (-512) 504, 0, .always, fun _ _ => Obj.trim_value⟩,
  ⟨0x4000, 1, 0xD, 1, .s16, .ro, .clamp (-512) 504, 0, .always, fun _ _ => Obj.trim_raw⟩,
  ⟨0x4000, 1, 0xE, 1, .u8, .ro, .clamp (0) 3, 0, .always, fun _ _ => Obj.trim_state⟩,
  ⟨0x4000, 1, 0xF, 1, .u16, .ro, .clamp (0) 31250, 0, .always, fun _ _ => Obj.trim_pwm_period⟩,
  ⟨0x4000, 1, 0x10, 1, .u64, .ro, .whole, 0, .always, fun _ _ => Obj.engine_period_count⟩,
  ⟨0x4100, 79, 0x1, 1, .u8, .ro, .clamp (0) 1, 0, .always, fun i _ => Obj.ch_type i⟩,
  ⟨0x4100, 79, 0x2, 1, .u8, .ro, .clamp (0) 1, 0, .always, fun i _ => Obj.ch_active_bank i⟩,
  ⟨0x4100, 79, 0x3, 1, .u32, .ro, .whole, 0, .always, fun i _ => Obj.ch_swap_count i⟩,
  ⟨0x4100, 79, 0x4, 1, .u8, .ro, .whole, 0, .always, fun i _ => Obj.ch_flags i⟩,
  ⟨0x4100, 79, 0x5, 1, .u8, .ro, .whole, 0, .always, fun i _ => Obj.ch_flags_live i⟩,
  ⟨0x4100, 79, 0x6, 1, .u8, .cmd, .bits 0x1F, 0, .always, fun i _ => Obj.ch_flags_clear i⟩,
  ⟨0x4100, 79, 0x7, 1, .u16, .ro, .clamp (24576) 40960, 0, .always, fun i _ => Obj.ch_kff i⟩,
  ⟨0x4100, 79, 0x8, 1, .s16, .ro, .clamp (-51) 51, 0, .always, fun i _ => Obj.ch_cons_offset i⟩,
  ⟨0x4100, 79, 0x9, 1, .s16, .ro, .clamp (-51) 51, 0, .always, fun i _ => Obj.ch_ref_offset i⟩,
  ⟨0x4100, 79, 0xA, 1, .s16, .ro, .whole, 0, .always, fun i _ => Obj.ch_plaus_dev i⟩,
  ⟨0x4100, 79, 0xB, 1, .u8, .ro, .clamp (0) 1, 0, .always, fun i _ => Obj.ch_doubt i⟩,
  ⟨0x4100, 79, 0xC, 1, .u16, .ro, .whole, 0, .always, fun i _ => Obj.ch_doubt_count i⟩,
  ⟨0x4100, 79, 0x10, 1, .u16, .ro, .clamp (0) 6080, 0, .always, fun i _ => Obj.rail_sp_target i⟩,
  ⟨0x4100, 79, 0x11, 1, .u16, .ro, .clamp (0) 6080, 0, .always, fun i _ => Obj.rail_setpoint i⟩,
  ⟨0x4100, 79, 0x12, 1, .u16, .ro, .clamp (0) 256, 0, .always, fun i _ => Obj.rail_bump i⟩,
  ⟨0x4100, 79, 0x13, 1, .u8, .rw, .clamp (4) 80, 0, .always, fun i _ => Obj.rail_slew i⟩,
  ⟨0x4100, 79, 0x14, 1, .u8, .rw, .clamp (20) 160, 0, .always, fun i _ => Obj.rail_bump_slew i⟩,
  ⟨0x4100, 79, 0x15, 1, .u8, .rw, .clamp (0) 200, 0, .always, fun i _ => Obj.rail_load_line i⟩,
  ⟨0x4100, 79, 0x16, 1, .u8, .ro, .clamp (0) 1, 0, .always, fun i _ => Obj.rail_sp_settled i⟩,
  ⟨0x4100, 79, 0x17, 1, .u32, .ro, .clamp (0) 400000, 0, .always, fun i _ => Obj.rail_current_filtered i⟩,
  ⟨0x4200, 79, 0x1, 24, .s32, .rw, .whole, 0, .always, fun i k => Obj.coef_shadow i k⟩,
  ⟨0x4200, 79, 0x21, 24, .u8, .rw, .clamp (0) 31, 0, .always, fun i k => Obj.shift_shadow i k⟩,
  ⟨0x4200, 79, 0x41, 24, .s32, .ro, .whole, 0, .always, fun i k => Obj.coef_active i k⟩,
  ⟨0x4200, 79, 0x61, 24, .u8, .ro, .clamp (0) 31, 0, .always, fun i k => Obj.shift_active i k⟩]

/-- Rows of the object table, part 5. -/
def objRows5 : List ObjRow := [
  ⟨0x4800, 1, 0x1, 16, .u16, .ro, .clamp (400) 760, 0, .always, fun _ k => Obj.tune_chip k⟩,
  ⟨0x4800, 1, 0x11, 16, .u16, .ro, .clamp (400) 760, 0, .always, fun _ k => Obj.tune_matched k⟩,
  ⟨0x4800, 1, 0x21, 1, .u16, .ro, .clamp (520) 680, 0, .always, fun _ _ => Obj.tune_vmem⟩,
  ⟨0x4800, 1, 0x22, 1, .u16, .ro, .clamp (600) 760, 0, .always, fun _ _ => Obj.tune_vlnk⟩,
  ⟨0x4800, 1, 0x23, 1, .u16, .ro, .clamp (520) 680, 0, .always, fun _ _ => Obj.tune_vmem_matched⟩,
  ⟨0x4800, 1, 0x24, 1, .u16, .ro, .clamp (600) 760, 0, .always, fun _ _ => Obj.tune_vlnk_matched⟩,
  ⟨0x4800, 1, 0x25, 1, .u8, .ro, .clamp (8) 16, 0, .always, fun _ _ => Obj.age_guard⟩,
  ⟨0x4800, 1, 0x26, 1, .u8, .ro, .clamp (16) 36, 0, .always, fun _ _ => Obj.soundpost_floor⟩,
  ⟨0x4800, 1, 0x27, 1, .u8, .rwk, .clamp 0 64, 0, .always, fun _ _ => Obj.tguard⟩,
  ⟨0x4800, 1, 0x28, 1, .u8, .ro, .clamp (0) 1, 0, .always, fun _ _ => Obj.tune_source⟩,
  ⟨0x4800, 1, 0x29, 1, .u16, .ro, .whole, 0, .always, fun _ _ => Obj.tune_adjusted⟩,
  ⟨0x4800, 1, 0x2A, 1, .u8, .ro, .clamp (0) 15, 0, .always, fun _ _ => Obj.speed_grade⟩,
  ⟨0x4800, 1, 0x2B, 1, .u8, .rwk, .clamp (0) 1, 0, .always, fun _ _ => Obj.matched_enable⟩,
  ⟨0x4800, 1, 0x2C, 1, .u8, .ro, .clamp (0) 2, 0, .always, fun _ _ => Obj.matched_state⟩,
  ⟨0x4800, 1, 0x2D, 1, .u16, .ro, .whole, 0, .always, fun _ _ => Obj.matched_exceed⟩,
  ⟨0x4800, 1, 0x2E, 1, .u32, .ro, .whole, 0, .always, fun _ _ => Obj.matched_ceiling_events⟩,
  ⟨0x4800, 1, 0x2F, 1, .blob 192, .ro, .whole, 0, .always, fun _ _ => Obj.matched_model⟩,
  ⟨0x4800, 1, 0x30, 1, .u16, .rw, .clamp (500) 20000, 0, .always, fun _ _ => Obj.fret_ack_timeout⟩,
  ⟨0x4800, 1, 0x31, 1, .u32, .ro, .whole, 0, .always, fun _ _ => Obj.fret_ack_late⟩,
  ⟨0x4800, 1, 0x32, 1, .u8, .rwk, .clamp (0) 1, 0, .learner, fun _ _ => Obj.recovery_enable⟩,
  ⟨0x4800, 1, 0x33, 1, .u8, .rw, .clamp (0) 24, 0, .learner, fun _ _ => Obj.recovery_max⟩,
  ⟨0x4800, 1, 0x34, 1, .u8, .rw, .clamp (4) 24, 0, .learner, fun _ _ => Obj.recovery_margin⟩,
  ⟨0x4800, 1, 0x35, 1, .u16, .rw, .clamp (8) 1024, 0, .learner, fun _ _ => Obj.recovery_window⟩,
  ⟨0x4800, 1, 0x36, 1, .u16, .rw, .clamp (1) 1000, 0, .learner, fun _ _ => Obj.recovery_hold⟩,
  ⟨0x4800, 1, 0x37, 1, .u16, .ro, .whole, 0, .learner, fun _ _ => Obj.recovery_lead⟩,
  ⟨0x4800, 1, 0x38, 1, .u32, .ro, .whole, 0, .learner, fun _ _ => Obj.recovery_strum_resets⟩,
  ⟨0x4800, 1, 0x39, 1, .blob 96, .ro, .whole, 0, .learner, fun _ _ => Obj.recovery_class⟩,
  ⟨0x2000, 3, 0xB, 1, .u8, .ro, .clamp (0) 15, 0, .always, fun i _ => Obj.rail_fret_needed i⟩,
  ⟨0x2000, 3, 0xC, 1, .u16, .ro, .clamp (0) 760, 0, .always, fun i _ => Obj.rail_vtune i⟩,
  ⟨0x2000, 3, 0xD, 1, .u8, .ro, .clamp (16) 64, 0, .always, fun i _ => Obj.rail_tguard i⟩,
  ⟨0x2000, 3, 0xE, 1, .u8, .ro, .clamp (0) 24, 0, .always, fun i _ => Obj.rail_recovery i⟩,
  ⟨0x2000, 3, 0xF, 1, .u8, .ro, .clamp (0) 15, 0, .always, fun i _ => Obj.rail_fret_fit i⟩,
  ⟨0x2100, 76, 0x34, 1, .u8, .ro, .clamp (0) 15, 0, .always, fun i _ => Obj.region_fret i⟩,
  ⟨0x2100, 76, 0x35, 1, .u8, .ro, .clamp (0) 15, 0, .always, fun i _ => Obj.region_fret_target i⟩,
  ⟨0x2100, 76, 0x36, 1, .u8, .rw, .clamp (0) 15, 0, .always, fun i _ => Obj.region_fret_request i⟩,
  ⟨0x2100, 76, 0x37, 1, .u8, .ro, .clamp (0) 3, 0, .always, fun i _ => Obj.region_fret_step i⟩,
  ⟨0x2100, 76, 0x38, 1, .u32, .ro, .whole, 0, .always, fun i _ => Obj.region_fret_changes i⟩,
  ⟨0x5000, 1, 0x1, 1, .u16, .rw, .clamp (300) 3000, 3, .always, fun _ _ => Obj.cap_w⟩,
  ⟨0x5000, 1, 0x2, 1, .u8, .rw, .clamp (5) 100, 3, .always, fun _ _ => Obj.thermal_step⟩,
  ⟨0x5000, 1, 0x3, 1, .u16, .ro, .clamp (0) 3000, 0, .always, fun _ _ => Obj.cap_limit⟩]

/-- Rows of the object table, part 6. -/
def objRows6 : List ObjRow := [
  ⟨0x5000, 1, 0x4, 1, .u8, .ro, .clamp (0) 200, 0, .always, fun _ _ => Obj.cap_thermal_steps⟩,
  ⟨0x5000, 1, 0x5, 1, .u8, .ro, .whole, 0, .always, fun _ _ => Obj.cap_state⟩,
  ⟨0x5000, 1, 0x6, 1, .u8, .ro, .whole, 0, .always, fun _ _ => Obj.cap_binding⟩,
  ⟨0x5000, 1, 0x7, 1, .u16, .rw, .clamp (0) 32768, 0, .always, fun _ _ => Obj.cap_ki⟩,
  ⟨0x5000, 1, 0x8, 1, .u8, .rw, .clamp (1) 25, 0, .always, fun _ _ => Obj.cap_int_max⟩,
  ⟨0x5000, 1, 0x9, 1, .s16, .ro, .clamp (-7500) 7500, 0, .always, fun _ _ => Obj.cap_int⟩,
  ⟨0x5000, 1, 0xA, 1, .u32, .ro, .whole, 0, .always, fun _ _ => Obj.cap_int_hold⟩,
  ⟨0x5000, 1, 0xB, 1, .u16, .ro, .whole, 0, .always, fun _ _ => Obj.cap_used_power⟩,
  ⟨0x5000, 1, 0xC, 1, .u16, .ro, .clamp (26214) 32768, 0, .always, fun _ _ => Obj.cap_eff⟩,
  ⟨0x5000, 1, 0xD, 1, .u8, .rw, .clamp (50) 100, 0, .always, fun _ _ => Obj.cap_util_max⟩,
  ⟨0x5000, 1, 0xE, 1, .blob 32, .rw, .whole, 0, .always, fun _ _ => Obj.cap_class_weight⟩,
  ⟨0x5000, 1, 0xF, 1, .u8, .ro, .whole, 0, .always, fun _ _ => Obj.cap_dither_region⟩,
  ⟨0x5000, 1, 0x10, 1, .u8, .ro, .clamp (0) 10, 0, .always, fun _ _ => Obj.cap_dither_upper⟩,
  ⟨0x5000, 1, 0x11, 1, .u8, .rw, .clamp (5) 100, 0, .always, fun _ _ => Obj.cap_floor_release⟩,
  ⟨0x5000, 1, 0x12, 1, .u32, .ro, .whole, 0, .always, fun _ _ => Obj.cap_floor_count⟩,
  ⟨0x5000, 1, 0x13, 1, .u32, .ro, .whole, 0, .always, fun _ _ => Obj.cap_floor_ms⟩,
  ⟨0x5000, 1, 0x14, 1, .u8, .rw, .clamp (20) 250, 0, .always, fun _ _ => Obj.disagree_pct⟩,
  ⟨0x5000, 1, 0x15, 1, .u16, .rw, .clamp (10) 500, 0, .always, fun _ _ => Obj.disagree_w⟩,
  ⟨0x5000, 1, 0x16, 1, .u8, .rw, .clamp (1) 64, 0, .always, fun _ _ => Obj.disagree_ms⟩,
  ⟨0x5000, 1, 0x17, 1, .u8, .rw, .clamp (4) 255, 0, .always, fun _ _ => Obj.disagree_clear⟩,
  ⟨0x5000, 1, 0x18, 1, .u32, .ro, .whole, 0, .always, fun _ _ => Obj.disagree_count⟩,
  ⟨0x5000, 1, 0x19, 1, .u8, .ro, .whole, 0, .always, fun _ _ => Obj.disagree_shards⟩,
  ⟨0x5000, 1, 0x1A, 1, .u8, .rw, .bits 0x1F, 0, .always, fun _ _ => Obj.cap_irq_enable⟩,
  ⟨0x5000, 1, 0x1B, 1, .u8, .ro, .whole, 0, .always, fun _ _ => Obj.cap_irq_status⟩,
  ⟨0x5000, 1, 0x1C, 1, .u8, .cmd, .bits 0x1F, 0, .always, fun _ _ => Obj.cap_irq_clear⟩,
  ⟨0x5000, 1, 0x1D, 1, .u64, .ro, .whole, 0, .always, fun _ _ => Obj.cap_step_count⟩,
  ⟨0x5100, 1, 0x1, 1, .u64, .ro, .whole, 0, .always, fun _ _ => Obj.energy_delivered⟩,
  ⟨0x5100, 1, 0x2, 1, .u64, .ro, .whole, 0, .iin, fun _ _ => Obj.energy_input⟩,
  ⟨0x5100, 1, 0x3, 1, .u32, .ro, .clamp (0) 4000000, 0, .always, fun _ _ => Obj.power_delivered⟩,
  ⟨0x5100, 1, 0x4, 3, .u32, .ro, .clamp (0) 4000000, 0, .always, fun _ k => Obj.power_rail k⟩,
  ⟨0x5100, 1, 0x7, 1, .u32, .ro, .clamp (0) 4000000, 0, .iin, fun _ _ => Obj.power_input⟩,
  ⟨0x5100, 1, 0x8, 1, .u32, .ro, .clamp (0) 4000000, 0, .always, fun _ _ => Obj.power_estimate⟩,
  ⟨0x5200, 1, 0x1, 1, .blob 10, .rw, .bits (2 ^ 76 - 1), 7, .always, fun _ _ => Obj.telem_mode⟩,
  ⟨0x5200, 1, 0x2, 1, .u8, .rw, .clamp (1) 64, 7, .always, fun _ _ => Obj.telem_grain⟩,
  ⟨0x5200, 1, 0x3, 1, .blob 672, .ro, .whole, 0, .always, fun _ _ => Obj.telem_frame⟩,
  ⟨0x5200, 1, 0x4, 1, .u32, .ro, .whole, 0, .always, fun _ _ => Obj.telem_seq⟩,
  ⟨0x5200, 1, 0x5, 1, .u32, .ro, .whole, 0, .always, fun _ _ => Obj.telem_dropped⟩,
  ⟨0x2100, 76, 0x39, 1, .u8, .ro, .clamp (0) 15, 0, .always, fun i _ => Obj.region_capo i⟩,
  ⟨0x2100, 76, 0x3A, 1, .u8, .ro, .clamp (0) 15, 0, .always, fun i _ => Obj.region_capo_max i⟩,
  ⟨0x2100, 76, 0x3B, 1, .u16, .ro, .whole, 0, .always, fun i _ => Obj.region_cap_current i⟩]

/-- Rows of the object table, part 7. -/
def objRows7 : List ObjRow := [
  ⟨0x2100, 76, 0x3C, 1, .u8, .ro, .clamp (0) 3, 0, .always, fun i _ => Obj.region_cap_source i⟩,
  ⟨0x2100, 76, 0x3D, 1, .u8, .ro, .clamp (0) 1, 0, .always, fun i _ => Obj.region_thr_req i⟩,
  ⟨0x6000, 1, 0x1, 1, .u16, .rw, .clamp (50) 2000, 0, .learner, fun _ _ => Obj.conf_limit⟩,
  ⟨0x6000, 1, 0x2, 1, .u8, .rw, .clamp (4) 12, 0, .learner, fun _ _ => Obj.conf_shift⟩,
  ⟨0x6000, 1, 0x3, 1, .u16, .rw, .clamp (256) 65535, 0, .learner, fun _ _ => Obj.conf_min_obs⟩,
  ⟨0x6000, 1, 0x4, 1, .u8, .rw, .clamp (25) 100, 0, .learner, fun _ _ => Obj.pred_floor_pct⟩,
  ⟨0x6000, 1, 0x5, 1, .u16, .rw, .clamp (500) 10000, 0, .learner, fun _ _ => Obj.droop_window⟩,
  ⟨0x6000, 1, 0x6, 1, .u8, .rw, .clamp (1) 255, 0, .learner, fun _ _ => Obj.droop_min_obs⟩,
  ⟨0x6000, 1, 0x7, 1, .u8, .rw, .clamp (0) 100, 0, .learner, fun _ _ => Obj.lead_margin⟩,
  ⟨0x6000, 1, 0x8, 1, .u32, .ro, .whole, 0, .learner, fun _ _ => Obj.learn_clamp_floor⟩,
  ⟨0x6000, 1, 0x9, 1, .u32, .ro, .whole, 0, .learner, fun _ _ => Obj.learn_clamp_ceil⟩,
  ⟨0x6000, 1, 0xA, 1, .u32, .ro, .whole, 0, .learner, fun _ _ => Obj.learn_requant_up⟩,
  ⟨0x6000, 1, 0xB, 1, .u32, .ro, .whole, 0, .learner, fun _ _ => Obj.learn_requant_down⟩,
  ⟨0x6000, 1, 0xC, 1, .u32, .ro, .whole, 0, .learner, fun _ _ => Obj.learn_cell_resets⟩,
  ⟨0x6000, 1, 0xD, 1, .u16, .ro, .clamp (0) 2432, 0, .learner, fun _ _ => Obj.learn_confident_cells⟩,
  ⟨0x6000, 1, 0xE, 1, .u32, .ro, .whole, 0, .learner, fun _ _ => Obj.learn_conf_changes⟩,
  ⟨0x6000, 1, 0xF, 1, .u32, .ro, .whole, 0, .learner, fun _ _ => Obj.learn_act_missing⟩,
  ⟨0x6000, 1, 0x40, 32, .blob 10, .ro, .whole, 0, .learner, fun _ k => Obj.learn_conf k⟩,
  ⟨0x6000, 1, 0x60, 32, .blob 152, .ro, .whole, 0, .learner, fun _ k => Obj.learn_resid k⟩,
  ⟨0x6000, 1, 0x80, 32, .blob 152, .ro, .whole, 0, .learner, fun _ k => Obj.learn_pred k⟩,
  ⟨0x6000, 1, 0xA0, 1, .blob 96, .ro, .whole, 0, .learner, fun _ _ => Obj.learn_droop⟩,
  ⟨0x6000, 1, 0xA1, 1, .blob 96, .ro, .whole, 0, .learner, fun _ _ => Obj.learn_droop_obs⟩,
  ⟨0x6000, 1, 0xA2, 1, .blob 76, .ro, .whole, 0, .learner, fun _ _ => Obj.learn_region_class⟩,
  ⟨0x6400, 1, 0x1, 1, .u32, .ro, .whole, 0, .always, fun _ _ => Obj.hint_accepted⟩,
  ⟨0x6400, 1, 0x2, 1, .u16, .ro, .clamp (0) 16384, 0, .always, fun _ _ => Obj.hint_entries⟩,
  ⟨0x6400, 1, 0x3, 1, .u16, .ro, .clamp (0) 16384, 0, .always, fun _ _ => Obj.hint_entries_max⟩,
  ⟨0x6400, 1, 0x4, 1, .u32, .ro, .whole, 0, .always, fun _ _ => Obj.hint_coalesced_class⟩,
  ⟨0x6400, 1, 0x5, 1, .u32, .ro, .whole, 0, .always, fun _ _ => Obj.hint_coalesced_near⟩,
  ⟨0x6400, 1, 0x6, 1, .u32, .ro, .whole, 0, .always, fun _ _ => Obj.hint_dropped⟩,
  ⟨0x6400, 1, 0x7, 1, .u32, .ro, .whole, 0, .always, fun _ _ => Obj.hint_late⟩,
  ⟨0x6400, 1, 0x8, 1, .u32, .ro, .whole, 0, .always, fun _ _ => Obj.hint_invalid⟩,
  ⟨0x6400, 1, 0x9, 1, .u32, .ro, .whole, 0, .always, fun _ _ => Obj.hint_discarded_state⟩,
  ⟨0x6400, 1, 0xA, 1, .u16, .rw, .clamp (0) 4095, 0, .always, fun _ _ => Obj.hint_merge_span⟩,
  ⟨0x6400, 1, 0xB, 1, .u16, .rw, .clamp (0) 1000, 0, .always, fun _ _ => Obj.hint_bump_hold⟩,
  ⟨0x6400, 1, 0xC, 1, .blob 16, .ro, .whole, 0, .always, fun _ _ => Obj.hint_last⟩,
  ⟨0x6400, 1, 0xD, 1, .u64, .ro, .whole, 0, .always, fun _ _ => Obj.hint_next_start⟩,
  ⟨0x6400, 1, 0xE, 1, .blob 3, .ro, .whole, 0, .always, fun _ _ => Obj.hint_bump_request⟩,
  ⟨0x6400, 1, 0xF, 1, .u8, .rw, .bits 0x7, 0, .always, fun _ _ => Obj.hint_irq_enable⟩,
  ⟨0x6400, 1, 0x10, 1, .u8, .ro, .whole, 0, .always, fun _ _ => Obj.hint_irq_status⟩,
  ⟨0x6400, 1, 0x11, 1, .u8, .cmd, .bits 0x7, 0, .always, fun _ _ => Obj.hint_irq_clear⟩]

/-- Rows of the object table, part 8. -/
def objRows8 : List ObjRow := [
  ⟨0x6400, 1, 0x40, 32, .blob 152, .ro, .whole, 0, .always, fun _ k => Obj.class_static k⟩,
  ⟨0x6400, 1, 0x60, 1, .blob 96, .ro, .whole, 0, .always, fun _ _ => Obj.class_static_droop⟩,
  ⟨0x6400, 1, 0x61, 1, .blob 32, .ro, .whole, 0, .always, fun _ _ => Obj.class_static_lead⟩,
  ⟨0x6000, 1, 0x10, 1, .u32, .ro, .whole, 0, .learner, fun _ _ => Obj.learn_global_steps⟩,
  ⟨0x6000, 1, 0x11, 1, .u16, .ro, .whole, 0, .learner, fun _ _ => Obj.learn_step_delay⟩,
  ⟨0x6000, 1, 0x12, 1, .blob 32, .rw, .whole, 0, .learner, fun _ _ => Obj.learn_group_w⟩,
  ⟨0x6000, 1, 0x13, 1, .blob 32, .rw, .whole, 0, .learner, fun _ _ => Obj.learn_group_b⟩,
  ⟨0x6000, 1, 0x14, 1, .u32, .ro, .whole, 0, .learner, fun _ _ => Obj.learn_eta_stale_count⟩,
  ⟨0x6000, 1, 0x15, 1, .u16, .rw, .bits 0x1F7F, 0, .learner, fun _ _ => Obj.learn_cell_sel⟩,
  ⟨0x6000, 1, 0x16, 1, .blob 192, .rw, .whole, 0, .learner, fun _ _ => Obj.learn_cell⟩,
  ⟨0x6000, 1, 0x17, 1, .u32, .ro, .whole, 0, .learner, fun _ _ => Obj.learn_import_refused⟩,
  ⟨0x6000, 1, 0x18, 1, .u8, .ro, .whole, 0, .learner, fun _ _ => Obj.learn_import_last⟩,
  ⟨0x6000, 1, 0x19, 1, .u8, .rw, .bits 0x7, 0, .learner, fun _ _ => Obj.learn_irq_enable⟩,
  ⟨0x6000, 1, 0x1A, 1, .u8, .ro, .whole, 0, .learner, fun _ _ => Obj.learn_irq_status⟩,
  ⟨0x6000, 1, 0x1B, 1, .u8, .cmd, .bits 0x7, 0, .learner, fun _ _ => Obj.learn_irq_clear⟩,
  ⟨0x6100, 64, 0x1, 1, .q15, .rw, .clamp (0) 32767, 0, .learner, fun i _ => Obj.group_eta i⟩,
  ⟨0x6100, 64, 0x2, 1, .q15, .rw, .clamp (0) 32767, 0, .learner, fun i _ => Obj.group_decay i⟩,
  ⟨0x6100, 64, 0x3, 1, .u8, .rw, .clamp (0) 10, 0, .learner, fun i _ => Obj.group_rule i⟩,
  ⟨0x6100, 64, 0x4, 1, .u8, .rw, .clamp (0) 1, 0, .learner, fun i _ => Obj.group_frozen i⟩,
  ⟨0x6100, 64, 0x5, 1, .u8, .ro, .clamp (0) 1, 0, .learner, fun i _ => Obj.group_eta_written i⟩,
  ⟨0x6100, 64, 0x6, 1, .u8, .ro, .clamp (0) 1, 0, .learner, fun i _ => Obj.group_eta_stale i⟩,
  ⟨0x6100, 64, 0x7, 1, .u16, .ro, .clamp (0) 2432, 0, .learner, fun i _ => Obj.group_members i⟩,
  ⟨0x6100, 64, 0x8, 1, .u32, .ro, .whole, 0, .learner, fun i _ => Obj.group_updates i⟩,
  ⟨0x6200, 11, 0x1, 1, .q15, .rw, .clamp (0) 32767, 0, .learner, fun i _ => Obj.slot_a1 i⟩,
  ⟨0x6200, 11, 0x2, 1, .q15, .rw, .clamp (0) 32767, 0, .learner, fun i _ => Obj.slot_a2 i⟩,
  ⟨0x6200, 11, 0x3, 1, .q15, .rw, .clamp (0) 32767, 0, .learner, fun i _ => Obj.slot_b1 i⟩,
  ⟨0x6200, 11, 0x4, 1, .q15, .rw, .clamp (0) 32767, 0, .learner, fun i _ => Obj.slot_b2 i⟩,
  ⟨0x6200, 11, 0x5, 1, .q15, .rw, .clamp (-32768) 32767, 0, .learner, fun i _ => Obj.slot_c1 i⟩,
  ⟨0x6200, 11, 0x6, 1, .q15, .rw, .clamp (-32768) 32767, 0, .learner, fun i _ => Obj.slot_c2 i⟩,
  ⟨0x6200, 11, 0x7, 1, .q15, .rw, .clamp (-32768) 32767, 0, .learner, fun i _ => Obj.slot_c3 i⟩,
  ⟨0x6200, 11, 0x8, 1, .u8, .rw, .bits 0x3, 0, .learner, fun i _ => Obj.slot_flags i⟩,
  ⟨0x6200, 11, 0x9, 1, .u8, .cmd, .clamp 1 1, 0, .learner, fun i _ => Obj.slot_apply i⟩,
  ⟨0x6200, 11, 0xA, 1, .u8, .ro, .clamp (0) 1, 0, .learner, fun i _ => Obj.slot_ready i⟩,
  ⟨0x6200, 11, 0xB, 1, .u8, .ro, .clamp (0) 64, 0, .learner, fun i _ => Obj.slot_users i⟩,
  ⟨0x6200, 11, 0xC, 7, .q15, .ro, .whole, 0, .learner, fun i k => Obj.slot_applied i k⟩,
  ⟨0x6200, 11, 0x13, 1, .u8, .ro, .whole, 0, .learner, fun i _ => Obj.slot_applied i 7⟩,
  ⟨0x6300, 8, 0x1, 1, .u32, .ro, .clamp (0) 16777215, 0, .learner, fun i _ => Obj.shard_counter i⟩,
  ⟨0x6300, 8, 0x2, 1, .u8, .ro, .clamp (0) 4, 0, .learner, fun i _ => Obj.shard_state i⟩,
  ⟨0x6300, 8, 0x3, 1, .u8, .rw, .clamp (0) 1, 0, .learner, fun i _ => Obj.shard_halt i⟩,
  ⟨0x6300, 8, 0x4, 1, .u8, .ro, .clamp (0) 9, 0, .learner, fun i _ => Obj.shard_last_outcome i⟩,
  ⟨0x6300, 8, 0x5, 1, .u32, .ro, .whole, 0, .learner, fun i _ => Obj.shard_commits i⟩]

/-- Rows of the object table, part 9. -/
def objRows9 : List ObjRow := [
  ⟨0x6300, 8, 0x6, 1, .u32, .ro, .whole, 0, .learner, fun i _ => Obj.shard_discards i⟩,
  ⟨0x6300, 8, 0x7, 1, .u32, .ro, .whole, 0, .learner, fun i _ => Obj.shard_skips i⟩,
  ⟨0x6300, 8, 0x8, 1, .u16, .ro, .whole, 0, .learner, fun i _ => Obj.shard_ctr_fixed i⟩,
  ⟨0x6300, 8, 0x9, 1, .u16, .ro, .clamp (0) 1392, 0, .learner, fun i _ => Obj.shard_pass_cycles i⟩,
  ⟨0x6300, 8, 0xA, 1, .u16, .ro, .clamp (0) 320, 0, .learner, fun i _ => Obj.shard_cells_visited i⟩,
  ⟨0x6300, 8, 0xB, 1, .u32, .ro, .whole, 0, .learner, fun i _ => Obj.shard_grad_sat i⟩,
  ⟨0x6300, 8, 0xC, 1, .u32, .ro, .whole, 0, .learner, fun i _ => Obj.shard_param_sat i⟩,
  ⟨0x6300, 8, 0xD, 1, .u8, .cmd, .clamp (1) 2, 0, .learner, fun i _ => Obj.shard_xfer i⟩,
  ⟨0x5800, 1, 0x1, 1, .blob 152, .ro, .whole, 0, .always, fun _ _ => Obj.diode_reading⟩,
  ⟨0x5800, 1, 0x2, 1, .blob 152, .ro, .whole, 0, .always, fun _ _ => Obj.region_temp⟩,
  ⟨0x5800, 1, 0x3, 1, .blob 10, .ro, .whole, 0, .always, fun _ _ => Obj.diode_valid⟩,
  ⟨0x5800, 1, 0x4, 1, .blob 76, .ro, .whole, 0, .always, fun _ _ => Obj.diode_cause⟩,
  ⟨0x5800, 1, 0x5, 1, .blob 10, .cmd, .bits (2 ^ 76 - 1), 0, .always, fun _ _ => Obj.diode_clear⟩,
  ⟨0x5800, 1, 0x6, 1, .blob 10, .rw, .bits (2 ^ 76 - 1), 0, .always, fun _ _ => Obj.diode_force⟩,
  ⟨0x5800, 1, 0x7, 1, .u8, .rw, .clamp (40) 240, 0, .always, fun _ _ => Obj.cross_limit⟩,
  ⟨0x5800, 1, 0x8, 1, .u8, .rw, .clamp (4) 255, 0, .always, fun _ _ => Obj.diode_probation⟩,
  ⟨0x5800, 1, 0x9, 1, .s16, .rw, .clamp (480) 960, 2, .always, fun _ _ => Obj.warn_level⟩,
  ⟨0x5800, 1, 0xA, 1, .u8, .rw, .clamp (8) 160, 2, .always, fun _ _ => Obj.warn_hyst⟩,
  ⟨0x5800, 1, 0xB, 1, .s16, .rw, .clamp (560) 960, 2, .always, fun _ _ => Obj.throttle_level⟩,
  ⟨0x5800, 1, 0xC, 1, .u8, .rw, .clamp (8) 160, 2, .always, fun _ _ => Obj.throttle_hyst⟩,
  ⟨0x5800, 1, 0xD, 1, .s16, .ro, .clamp (880) 1000, 0, .always, fun _ _ => Obj.shutdown_level⟩,
  ⟨0x5800, 1, 0xE, 1, .s16, .rw, .clamp (320) 800, 2, .always, fun _ _ => Obj.restart_level⟩,
  ⟨0x5800, 1, 0xF, 1, .u8, .ro, .whole, 0, .always, fun _ _ => Obj.thermal_state⟩,
  ⟨0x5800, 1, 0x10, 1, .blob 76, .ro, .whole, 0, .always, fun _ _ => Obj.thermal_capo_limit⟩,
  ⟨0x5800, 1, 0x11, 1, .u32, .ro, .whole, 0, .always, fun _ _ => Obj.throttle_step_count⟩,
  ⟨0x5800, 1, 0x12, 1, .u32, .ro, .whole, 0, .always, fun _ _ => Obj.warn_count⟩,
  ⟨0x5800, 1, 0x13, 1, .u32, .ro, .whole, 0, .always, fun _ _ => Obj.trip_count⟩,
  ⟨0x5800, 1, 0x14, 1, .blob 24, .ro, .whole, 0, .always, fun _ _ => Obj.trip_history⟩,
  ⟨0x5800, 1, 0x15, 1, .u8, .ro, .whole, 0, .always, fun _ _ => Obj.trip_last_diode⟩,
  ⟨0x5800, 1, 0x16, 1, .u16, .ro, .clamp (0) 1000, 0, .always, fun _ _ => Obj.restart_timer⟩,
  ⟨0x5800, 1, 0x17, 1, .s16, .ro, .clamp (-320) 1200, 0, .always, fun _ _ => Obj.hottest_reading⟩,
  ⟨0x5800, 1, 0x18, 1, .u8, .ro, .whole, 0, .always, fun _ _ => Obj.hottest_diode⟩,
  ⟨0x5800, 1, 0x19, 1, .u8, .ro, .whole, 0, .always, fun _ _ => Obj.front_end_failed⟩,
  ⟨0x5800, 1, 0x1A, 1, .u16, .ro, .whole, 0, .always, fun _ _ => Obj.tband⟩,
  ⟨0x5800, 1, 0x1B, 1, .u8, .ro, .clamp (0) 1, 0, .always, fun _ _ => Obj.trip_test_disabled⟩,
  ⟨0x5800, 1, 0x1C, 1, .u8, .rw, .bits 0x7, 0, .always, fun _ _ => Obj.thermal_irq_enable⟩,
  ⟨0x5800, 1, 0x1D, 1, .u8, .ro, .whole, 0, .always, fun _ _ => Obj.thermal_irq_status⟩,
  ⟨0x5800, 1, 0x1E, 1, .u8, .cmd, .bits 0x7, 0, .always, fun _ _ => Obj.thermal_irq_clear⟩,
  ⟨0x7000, 70, 0x1, 1, .blob 32, .rw, .whole, 0, .always, fun i _ => Obj.conv_table_a i⟩,
  ⟨0x7000, 70, 0x2, 1, .u8, .rw, .clamp (1) 16, 0, .always, fun i _ => Obj.conv_table_a_len i⟩]

/-- Rows of the object table, part 10. -/
def objRows10 : List ObjRow := [
  ⟨0x7000, 70, 0x3, 1, .blob 32, .rw, .whole, 0, .always, fun i _ => Obj.conv_table_b i⟩,
  ⟨0x7000, 70, 0x4, 1, .u8, .rw, .clamp (1) 16, 0, .always, fun i _ => Obj.conv_table_b_len i⟩,
  ⟨0x7000, 70, 0x5, 1, .blob 32, .ro, .whole, 0, .always, fun i _ => Obj.conv_result_a i⟩,
  ⟨0x7000, 70, 0x6, 1, .blob 32, .ro, .whole, 0, .always, fun i _ => Obj.conv_result_b i⟩,
  ⟨0x7000, 70, 0x7, 1, .u16, .ro, .clamp (0) 4095, 0, .always, fun i _ => Obj.conv_ref_fused i⟩,
  ⟨0x7000, 70, 0x8, 1, .u8, .ro, .clamp (0) 1, 0, .always, fun i _ => Obj.conv_state i⟩,
  ⟨0x7000, 70, 0x9, 1, .u32, .ro, .whole, 0, .always, fun i _ => Obj.conv_sweeps i⟩,
  ⟨0x7000, 70, 0xA, 1, .u32, .ro, .whole, 0, .always, fun i _ => Obj.conv_resampled i⟩,
  ⟨0x7000, 70, 0xB, 1, .u32, .ro, .whole, 0, .always, fun i _ => Obj.conv_timed i⟩,
  ⟨0x7000, 70, 0xC, 1, .u32, .cmd, .whole, 0, .always, fun i _ => Obj.conv_urgent i⟩,
  ⟨0x7000, 70, 0xD, 1, .u16, .ro, .whole, 0, .always, fun i _ => Obj.conv_urgent_result i⟩,
  ⟨0x7060, 1, 0x1, 1, .u8, .ro, .clamp (0) 3, 0, .always, fun _ _ => Obj.conv_mode⟩,
  ⟨0x7060, 1, 0x2, 1, .u8, .rw, .clamp (32) 224, 0, .always, fun _ _ => Obj.fire_sample_pos⟩,
  ⟨0x7060, 1, 0x3, 1, .s8, .rw, .clamp (-16) 16, 0, .always, fun _ _ => Obj.fire_sample_adj⟩,
  ⟨0x7060, 1, 0x4, 1, .u8, .rw, .clamp (16) 255, 0, .always, fun _ _ => Obj.fire_wait⟩,
  ⟨0x7060, 1, 0x5, 1, .u8, .ro, .whole, 0, .always, fun _ _ => Obj.table_b_interval⟩,
  ⟨0x7060, 1, 0x6, 1, .u8, .rw, .clamp (2) 64, 0, .always, fun _ _ => Obj.ref_tolerance⟩,
  ⟨0x7060, 1, 0x7, 1, .blob 9, .ro, .whole, 0, .always, fun _ _ => Obj.conv_failed⟩,
  ⟨0x7060, 1, 0x8, 1, .u8, .rw, .clamp (0) 1, 0, .always, fun _ _ => Obj.sync_source⟩,
  ⟨0x7060, 1, 0x9, 1, .u16, .rw, .clamp (0) 1119, 0, .always, fun _ _ => Obj.sync_string⟩,
  ⟨0x7060, 1, 0xA, 1, .u16, .rw, .clamp (0) 65535, 0, .always, fun _ _ => Obj.sync_delay⟩,
  ⟨0x7060, 1, 0xB, 1, .u8, .cmd, .clamp (0) 2, 0, .always, fun _ _ => Obj.sync_arm⟩,
  ⟨0x7060, 1, 0xC, 1, .u8, .rw, .clamp (1) 255, 0, .always, fun _ _ => Obj.sync_sweeps⟩,
  ⟨0x7060, 1, 0xD, 1, .u32, .ro, .whole, 0, .always, fun _ _ => Obj.sync_missed⟩,
  ⟨0x7060, 1, 0xE, 1, .u32, .ro, .whole, 0, .always, fun _ _ => Obj.sync_dropped⟩,
  ⟨0x7060, 1, 0xF, 1, .blob 2240, .ro, .whole, 0, .always, fun _ _ => Obj.sync_capture⟩,
  ⟨0x7060, 1, 0x10, 1, .u32, .ro, .whole, 0, .always, fun _ _ => Obj.urgent_count⟩,
  ⟨0x7060, 1, 0x11, 1, .u32, .ro, .whole, 0, .always, fun _ _ => Obj.urgent_refused⟩,
  ⟨0x7050, 1, 0x1, 1, .u16, .ro, .clamp (0) 9600, 0, .always, fun _ _ => Obj.ba_vin⟩,
  ⟨0x7050, 1, 0x2, 1, .u16, .ro, .clamp (0) 4095, 0, .always, fun _ _ => Obj.ba_trim_code⟩,
  ⟨0x7050, 1, 0x3, 1, .u16, .ro, .clamp (0) 4095, 0, .always, fun _ _ => Obj.ba_ref_code⟩,
  ⟨0x7050, 1, 0x4, 1, .u8, .ro, .clamp (0) 1, 0, .always, fun _ _ => Obj.ba_state⟩,
  ⟨0x7100, 1, 0x1, 1, .u16, .rw, .clamp (250) 1200, 0, .iin, fun _ _ => Obj.iin_shunt⟩,
  ⟨0x7100, 1, 0x2, 1, .u32, .ro, .clamp (0) 100000, 0, .iin, fun _ _ => Obj.iin_current⟩,
  ⟨0x7100, 1, 0x3, 1, .u32, .ro, .whole, 0, .iin, fun _ _ => Obj.iin_charge⟩,
  ⟨0x7100, 1, 0x4, 1, .u32, .ro, .whole, 0, .iin, fun _ _ => Obj.iin_overrange⟩,
  ⟨0x7100, 1, 0x5, 1, .u8, .ro, .clamp (0) 2, 0, .iin, fun _ _ => Obj.iin_state⟩,
  ⟨0x1100, 1, 0x1, 1, .u8, .ro, .clamp (1) 10, 0, .always, fun _ _ => Obj.block_state⟩,
  ⟨0x1100, 1, 0x2, 1, .u8, .rwk, .only 1 2, 0, .always, fun _ _ => Obj.block_cmd⟩,
  ⟨0x1100, 1, 0x3, 1, .u64, .ro, .whole, 0, .always, fun _ _ => Obj.block_state_since⟩]

/-- Rows of the object table, part 11. -/
def objRows11 : List ObjRow := [
  ⟨0x1100, 1, 0x6, 1, .u8, .ro, .clamp (0) 1, 0, .always, fun _ _ => Obj.reset_cause⟩,
  ⟨0x1100, 1, 0x7, 1, .u32, .ro, .whole, 0, .always, fun _ _ => Obj.reset_count⟩,
  ⟨0x1100, 1, 0x8, 1, .u32, .ro, .whole, 0, .always, fun _ _ => Obj.trip_restart_count⟩,
  ⟨0x1100, 1, 0x9, 1, .u32, .ro, .whole, 0, .always, fun _ _ => Obj.vin_loss_count⟩,
  ⟨0x1100, 1, 0xA, 1, .u32, .ro, .whole, 0, .always, fun _ _ => Obj.vin_restart_count⟩,
  ⟨0x1100, 1, 0xB, 1, .u8, .ro, .clamp (0) 2, 0, .always, fun _ _ => Obj.shutdown_cause⟩,
  ⟨0x1100, 1, 0xC, 1, .u8, .ro, .clamp (0) 1, 0, .always, fun _ _ => Obj.shutdown_pending⟩,
  ⟨0x1100, 1, 0xD, 1, .u8, .rw, .bits 0x3F, 0, .always, fun _ _ => Obj.ramp_order⟩,
  ⟨0x1100, 1, 0xE, 1, .u16, .rw, .clamp (100) 2000, 0, .always, fun _ _ => Obj.ramp_time⟩,
  ⟨0x1100, 1, 0xF, 1, .u8, .rw, .clamp (8) 40, 0, .always, fun _ _ => Obj.pg_window⟩,
  ⟨0x1100, 1, 0x10, 1, .u16, .ro, .whole, 0, .always, fun _ _ => Obj.pg_deadline⟩,
  ⟨0x1100, 1, 0x11, 1, .u32, .ro, .whole, 0, .always, fun _ _ => Obj.startup_time⟩,
  ⟨0x1100, 1, 0x12, 1, .u8, .ro, .whole, 0, .always, fun _ _ => Obj.selftest_result⟩,
  ⟨0x1100, 1, 0x13, 1, .u16, .rw, .clamp (1) 1000, 0, .always, fun _ _ => Obj.vin_restart_delay⟩,
  ⟨0x1100, 1, 0x14, 1, .u16, .ro, .whole, 0, .always, fun _ _ => Obj.shutdown_fret_wait⟩,
  ⟨0x2000, 3, 0x10, 1, .u8, .ro, .clamp (0) 5, 0, .always, fun i _ => Obj.rail_state i⟩,
  ⟨0x2000, 3, 0x11, 1, .u16, .ro, .clamp (0) 6080, 0, .always, fun i _ => Obj.rail_ramp_v0 i⟩,
  ⟨0x2000, 3, 0x12, 1, .u64, .ro, .whole, 0, .always, fun i _ => Obj.rail_pg_time i⟩,
  ⟨0x3800, 140, 0xB, 1, .u8, .ro, .clamp (0) 4, 0, .always, fun i _ => Obj.course_discover i⟩,
  ⟨0x1200, 1, 0x1, 1, .u8, .cmd, .bits 0xFE, 0, .always, fun _ _ => Obj.commit⟩,
  ⟨0x1200, 1, 0x2, 1, .u8, .ro, .whole, 0, .always, fun _ _ => Obj.commit_pending⟩,
  ⟨0x1200, 1, 0x3, 1, .u8, .cmd, .bits 0xFE, 0, .always, fun _ _ => Obj.commit_discard⟩,
  ⟨0x1200, 1, 0x4, 1, .u32, .ro, .whole, 0, .always, fun _ _ => Obj.commit_count⟩,
  ⟨0x9000, 1, 0x1, 1, .blob 8, .ro, .whole, 0, .always, fun _ _ => Obj.keeper_challenge⟩,
  ⟨0x9000, 1, 0x2, 1, .blob 8, .wo, .whole, 0, .always, fun _ _ => Obj.keeper_response⟩,
  ⟨0x9000, 1, 0x3, 1, .u8, .ro, .clamp (0) 2, 0, .always, fun _ _ => Obj.keeper_state⟩,
  ⟨0x9000, 1, 0x4, 1, .u8, .ro, .clamp (0) 8, 0, .always, fun _ _ => Obj.keeper_failures⟩,
  ⟨0x9000, 1, 0x5, 1, .u16, .ro, .clamp (0) 60000, 0, .always, fun _ _ => Obj.keeper_lockout_left⟩,
  ⟨0x9000, 1, 0x6, 1, .u8, .cmd, .clamp 1 1, 0, .always, fun _ _ => Obj.keeper_drop⟩,
  ⟨0x9000, 1, 0x7, 1, .u32, .ro, .whole, 0, .always, fun _ _ => Obj.keeper_grants⟩,
  ⟨0x9000, 1, 0x8, 1, .u32, .ro, .whole, 0, .always, fun _ _ => Obj.keeper_lockouts⟩,
  ⟨0x9100, 1, 0x1, 1, .blob 11, .ro, .whole, 0, .always, fun _ _ => Obj.session_table⟩,
  ⟨0x9100, 1, 0x2, 1, .u8, .ro, .whole, 0, .always, fun _ _ => Obj.session_own⟩,
  ⟨0x9100, 1, 0x3, 1, .u16, .ro, .whole, 0, .always, fun _ _ => Obj.session_idle_limit⟩,
  ⟨0x9100, 1, 0x4, 1, .u32, .ro, .whole, 0, .always, fun _ _ => Obj.session_busy_count⟩,
  ⟨0x9100, 1, 0x5, 1, .u32, .ro, .whole, 0, .always, fun _ _ => Obj.session_expired_count⟩,
  ⟨0x9100, 1, 0x6, 1, .u8, .rwk, .only 0 9, 0, .always, fun _ _ => Obj.session_evict⟩,
  ⟨0x9100, 1, 0x7, 1, .u8, .ro, .clamp (8) 119, 0, .always, fun _ _ => Obj.i3c_static_addr⟩,
  ⟨0x9100, 1, 0x8, 1, .u8, .ro, .clamp (0) 127, 0, .always, fun _ _ => Obj.i3c_dynamic_addr⟩,
  ⟨0x9100, 1, 0x9, 1, .u32, .ro, .whole, 0, .always, fun _ _ => Obj.request_count⟩]

/-- Rows of the object table, part 12. -/
def objRows12 : List ObjRow := [
  ⟨0x7800, 8, 0x1, 1, .u64, .rw, .clamp (0) 281474976710592, 0, .dma, fun i _ => Obj.dma_desc_addr i⟩,
  ⟨0x7800, 8, 0x2, 1, .u8, .cmd, .only 1 3, 0, .dma, fun i _ => Obj.dma_cmd i⟩,
  ⟨0x7800, 8, 0x3, 1, .u8, .ro, .clamp (0) 7, 0, .dma, fun i _ => Obj.dma_state i⟩,
  ⟨0x7800, 8, 0x4, 1, .u32, .ro, .whole, 0, .dma, fun i _ => Obj.dma_status i⟩,
  ⟨0x7800, 8, 0x5, 1, .u64, .ro, .whole, 0, .dma, fun i _ => Obj.dma_cur_desc i⟩,
  ⟨0x7800, 8, 0x6, 1, .u32, .ro, .clamp (0) 16777215, 0, .dma, fun i _ => Obj.dma_residue i⟩,
  ⟨0x7800, 8, 0x7, 1, .u16, .rw, .clamp (1) 65535, 0, .dma, fun i _ => Obj.dma_chain_limit i⟩,
  ⟨0x7800, 8, 0x8, 1, .u16, .rw, .clamp (1) 1000, 0, .dma, fun i _ => Obj.dma_mem_timeout i⟩,
  ⟨0x7800, 8, 0x9, 1, .u16, .rw, .clamp (0) 60000, 0, .dma, fun i _ => Obj.dma_pace_timeout i⟩,
  ⟨0x7800, 8, 0xA, 1, .u16, .rw, .clamp (1) 1000, 0, .dma, fun i _ => Obj.dma_own_poll i⟩,
  ⟨0x7800, 8, 0xB, 1, .u8, .ro, .whole, 0, .dma, fun i _ => Obj.dma_req_count i⟩,
  ⟨0x7800, 8, 0xC, 1, .u32, .ro, .whole, 0, .dma, fun i _ => Obj.dma_desc_done i⟩,
  ⟨0x7800, 8, 0xD, 1, .u64, .ro, .whole, 0, .dma, fun i _ => Obj.dma_bytes i⟩,
  ⟨0x7800, 8, 0xE, 1, .u8, .rw, .bits 0x7, 0, .dma, fun i _ => Obj.dma_irq_enable i⟩,
  ⟨0x7800, 8, 0xF, 1, .u8, .ro, .whole, 0, .dma, fun i _ => Obj.dma_irq_status i⟩,
  ⟨0x7800, 8, 0x10, 1, .u8, .cmd, .bits 0x7, 0, .dma, fun i _ => Obj.dma_irq_clear i⟩,
  ⟨0x7800, 8, 0x11, 1, .u32, .ro, .whole, 0, .dma, fun i _ => Obj.dma_preempted i⟩,
  ⟨0x7800, 8, 0x12, 1, .u16, .ro, .whole, 0, .dma, fun i _ => Obj.dma_run_count i⟩,
  ⟨0x7810, 1, 0x1, 1, .u64, .rw, .clamp (0) 281474976638912, 0, .dma, fun _ _ => Obj.st_base⟩,
  ⟨0x7810, 1, 0x2, 1, .u8, .rw, .clamp (0) 1, 0, .dma, fun _ _ => Obj.st_enable⟩,
  ⟨0x7810, 1, 0x3, 1, .u8, .ro, .clamp (0) 4, 0, .dma, fun _ _ => Obj.st_state⟩,
  ⟨0x7810, 1, 0x4, 1, .u16, .ro, .clamp (0) 1120, 0, .dma, fun _ _ => Obj.st_installed⟩,
  ⟨0x7810, 1, 0x5, 1, .u16, .ro, .whole, 0, .dma, fun _ _ => Obj.st_bad_entries⟩,
  ⟨0x7810, 1, 0x6, 1, .blob 140, .ro, .whole, 0, .dma, fun _ _ => Obj.st_bad_map⟩,
  ⟨0x7810, 1, 0x7, 1, .u16, .rw, .clamp (1) 10000, 0, .dma, fun _ _ => Obj.st_wb_delay⟩,
  ⟨0x7810, 1, 0x8, 1, .u8, .cmd, .clamp 1 1, 0, .dma, fun _ _ => Obj.st_flush⟩,
  ⟨0x7810, 1, 0x9, 1, .u16, .rw, .clamp (0) 1119, 0, .dma, fun _ _ => Obj.st_sel⟩,
  ⟨0x7810, 1, 0xA, 1, .blob 64, .ro, .whole, 0, .dma, fun _ _ => Obj.st_entry⟩,
  ⟨0x7810, 1, 0xB, 1, .blob 21, .rw, .whole, 0, .dma, fun _ _ => Obj.st_host_fields⟩,
  ⟨0x7810, 1, 0xC, 1, .u32, .ro, .whole, 0, .dma, fun _ _ => Obj.st_cache_hits⟩,
  ⟨0x7810, 1, 0xD, 1, .u32, .ro, .whole, 0, .dma, fun _ _ => Obj.st_cache_misses⟩,
  ⟨0x7810, 1, 0xE, 1, .u32, .ro, .whole, 0, .dma, fun _ _ => Obj.st_writebacks⟩,
  ⟨0x7810, 1, 0xF, 1, .u32, .ro, .whole, 0, .dma, fun _ _ => Obj.st_parity_refetch⟩,
  ⟨0x7810, 1, 0x10, 1, .u32, .ro, .whole, 0, .dma, fun _ _ => Obj.st_update_lost⟩,
  ⟨0x8000, 1, 0x1, 1, .u16, .ro, .clamp (0) 1024, 0, .always, fun _ _ => Obj.fault_count⟩,
  ⟨0x8000, 1, 0x2, 1, .u32, .ro, .whole, 0, .always, fun _ _ => Obj.fault_first_seq⟩,
  ⟨0x8000, 1, 0x3, 1, .u32, .ro, .whole, 0, .always, fun _ _ => Obj.fault_write_seq⟩,
  ⟨0x8000, 1, 0x4, 1, .u32, .ro, .whole, 0, .always, fun _ _ => Obj.fault_overflow⟩,
  ⟨0x8000, 1, 0x5, 1, .u8, .rw, .clamp (0) 1, 0, .always, fun _ _ => Obj.fault_freeze⟩,
  ⟨0x8000, 1, 0x6, 1, .u8, .ro, .clamp (0) 100, 0, .always, fun _ _ => Obj.fault_freeze_left⟩]

/-- Rows of the object table, part 13. -/
def objRows13 : List ObjRow := [
  ⟨0x8000, 1, 0x7, 1, .u8, .ro, .clamp (0) 32, 0, .always, fun _ _ => Obj.fault_hold_count⟩,
  ⟨0x8000, 1, 0x8, 1, .u32, .ro, .whole, 0, .always, fun _ _ => Obj.fault_hold_overflow⟩,
  ⟨0x8000, 1, 0x9, 1, .u16, .rw, .clamp (0) 1023, 0, .always, fun _ _ => Obj.fault_sel⟩,
  ⟨0x8000, 1, 0xA, 1, .blob 64, .ro, .whole, 0, .always, fun _ _ => Obj.fault_record⟩,
  ⟨0x8000, 1, 0xB, 1, .blob 64, .ro, .whole, 0, .always, fun _ _ => Obj.fault_latest⟩,
  ⟨0x8000, 1, 0xC, 1, .u8, .cmd, .clamp 1 1, 0, .always, fun _ _ => Obj.fault_clear⟩,
  ⟨0x8000, 1, 0x10, 1, .u32, .ro, .whole, 0, .always, fun _ _ => Obj.rec_lost⟩,
  ⟨0x8000, 1, 0x11, 1, .u16, .ro, .clamp (0) 2048, 0, .always, fun _ _ => Obj.rec_queue_max⟩,
  ⟨0x8000, 1, 0x12, 1, .u32, .ro, .whole, 0, .always, fun _ _ => Obj.rec_bad_crc⟩,
  ⟨0x8100, 1, 0x1, 1, .u32, .ro, .whole, 0, .trace, fun _ _ => Obj.trace_write_seq⟩,
  ⟨0x8100, 1, 0x2, 1, .u16, .rw, .clamp (0) 4095, 0, .trace, fun _ _ => Obj.trace_sel⟩,
  ⟨0x8100, 1, 0x3, 1, .blob 64, .ro, .whole, 0, .trace, fun _ _ => Obj.trace_record⟩,
  ⟨0x8100, 1, 0x4, 1, .u8, .cmd, .clamp 1 1, 0, .trace, fun _ _ => Obj.trace_clear⟩,
  ⟨0x8200, 64, 0x1, 1, .u8, .rw, .bits 0x3, 0, .always, fun i _ => Obj.trig_route i⟩,
  ⟨0x8200, 64, 0x2, 1, .u8, .ro, .clamp (0) 3, 0, .always, fun i _ => Obj.trig_class i⟩,
  ⟨0x8200, 64, 0x3, 1, .u8, .rw, .clamp (0) 12, 0, .always, fun i _ => Obj.trig_snap_count i⟩,
  ⟨0x8200, 64, 0x4, 12, .u32, .rw, .whole, 0, .always, fun i k => Obj.trig_snap i k⟩,
  ⟨0x8200, 64, 0x10, 1, .u32, .ro, .whole, 0, .always, fun i _ => Obj.trig_count i⟩,
  ⟨0x3800, 140, 0xC, 1, .blob 128, .ro, .whole, 0, .always, fun i _ => Obj.course_record i⟩,
  ⟨0x3800, 140, 0xD, 1, .u8, .ro, .clamp (0) 3, 0, .always, fun i _ => Obj.course_record_state i⟩,
  ⟨0x3800, 140, 0xE, 1, .u32, .ro, .whole, 0, .always, fun i _ => Obj.course_record_copies i⟩,
  ⟨0x1100, 1, 0x15, 1, .u64, .ro, .whole, 0, .always, fun _ _ => Obj.block_time⟩,
  ⟨0x1100, 1, 0x16, 1, .u8, .ro, .clamp (0) 1, 0, .always, fun _ _ => Obj.refclk_state⟩,
  ⟨0x1100, 1, 0x17, 1, .u32, .ro, .whole, 0, .always, fun _ _ => Obj.refclk_lost_count⟩,
  ⟨0x1100, 1, 0x18, 1, .blob 10, .ro, .whole, 0, .always, fun _ _ => Obj.island_clock_fault⟩,
  ⟨0x1100, 1, 0x19, 1, .u32, .ro, .whole, 0, .always, fun _ _ => Obj.port_breach_count⟩,
  ⟨0x1100, 1, 0x1A, 1, .u8, .ro, .clamp (0) 6, 0, .always, fun _ _ => Obj.port_breach_last⟩,
  ⟨0x1100, 1, 0x1B, 1, .u16, .ro, .clamp (0) 1100, 0, .always, fun _ _ => Obj.hmem_clk_freq⟩,
  ⟨0x1100, 1, 0x1C, 1, .u32, .ro, .whole, 0, .always, fun _ _ => Obj.jtag_idcode⟩]

/-- Every row of every dictionary table, in the order of the manual. -/
def objTable : List ObjRow :=
  objRows0 ++ objRows1 ++ objRows2 ++ objRows3 ++ objRows4 ++ objRows5 ++ objRows6 ++ objRows7 ++ objRows8 ++ objRows9 ++ objRows10 ++ objRows11 ++ objRows12 ++ objRows13

/-- R459: the members of the commit groups in the order of the staged mirror, each with its group and type. -/
def members : List (Reg × Nat × Ty) := [
  (Obj.tsw_target, 1, .u16),
  (Obj.toff_min, 1, .u16),
  (Obj.ton_min, 1, .u16),
  (Obj.ton_max, 1, .u16),
  (Obj.warn_level, 2, .s16),
  (Obj.warn_hyst, 2, .u8),
  (Obj.throttle_level, 2, .s16),
  (Obj.throttle_hyst, 2, .u8),
  (Obj.restart_level, 2, .s16),
  (Obj.cap_w, 3, .u16),
  (Obj.thermal_step, 3, .u8),
  (Obj.strum_depth, 4, .u8),
  (Obj.strum_slope, 4, .u8),
  (Obj.release_depth, 4, .u8),
  (Obj.ov_offset, 4, .u8),
  (Obj.shed_level, 5, .u8),
  (Obj.shed_min, 5, .u8),
  (Obj.rejoin_level, 5, .u8),
  (Obj.trim_mode, 6, .u8),
  (Obj.trim_gain, 6, .u16),
  (Obj.trim_offset, 6, .s16),
  (Obj.telem_mode, 7, .blob 10),
  (Obj.telem_grain, 7, .u8)]

end Sys2Proof.Machine
end

