-- ==== Sys2Proof/Machine/Fabric.lean ====
section
/-! DEFINITION. The regulator fabric: index arithmetic, neighbours, populated indices (R9, R16, R20 to R24, R35, R61). -/

namespace Sys2Proof.Machine

/-- Rail of a region (R16). -/
def railOf (r : Nat) : Nat := if r < 64 then 0 else if r < 72 then 1 else 2
/-- Regions of a rail (R16), populated or not. -/
def railRegions : Nat → List Nat
  | 0 => List.range 64
  | 1 => List.range' 64 8
  | _ => List.range' 72 4
/-- R24: region of a string. -/
def regionOf (s : Nat) : Nat :=
  if s < 1024 then s / 16 else if s < 1088 then 64 + (s - 1024) / 8 else 72 + (s - 1088) / 8
/-- R24: first string of a region. -/
def firstString (r : Nat) : Nat :=
  if r < 64 then 16 * r else if r < 72 then 1024 + 8 * (r - 64) else 1088 + 8 * (r - 72)
/-- Strings of a region in the maximum configuration. -/
def stringsMax (r : Nat) : Nat := if r < 64 then 16 else 8
/-- R24: course of a string. -/
def courseOf (s : Nat) : Nat := s / 8
/-- R24: region of a course. -/
def regionOfCourse (c : Nat) : Nat := if c < 128 then c / 2 else c - 64
/-- Rail of a course (R16). -/
def railOfCourse (c : Nat) : Nat := railOf (regionOfCourse c)
/-- R24: converter of a course, and of a region. -/
def convOfCourse (c : Nat) : Nat := c / 2
def convOf (r : Nat) : Nat := if r < 64 then r else if r < 72 then 64 + (r - 64) / 2 else 68 + (r - 72) / 2
/-- R24: learner shard of a region. -/
def shardOf (r : Nat) : Nat := if r < 64 then r / 8 else if r < 72 then r - 64 else r - 72
/-- R24: pickups of a region. -/
def firstPickup (r : Nat) : Nat :=
  if r < 64 then 9 * r else if r < 72 then 576 + 4 * (r - 64) else 608 + 4 * (r - 72)
def pickupsOf (r : Nat) : Nat := if r < 64 then 9 else 4
/-- R327: front end of a diode, and its scan slot among the front end's diodes. -/
def frontOf (r : Nat) : Nat := if r < 64 then (r + r / 8) % 4 else r % 4
/-- R402: PMBus segment of a course. -/
def segmentOf (c : Nat) : Nat := c / 14
/-- R16, R25: regulation range in mV, and design current of a region in 10 mA. -/
def railVmin (q : Nat) : Nat := [500, 650, 750].getD q 0
def railVmax (q : Nat) : Nat := [950, 850, 950].getD q 0
def designCurrent (r : Nat) : Nat := [5000, 3000, 2750].getD (railOf r) 0
/-- R120: over-voltage ceiling in mV. -/
def ovCeiling (q : Nat) : Nat := [1050, 950, 1050].getD q 0

/-- A voltage in mV in units of 0.15625 mV (32 units are 5 mV). -/
def mvUnits (v : Nat) : Nat := v * 32 / 5

/-! ## Populated indices (R9) -/

def Config.strings (c : Config) (r : Nat) : Nat := if r < 64 then c.nStr else 8
def Config.popRegion (c : Config) (r : Nat) : Bool := r < 76 && (r ≥ 64 || r < c.nVcore)
def Config.popString (c : Config) (s : Nat) : Bool :=
  s < 1120 && Config.popRegion c (regionOf s) && s - firstString (regionOf s) < Config.strings c (regionOf s)
def Config.popCourse (c : Config) (k : Nat) : Bool := k < 140 && Config.popString c (8 * k)
def Config.popConv (c : Config) (n : Nat) : Bool := n < 70 && Config.popCourse c (2 * n)
def Config.popChan (c : Config) (ch : Nat) : Bool := ch < 79 && (ch ≥ 76 || Config.popRegion c ch)
def Config.regions (c : Config) : List Nat := (List.range 76).filter (Config.popRegion c)
def Config.railRegs (c : Config) (q : Nat) : List Nat := (railRegions q).filter (Config.popRegion c)
/-- Populated strings of a region in index order. -/
def Config.regionStrings (c : Config) (r : Nat) : List Nat :=
  if Config.popRegion c r then List.range' (firstString r) (Config.strings c r) else []
def Config.allStrings (c : Config) : List Nat := (List.range 1120).filter (Config.popString c)
def Config.courses (c : Config) : List Nat := (List.range 140).filter (Config.popCourse c)
def Config.convs (c : Config) : List Nat := (List.range 70).filter (Config.popConv c)
def Config.courseStrings (c : Config) (k : Nat) : List Nat :=
  (List.range' (8 * k) 8).filter (Config.popString c)
def Config.railCourses (c : Config) (q : Nat) : List Nat :=
  (Config.courses c).filter fun k => railOfCourse k == q

/-! ## Neighbours (R20 to R23, R35, R45) -/

/-- R45: the rail neighbour in each direction before unpopulated regions are left out: north, east, south, west on
VCORE; lower, higher on VMEM; counter-clockwise, clockwise on VLNK. -/
def neighbourRaw (r : Nat) : List (Option Nat) :=
  if r < 64 then
    [if r ≥ 8 then some (r - 8) else none, if r % 8 < 7 then some (r + 1) else none,
     if r < 56 then some (r + 8) else none, if r % 8 > 0 then some (r - 1) else none]
  else if r < 72 then
    [if r > 64 then some (r - 1) else none, if r < 71 then some (r + 1) else none, none, none]
  else
    [some (72 + (r - 72 + 3) % 4), some (72 + (r - 72 + 1) % 4), none, none]

/-- R22, R23: rail neighbours by direction, among populated regions. -/
def Config.neighbourDirs (c : Config) (r : Nat) : List (Option Nat) :=
  (neighbourRaw r).map fun o => o.filter (Config.popRegion c)
def Config.neighbours (c : Config) (r : Nat) : List Nat := (Config.neighbourDirs c r).filterMap id

/-- R35: the four thermal neighbours in the order listed there, a VCORE region's by the directions of R45; none where
the list has no such neighbour. -/
def thermalRaw (r : Nat) : List (Option Nat) :=
  if r < 64 then neighbourRaw r
  else if r < 72 then
    let k := r - 64
    [if k ≥ 1 then some (r - 1) else none, if k ≤ 6 then some (r + 1) else none, some (8 * k + 3), some (8 * k + 4)]
  else if r = 72 then [some 75, some 73, some 3, some 4]
  else if r = 73 then [some 72, some 74, some 31, some 39]
  else if r = 74 then [some 73, some 75, some 59, some 60]
  else [some 74, some 72, some 24, some 32]

/-- R35, R45: the entries of the list among populated regions. Each keeps its place: entries are never packed. -/
def Config.thermalDirs (c : Config) (r : Nat) : List (Option Nat) :=
  (thermalRaw r).map fun o => o.filter (Config.popRegion c)
def Config.thermal (c : Config) (r : Nat) : List Nat := (Config.thermalDirs c r).filterMap id

/-- R56: the facing pickups of the neighbour in direction `d` of region `r`. -/
def facing (r d : Nat) : List Nat :=
  if r < 64 then [[6, 7, 8], [0, 3, 6], [0, 1, 2], [2, 5, 8]].getD d []
  else if r < 72 then [0, 1, 2, 3]
  else [[3], [0]].getD d []

/-! ## Rotation positions (R61) -/

/-- String at rotation position `p` of region `r`. -/
def stringAt (r p : Nat) : Nat :=
  if r < 64 then 16 * r + p / 2 + 8 * (p % 2) else firstString r + p
/-- Rotation position of a string in its region. -/
def positionOf (s : Nat) : Nat :=
  if s < 1024 then 2 * (s % 8) + s % 16 / 8 else s % 8

end Sys2Proof.Machine
end

