-- ==== Sys2Proof/Machine/Operands.lean ====
section
/-! DEFINITION. Operand forms: little-endian byte lists (R13, R427), clamps and masks of written values (R14, R429),
roundings, CRC-32C (R499) and the SHA-256 of R452. -/

namespace Sys2Proof.Machine

/-! ## Bytes -/

/-- `n` as `len` bytes, byte 0 first (R13). -/
def leBytes : Nat → Nat → List Byte
  | 0, _ => []
  | len + 1, n => n % 256 :: leBytes len (n / 256)

/-- The number that bytes spell, byte 0 first. -/
def leNat : List Byte → Nat
  | [] => 0
  | b :: bs => b % 256 + 256 * leNat bs

/-- `n` bytes from offset `o`; bytes past the end read 0. -/
def slice (bs : List Byte) (o n : Nat) : List Byte :=
  (List.range' o n).map fun i => bs.getD i 0

/-- The number at offset `o` of length `n`. -/
def fieldAt (bs : List Byte) (o n : Nat) : Nat := leNat (slice bs o n)

/-- Two's complement of width `w` bits (R12). -/
def toSigned (w n : Nat) : Int := if n < 2 ^ (w - 1) then n else (n : Int) - (2 ^ w : Nat)
def ofSigned (w : Nat) (x : Int) : Nat := (x % (2 ^ w : Nat)).toNat
def signedAt (bs : List Byte) (o n : Nat) : Int := toSigned (8 * n) (fieldAt bs o n)

/-- Replaces bytes from offset `o`. -/
def patch (bs : List Byte) (o : Nat) (x : List Byte) : List Byte :=
  bs.take o ++ x ++ bs.drop (o + x.length)

/-- Byte `i` of a BLOB held as one number. -/
def byteOf (n i : Nat) : Nat := n / 256 ^ i % 256

/-- The value of a type from the bytes of a frame (R427). -/
def Ty.decode (t : Ty) (bs : List Byte) : Int :=
  if t.signed then toSigned (8 * t.length) (leNat bs) else leNat bs

/-- A value as the bytes of a frame. -/
def Ty.encode (t : Ty) (v : Int) : List Byte := leBytes t.length (ofSigned (8 * t.length) v)

/-! ## Written values (R14, R429) -/

def clampI (lo hi x : Int) : Int := max lo (min x hi)
def clampN (lo hi x : Nat) : Nat := max lo (min x hi)

/-- What a written value becomes; none where the object's table lets it abort. -/
def Rng.apply (g : Rng) (v : Int) : Option Int :=
  match g with
  | .clamp lo hi => some (clampI lo hi v)
  | .bits m => some ((v.toNat &&& m : Nat) : Int)
  | .only lo hi => if lo ≤ v ∧ v ≤ hi then some v else none
  | .whole => some v

/-! ## Roundings -/

/-- To nearest, ties up. -/
def roundUp (num : Int) (den : Nat) : Int := (2 * num + den) / (2 * den)

/-- To nearest, ties to even. -/
def roundEven (num : Int) (den : Nat) : Int :=
  let q := num / den
  let r := num % den
  if 2 * r < den then q
  else if 2 * r > den then q + 1
  else if q % 2 = 0 then q else q + 1

/-- To nearest, ties away from zero. -/
def roundAway (num : Int) (den : Nat) : Int :=
  if num ≥ 0 then roundUp num den else - roundUp (-num) den

/-- Toward zero. -/
def truncZero (num : Int) (den : Nat) : Int := num.tdiv den

/-- Ceiling of a quotient. -/
def ceilDiv (a b : Nat) : Nat := (a + b - 1) / b

/-- Largest power of two at most `n`, for `n` up to 64 (R239). -/
def powerOfTwo (n : Nat) : Nat :=
  if n ≥ 64 then 64 else if n ≥ 32 then 32 else if n ≥ 16 then 16 else if n ≥ 8 then 8
  else if n ≥ 4 then 4 else if n ≥ 2 then 2 else 1

/-- Insertion into a rising list, and sorting. -/
def insertSorted (x : Int) : List Int → List Int
  | [] => [x]
  | y :: ys => if x ≤ y then x :: y :: ys else y :: insertSorted x ys
def sortInts (l : List Int) : List Int := l.foldr insertSorted []

/-- The median; of an even number of values the mean of the middle two rounded down (R51, R331). -/
def median (l : List Int) : Int :=
  let m := sortInts l
  let n := m.length
  if n % 2 = 1 then m.getD (n / 2) 0 else (m.getD (n / 2 - 1) 0 + m.getD (n / 2) 0) / 2

/-- The sum of a list. -/
def sumI (l : List Int) : Int := l.foldl (· + ·) 0
def sumN (l : List Nat) : Nat := l.foldl (· + ·) 0
def maxN (l : List Nat) : Nat := l.foldl max 0

/-! ## Sparse tables: values by key, in rising order of key, a default for every key not listed -/

def tabGet {α : Type} (d : α) : List (Nat × α) → Nat → α
  | [], _ => d
  | (k, v) :: m, a => if a = k then v else tabGet d m a

def tabPut {α : Type} : List (Nat × α) → Nat → α → List (Nat × α)
  | [], a, x => [(a, x)]
  | (k, v) :: m, a, x =>
    if a < k then (a, x) :: (k, v) :: m else if a = k then (a, x) :: m else (k, v) :: tabPut m a x

/-! ## CRC-32C (R499): polynomial 0x1EDC6F41, reflected, initial value and final XOR 0xFFFFFFFF -/

def crcBit (c : W32) : W32 := if c.getLsbD 0 then (c >>> 1) ^^^ 0x82F63B78#32 else c >>> 1
def crcByte (c : W32) (b : Byte) : W32 :=
  crcBit (crcBit (crcBit (crcBit (crcBit (crcBit (crcBit (crcBit (c ^^^ BitVec.ofNat 32 b))))))))
def crc32c (bs : List Byte) : Nat := (bs.foldl crcByte 0xFFFFFFFF#32 ^^^ 0xFFFFFFFF#32).toNat

/-! ## SHA-256 (R452 names FIPS 180-4). Its constants and functions are PRESUMED from that standard (log 7). The
standard's constants are fractional parts of roots of primes, and the model computes them as such. -/

/-- The primes below 312: the first 64. -/
def smallPrimes : List Nat :=
  (List.range 312).filter fun p => decide (2 ≤ p) && [2, 3, 5, 7, 11, 13, 17].all fun d => p == d || p % d != 0

/-- The largest `x` with `x ^ k ≤ t` that begins with the bits of `x` above bit `b`, from bit `b - 1` down. -/
def rootBelow (k t : Nat) : Nat → Nat → Nat
  | 0, x => x
  | b + 1, x => rootBelow k t b (if (x + 2 ^ b) ^ k ≤ t then x + 2 ^ b else x)

/-- The first 32 bits of the fraction of a prime's `k`-th root. -/
def rootFraction (k p : Nat) : W32 := BitVec.ofNat 32 (rootBelow k (p * 2 ^ (32 * k)) 35 0)

/-- The constants of the 64 rounds, and the words that a digest begins from. -/
def hashSteps : List W32 := smallPrimes.map (rootFraction 3)
def hashBegin : List W32 := (smallPrimes.take 8).map (rootFraction 2)

/-- A word rotated right by each of the amounts, the results combined bit by bit. -/
def turned (x : W32) (by_ : List Nat) : W32 := by_.foldl (fun acc n => acc ^^^ x.rotateRight n) 0

/-- A digest in progress: its eight words, and the next sixteen words of the schedule. -/
structure Hashing where
  vars : List W32
  win : List W32
deriving DecidableEq, Repr

/-- The word that enters the schedule's window as its first one leaves. -/
def Hashing.enters (h : Hashing) : W32 :=
  let at_ (n : Nat) : W32 := h.win.getD n 0
  at_ 0 + at_ 9 + (turned (at_ 1) [7, 18] ^^^ at_ 1 >>> 3) + (turned (at_ 14) [17, 19] ^^^ at_ 14 >>> 10)

/-- One round with its constant: six of the words move on by one place, and two are new. -/
def Hashing.round (h : Hashing) (k : W32) : Hashing :=
  let at_ (n : Nat) : W32 := h.vars.getD n 0
  let choice := at_ 6 ^^^ (at_ 4 &&& (at_ 5 ^^^ at_ 6))
  let most := (at_ 0 &&& (at_ 1 ||| at_ 2)) ||| (at_ 1 &&& at_ 2)
  let moved := turned (at_ 4) [6, 11, 25] + choice + k + h.win.getD 0 0 + at_ 7
  { vars := (moved + turned (at_ 0) [2, 13, 22] + most) :: (h.vars.take 3 ++ (at_ 3 + moved) :: (h.vars.drop 4).take 3)
    win := h.win.drop 1 ++ [h.enters] }

/-- The big-endian bytes of a word. -/
def beBytes (n x : Nat) : List Byte := (leBytes n x).reverse

/-- Digest of a message of at most 55 bytes, which fits one block with the one bit and the length that pad it. -/
def sha256 (msg : List Byte) : List Byte :=
  let padded := msg ++ [0x80] ++ List.replicate (55 - msg.length) 0 ++ beBytes 8 (8 * msg.length)
  let first : Hashing :=
    { vars := hashBegin
      win := (List.range 16).map fun j => BitVec.ofNat 32 (leNat (slice padded (4 * j) 4).reverse) }
  let last := hashSteps.foldl Hashing.round first
  (hashBegin.zip last.vars).flatMap fun (p : W32 × W32) => beBytes 4 (p.1 + p.2).toNat

/-- R452: the expected response to a challenge: the first 8 bytes of the digest over challenge and key. -/
def keeperDigest (chal key : List Byte) : List Byte := (sha256 (chal ++ key)).take 8

end Sys2Proof.Machine
end

