-- ==== Sys2Proof/Machine/Ops.lean ====
section
/-! DEFINITION. The named operations over the state: one accessor and one update for each kind of unit, index guards,
the firing of a trigger (R500), parity errors and breaches, service reasons, the transitions of a string (R126) with
their records, the string-table updates they queue (R488), the cutting of pulses, the changes of block state (R399) with
what R415, R373, R489, R341 attach to them, and the damper's action (R99). -/

namespace Sys2Proof.Machine

/-! ## Answers of the dictionary (R430) -/

def abortNoObject : Nat := 1
def abortNoSub : Nat := 2
def abortAccess : Nat := 3
def abortKeeper : Nat := 4
def abortFrozen : Nat := 5
def abortAbsent : Nat := 6
def abortBusy : Nat := 7
def abortLength : Nat := 8
def abortSession : Nat := 9

/-- What an access that reaches an object's own rule answers: its status, 0 for done, and the state after it. -/
abbrev Ans := Nat × State

/-! ## Accessors and updates -/

def State.region (s : State) (r : Nat) : Region := s.regions.getD r {}
def State.str (s : State) (i : Nat) : Str := s.strings.getD i {}
def State.course (s : State) (c : Nat) : Course := s.courses.getD c {}
def State.chan (s : State) (c : Nat) : Chan := s.chans.getD c {}
def State.rail (s : State) (q : Nat) : Rail := s.rails.getD q {}
def State.conv (s : State) (n : Nat) : Conv := s.convs.getD n {}
def State.diode (s : State) (r : Nat) : Diode := s.therm.diodes.getD r {}
def State.front (s : State) (q : Nat) : Front := s.therm.fronts.getD q {}
def State.shard (s : State) (k : Nat) : Shard := s.learn.shards.getD k {}
def State.slot (s : State) (k : Nat) : Slot := s.learn.slots.getD k {}
def State.session (s : State) (k : Nat) : Session := s.dict.sessions.getD k {}
def State.dmaCh (s : State) (k : Nat) : DmaCh := s.dma.ch.getD k {}

def State.modRegion (s : State) (r : Nat) (f : Region → Region) : State :=
  { s with regions := s.regions.modify r f }
def State.modStr (s : State) (i : Nat) (f : Str → Str) : State := { s with strings := s.strings.modify i f }
def State.modCourse (s : State) (c : Nat) (f : Course → Course) : State :=
  { s with courses := s.courses.modify c f }
def State.modChan (s : State) (c : Nat) (f : Chan → Chan) : State := { s with chans := s.chans.modify c f }
def State.modRail (s : State) (q : Nat) (f : Rail → Rail) : State := { s with rails := s.rails.modify q f }
def State.modConv (s : State) (n : Nat) (f : Conv → Conv) : State := { s with convs := s.convs.modify n f }
def State.modDiode (s : State) (r : Nat) (f : Diode → Diode) : State :=
  { s with therm := { s.therm with diodes := s.therm.diodes.modify r f } }
def State.modFront (s : State) (q : Nat) (f : Front → Front) : State :=
  { s with therm := { s.therm with fronts := s.therm.fronts.modify q f } }
def State.modShard (s : State) (k : Nat) (f : Shard → Shard) : State :=
  { s with learn := { s.learn with shards := s.learn.shards.modify k f } }
def State.modSlot (s : State) (k : Nat) (f : Slot → Slot) : State :=
  { s with learn := { s.learn with slots := s.learn.slots.modify k f } }
def State.modSession (s : State) (k : Nat) (f : Session → Session) : State :=
  { s with dict := { s.dict with sessions := s.dict.sessions.modify k f } }
def State.modDmaCh (s : State) (k : Nat) (f : DmaCh → DmaCh) : State :=
  { s with dma := { s.dma with ch := s.dma.ch.modify k f } }

/-- Updates of the parts of a region. -/
def State.modLoop (s : State) (r : Nat) (f : Loop → Loop) : State :=
  s.modRegion r fun x => { x with loop := f x.loop }
def State.modStrum (s : State) (r : Nat) (f : Strum → Strum) : State :=
  s.modRegion r fun x => { x with strum := f x.strum }
def State.modPre (s : State) (r : Nat) (f : Pre → Pre) : State := s.modRegion r fun x => { x with pre := f x.pre }
def State.modWake (s : State) (r : Nat) (f : Wake → Wake) : State :=
  s.modRegion r fun x => { x with wake := f x.wake }
def State.modFret (s : State) (r : Nat) (f : Fret → Fret) : State :=
  s.modRegion r fun x => { x with fret := f x.fret }
def State.modRep (s : State) (r : Nat) (f : Report → Report) : State :=
  s.modRegion r fun x => { x with rep := f x.rep }
def State.modSup (s : State) (r : Nat) (f : Sup → Sup) : State := s.modRegion r fun x => { x with sup := f x.sup }
def State.modPickup (s : State) (r p : Nat) (f : Pickup → Pickup) : State :=
  s.modRegion r fun x => { x with pk := x.pk.modify p f }

/-- Applies an update for each of a list of indices, in order. -/
def overAll {α : Type} (s : State) (l : List α) (f : State → α → State) : State := l.foldl f s

/-! ## Free values -/

/-- A free value: nothing is known of it (log 5). -/
def State.takeFree (s : State) : Nat × State := (Config.freeNat s.freeK, { s with freeK := s.freeK + 1 })

/-! ## Guards -/

/-- An index beyond every configuration's range names no unit (R24): the event cannot be, and nothing changes. -/
def within (s : State) (n i : Nat) (t : State) : Out := .next (if i < n then t else s)

/-- A command for a region: an unpopulated region's signals are ignored (R10). -/
def onRegion (s : State) (r : Nat) (t : State) : Out :=
  within s 76 r (if Config.popRegion s.cfg r then t else s)
def onString (s : State) (i : Nat) (t : State) : Out :=
  within s 1120 i (if Config.popString s.cfg i then t else s)
def onCourse (s : State) (c : Nat) (t : State) : Out :=
  within s 140 c (if Config.popCourse s.cfg c then t else s)
def onConv (s : State) (n : Nat) (t : State) : Out :=
  within s 70 n (if Config.popConv s.cfg n then t else s)
def onRail (s : State) (q : Nat) (t : State) : Out := within s 3 q t
/-- A command of a unit that is absent from the variant does nothing (R5, R8). -/
def onUnit (s : State) (b : Bool) (t : State) : State := if b then t else s

/-- Applies `t` when a condition holds; otherwise the event is not there and nothing changes. -/
def State.when (s : State) (b : Bool) (t : State) : State := if b then t else s

/-! ## Block states -/

/-- R398. -/
def BState.code : BState → Nat
  | .off => 0 | .reset => 1 | .selftest => 2 | .fuseload => 3 | .discover => 4 | .ramp => 5 | .run => 6
  | .service => 7 | .cooldown => 8 | .shutdown => 9 | .halted => 10

/-- RUN and SERVICE. -/
def BState.runs : BState → Bool
  | .run | .service => true
  | _ => false
/-- R163, R183, R417: the states in which the engine runs. -/
def BState.engine : BState → Bool
  | .ramp | .run | .service => true
  | _ => false
/-- R373: full speed is ordered. -/
def BState.full : BState → Bool
  | .ramp | .run | .service | .shutdown => true
  | _ => false
/-- R373. -/
def BState.lowPower : BState → Bool
  | .fuseload | .discover | .cooldown | .halted => true
  | _ => false
/-- R328: every state from FUSELOAD on. -/
def BState.scans : BState → Bool
  | .off | .reset | .selftest => false
  | _ => true
/-- R401: dictionary access is served from DISCOVER on. -/
def BState.serves : BState → Bool
  | .off | .reset | .selftest | .fuseload => false
  | _ => true
/-- A supply is present and RESET is over. -/
def BState.active : BState → Bool
  | .off | .reset => false
  | _ => true

def State.runs (s : State) : Bool := s.blk.st.runs
def State.engineOn (s : State) : Bool := s.blk.st.engine
def State.modBlk (s : State) (f : Block → Block) : State := { s with blk := f s.blk }

/-! ## Triggers (R499, R500) -/

def srcRail (i : Nat) : Source := ⟨1, i⟩
def srcRegion (i : Nat) : Source := ⟨2, i⟩
def srcString (i : Nat) : Source := ⟨3, i⟩
def srcCourse (i : Nat) : Source := ⟨4, i⟩
def srcConv (i : Nat) : Source := ⟨5, i⟩
def srcChan (i : Nat) : Source := ⟨6, i⟩
def srcShard (i : Nat) : Source := ⟨7, i⟩
def srcDma (i : Nat) : Source := ⟨8, i⟩
def srcSession (i : Nat) : Source := ⟨9, i⟩
def srcSegment (i : Nat) : Source := ⟨10, i⟩
def srcFront (i : Nat) : Source := ⟨11, i⟩
def srcState (i : Nat) : Source := ⟨12, i⟩
def Source.word (x : Source) : Nat := x.kind * 2 ^ 28 + x.idx % 2 ^ 16

/-- R518: types whose route is fixed at both logs. -/
def routeFixed (t : Nat) : Bool := t == 0 || t == 1 || t == 8 || t == 9

/-- R500, R518: the logs a type is routed to among those present. -/
def State.routeOf (s : State) (t : Nat) : Nat :=
  let v := if routeFixed t then 3 else s.getN (Obj.trig_route t) % 4
  if s.cfg.hasTrace then v else v % 2

/-- R500: `a` queues behind `b`, by supervisor cycle, then type, then source. A record already begun stays first. -/
def Trig.behind (a b : Trig) : Bool :=
  b.part.any (· % 4 != 0) || b.cyc < a.cyc ||
    b.cyc == a.cyc && (b.ty < a.ty || b.ty == a.ty && b.src.word ≤ a.src.word)

def queueTrig (t : Trig) : List Trig → List Trig
  | [] => [t]
  | b :: q => if t.behind b then b :: queueTrig t q else t :: b :: q

/-- R500: a trigger with a given route joins the queue, or is lost. -/
def State.enqueue (s : State) (t : Trig) : State :=
  if t.route = 0 then s
  else if s.recd.queue.length ≥ 2048 then s.countSat Obj.rec_lost 32
  else { s with recd := { s.recd with
    queue := queueTrig { t with cyc := s.now / 4 } s.recd.queue
    queueMax := max s.recd.queueMax (s.recd.queue.length + 1) } }

/-- R500: a trigger fires. -/
def State.fire (s : State) (ty detail : Nat) (src : Source := {}) : State :=
  (s.count (Obj.trig_count ty) 32).enqueue { ty, detail := detail % 256, src, route := s.routeOf ty }

/-! ## Parity errors, breaches, service reasons -/

/-- R160: a parity error in an internal memory. -/
def State.parityError (s : State) : State :=
  (s.count Obj.parity_error_count 32).modBlk fun b => { b with parityHour := b.parityHour + 1 }

/-- R535. -/
def State.breach (s : State) (code : Nat) : State :=
  (s.count Obj.port_breach_count 32).set Obj.port_breach_last code

/-- R155: sets a reason bit and records it, if it is not set yet. -/
def State.setReason (s : State) (b : Nat) : State :=
  if bit (s.getN Obj.service_reasons) b then s
  else (s.orBits Obj.service_reasons (2 ^ b)).fire 23 b

/-- A reason found between latches: evaluated at the next one where latches run (R154), at once elsewhere (log 12). -/
def State.noteReason (s : State) (b : Nat) : State :=
  if s.engineOn then s.modBlk fun x => { x with reasonDue := x.reasonDue ||| 2 ^ b } else s.setReason b

/-! ## The memory port (R462, R530, R531) -/

def TxKind.write : TxKind → Bool
  | .dataWr | .ringWr | .status | .own | .stWr _ => true
  | .desc | .dataRd | .stRd _ => false

/-- Places of a direction: 32 writes and 16 reads may be outstanding. -/
def txPlaces (wr : Bool) : Nat := if wr then 32 else 16

/-- Outstanding transactions of a direction. -/
def Dma.outstanding (d : Dma) (wr : Bool) : List Txn := d.txns.filter fun t => t.kind.write == wr && !t.answered

/-- The lowest free ID of a direction: 0 to 31 for writes, 32 to 47 for reads. -/
def Dma.freeId (d : Dma) (wr : Bool) : Nat :=
  ((List.range' (if wr then 0 else 32) (txPlaces wr)).find? fun i => !(d.outstanding wr).any fun t => t.id == i).getD 0

/-- A transaction is issued where its direction has a place, or waits for one behind those that wait already. -/
def Dma.issue (d : Dma) (now : Nat) (t : Txn) : Dma :=
  let wr := t.kind.write
  if (d.waiting.any fun w => w.kind.write == wr) || decide (txPlaces wr ≤ (d.outstanding wr).length) then
    { d with waiting := d.waiting ++ [t] }
  else { d with txns := d.txns ++ [{ t with id := d.freeId wr, issuedAt := now }] }

/-- R464, R465: a high-priority channel (0 to 3) takes the port from a low-priority one in the middle of a burst. -/
def State.takePort (s : State) (ch : Nat) : State :=
  let s := match s.dma.owner with
    | some l =>
      if ch < 4 ∧ 4 ≤ l ∧ (s.dmaCh l).burst > 0 then s.count (Obj.dma_preempted l) 32 else s
    | none => s
  { s with dma := { s.dma with owner := some ch } }

def State.memIssue (s : State) (t : Txn) : State :=
  let s := s.takePort t.ch
  { s with dma := s.dma.issue s.now t }

/-- Places that have become free are taken by the transactions that wait. -/
def State.issueWaiting (s : State) : State :=
  { s with dma := s.dma.waiting.foldl (fun d t => d.issue s.now t) { s.dma with waiting := [] } }

/-! ## The string table's copies (R485, R488, R489) -/

def State.modTab (s : State) (f : StrTab → StrTab) : State := { s with dma := { s.dma with tab := f s.dma.tab } }

/-- Whether the table takes updates: while it sweeps, is on or is flushed (R486 to R492). -/
def State.stOn (s : State) : Bool := s.cfg.hasDma && (s.dma.tab.st == 1 || s.dma.tab.st == 2 || s.dma.tab.st == 3)

/-- The block's copy of an entry, where it is cached. -/
def StrTab.find (t : StrTab) (i : Nat) : Option CacheEnt := t.cache.find? fun e => e.s == i

/-- A use of a cached entry makes it the one used last. -/
def StrTab.touch (t : StrTab) (e : CacheEnt) : StrTab :=
  { t with cache := e :: t.cache.filter fun x => x.s != e.s }

/-- R482: address of an entry. -/
def State.entryAddr (s : State) (i : Nat) : Nat := s.getN Obj.st_base + 64 * i

/-- A fetch of an entry on channel 1, where none is on its way. A table in fault fetches nothing (R492). -/
def State.stFetch (s : State) (i : Nat) : State :=
  let out := (s.dma.txns ++ s.dma.waiting).any fun t => t.kind == .stRd i
  if out || s.dma.tab.st == 4 || !s.cfg.hasDma then s
  else s.memIssue { ch := 1, kind := .stRd i, addr := s.entryAddr i, len := 64 }

/-- A 16-bit count of an entry that stops at its largest value. -/
def incAt (b : List Byte) (o : Nat) : List Byte := patch b o (leBytes 2 (min 65535 (fieldAt b o 2 + 1)))

/-- R483, R488: one update of the block-owned fields. A mute with cause ABSENT (5) is not counted. -/
def entryUpdate (b : List Byte) (field value : Nat) : List Byte :=
  match field with
  | 0 => patch (if value = 5 then b else incAt b 10) 16 [value]
  | 1 => incAt b 12
  | 2 => patch (incAt b 14) 17 [value]
  | 3 => patch b 20 (leBytes 4 value)
  | _ => patch b 16 [value]

/-- A changed copy is dirty since its first change (R488). -/
def CacheEnt.change (e : CacheEnt) (now : Nat) (b : List Byte) : CacheEnt :=
  { e with bytes := b, dirty := some (e.dirty.getD now) }

/-- R488: an update is made at once where the entry is cached and none waits before it, else it waits and the entry is
fetched. The block never changes a refused entry (R487). -/
def State.stUpdate (s : State) (i field value : Nat) : State :=
  if !s.stOn || (s.str i).refused then s
  else match s.dma.tab.find i, s.dma.tab.queue with
    | some e, [] =>
      (s.modTab fun t => t.touch (e.change s.now (entryUpdate e.bytes field value))).count Obj.st_cache_hits 32
    | c, q =>
      if q.length ≥ 64 then s.count Obj.st_update_lost 32
      else
        let s := s.modTab fun t => { t with queue := q ++ [(i, field, value)] }
        if c.isSome then s else (s.count Obj.st_cache_misses 32).stFetch i

def StrSt.code : StrSt → Nat
  | .active => 0 | .shed => 1 | .blind => 2 | .hiccup => 3 | .returning => 4 | .muted => 5

/-- R483: `trim_seed` at a refresh, clamped to ±0.25. -/
def Str.seedNow (x : Str) : Int := clampI (-8192) 8192 (x.shI / 65536)

/-- R483: the state code and the CRC are set on every write. -/
def entrySeal (b : List Byte) (x : Str) : List Byte :=
  let c := patch b 18 [x.st.code]
  patch c 60 (leBytes 4 (crc32c (c.take 60)))

/-- A copy is written to host memory on channel 1 and is clean. -/
def State.stWrite (s : State) (e : CacheEnt) : State :=
  let b := entrySeal e.bytes (s.str e.s)
  let clean (x : CacheEnt) : CacheEnt := if x.s = e.s then { x with bytes := b, dirty := none } else x
  (s.modTab fun t => { t with cache := t.cache.map clean }).memIssue
    { ch := 1, kind := .stWr e.s, addr := s.entryAddr e.s, len := 64, data := b }

/-- R489: the flush goes on with the entries that are cached, refreshed and written, up to one to be fetched. An entry
that was refused when it was fetched again is left out (R487). -/
def State.stFlushOn (s : State) : List Nat → State
  | [] => s.modTab fun t => { t with flush := [] }
  | i :: l =>
    if (s.str i).refused then s.stFlushOn l
    else match s.dma.tab.find i with
    | some e =>
      let b := patch e.bytes 8 (leBytes 2 (ofSigned 16 (s.str i).seedNow))
      (s.stWrite { e with bytes := b }).stFlushOn l
    | none => (s.modTab fun t => { t with flush := i :: l }).stFetch i

/-- The flush ends once every entry has been written and answered (R489). -/
def State.stFlushEnd (s : State) : State :=
  let out := (s.dma.txns ++ s.dma.waiting).any fun t => t.ch == 1 && t.kind.write
  if s.dma.tab.st == 3 && s.dma.tab.flush.isEmpty && !out then
    s.modTab fun t => { t with st := if t.sweeping then 1 else 2 }
  else s

/-- R489: a flush begins where the table is on; every installed string is refreshed. -/
def State.stStartFlush (s : State) : State :=
  if s.stOn then
    ((s.modTab fun t => { t with st := 3 }).stFlushOn
      ((Config.allStrings s.cfg).filter fun i => (s.str i).installed)).stFlushEnd
  else s

/-! ## Strings (R123 to R126) -/

/-- R123: states in rotation. -/
def StrSt.rotates : StrSt → Bool
  | .active | .blind | .returning => true
  | _ => false

/-- R124: priority of a mute cause, 1 the highest. -/
def causePriority (c : Nat) : Nat := [8, 7, 5, 4, 6, 2, 3, 1].getD c 8

/-- R139: a test is dropped, and with it the open counter. -/
def Str.dropTest (x : Str) : Str :=
  match x.test with
  | none => x
  | some _ => { x with test := none, openCtr := 0, openLow := 0, finding := 0 }

/-- R135: the open counter returns to 0. -/
def Str.zeroOpen (x : Str) : Str := { x with openCtr := 0, openLow := 0 }

/-- R141: the runs of the RANGE and STUCK tests begin afresh. -/
def Str.resetSense (x : Str) : Str := { x with rangeRun := 0, stuckRun := 0, lastCode := none, finding := 0 }

/-- R126: the string has made a transition in this supervisor cycle. -/
def State.moved (s : State) (i : Nat) : Bool := (s.str i).movedAt == some (s.now / 4)

/-- R151: the ramp level in eighths at a step. -/
def rampEighths (step : Nat) : Nat := 2 + 3 * step / 8

/-- R153: the blind flag is set with cause OFFSET. -/
def Str.offsetFlag (x : Str) : Bool := x.blind && x.blindCause == 3

/-- Weight of a string in eighths (R38). -/
def Str.eighths (x : Str) : Nat :=
  match x.st with
  | .active | .shed | .blind => 8
  | .returning => rampEighths x.rampStep
  | .hiccup | .muted => 0

/-- R138: a string's state change, or the start of a test, is noted with its period in its region. -/
def State.mark (s : State) (i : Nat) : State :=
  s.modSup (regionOf i) fun u => { u with marks := (s.eng.period, i) :: u.marks }

/-- R254: a sense is at fault at this instant of the control period. -/
def State.senseSeen (s : State) : State := { s with cap := { s.cap with senseNow := true } }

/-- R126: a transition that is no entry into MUTED, with its event. -/
def State.strTo (s : State) (i : Nat) (new : StrSt) (f : Str → Str := id) : State :=
  let old := (s.str i).st
  let leaves := new != .active && new != .returning
  let s := if new == .blind then s.senseSeen else s
  let s := s.modStr i fun x =>
    let x := x.dropTest
    let x := if leaves then x.zeroOpen else x
    let x := if new == .blind || old == .blind then x.resetSense else x
    let x := { x with
      st := new, cause := 0, satRun := 0, activeRun := 0, retPending := false, movedAt := some (s.now / 4) }
    f (if new == .returning then { x with rampStep := 0, rampAt := none } else x)
  ((s.mark i).set (Obj.string_last_change i) s.now).fire 14 (16 * new.code + old.code) (srcString i)

/-- R124, R126: a mute with a cause. Entering MUTED and a change to a cause of higher priority are recorded. -/
def State.mute (s : State) (i cause : Nat) : State :=
  let x := s.str i
  if x.st = .muted then
    if causePriority cause < causePriority x.cause then
      ((s.modStr i fun y => { y with cause := cause, retPending := false, parAt := none }).fire 13 cause
        (srcString i)).stUpdate i 4 cause
    else s
  else
    let s := s.modStr i fun y =>
      { y.dropTest.zeroOpen with
        st := .muted, cause := cause, rampAt := none, rampStep := 0, rampCmd := false, retPending := false
        satRun := 0, activeRun := 0, parAt := none, movedAt := some (s.now / 4) }
    let s := ((s.mark i).countSat (Obj.string_mute_count i) 16).set (Obj.string_last_change i) s.now
    let s := if cause = 1 then s else s.modSup (regionOf i) fun u => { u with faultNow := true }
    (s.fire 13 cause (srcString i)).stUpdate i 0 cause

/-- The blind flag is set with a cause (R139 to R142, R153); the table's `blind_count` follows (R488). -/
def State.flagBlind (s : State) (i cause : Nat) : State :=
  (s.modStr i fun x => { x with blind := true, blindCause := cause }).stUpdate i 2 cause

/-- ACTIVE to BLIND (R126). -/
def State.makeBlind (s : State) (i cause : Nat) : State :=
  (s.flagBlind i cause).strTo i .blind fun x => { x with shI := 0, shMet := 0 }

/-- R133: the string enters HICCUP. -/
def State.toHiccup (s : State) (i : Nat) : State :=
  let s := (s.countSat (Obj.string_hiccup_count i) 16).strTo i .hiccup fun x =>
    { x with rampAt := none, rampStep := 0, rampCmd := false }
  s.stUpdate i 1 0

/-- R106: a SHED string rejoins, to BLIND where its flag is set. It has met its off-time. -/
def State.rejoin (s : State) (i : Nat) : State :=
  let x := s.str i
  if x.st = .shed then s.strTo i (if x.blind then .blind else .active) fun y => { y with offQ := none } else s

/-- R106: every SHED string of the region rejoins, and the shed hold returns to 0 (R103). -/
def State.rejoinAll (s : State) (r : Nat) : State :=
  let l := (Config.regionStrings s.cfg r).filter fun i => (s.str i).st == .shed
  if l.isEmpty then s
  else (overAll s l State.rejoin).modSup r fun u => { u with hold := 0 }

/-- R313: a fault that the learner's fault window counts. -/
def State.learnFault (s : State) (r : Nat) : State := s.modSup r fun u => { u with faultNow := true }

/-- R251: the capo in force of a region; a change of it disturbs a shift test (R138). -/
def State.setCapo (s : State) (r v : Nat) : State :=
  if s.getN (Obj.region_capo r) = v then s
  else (s.set (Obj.region_capo r) v).modSup r fun u => { u with distNow := true }

/-- R147, R251: a lowered limit lowers the capo at once. -/
def State.lowerCapo (s : State) (r v : Nat) : State := s.setCapo r (min v (s.getN (Obj.region_capo r)))

/-! ## The PMBus segments -/

/-- R402, R404: no course of the segment below `c` has work of a kind left, so that its courses come in ascending order. -/
def State.segmentTurn (s : State) (c : Nat) (due : Course → Bool) : Bool :=
  (Config.courses s.cfg).all fun k => !(segmentOf k == segmentOf c && decide (k < c) && due (s.course k))

/-! ## Commit groups (R390, R391) -/

/-- R391: a set of the group has been committed; and it has been committed in the present cycle of its consumer's island:
2 ns in the engine, which latches G1, G4 and G6, and 4 ns in the supervisor. -/
def State.committed (s : State) (g : Nat) : Bool := (s.dict.commitAt.getD g none).isSome
def State.sameCycle (s : State) (g : Nat) : Bool :=
  let n := if g = 1 ∨ g = 4 ∨ g = 6 then 2 else 4
  (s.dict.commitAt.getD g none).any fun t => t / n == s.now / n

/-- A consumer's copy of the committed set of a group; `g` is 1 to 7. -/
def State.groupSet (s : State) (g : Nat) : InUse :=
  let u := s.used
  match g with
    | 1 => { u with g1e := ⟨s.getN Obj.tsw_target, s.getN Obj.toff_min, s.getN Obj.ton_min, s.getN Obj.ton_max⟩ }
    | 2 => { u with g2 := ⟨s.get Obj.warn_level, s.get Obj.warn_hyst, s.get Obj.throttle_level,
        s.get Obj.throttle_hyst, s.get Obj.restart_level⟩ }
    | 3 => { u with g3 := ⟨s.getN Obj.cap_w, s.getN Obj.thermal_step⟩ }
    | 4 => { u with g4e := ⟨s.getN Obj.strum_depth, s.getN Obj.strum_slope, s.getN Obj.release_depth,
        s.getN Obj.ov_offset⟩ }
    | 5 => { u with g5 := ⟨s.getN Obj.shed_level, s.getN Obj.shed_min, s.getN Obj.rejoin_level⟩ }
    | 6 => { u with g6 := ⟨s.getN Obj.trim_mode, s.getN Obj.trim_gain, s.get Obj.trim_offset⟩ }
    | 7 => { u with g7 := ⟨s.getN Obj.telem_mode, s.getN Obj.telem_grain⟩ }
    | _ => u

/-- A consumer takes the committed set of a group whole, one committed in the present cycle at the next instant (R391).
The region islands take G1 and G4, and the throttle G2, at instants of their own. -/
def State.takeGroup (s : State) (g : Nat) : State :=
  if s.sameCycle g then s
  else { s with
    used := s.groupSet g
    dict := { s.dict with commitAt := if g = 7 then s.dict.commitAt.set 7 none else s.dict.commitAt } }

/-- R390: the throttle takes G2 at its decision instant. -/
def State.takeThrottle (s : State) : State :=
  if s.sameCycle 2 then s
  else { s with used := { s.used with g2t := ⟨s.get Obj.warn_level, s.get Obj.warn_hyst, s.get Obj.throttle_level,
      s.get Obj.throttle_hyst, s.get Obj.restart_level⟩ } }

/-- R81, R102: at cycle 410 the region islands apply the sets that the engine latched, twins and all. -/
def State.applyIsland (s : State) : State :=
  { s with
    used := { s.used with g1 := s.used.g1e, g4 := s.used.g4e }
    regions := s.regions.map fun x => { x with strum := { x.strum with
      a := if x.strum.a.loading.isSome then x.strum.a else { x.strum.a with g := s.used.g4e }
      b := if x.strum.b.loading.isSome then x.strum.b else { x.strum.b with g := s.used.g4e } } } }

/-! ## PMBus addresses (R402, R455) -/

/-- R402: the 7-bit address of a course. -/
def courseAddr (c : Nat) : Nat := 0x50 + c % 14

/-- The populated course at an address of a segment. -/
def courseAt (cfg : Config) (seg addr : Nat) : Option Nat :=
  (Config.courses cfg).find? fun c => segmentOf c == seg && courseAddr c == addr

/-- R132: a follow-up has begun. -/
def Follow.isRunning : Follow → Bool
  | .running _ => true
  | _ => false

/-! ## Course faults and follow-ups (R132) -/

/-- One course fault. -/
def State.courseFault (s : State) (c : Nat) : State :=
  (s.countSat (Obj.course_fault_count c) 16).countSat (Obj.course_faults_hour c) 8

/-- A cause for a follow-up: served by one that waits or has not yet read STATUS_WORD, else one more is queued. -/
def State.followCause (s : State) (c : Nat) : State :=
  s.modCourse c fun x => { x with follow := match x.follow with
    | .idle => .waiting
    | .waiting => .waiting
    | .running _ => .running true }

/-! ## Pulses -/

/-- R63: a pulse in progress is cut: the line falls now. -/
def State.cutPulse (s : State) (i : Nat) : State :=
  match (s.str i).pulse with
  | none => s
  | some _ => s.modStr i fun x => { x with pulse := none, offQ := some (4 * s.now) }

/-- R99, R346: halt_firing is set in a region; pulses in progress are cut, strums and pre-strums end. -/
def State.haltRegion (s : State) (r : Nat) : State :=
  overAll (s.modRegion r fun x =>
    { x with strum := { x.strum with halt := true, ep := none }, pre := {}, loop := { x.loop with fixAt := none } })
    (Config.regionStrings s.cfg r) State.cutPulse

def State.haltAll (s : State) : State := overAll s (Config.regions s.cfg) State.haltRegion

/-- CRS_EN of every course falls. -/
def State.allEnLow (s : State) : State :=
  { s with courses := s.courses.map fun c => { c with en := false, sup := false } }

/-- R422, R424: rails that were up or on their way read OFF; FAILED and NOT_STARTED stay (log 13). -/
def State.railsOff (s : State) : State :=
  { s with rails := s.rails.map fun x =>
      { x with st := (match x.st with | .failed => .failed | .notStarted => .notStarted | _ => .off)
               enAt := none, refAt := none, joined := [], downAt := none } }

/-! ## Margin recovery, learner passes, hints -/

/-- R222: the recovery of every rail is 0 for `recovery_hold` (in ms, R227). -/
def State.resetRecovery (s : State) : State :=
  { s with rails := s.rails.map fun x =>
      { x with recov := 0, recHold := some (s.now + s.getN Obj.recovery_hold * 1000000) } }

/-- R300: the parameters of a running pass that have been processed: 4 a cycle of 2 ns after 32 cycles. -/
def Shard.processed (x : Shard) (now : Nat) : Nat := min x.params (4 * ((now - x.startAt) / 2 - 32))

/-- R316: a running pass of a shard is stopped with a cause code; its shadow copy is lost. The record of R499 has no
place for the number of parameters processed, which stays with the shard (log 100). -/
def State.stopPass (s : State) (k code : Nat) : State :=
  if !(s.shard k).running then s
  else
    let done := (s.shard k).processed s.now
    let sats := ((s.shard k).sats.filter (· < done)).length
    let s := s.modShard k fun x =>
      { x with running := false, shadow := [], upd := [], sats := [], stepOpen := false, outcome := code, stopped := done }
    let s := (s.count (Obj.shard_param_sat k) 32 sats).count (Obj.shard_discards k) 32
    (s.orBits Obj.learn_irq_status 1).fire 33 code (srcShard k)

def State.stopAllPasses (s : State) (code : Nat) : State :=
  overAll s (List.range 8) fun s k => s.stopPass k code

/-- R270: the scoreboard is no longer full. -/
def State.hintsNotFull (s : State) : State :=
  if s.hints.full && s.hints.entries.length < 16384 then
    ({ s with hints := { s.hints with full := false } }).fire 32 1
  else s

/-- R272: the scoreboard is emptied, armed pre-strums are cancelled, pre-bump requests are withdrawn. -/
def State.emptyHints (s : State) : State :=
  let s : State := { s with
    hints := { s.hints with entries := [], gone := [], past := [], asking := [] }
    regions := s.regions.map fun x => { x with pre := { x.pre with starts := [], ready := [] } }
    rails := s.rails.map fun x => { x with req := none } }
  s.hintsNotFull

/-! ## The tuning table in use (R205, R207) -/

/-- The tuning voltage of a rail at a fret in 1.25 mV; the matched value in use is never below the per-chip one. -/
def State.tuneAt (s : State) (q f : Nat) : Nat :=
  let pick (chip matched : Nat) : Nat := if s.cap.matched then max chip matched else chip
  if q = 0 then pick (s.tune.chip.getD f 0) (s.tune.matched.getD f 0)
  else pick (s.tune.mem.getD (q - 1) 0) (s.tune.mem.getD (q + 1) 0)

/-- R75: the largest addition among the bands of a rail's populated regions, in 1.25 mV. -/
def State.bandAdd (s : State) (q : Nat) : Nat :=
  maxN ((Config.railRegs s.cfg q).map fun r => s.getN (Obj.band_tguard (s.diode r).band))

/-- R180: the trim of a rail in fvu; `val` is in µV. -/
def State.trimFvu (s : State) (q : Nat) : Int :=
  if bit (s.getN Obj.trim_rails) q then roundEven (s.eng.val * 2097152) 5000 else 0

/-- R180: the load-line term of a rail in fvu, with `i` as i_f. -/
def State.dropFvu (s : State) (q : Nat) (i : Int) : Int :=
  roundEven ((s.getN (Obj.rail_load_line (76 + q)) : Int) * i * 65536) 156250

/-- R203: the target fret of a region. -/
def State.fretTarget (s : State) (r : Nat) : Nat :=
  match s.blk.st with
  | .ramp | .cooldown | .shutdown => 0
  | _ => min (s.getN (Obj.region_fret_request r)) (min (s.getN (Obj.region_capo r)) (s.getN (Obj.rail_fret_fit (railOf r))))

/-- R216: a raising step that waits for the voltage is abandoned once the target has fallen. -/
def State.abandonFret (s : State) (r : Nat) : State :=
  let f := (s.region r).fret
  if f.step == .upWait && decide (s.fretTarget r ≤ f.fret) then
    s.modFret r fun f => { f with step := .idle, settled := 0, val := f.fret }
  else s
def State.abandonFrets (s : State) : State := overAll s (Config.regions s.cfg) State.abandonFret

/-! ## Requests between units -/

/-- R475: `k` events of a request source for the channels that a test admits; each count saturates at 255. -/
def State.raiseReq (s : State) (src k : Nat) (f : Nat → Bool := fun _ => true) : State :=
  let one (x : DmaCh × Nat) : DmaCh :=
    if f x.2 then { x.1 with reqs := x.1.reqs.modify src fun n => min 255 (n + k) } else x.1
  { s with dma := { s.dma with ch := s.dma.ch.zipIdx.map one } }

/-- R475: the events of a source are withdrawn. -/
def State.dropReq (s : State) (src : Nat) : State :=
  { s with dma := { s.dma with ch := s.dma.ch.map fun c => { c with reqs := c.reqs.set src 0 } } }

/-- R369: an urgent request sets out for converter `n`. -/
def State.askUrgent (s : State) (n : Nat) (u : Urgent) : State :=
  s.modConv n fun c => { c with coming := c.coming ++ [u] }

/-! ## Leaving and entering states -/

/-- R253: CAP_FLOOR and THR_REQ are cleared, which is recorded; the millisecond is not counted. -/
def State.clearCapFloor (s : State) : State :=
  if s.cap.floor then ({ s with cap := { s.cap with floor := false, floorSeen := true } }).fire 30 0 else s

/-- The wake handshake of a region as the block leaves RUN or SERVICE: the grant falls and waiting stops (R113). -/
def Wake.leave (w : Wake) (now : Nat) : Wake :=
  { w with gnt := false, granted := none
           waited := (match w.since with | some t => w.waited + (now - t) | none => w.waited)
           since := w.since.map fun _ => now }

/-- R244, R415: what happens when the block leaves RUN and SERVICE; every capo is 0 outside them. -/
def State.leaveRun (s : State) : State :=
  let s := s.modBlk fun b => { b with pwrGood := false }
  let s := (s.clearCapFloor.emptyHints).stopAllPasses 6
  let s := overAll s (List.range 76) fun s r => s.set (Obj.region_capo r) 0
  { s with
    cap := { s.cap with next := none }
    rails := s.rails.map fun x => { x with recov := 0 }
    learn := { s.learn with msRun := false, stepPending := false }
    regions := s.regions.map fun x =>
      { x with
        wake := x.wake.leave s.now
        sup := { x.sup with hold := 0 }
        fret := if x.fret.step == .upWait then { x.fret with step := .idle, settled := 0, val := x.fret.fret } else x.fret }
    strings := s.strings.map fun x => if x.st == .returning then { x with rampAt := none } else x }

/-! ## Converter entries (R353, R357) -/

def entryInput (w : Nat) : Nat := w % 32
def entryTs (w : Nat) : Nat := w / 128 % 128
def entryGain (w : Nat) : Nat := 2 ^ (w / 16384 % 4)

/-- R357: a written entry word after its clamps; reserved bits are 0. -/
def entryClamp (w : Nat) : Nat :=
  w / 16384 % 4 * 16384 + clampN 4 64 (entryTs w) * 128 + min 19 (entryInput w)

/-- R353, R357: whether input `i` of converter `n` is connected. -/
def Config.connected (c : Config) (n i : Nat) : Bool :=
  if i < 16 then Config.popString c (16 * n + i)
  else if i = 16 then Config.popCourse c (2 * n)
  else if i = 17 then Config.popCourse c (2 * n + 1)
  else i < 20

/-- Nanoseconds against island cycles of 3.90625 ns: `t` ns hold at least `k` cycles. -/
def cyclesPassed (t k : Nat) : Bool := decide (k * 1000 ≤ t * 256)

/-- The first connected entry at or after `i` of a table with a length. -/
def Config.entryFrom (c : Config) (n : Nat) (table : List Nat) (len i : Nat) : Option Nat :=
  ((List.range' i (len - i)).find? fun k => Config.connected c n (entryInput (table.getD k 0)))

/-- Entry in progress. -/
def Conv.entry (c : Conv) : Nat := if c.inB then c.b.getD c.idx 0 else c.a.getD c.idx 0

/-- A new entry begins to track. -/
def Conv.track (c : Conv) (now : Nat) : Conv := { c with armedAt := now, held := none, timed := false, unarmed := false }

/-- Table B starts a sweep from its staged copy (R359); none where no entry of it is connected. What the check
reference of the sweep before has read stands for R374. -/
def Conv.startB (c : Conv) (cfg : Config) (n now : Nat) : Option Conv :=
  (Config.entryFrom cfg n c.sb c.sbLen 0).map fun k =>
    ({ c with
      b := c.sb, bLen := c.sbLen, inB := true, idx := k, sinceB := 0, resampled := false
      refBad := c.refOff, refOff := false } : Conv).track now

/-- R363: an entry that waits for a strobe of string `i` stops waiting as the string leaves rotation. -/
def State.strobeLeaves (s : State) (i : Nat) : State :=
  s.modConv (i / 16) fun c =>
    if c.urgent.isNone && !c.sync && !c.inB && entryInput c.entry == i % 16 then { c with unarmed := true } else c

/-- R373: entry into a low-power state: queued urgent requests are discarded and counted, an armed capture ends. -/
def State.convLow (s : State) : State :=
  let n := sumN (s.convs.map fun c => c.queue.length + c.coming.length)
  let s := s.count Obj.urgent_refused 32 n
  { (s.modBlk fun b => { b with fullAt := none, fullSpeed := false }) with
    convs := s.convs.map fun c => { c with queue := [], coming := [], sync := false }
    cg := { s.cg with arm := 0, left := 0, running := false, trigs := [] } }

/-- R373: after SELFTEST, low power begins with table B on every populated converter. -/
def State.convStart (s : State) : State :=
  { s with convs := s.convs.zipIdx.map fun (c, n) =>
      if Config.popConv s.cfg n then (c.startB s.cfg n s.now).getD c else c }

/-- R373: full speed is ordered on entry into a state that runs at it; conversions at it begin 4.0 µs later. -/
def State.orderFull (s : State) : State := s.modBlk fun b => { b with fullAt := some (s.now + 4000), fullSpeed := false }

/-- R235, R250: each entry into RUN begins with I_term at 0 and an efficiency of 0.900. -/
def State.freshCap (s : State) : State := { s with cap := { s.cap with iTerm := 0, iMet := 0, effHist := [] } }

/-- R204: every region is taken to be at fret 0; a handshake in progress completes without effect on the fret. -/
def Fret.ramp (f : Fret) : Fret :=
  if f.req || f.ack then { f with fret := 0, settled := 0, overtaken := true } else { fret := 0 }

/-- R50, R51: the figures of a pickup begin anew with a control period. -/
def Pickup.restart (k : Pickup) : Pickup := { k with sum := 0, cnt := 0, lo := 255, hi := 0, par := 0 }

/-- R204, R341, R415: entry into RAMP resets n, every L(r) and every fret; a RETURNING string takes ρ = 0.25. The VIN
mean of R376 and the figures of the pickups (R51) begin anew with the first control period. -/
def State.enterRamp (s : State) : State :=
  { s with
    therm := { s.therm with n := 0 }
    eng := { s.eng with ticks := 0, computed := false }
    cg := { s.cg with vinSum := 0, vinCnt := 0 }
    regions := s.regions.map fun x =>
      { x with sup := { x.sup with limit := 15 }, fret := x.fret.ramp, pk := x.pk.map Pickup.restart }
    rails := s.rails.map fun x => { x with needCalc := 0, needOut := 0 }
    strings := s.strings.map fun x => if x.st == .returning then { x with rampStep := 0, rampAt := none } else x }

/-- R421: REGION_HOLD and FRET_CMD_VAL are 0 in DISCOVER; a handshake in progress keeps its value until it completes
(R216). -/
def State.enterDiscover (s : State) : State :=
  { s with regions := s.regions.map fun x =>
      { x with
        sup := { x.sup with regHold := false, rampEnded := false }
        fret := if x.fret.req || x.fret.ack then x.fret else { x.fret with val := 0 } } }

/-- R348: the restart timer counts in COOLDOWN alone. -/
def State.stopRestart (s : State) : State := { s with therm := { s.therm with coolAt := none } }

/-- What is attached to a change of state into `b`, before the state changes. -/
def State.attached (s : State) (b : BState) : State :=
  let old := s.blk.st
  let s := if old.runs && !b.runs then s.leaveRun else s
  let s := if b.lowPower && !old.lowPower then s.convLow else s
  let s := if old == .selftest then s.convStart else s
  let s := if b.full && !old.full then s.orderFull else s
  let s := if b = .run then s.freshCap else s
  let s := if b = .ramp then s.enterRamp else s
  let s := if b = .discover then s.enterDiscover else s
  let s := if b = .shutdown ∨ b = .halted then s.stStartFlush else s
  if old = .cooldown then s.stopRestart else s

/-- R399: a change of state, recorded with the block time of the change. -/
def State.enter (s : State) (b : BState) : State :=
  ((s.attached b).modBlk fun x => { x with st := b, since := s.now }).fire 2 b.code (srcState s.blk.st.code)

/-- R99, R101, R131: the damper acts on a rail; `detail` and `src` name what decided it. It acts once (R389). -/
def State.damper (s : State) (q detail : Nat) (src : Source) : State :=
  if s.get (Obj.rail_damped q) = 1 || !s.blk.st.scans then s
  else
    let s := s.haltAll
    let s := overAll s (Config.railCourses s.cfg q) fun s c => s.modCourse c fun x => { x with damp := true }
    let s := s.allEnLow
    let s := (s.set (Obj.rail_damped q) 1).fire 8 detail src
    let s := overAll s ((Config.allStrings s.cfg).filter fun i => railOf (regionOf i) == q) fun s i => s.mute i 7
    let s := (s.resetRecovery.railsOff).modBlk fun b => { b with irqSafety := true, downLeft := [], downBegun := false }
    if s.blk.st = .halted then s else s.enter .halted

end Sys2Proof.Machine
end

