-- ==== Sys2Proof/Machine/Loop.lean ====
section
/-! DEFINITION. The string loop of a region island: calibration, the minimum and its fallbacks, the reference's
interpolation, synthetic ripple, on-times and the fire decision (R46 to R82, R409), with the twins' evaluation and the
start of a strum (R83 to R97), since all of them fall in one region-island cycle in the order of R388. A cycle's `now`
is its decision cycle: its samples were taken 3 ns before, and a FIRE edge is at the pin 1 ns later (R76). -/

namespace Sys2Proof.Machine

/-! ## Pickups (R46 to R50, R55, R56) -/

/-- R48. -/
def calibrate (o : Int) (g code : Nat) : Nat :=
  (clampI 0 6640 (2560 + roundUp (16 * code * (896 + g) : Nat) 1024 + 4 * o)).toNat

/-- One sample of a pickup (R48, R50, R51). A sample with a parity error takes no part in any figure but its count. -/
def Pickup.take (k : Pickup) (x : Sample) : Pickup :=
  let c := x.code % 256
  if x.parityOk then
    let v := calibrate k.o k.g c
    { k with v := v, clean := true, sum := k.sum + v, cnt := k.cnt + 1, lo := min k.lo c, hi := max k.hi c }
  else { k with clean := false, par := k.par + 1 }

/-- R55: the calibrated values that may enter a minimum. -/
def cleanValues (l : List Pickup) : List Nat := (l.filter fun k => k.isl && k.clean).map (·.v)

/-- R56: the values of the facing pickups of the rail neighbours. -/
def State.facingValues (s : State) (r : Nat) : List Nat :=
  ((Config.neighbourDirs s.cfg r).zipIdx.filterMap fun (o, d) => o.map fun n =>
    cleanValues ((facing r d).map fun p => (s.region n).pk.getD p {})).flatten

/-- The value of the source in use (R55 to R57). -/
def State.vminNow (s : State) (r : Nat) : Option Nat :=
  match (s.region r).loop.src with
  | .own => (cleanValues (s.region r).pk).min?
  | .borrowed => (s.facingValues r).min?
  | .fixedRate => none

/-- R56, R57: the source that the pickups call for. -/
def State.sourceDue (s : State) (r : Nat) : VSrc :=
  let x := s.region r
  if x.pk.any (·.isl) && x.loop.miss < 8 then .own
  else if (s.facingValues r).isEmpty then .fixedRate
  else .borrowed

def VSrc.code : VSrc → Nat
  | .own => 0 | .borrowed => 1 | .fixedRate => 2

/-! ## The reference (R59) -/

/-- One cycle of the interpolation: evenly over 500 cycles. -/
def Loop.interpolate (l : Loop) : Loop :=
  let k := min 500 (l.refK + 1)
  { l with refK := k, vref := l.refFrom + truncZero ((l.refTo - l.refFrom) * k) 500
           rampV := l.rampFrom + truncZero ((l.refBase - l.rampFrom) * k) 500 }

/-- A new value `v`, `b` without the guard, restarts the interpolation from the value reached. -/
def Loop.newRef (l : Loop) (v b : Int) : Loop :=
  { l with refFrom := l.vref, refTo := v, refK := 0, rampFrom := l.rampV, refBase := b }

/-- R56, R59: a delivered reference with the borrow guard of the source in use, in units of 0.15625 mV. -/
def State.refTarget (s : State) (l : Loop) (b : Int) : Int :=
  b + (if l.src = .borrowed then 8 * (s.getN Obj.pick_borrow_guard : Int) else 0)

/-! ## Synthetic ripple (R69, R70) -/

/-- R70: W in ns. -/
def G1.window (g : G1) : Nat := (g.tsw + 2) / 4

/-- R69: a contribution in 1/256 of 0.15625 mV, rounded down (log 14). -/
def Contrib.value (c : Contrib) : Nat :=
  if 4 * c.age ≤ c.tonQ then 256 * 64 * c.amp * c.age / c.tb
  else
    let k := c.age - ceilDiv c.tonQ 4
    let fall := 64 * c.win - c.tb
    (256 * 16 * c.amp * c.tonQ * fall - 256 * c.slope * c.amp * k * c.tb) / (c.tb * fall)

/-- A contribution that has come back to 0 after its pulse is dropped. -/
def Contrib.ended (c : Contrib) : Bool := decide (4 * c.age > c.tonQ) && c.value == 0

/-- R70: y of this cycle joins the last 125 values. -/
def Loop.ripple (l : Loop) : Loop :=
  let y := sumN (l.contribs.map Contrib.value)
  { l with ys := ((y : Int) :: l.ys).take 125
           contribs := (l.contribs.filter fun c => !c.ended).map fun c => { c with age := c.age + 1 } }

/-- R70: y_ac in whole units, ties away from zero. -/
def Loop.yac (l : Loop) (w : Nat) : Int :=
  roundAway (l.ys.headD 0 * w - sumI (l.ys.take w)) (256 * w)

/-! ## Rotation (R61, R63, R410) -/

/-- R61, R410: a position whose string may fire in rotation. -/
def State.inRotation (s : State) (r p : Nat) : Bool :=
  let i := stringAt r p
  let q := s.rail (railOf r)
  Config.popString s.cfg i && (s.str i).isl.rotates && !(s.str i).islBad && (s.course (courseOf i)).en
    && (q.st != .ramping || q.joined.contains p)

/-- The first position at or after `p`, wrapping, that is in rotation. -/
def State.rotFrom (s : State) (r p : Nat) : Option Nat :=
  let n := stringsMax r
  ((List.range n).map fun k => (p + k) % n).find? (s.inRotation r)

/-- R63: where the string under the pointer has left rotation, the pointer moves to the next one in rotation. -/
def State.movePtr (s : State) (r : Nat) : State :=
  s.modLoop r fun l => { l with ptr := (s.rotFrom r l.ptr).getD l.ptr }

def State.nRot (s : State) (r : Nat) : Nat := ((List.range (stringsMax r)).filter (s.inRotation r)).length

/-! ## On-time (R65) -/

/-- The on-time in 250 ps of a string with a multiplier `m` in 1/20. -/
def State.onTime (s : State) (r i m : Nat) : Nat :=
  let x := s.str i
  let l := (s.region r).loop
  let t : Int := if x.isl = .blind ∨ x.isl = .returning then 0 else x.trim
  let rho := if x.isl = .returning then x.islRho else 8
  let corr := s.getN (Obj.band_ton_corr l.band)
  let num : Int := l.tonBase * (32768 + t) * corr * rho * m
  clampN s.used.g1.tonMin s.used.g1.tonMax (roundUp num (16 * 32768 * 256 * 8 * 20)).toNat

/-- R62: the falling edge of a string's last pulse at the pin, in 250 ps; none when it has not fired since reset. -/
def Str.offEnd (x : Str) : Option Nat :=
  match x.pulse with
  | some p => some p.fallQ
  | none => x.offQ

/-- R365: a FIRE edge of `sync_string`, at `q` in 250 ps, sets a trigger of an armed capture, `sync_delay` after it. -/
def State.noteSync (s : State) (i q : Nat) (kind : PulseKind) : State :=
  if s.cg.arm = 0 || s.getN Obj.sync_source != 1 || s.getN Obj.sync_string != i || kind == .spread then s
  else { s with cg := { s.cg with trigs := s.cg.trigs ++ [q + 4 * s.getN Obj.sync_delay] } }

/-- A pulse of a given length is issued: its edges, its ripple contribution with the band's parameters (R68, R69). -/
def State.issue (s : State) (r i ton : Nat) (kind : PulseKind) : State :=
  let l := (s.region r).loop
  let rise := 4 * (s.now + 1)
  let s := (s.noteSync i rise kind).modStr i fun x =>
    { x with pulse := some ⟨rise, rise + ton, kind⟩, last := some ⟨rise, rise + ton, kind⟩ }
  s.modRegion r fun x =>
    { x with
      loop := { x.loop with contribs := x.loop.contribs ++
        [⟨s.getN (Obj.band_amp l.band), s.getN (Obj.band_slope l.band), l.tonBase, s.used.g1.window, ton, 0⟩] }
      rep := { x.rep with pulses := x.rep.pulses + 1 } }

/-! ## Twins (R83 to R87, R97, R98) -/

def Strum.twin (u : Strum) : TwinId → Twin
  | .a => u.a
  | .b => u.b
def Strum.setTwin (u : Strum) (t : TwinId) (x : Twin) : Strum :=
  match t with
  | .a => { u with a := x }
  | .b => { u with b := x }
def TwinId.other : TwinId → TwinId
  | .a => .b
  | .b => .a

/-- R87: the trigger condition of a twin on its history, latest value first. A twin that reloads does not trigger (R86). -/
def Twin.triggers (t : Twin) (vref : Int) : Bool :=
  match t.loading, t.hist with
  | none, v :: h =>
    decide ((v : Int) < vref - 8 * t.g.depth) ||
      decide ((v : Int) < vref) && (match (h[3]? : Option Nat) with
        | some v4 => decide (5 * (v4 : Int) ≥ 5 * (v : Int) + 32 * t.g.slope)
        | none => false)
  | _, _ => false

/-- R97, R98, R417: the over-voltage threshold of a twin in the present block state. In RAMP the reference it is formed
from is the one of R59, R177 and R408, whose base is never below `rail_vmin`, also while v_ramp is (log 101). -/
def State.ovThreshold (s : State) (r : Nat) (t : Twin) : Int :=
  let x := s.region r
  let ceil : Int := mvUnits (ovCeiling (railOf r))
  let g := if t.loading.isSome then s.used.g4 else t.g
  let near (v : Int) : Int := min (v + 8 * (g.ov : Int)) ceil
  let v := x.strum.downRef.getD x.loop.vref
  match s.blk.st with
  | .ramp => near (max v (mvUnits (railVmin (railOf r))))
  | .run | .service => near v
  | .shutdown =>
    if (Config.railCourses s.cfg (railOf r)).any fun c => (s.course c).en then near v else ceil
  | _ => ceil

/-- R83, R97: a value of vmin enters a twin. A twin that reloads counts on, against the committed set (log 15). -/
def State.feedTwin (s : State) (r v : Nat) (t : Twin) : Twin :=
  let above := decide ((v : Int) > s.ovThreshold r t) || v == 6640
  { t with hist := (v :: t.hist).take 5, ov := if above then t.ov + 1 else 0 }

/-- R85: a strum disagreement is counted, recorded, and may set the TWIN reason. -/
def State.strumDisagree (s : State) (r : Nat) : State :=
  let g := Obj.region_twin_disagree r
  let n := s.getN g
  let s := s.set g (n / 65536 * 65536 + min 65535 (n % 65536 + 1) : Nat)
  let s := (s.fire 12 0 (srcRegion r)).modStrum r fun u => { u with window := u.window + 1 }
  if s.getN Obj.twin_strum_limit ≤ (s.region r).strum.window then s.noteReason 5 else s

/-- R85: a twin that triggered alone in a cycle where a trigger can act waits two more cycles for the other. -/
def State.compareTwins (s : State) (r : Nat) (a b : Bool) : State :=
  if a == b then s
  else
    s.modStrum r fun u => { u with disWait := some (if a then .b else .a, 2) }

/-- R85: the two cycles in which the other twin may still trigger. It counts only in a cycle in which a trigger can
act (`can`), since triggers are compared in no other (log 17). -/
def State.disagreeWait (s : State) (r : Nat) (can a b : Bool) : State :=
  match (s.region r).strum.disWait with
  | none => s
  | some (t, n) =>
    let hit := match t with | .a => a | .b => b
    if can && hit then s.modStrum r fun u => { u with disWait := none }
    else if n ≤ 1 then (s.modStrum r fun u => { u with disWait := none }).strumDisagree r
    else s.modStrum r fun u => { u with disWait := some (t, n - 1) }

/-- R85: a count that reaches 40 alone is waited on for 8 cycles by the other twin's, whatever becomes of the first. -/
def Strum.ovAlone (u : Strum) : Strum :=
  { u with ovWait := match u.ovWait with
    | none =>
      if u.a.ov = 40 ∧ u.b.ov < 40 then some (.b, 8)
      else if u.b.ov = 40 ∧ u.a.ov < 40 then some (.a, 8)
      else none
    | some (t, 0) => some (t, 0)
    | some (t, n + 1) => if 40 ≤ (u.twin t).ov then none else some (t, n) }

/-! ## Strum rounds (R88 to R93, R106, R111) -/

/-- R91: an episode runs, or one of its pulses is still high. -/
def State.strumBusy (s : State) (r : Nat) : Bool :=
  (s.region r).strum.ep.isSome ||
    (Config.regionStrings s.cfg r).any fun i => match (s.str i).pulse with
      | some p => p.kind == .strum || p.kind == .spread
      | none => false

/-- R92. -/
def State.locked (s : State) (r : Nat) : Bool :=
  match (s.region r).strum.lockUntil with
  | some t => decide (s.now < t)
  | none => false

/-- R61, R88, R89, R142: the strings eligible for a round. -/
def State.eligible (s : State) (r : Nat) : List Nat :=
  (Config.regionStrings s.cfg r).filter fun i =>
    let x := s.str i
    (x.isl == .active || x.isl == .returning || x.isl == .shed && !x.blind) && !x.islBad
      && (s.course (courseOf i)).en && x.pulse.isNone
      && (match x.offQ with | some q => decide (4 * s.now ≥ q + 8) | none => true)

/-- R111: a strum or release cancels the pre-strum that runs, or the one armed first; it is counted. -/
def State.cancelPre (s : State) (r : Nat) (armed : Bool) : State :=
  let p := (s.region r).pre
  if p.run.isSome then
    (s.modPre r fun p => { p with run := none }).countSat (Obj.region_prestrum_cancelled r) 16
  else
    match p.starts, p.ready with
    | _ :: st, t :: rd =>
      if armed || decide (t ≤ s.now) then
        (s.modPre r fun p => { p with starts := st, ready := rd }).countSat (Obj.region_prestrum_cancelled r) 16
      else s
    | _, _ => s

/-- A round: every eligible string fires in this cycle with the strum multiplier; the lockout counts from its edge. -/
def State.strumRound (s : State) (r : Nat) (kind : PulseKind) : State :=
  let m := s.getN Obj.strum_mult
  let s := overAll s (s.eligible r) fun s i => s.issue r i (s.onTime r i m) kind
  s.modStrum r fun u => { u with lockUntil := some (s.now + 1 + 200), lastFall := max u.lastFall (4 * (s.now + 1)) }

/-- R106, R125: the region's SHED strings rejoin in the island itself, in this cycle. -/
def State.strumRejoin (s : State) (r : Nat) : State :=
  let l := (Config.regionStrings s.cfg r).filter fun i => (s.str i).st == .shed || (s.str i).isl == .shed
  let s := s.rejoinAll r
  overAll s l fun s i => s.modStr i fun x => { x with isl := x.st, islBlind := x.blind }

/-- R87 to R94: round 1 of an episode, its own or a spread one. An own one sends its strobe (R93). -/
def State.startStrum (s : State) (r : Nat) (own : Bool) : State :=
  let s := s.cancelPre r false
  let s := s.strumRound r (if own then .strum else .spread)
  let s := s.strumRejoin r
  let s := s.count (if own then Obj.region_strum_count r else Obj.region_spread_count r) 32
  s.modRegion r fun x =>
    { x with
      strum := { x.strum with
        ep := if own && decide (1 < s.getN Obj.strum_max) then some ⟨true, 1⟩ else none
        report := some s.now
        spreadAt := if own && s.get (Obj.region_spread_enable r) == 1 then some s.now else x.strum.spreadAt }
      rep := if own then { x.rep with strum := true } else { x.rep with spread := true } }

/-! ## The fire decision (R60, R64, R110) -/

/-- R409: v_ramp of the rail lies below its range, so the region fires open-loop; so does one whose ramp-down begins
from such a reference (R417). -/
def State.openLoop (s : State) (r : Nat) : Bool :=
  let q := railOf r
  ((s.rail q).st == .ramping || (s.rail q).st == .down) && decide ((s.region r).loop.rampV < mvUnits (railVmin q))

/-- Whether halt_firing holds for a region (R60). R60's comment names RAMP, RUN and SERVICE alone; a rail fires on in
SHUTDOWN until its ramp-down ends, as R417 and R421 need (log 102). -/
def State.halted (s : State) (r : Nat) : Bool := (s.region r).strum.halt || !s.blk.st.full

/-- R65, R110: the multiplier of an ordinary pulse, and the pre-strum after it. -/
def State.preMult (s : State) (r : Nat) : Nat × Pre :=
  let p := (s.region r).pre
  match p.run with
  | some (t, n) => (s.getN Obj.pre_mult, { p with run := if n ≤ 1 then none else some (t, n - 1) })
  | none => (20, p)

/-- R134: the mean of the period means of the region's ACTIVE strings as latched, one string left out (10 mA). -/
def State.activeMean (s : State) (r : Nat) (out : Option Nat) : Option Int :=
  let l := (Config.regionStrings s.cfg r).filter fun i => (s.str i).st == .active && out != some i
  if l.isEmpty then none else some (roundUp (sumI (l.map fun i => (s.str i).mean)) l.length)

/-- R135: the open counter advances on an ordinary fire of the string, or holds. -/
def State.openFire (s : State) (i : Nat) : State :=
  let x := s.str i
  let c := s.course (courseOf i)
  let st := x.st == .active || x.st == .returning && decide (5 ≤ rampEighths x.rampStep) && !x.offsetFlag
  let low := decide (0 < x.convN) && decide (x.conv < s.get Obj.open_level)
  let load := x.mr.any fun m => decide (m > s.get Obj.open_mean_min)
  if s.runs && st && low && load && !c.flt && !c.lost then
    s.modStr i fun x => { x with openCtr := min 255 (x.openCtr + 1) }
  else s

/-- An ordinary pulse from rotation position `p`; the pointer advances. -/
def State.fireOrdinary (s : State) (r p : Nat) (ton : Option Nat) : State :=
  let i := stringAt r p
  let pm := s.preMult r
  let pre := (s.region r).pre.run.isSome
  let s := (s.issue r i (ton.getD (s.onTime r i pm.1)) (if pre then .pre else .ordinary)).openFire i
  let s := s.modRegion r fun x =>
    { x with pre := pm.2, rep := { x.rep with fires := x.rep.fires + 1, pre := x.rep.pre || pre } }
  s.modLoop r fun l =>
    { l with lastFire := some s.now, ptr := (s.rotFrom r ((p + 1) % stringsMax r)).getD ((p + 1) % stringsMax r) }

/-- R64: the spacing of fire decisions is met. -/
def State.spaceMet (s : State) (r : Nat) : Bool :=
  match (s.region r).loop.lastFire with
  | some t => decide (s.now ≥ t + s.getN Obj.fire_space_min)
  | none => true

/-- R60. -/
def State.fireDecision (s : State) (r : Nat) (v : Nat) : State :=
  let l := (s.region r).loop
  if (v : Int) + l.yac s.used.g1.window < l.vref && s.spaceMet r then
    match s.rotFrom r l.ptr with
    | none => s
    | some p =>
      let ready := match (s.str (stringAt r p)).offEnd with
        | some q => decide (4 * s.now ≥ q + s.used.g1.toff)
        | none => true
      if ready then s.fireOrdinary r p none else s.modLoop r fun l => { l with ptr := p }
  else s

/-! ## The cycle -/

/-- R417: the reference of a region during its ramp-down, in 0.15625 mV: 32 units every 5 µs, down to `rail_vmin`; one
that begins below `rail_vmin` stays. -/
def downRefAt (from_ : Int) (q t : Nat) : Int :=
  min from_ (max (mvUnits (railVmin q) : Int) (from_ - (t * 32 / 5000 : Nat)))

/-- Samples, minimum, reference and ripple of one cycle. -/
def State.cycleInputs (s : State) (r : Nat) (samples : List Sample) : State :=
  let s := s.modRegion r fun x =>
    { x with pk := x.pk.zipIdx.map fun (k, i) => match samples[i]? with
        | some y => k.take y
        | none => { k with clean := false } }
  let s := s.modLoop r fun l =>
    { l.interpolate.ripple with miss := if (cleanValues (s.region r).pk).isEmpty then l.miss + 1 else 0 }
  let s := match (s.rail (railOf r)).downAt, (s.region r).strum.downRef with
    | some t, some v =>
      let d := downRefAt v (railOf r) (s.now - t)
      s.modLoop r fun l => { l with vref := d, rampV := d }
    | _, _ => s
  match s.vminNow r with
  | none => s.modLoop r fun l => { l with hasV := false }
  | some v => s.modLoop r fun l => { l with hasV := true, vmin := v }

/-- R131, R218, R238, R191: what the cycle contributes to the reports; the stamp is its sampling edge. -/
def State.cycleReports (s : State) (r v : Nat) : State :=
  s.modRegion r fun x =>
    let d : Int := v - x.loop.vref
    let low := if v < mvUnits (railVmin (railOf r) - 100) then some (x.loop.lowSince.getD s.now) else none
    { x with
      loop := { x.loop with lowSince := low }
      rep := { x.rep with
        vSum := x.rep.vSum + v, vCnt := x.rep.vCnt + 1
        dMin := some (match x.rep.dMin with | some e => min e d | none => d) }
      sup := { x.sup with minV := match x.sup.minV with
        | some (m, t) => if v < m then some (v, s.now - 3) else some (m, t)
        | none => some (v, s.now - 3) } }

/-- R411: since when vmin has lain within the window about V0, counted from the end of the ramp. -/
def State.cyclePowerGood (s : State) (r v : Nat) : State :=
  let q := s.rail (railOf r)
  match q.refAt with
  | none => s
  | some t =>
    let w := 8 * s.getN Obj.pg_window
    let inside := decide (v ≤ q.v0 + w) && decide (q.v0 ≤ v + w)
    s.modLoop r fun l =>
      { l with pgSince := if s.now ≥ t + 1000 * s.blk.rampTime ∧ inside then some (l.pgSince.getD s.now) else none }

/-- R96: entry into release and its effects. -/
def State.cycleRelease (s : State) (r v : Nat) : State :=
  let x := s.region r
  let rel := decide ((v : Int) > x.loop.vref + 8 * s.used.g4.rel)
  if rel && !x.strum.release then
    let s := (s.cancelPre r true).countSat (Obj.region_release_count r) 16
    s.modStrum r fun u => { u with release := true, ep := none }
  else s.modStrum r fun u => { u with release := rel }

/-- R84, R85, R87, R92: what the twins' triggers do in this cycle. -/
def State.cycleTwins (s : State) (r : Nat) : State :=
  let x := s.region r
  let a := x.strum.a.triggers x.loop.vref
  let b := x.strum.b.triggers x.loop.vref
  let acts := !(s.blk.st == .ramp || s.halted r || x.strum.ep.isSome)
  let s := s.disagreeWait r (acts && !s.locked r) a b
  if !acts then s
  else if s.locked r then if a || b then s.countSat (Obj.region_strum_locked r) 16 else s
  else if a || b then (s.compareTwins r a b).startStrum r true
  else s

/-- R93: a spread round is fired for the strobes that have come for this cycle, or each of them is refused. -/
def State.cycleStrobes (s : State) (r : Nat) : State :=
  let x := s.region r
  if x.strum.strobes.isEmpty then s
  else
    let t := s.modStrum r fun u => { u with strobes := [] }
    if x.loop.hasV && decide ((x.loop.vmin : Int) < x.loop.vref) && !s.strumBusy r && !s.locked r
        && !x.strum.release && !(x.loop.src == .fixedRate) && !s.halted r then
      t.startStrum r false
    else t.countSat (Obj.region_spread_refused r) 16 x.strum.strobes.length

/-- R83, R97: a value of vmin enters both twins of a region. -/
def State.cycleFeed (s : State) (r v : Nat) : State :=
  let u := (s.region r).strum
  let a := s.feedTwin r v u.a
  let b := s.feedTwin r v u.b
  s.modStrum r fun u => { u with a := a, b := b }.ovAlone

/-- One region-island cycle (R60, R388): inputs first, then release, own triggers, the strobes that have come, and the
ordinary fire decision. -/
def State.regionCycle (s : State) (r : Nat) (samples : List Sample) : State :=
  let s := s.cycleInputs r samples
  match (s.region r).loop.hasV, (s.region r).loop.vmin with
  | false, _ => s.cycleStrobes r
  | true, v =>
    let s := ((s.cycleReports r v).cyclePowerGood r v).cycleFeed r v
    let s := ((s.cycleRelease r v).cycleTwins r).cycleStrobes r
    if s.halted r || s.strumBusy r || s.openLoop r then s else s.fireDecision r v

/-- REGION_CYCLE. Region islands run from FUSELOAD on (R98). -/
def execRegionCycle (r : Nat) (samples : List Sample) (s : State) : Out :=
  onRegion s r (s.when s.blk.st.scans (s.regionCycle r samples))

/-! ## The other events of the loop -/

/-- FIRE_FALLING_EDGE (R62): a pulse's on-time has ended. -/
def execFireFallingEdge (i : Nat) (s : State) : Out :=
  onString s i (match (s.str i).pulse with
    | none => s
    | some p =>
      if p.fallQ > 4 * s.now + 3 then s
      else
        let s := s.modStr i fun x => { x with pulse := none, offQ := some p.fallQ }
        if p.kind = .strum ∨ p.kind = .spread then
          s.modStrum (regionOf i) fun u => { u with lastFall := max u.lastFall p.fallQ }
        else s)

/-- R409: on-time and string period of the open loop, in 250 ps, from v_ramp as it stands in the region. -/
def State.openPulse (s : State) (r : Nat) : Nat × Nat :=
  let x := s.region r
  let v := x.loop.rampV.toNat
  let vin := x.sup.vin
  let g := s.used.g1
  if v * 5 * g.tsw ≥ g.tonMin * 32 * vin then ((roundUp (v * 5 * g.tsw : Nat) (32 * vin)).toNat, g.tsw)
  else (g.tonMin, g.tonMin * 32 * vin / (5 * v))

/-- FIXED_RATE_FIRE (R57, R409): at even intervals the next string in rotation fires; the remainder is carried. The first
pulse after the mode begins is due at once, and intervals that could not be used are made up for as soon as the spacing
of R64 allows, so that the mean rate stays exact (log 103). -/
def State.fixedRateFire (s : State) (r : Nat) : State :=
  let x := s.region r
  let isOpen := s.openLoop r
  let op := s.openPulse r
  let due := match x.loop.fixAt with | some q => decide (q ≤ 4 * s.now) | none => true
  if s.halted r || !(isOpen || x.loop.src = .fixedRate) || !due || !s.spaceMet r || (isOpen && x.loop.rampV ≤ 0)
      || s.strumBusy r then s
  else
    match s.rotFrom r x.loop.ptr with
    | none => s
    | some p =>
      if (s.str (stringAt r p)).pulse.isSome then s
      else
        let n := s.nRot r
        let total := (if isOpen then op.2 else s.used.g1.tsw) + x.loop.fixRem
        let s := s.fireOrdinary r p (if isOpen then some op.1 else none)
        s.modLoop r fun l =>
          { l with fixAt := some (x.loop.fixAt.getD (4 * s.now) + 4 * (total / (4 * n))), fixRem := total % (4 * n) }

def execFixedRateFire (r : Nat) (s : State) : Out := onRegion s r (s.fixedRateFire r)

/-- VMIN_SOURCE_CHANGE (R56 to R59): the source called for is taken; the reference moves to its new value. -/
def State.sourceChange (s : State) (r : Nat) : State :=
  let due := s.sourceDue r
  if due = (s.region r).loop.src || !s.blk.st.scans then s
  else
    let s := s.modRegion r fun x =>
      { x with
        loop := { x.loop with src := due, fixAt := none, fixRem := 0 }
        rep := { x.rep with srcChange := true, fixed := x.rep.fixed || due == .fixedRate } }
    let s := s.modLoop r fun l =>
      if s.refTarget l l.refBase = l.refTo then l else l.newRef (s.refTarget l l.refBase) l.refBase
    let s := if due = .fixedRate then s.learnFault r else s
    s.fire 22 due.code (srcRegion r)

def execVminSourceChange (r : Nat) (s : State) : Out := onRegion s r (s.sourceChange r)

/-- The island's copy of an entry takes what the scoreboard holds (R125), and the pointer what R63 asks for. -/
def State.islandTakes (s : State) (i : Nat) : State :=
  let left := (s.str i).isl.rotates && !(s.str i).st.rotates
  let s := if left then s.strobeLeaves i else s
  (s.modStr i fun x => { x with isl := x.st, islRho := x.eighths, islBlind := x.blind, islBad := false }).movePtr
    (regionOf i)

/-- SCOREBOARD_CHANGE_ARRIVAL (R63, R125): the island's copy takes the state, ramp level and blind flag. A shed
reaches the island by SHED_ARRIVAL. A copy fetched again after a parity error arrives here too (R127). -/
def execScoreboardChangeArrival (i : Nat) (s : State) : Out :=
  onString s i (
    if (s.str i).st = .shed ∧ (s.str i).isl ≠ .shed then s.modStr i fun x => { x with islBad := false }
    else s.islandTakes i)

/-- BAND_CHANGE_ARRIVAL (R74). -/
def execBandChangeArrival (r : Nat) (s : State) : Out :=
  onRegion s r (s.modLoop r fun l => { l with band := (s.diode r).band })

/-- PICKUP_VALIDITY_ARRIVAL (R54). -/
def execPickupValidityArrival (r : Nat) (s : State) : Out :=
  onRegion s r (s.modRegion r fun x => { x with pk := x.pk.map fun k => { k with isl := k.cause == 0 } })

end Sys2Proof.Machine
end

