-- ==== Sys2Proof/Machine/Transients.lean ====
section
/-! DEFINITION. Transient commands: twins, strum rounds and spread strobes, the damper, pre-strums and wake permits
(R83 to R117). The cycle that starts a strum stands in `Machine/Loop.lean`. -/

namespace Sys2Proof.Machine

/-! ## Twins -/

/-- STRUM_DISAGREE_WINDOW (R85): a 1 s window starts in every region. -/
def execStrumDisagreeWindow (s : State) : Out :=
  .next { s with regions := s.regions.map fun x => { x with strum := { x.strum with window := 0 } } }

/-- TWIN_OV_DISAGREEMENT (R85): one count has reached 40, and the other has not within the 8 cycles after it. -/
def execTwinOvDisagreement (r : Nat) (s : State) : Out :=
  onRegion s r (
    let u := (s.region r).strum
    match u.ovWait with
    | some (_, 0) =>
      let g := Obj.region_twin_disagree r
      let n := s.getN g
      let s := s.set g (min 65535 (n / 65536 + 1) * 65536 + n % 65536 : Nat)
      ((s.modStrum r fun u => { u with ovWait := none }).fire 12 1 (srcRegion r)).noteReason 5
    | _ => s)

/-- TWIN_PARITY_RELOAD (R86). -/
def execTwinParityReload (r : Nat) (t : TwinId) (s : State) : Out :=
  onRegion s r (s.parityError.modStrum r fun u => u.setTwin t { u.twin t with loading := some s.now })

/-- TWIN_RELOAD_COMPLETE (R86): the copy is the committed set as the region islands apply it. -/
def execTwinReloadComplete (r : Nat) (t : TwinId) (s : State) : Out :=
  onRegion s r (s.modStrum r fun u =>
    if (u.twin t).loading.isSome then u.setTwin t { u.twin t with loading := none, g := s.used.g4 } else u)

/-! ## Rounds, lockout, spread -/

/-- R90: every pulse of the previous round has fallen, and `toff_min` has passed since the last of them fell. -/
def State.roundDue (s : State) (r : Nat) : Bool :=
  (Config.regionStrings s.cfg r).all (fun i => match (s.str i).pulse with
    | some p => p.kind != .strum
    | none => true)
    && decide ((s.region r).strum.lastFall + s.used.g1.toff ≤ 4 * s.now)

/-- STRUM_ROUND_DUE (R90): a further round is issued when a twin triggers in this cycle; otherwise the episode ends. -/
def State.strumRoundDue (s : State) (r : Nat) : State :=
  let x := s.region r
  match x.strum.ep with
  | none => s
  | some e =>
    if !s.roundDue r || s.halted r then s
    else
      let a := x.loop.hasV && x.strum.a.triggers x.loop.vref
      let b := x.loop.hasV && x.strum.b.triggers x.loop.vref
      let s := s.compareTwins r a b
      if a || b then
        let s := s.strumRound r .strum
        s.modStrum r fun u =>
          { u with ep := if e.round + 1 < s.getN Obj.strum_max then some { e with round := e.round + 1 } else none }
      else s.modStrum r fun u => { u with ep := none }

def execStrumRoundDue (r : Nat) (s : State) : Out := onRegion s r (s.strumRoundDue r)

/-- LOCKOUT_END (R92). -/
def execLockoutEnd (r : Nat) (s : State) : Out :=
  onRegion s r (if s.locked r then s else s.modStrum r fun u => { u with lockUntil := none })

/-- R93, R94: the strobes among those named that are on their way: each of a rail neighbour whose own episode sent one
in the last two cycles, and none twice. -/
def State.strobes (s : State) (r : Nat) (froms : List Nat) : List Nat :=
  (Config.neighbours s.cfg r).filter fun n => froms.contains n && !(s.region r).strum.strobes.contains n &&
    (s.region n).strum.spreadAt.any fun t => decide (t ≤ s.now ∧ s.now ≤ t + 2)

/-- SPREAD_STROBE (R93, R388): strobes reach a region and are judged, all together, in the region cycle they come for,
between its own trigger and its ordinary fire decision: in its next REGION_CYCLE (log 85). R411 suppresses strobes in
RAMP. -/
def State.spreadStrobe (s : State) (r : Nat) (froms : List Nat) : State :=
  if s.blk.st = .ramp then s
  else s.modStrum r fun u => { u with strobes := u.strobes ++ s.strobes r froms }

def execSpreadStrobe (r : Nat) (froms : List Nat) (s : State) : Out := onRegion s r (s.spreadStrobe r froms)

/-- R218: the classes whose hints cover a region now. -/
def State.coverClasses (s : State) (r : Nat) : List Nat :=
  (s.hints.entries.filter fun h => bit h.mask r && decide (h.start ≤ s.now) && decide (s.now < h.stop) && h.cls != 0).map
    (·.cls)

/-- R222: an episode in a region of a rail whose recovery is above 0. -/
def State.strumRecovery (s : State) (r : Nat) : State :=
  let q := railOf r
  if (s.rail q).recov = 0 then s
  else
    let cl := s.coverClasses r
    let s : State := { s with learn := { s.learn with rcv := s.learn.rcv.map fun (k, v) =>
      (k, if cl.contains (k / 3) && k % 3 == q then { v with rv := 0 } else v) } }
    let s := s.modRail q fun x =>
      { x with recov := 0, recHold := some (s.now + s.getN Obj.recovery_hold * 1000000) }
    s.count Obj.recovery_strum_resets 32

/-- STRUM_REPORT (R94, R107): the shed hold restarts, and `region_last_strum` takes the block time of the decision. -/
def execStrumReport (r : Nat) (s : State) : Out :=
  onRegion s r (match (s.region r).strum.report with
    | none => s
    | some t =>
      let s := s.modRegion r fun x =>
        { x with strum := { x.strum with report := none }, sup := { x.sup with hold := 0 } }
      (s.set (Obj.region_last_strum r) t).strumRecovery r)

/-- DAMPER (R98, R99): both twins of one region have counts of at least `ov_blank`. -/
def execDamper (r : Nat) (s : State) : Out :=
  onRegion s r (
    let x := s.region r
    s.when (decide (40 ≤ x.strum.a.ov) && decide (40 ≤ x.strum.b.ov) && !(x.loop.src == .fixedRate))
      (s.damper (railOf r) 0 (srcRegion r)))

/-- SHED_ARRIVAL (R104, R107): the shed takes effect, unless a strum is deciding or running, which discards it. -/
def execShedArrival (i : Nat) (s : State) : Out :=
  onString s i (
    if (s.str i).st != .shed then s
    else
      let u := (s.region (regionOf i)).strum
      if s.strumBusy (regionOf i) || u.report == some s.now then
        s.strTo i (if (s.str i).blind then .blind else .active)
      else s.islandTakes i)

/-! ## Pre-strums (R109 to R111) -/

/-- R109: armed starts are kept in rising order; each has the time from which a strum cancels it, and its hint. -/
def insertStart (t rd : Nat) (h : Option Nat) : List (Nat × Option Nat) → List Nat → List (Nat × Option Nat) × List Nat
  | (u, g) :: st, v :: rv =>
    if t < u then ((t, h) :: (u, g) :: st, rd :: v :: rv)
    else
      let p := insertStart t rd h st rv
      ((u, g) :: p.1, v :: p.2)
  | st, rv => ((t, h) :: st, rd :: rv)

def State.armPre (s : State) (r t rd : Nat) (h : Option Nat) : State :=
  s.modPre r fun p =>
    let q := insertStart t rd h p.starts p.ready
    { p with starts := q.1, ready := q.2 }

/-- Takes away the armed starts that satisfy a test. -/
def Pre.disarm (p : Pre) (f : Option Nat → Bool) : Pre :=
  let l := (p.starts.zip p.ready).filter fun x => !f x.1.2
  { p with starts := l.map (·.1), ready := l.map (·.2) }

/-- Takes away one armed start. -/
def Pre.drop (p : Pre) (x : Nat × Option Nat) : Pre :=
  let k := p.starts.idxOf x
  { p with starts := p.starts.eraseIdx k, ready := p.ready.eraseIdx k }

/-- PRE_STRUM_START (R109, R110): the earliest armed start has come and no earlier pre-strum runs. One whose window has
passed is dropped without being counted. -/
def execPreStrumStart (r : Nat) (s : State) : Out :=
  onRegion s r (
    let p := (s.region r).pre
    match p.run, p.starts, p.ready with
    | none, (t, _) :: st, _ :: rd =>
      if t > s.now then s
      else
        let run := if s.now < t + s.getN Obj.pre_window then some (t, s.getN Obj.pre_fires) else none
        s.modRegion r fun x =>
          { x with pre := { starts := st, ready := rd, run := run }, rep := { x.rep with pre := x.rep.pre || run.isSome } }
    | _, _, _ => s)

/-- PRE_STRUM_END (R110): `pre_window` has passed since the start. -/
def execPreStrumEnd (r : Nat) (s : State) : Out :=
  onRegion s r (match (s.region r).pre.run with
    | some (t, _) => if t + s.getN Obj.pre_window ≤ s.now then s.modPre r fun p => { p with run := none } else s
    | none => s)

/-! ## Wake permits (R112 to R117) -/

/-- R113, R115: the waiting time; it advances only in RUN and SERVICE. -/
def State.wakeWaited (s : State) (w : Wake) : Nat :=
  w.waited + (match w.since with
    | some t => if s.runs then s.now - t else 0
    | none => 0)

/-- A request that waits for its grant. -/
def Wake.pending (w : Wake) : Bool := w.since.isSome && w.granted.isNone

/-- WAKE_REQ_RISE (R112, R117, R535): the request starts to wait. A level that rises while the grant is still high is a
breach and is ignored until the grant is low. -/
def execWakeReqRise (r : Nat) (s : State) : Out :=
  onRegion s r (
    let x := s.region r
    if !s.blk.st.active || x.wake.req then s
    else if x.wake.gnt then (s.modWake r fun w => { w with req := true }).breach 2
    else
      let s := s.modWake r fun w =>
        { w with req := true, since := some s.now, waited := 0, granted := none, reqAt := s.now, prov := none }
      if x.sup.regHold then (s.countSat Obj.wake_hold_requests 16).fire 24 1 (srcRegion r) else s)

/-- R114: a permit was granted in this supervisor cycle. -/
def State.grantedNow (s : State) : Bool :=
  s.regions.any fun x => match x.wake.lastGrant with
    | some t => t / 4 == s.now / 4
    | none => false

/-- R114: the region granted last, 75 where none has been. -/
def State.lastGranted (s : State) : Nat :=
  ((List.range 76).foldl (fun (b : Nat × Nat) r => match (s.region r).wake.lastGrant with
    | some t => if b.2 ≤ t then (r, t) else b
    | none => b) (75, 0)).1

/-- R113: the neighbours of a region allow a grant. -/
def State.neighboursAllow (s : State) (r : Nat) : Bool :=
  (Config.neighbours s.cfg r).all fun n =>
    let x := s.region n
    let last := s.getN (Obj.region_last_strum n)
    decide (x.sup.util * 100 ≤ s.getN Obj.wake_util_limit * 4096)
      && (last == 0 || decide (last + s.getN Obj.wake_quiet ≤ s.now))
      && (match x.wake.lastGrant with
        | some t => decide (t + s.getN Obj.wake_neigh_space ≤ s.now)
        | none => true)

/-- R114: two permits to one region are at least `wake_space` apart. -/
def State.spaced (s : State) (r : Nat) : Bool :=
  match (s.region r).wake.lastRise with
  | some t => decide (t + s.getN Obj.wake_space ≤ s.now)
  | none => true

def State.timedOut (s : State) (r : Nat) : Bool :=
  let w := (s.region r).wake
  w.pending && decide (s.getN Obj.wake_max_wait ≤ s.wakeWaited w)

/-- R116: a grant is decided: the SHED strings rejoin, and the line rises when the region has acknowledged. -/
def State.grant (s : State) (r : Nat) : State :=
  let s := s.modWake r fun w => { w with granted := some s.now, lastGrant := some s.now, prov := none }
  ((s.rejoinAll r).modSup r fun u => { u with distNow := true }).count Obj.wake_grant_count 32

/-- WAKE_GRANT (R113, R114): in RUN and SERVICE, when no request has timed out, the next grantable region in rotating
order after the last one granted. -/
def execWakeGrant (s : State) : Out :=
  .next (
    if !s.runs || s.grantedNow || (Config.regions s.cfg).any s.timedOut then s
    else
      let l := (List.range 76).map fun k => (s.lastGranted + 1 + k) % 76
      match l.find? fun r => Config.popRegion s.cfg r && (s.region r).wake.pending && s.spaced r && s.neighboursAllow r with
      | some r => s.grant r
      | none => s)

/-- R114: among the requests that have timed out, the one that has waited longest. -/
def State.longestWait (s : State) (l : List Nat) : Option Nat :=
  (l.foldl (fun (b : Option (Nat × Nat)) r =>
    let w := s.wakeWaited (s.region r).wake
    match b with
    | some (_, m) => if m < w then some (r, w) else b
    | none => some (r, w)) none).map (·.1)

/-- WAKE_TIMEOUT (R115): granted whatever the conditions, with a pre-strum armed. The start is set when the line rises
(at most 64 ns later, R116); until then the latest rise stands for it (log 16). -/
def execWakeTimeout (s : State) : Out :=
  .next (
    if !s.runs || s.grantedNow then s
    else match s.longestWait ((Config.regions s.cfg).filter fun r => s.timedOut r && s.spaced r) with
      | none => s
      | some r =>
        let t := s.now + 64 + s.getN Obj.wake_ungate_delay
        let s := ((s.grant r).modWake r fun w => { w with prov := some t }).armPre r t s.now none
        (s.count Obj.wake_timeout_count 32).fire 24 0 (srcRegion r))

/-- REJOIN_ACK (R106, R116): the region island has taken the rejoin of its SHED strings and acknowledges it; WAKE_GNT[r]
rises, and the pre-strum of a timed-out grant takes its start from the rise. -/
def execRejoinAck (r : Nat) (s : State) : Out :=
  onRegion s r (
    let w := (s.region r).wake
    if w.granted.isNone || w.gnt || !s.runs then s
    else
      let s1 := overAll s ((Config.regionStrings s.cfg r).filter fun i => (s.str i).isl == .shed) State.islandTakes
      let s1 := s1.set (Obj.region_wake_wait r) (min 65535 (s.now - w.reqAt) : Nat)
      let s1 := s1.modWake r fun w => { w with gnt := true, since := none, lastRise := some s.now, prov := none }
      match w.prov with
      | some t =>
        if (s.region r).pre.starts.contains (t, none) then
          (s1.modPre r fun p => p.drop (t, none)).armPre r (s.now + s.getN Obj.wake_ungate_delay) s.now none
        else s1
      | none => s1)

/-- WAKE_REQ_FALL (R112, R535): the grant falls with the request; a fall before the grant rose is a breach, and the
request is withdrawn. -/
def execWakeReqFall (r : Nat) (s : State) : Out :=
  onRegion s r (
    let w := (s.region r).wake
    if !s.blk.st.active || !w.req then s
    else
      let s1 := s.modWake r fun w => { w with req := false, gnt := false, since := none, granted := none, waited := 0 }
      if w.since.isSome then s1.breach 1 else s1)

/-- A waiting request starts to wait again as the block enters RUN or SERVICE (R113). -/
def State.resumeWakes (s : State) : State :=
  { s with regions := s.regions.map fun x => { x with wake := { x.wake with since := x.wake.since.map fun _ => s.now } } }

end Sys2Proof.Machine
end

