-- ==== Sys2Proof/Machine/Strings.lean ====
section
/-! DEFINITION. Strings at the supervisor's latch: returns and ramps (R149 to R153), region currents and capabilities
(R38 to R42), the tests of an open string or a failed sense (R134 to R140), rejoin and shedding (R103 to R106), assist
(R144), derating (R145 to R148), service reasons (R154, R155); the host's string commands (R142, R149, R158) and the
scoreboard's parity errors (R127). -/

namespace Sys2Proof.Machine

/-! ## Return to service (R149 to R152) -/

/-- R150: the conditions under which a return starts. -/
def State.returnOk (s : State) (i : Nat) : Bool :=
  let c := s.course (courseOf i)
  c.en && !c.flt && !c.lost && !bit c.frame (20 + i % 8)

/-- RETURN_START and the start of a new ramp (R150, R415): at a latch in RUN or SERVICE. -/
def State.latchReturn (s : State) (i : Nat) : State :=
  let x := s.str i
  if x.st = .muted && x.retPending && s.returnOk i && !s.moved i then
    s.strTo i .returning fun y => { y with rampAt := some s.eng.period, rampCmd := true, retPending := false }
  else if x.st = .returning && x.rampAt.isNone && s.returnOk i then
    s.modStr i fun y => { y with rampAt := some s.eng.period, rampStep := 0 }
  else s

/-- RAMP_STEP and RAMP_END (R151, R152): a step lasts `return_ramp` control periods. -/
def State.latchRamp (s : State) (i : Nat) : State :=
  let x := s.str i
  match x.st, x.rampAt with
  | .returning, some t =>
    let k := (s.eng.period - t) / s.getN Obj.return_ramp
    if k ≥ 16 then
      if s.moved i then s else s.strTo i (if x.blind then .blind else .active) fun y =>
        { y with rampAt := none, rampStep := 0, rampCmd := false, shI := 0, shMet := 0 }
    else s.modStr i fun y => { y with rampStep := max y.rampStep k }
  | _, _ => s

/-- HICCUP_END (R133): the bit has cleared on a supervised lane that is not lost. In RAMP the return ramp waits for RUN
or SERVICE (R415, log 34). -/
def State.latchHiccup (s : State) (i : Nat) : State :=
  let c := s.course (courseOf i)
  if (s.str i).st = .hiccup && c.sup && !c.lost && !bit c.frame (20 + i % 8) && !s.moved i then
    s.strTo i .returning fun y =>
      { y with rampAt := if s.runs then some s.eng.period else none, rampCmd := false }
  else s

def State.latchReturns (s : State) : State :=
  overAll s (Config.allStrings s.cfg) fun s i =>
    if s.runs then ((s.latchRamp i).latchReturn i).latchHiccup i else s.latchHiccup i

/-! ## Means and region currents (R40, R42, R134) -/

/-- R364: the period mean is latched; with no FIRE-mode conversion it is kept. -/
def Str.latchMean (x : Str) : Str :=
  let m := if x.cnt = 0 then x.mean else roundUp x.sum x.cnt
  { x with mean := m, hist := (m :: x.hist).take 9, sum := 0, cnt := 0
           activeRun := if x.st == .active then x.activeRun + 1 else 0 }

/-- R38: Σw of a region in eighths: C_act is 5 A × Σw, that is 625 mA an eighth, and 5 units of 125 mA. -/
def State.weight (s : State) (r : Nat) : Nat :=
  sumN ((Config.regionStrings s.cfg r).map fun i => (s.str i).eighths)

/-- R40: the region current in 10 mA, limited below at 0. -/
def State.regionCurrent (s : State) (r : Nat) : Nat :=
  let l := Config.regionStrings s.cfg r
  let act := l.filter fun i => (s.str i).st == .active
  let sum (k : List Nat) : Int := sumI (k.map fun i => (s.str i).mean)
  let sA := sum act
  let sR := sum (l.filter fun i => (s.str i).st == .returning)
  let nB := (l.filter fun i => (s.str i).st == .blind).length
  let i := if act.isEmpty then max (designCurrent r : Int) sR
    else sA + sR + roundUp (sA * nB) act.length
  i.toNat

/-- R41: utilisation in UQ4.12, at its largest where C_act is 0. -/
def utilOf (i w : Nat) : Nat := if w = 0 then 0xFFFF else min 0xFFFF (i * 4096 * 2 / (125 * w))

/-- R38, R39, R41, R42: the figures of one region. `w` eighths give 5w × 125 mA of C_act and 8w of C_st. -/
def State.latchRegion (s : State) (r : Nat) : State :=
  let i := s.regionCurrent r
  let w := s.weight r
  let m := (s.activeMean r none).getD 0
  s.modSup r fun u =>
    { u with iReg := i, cAct := 5 * w, cSt := 8 * w, need := ceilDiv i 500, util := utilOf i w, mMean := m }

/-- R39: lateral capability in 125 mA, latched: 12 A for each rail neighbour whose active capability is above 0. -/
def State.latchLateral (s : State) (r : Nat) : State :=
  let n := ((Config.neighbours s.cfg r).filter fun n => decide (0 < (s.region n).sup.cAct)).length
  s.modSup r fun u => { u with cLat := some (96 * n) }

/-- R45: before the first latch every rail neighbour counts. -/
def State.lateral (s : State) (r : Nat) : Nat := (s.region r).sup.cLat.getD (96 * (Config.neighbours s.cfg r).length)

/-- R134: m(r) of a string at this latch, its region's other ACTIVE strings as they stand. -/
def State.latchMr (s : State) (i : Nat) : State :=
  let m := s.activeMean (regionOf i) (some i)
  s.modStr i fun x => { x with mr := m }

/-- R134, R138: m(r) at this latch joins its history. -/
def Str.pushMr (x : Str) : Str := { x with mrHist := (x.mr.getD 0 :: x.mrHist).take 9 }

/-! ## Tests (R135 to R140, R153) -/

/-- R135: the open condition. -/
def State.openHolds (s : State) (x : Str) : Bool :=
  decide (s.getN Obj.open_count ≤ x.openCtr) && decide (3 ≤ x.openLow)

/-- R135, R139: a latch with m(r) at or below `open_mean_min` returns the counter to 0, which drops a test begun by a
low reading. A region with no other ACTIVE string has no m(r); it counts as at or below (log 87). -/
def State.latchOpen (s : State) (i : Nat) : State :=
  if (s.str i).mr.any fun m => decide (m > s.get Obj.open_mean_min) then s
  else s.modStr i fun x => match x.test with
    | some t => if t.finding = 0 then { x.zeroOpen with test := none } else x.zeroOpen
    | none => x.zeroOpen

/-- SLOPE_TEST_START and the onset of a test (R137, R138): the period that ends at this latch is P0. -/
def State.latchTestStart (s : State) (i : Nat) : State :=
  let x := s.str i
  let p := s.eng.period - 1
  match x.test with
  | some t =>
    if x.finding != 0 && t.finding == 0 then
      s.modStr i fun y => { y with finding := 0, test := some { t with finding := x.finding, foundAt := p } }
    else s.modStr i fun y => { y with finding := 0 }
  | none =>
    if x.finding = 0 && x.openCtr = 0 then s
    else
      let r := regionOf i
      let dI := (s.onTime r i 20 : Int) * ((s.region r).sup.vin * 4000 - s.get (Obj.region_vref r) * 625)
      let dL := 16000 * s.getN Obj.string_l_nominal
      (s.mark i).modStr i fun y =>
        { y with finding := 0, test := some { p0 := p, finding := x.finding, foundAt := p, dI, dL } }

/-- R138: whether the period that ends at this latch was disturbed; marks older than any window are dropped. -/
def State.latchDisturb (s : State) (r : Nat) : State :=
  s.modSup r fun u =>
    let now := u.distNow || u.lastRep.strum || u.lastRep.spread || u.lastRep.pre || !s.runs
    { u with distHist := (now :: u.distHist).take 9, distNow := false
             marks := u.marks.filter fun m => decide (s.eng.period ≤ m.1 + 9) }

/-- R138: whether the window P0 − 4 to P0 + 4, which ends at this latch, was disturbed for string `i`. -/
def State.disturbed (s : State) (i : Nat) : Bool :=
  let u := (s.region (regionOf i)).sup
  u.distHist.length < 9 || (u.distHist.take 9).any id
    || u.marks.any fun m => m.2 != i && decide (s.eng.period ≤ m.1 + 9) && decide (m.1 < s.eng.period)

/-- R138: the outcome at the latch that ends P0 + 4: false for absorbed and not disturbed, true otherwise. -/
def State.shiftOutcome (s : State) (i : Nat) : Bool :=
  let r := regionOf i
  let x := s.str i
  let others := (Config.regionStrings s.cfg r).filter fun j => j != i && decide (9 ≤ (s.str j).activeRun)
  let four (l : List Int) (o : Nat) : Int := sumI ((l.drop o).take 4)
  let sumOf (o : Nat) : Int := sumI (others.map fun j => four (s.str j).hist o)
  let before := (x.hist.drop 5).take 4
  let g := if before.length == 4 && before.all fun v => decide (v ≥ s.get Obj.open_level) then sumI before
    else four x.mrHist 5
  !(decide ((sumOf 0 - sumOf 5) * 100 ≥ s.get Obj.absorb_ratio * g) && !s.disturbed i)

/-- SHIFT_TEST_DECISION (R139, R153). -/
def State.latchDecide (s : State) (i : Nat) : State :=
  match (s.str i).test with
  | none => s
  | some t0 =>
    let p := s.eng.period - 1
    let t := if t0.shift.isNone && decide (p ≥ t0.p0 + 4) then { t0 with shift := some (s.shiftOutcome i) } else t0
    let s := s.modStr i fun y => { y with test := some t }
    let x := s.str i
    match t.shift with
    | none => s
    | some other =>
      if t.finding != 0 then
        if x.st = .returning then s.mute i 4
        else if other then s.makeBlind i t.finding
        else s.mute i 4
      else if !s.openHolds x then s
      else match t.slope with
        | none => s
        | some true =>
          if x.st = .returning then (s.modStr i Str.dropTest).flagBlind i 3 else s.makeBlind i 3
        | some false =>
          if x.st = .returning || !other then s.mute i 2 else s.makeBlind i 4

/-- R153: RANGE or STUCK on a RETURNING string mutes it. -/
def State.latchReturningSense (s : State) (i : Nat) : State :=
  let x := s.str i
  if x.st = .returning && x.finding != 0 then s.mute i 4 else s

/-- SHARE_SAT_FINDING (R136, R140): the trim in force sits at ±0.25 against a deviation from m(r) that it opposes. -/
def State.latchShareSat (s : State) (i : Nat) : State :=
  let x := s.str i
  let dev := s.get Obj.sense_share_dev
  let sat := x.mr.any fun m =>
    x.trim = 8192 && decide (m - x.mean > dev) || x.trim = -8192 && decide (x.mean - m > dev)
  let n := if sat then x.satRun + 1 else 0
  let s := s.modStr i fun y => { y with satRun := n }
  if n ≥ s.getN Obj.sense_sat_periods then s.makeBlind i 5 else s

/-- The tests of a RETURNING string at a latch in RUN or SERVICE (R151, R153); the open test does not run on one flagged
with OFFSET. They come before the end of its ramp, so that a mute wins over it (R126). -/
def State.latchTestsRet (s : State) (i : Nat) : State :=
  let x := s.str i
  if x.st != .returning then s
  else
    let s := s.latchReturningSense i
    if (s.str i).st = .returning && !x.offsetFlag then ((s.latchOpen i).latchTestStart i).latchDecide i else s

/-- The tests of an ACTIVE string at a latch in RUN or SERVICE; they run on no other (R141) but a RETURNING one. A
string that has just made a transition makes no second one (R126). -/
def State.latchTests (s : State) (i : Nat) : State :=
  let x := s.str i
  if x.st = .active then
    if s.moved i then s.latchOpen i
    else
      let s := ((s.latchOpen i).latchTestStart i).latchDecide i
      if (s.str i).st = .active then s.latchShareSat i else s
  else if x.st = .returning then s
  else s.modStr i fun y => { y with finding := 0 }

/-! ## Rejoin and shedding (R103 to R106) -/

/-- R61, R103: the strings in rotation, as the scoreboard has them. -/
def State.rotCount (s : State) (r : Nat) : Nat :=
  ((Config.regionStrings s.cfg r).filter fun i => (s.str i).st.rotates && (s.course (courseOf i)).en).length

/-- Strings of a region in rising order of rotation position. -/
def State.byPosition (s : State) (r : Nat) : List Nat :=
  ((List.range (stringsMax r)).map (stringAt r)).filter (Config.popString s.cfg)

/-- R105. -/
def State.shedBlocked (s : State) (r : Nat) : Bool :=
  let x := s.region r
  s.used.g5.level == 0 || x.loop.src == .fixedRate || (s.chan r).doubt || !s.runs
    || !x.pre.starts.isEmpty || x.pre.run.isSome || x.wake.since.isSome || x.wake.gnt

/-- REJOIN at a latch (R106): on high utilisation, with `shed_level` 0, or as many as N_need asks for. -/
def State.latchRejoin (s : State) (r : Nat) : State :=
  let u := (s.region r).sup
  if u.util * 100 > s.used.g5.rejoin * 4096 || s.used.g5.level = 0 then s.rejoinAll r
  else
    let n := u.need + 2 - s.rotCount r
    let l := ((s.byPosition r).filter fun i => (s.str i).st == .shed && !s.moved i).take n
    if l.isEmpty then s else (overAll s l State.rejoin).modSup r fun u => { u with hold := 0 }

/-- SHEDDING (R103, R104): the hold, and at its instants one ACTIVE string, the highest in rotation position among those
that have made no transition at this latch (R126, log 88). -/
def State.latchShed (s : State) (r : Nat) : State :=
  let u := (s.region r).sup
  if s.shedBlocked r || decide (u.util * 100 ≥ s.used.g5.level * 4096) then
    s.modSup r fun u => { u with hold := 0 }
  else
    let h := u.hold + 1
    let s := s.modSup r fun u => { u with hold := h }
    let due := decide (s.getN Obj.shed_hold ≤ h) &&
      (h - s.getN Obj.shed_hold) % s.getN Obj.shed_interval == 0
    if due && decide (s.rotCount r > max s.used.g5.min (u.need + 2)) then
      match ((s.byPosition r).reverse.find? fun i =>
          (s.str i).st == .active && (s.course (courseOf i)).en && !s.moved i) with
      | some i => s.strTo i .shed
      | none => s
    else s

/-- A rejoin wins over a shed at one latch, and the hold resets (R387, R389). -/
def State.latchRotation (s : State) (r : Nat) : State :=
  if !s.runs then s.modSup r fun u => { u with hold := 0 }
  else
    let shed (s : State) := ((Config.regionStrings s.cfg r).filter fun i => (s.str i).st == .shed).length
    let t := s.latchRejoin r
    if shed t < shed s then t else t.latchShed r

/-! ## Assist and derating (R144 to R148) -/

def State.mutedIn (s : State) (r : Nat) : Nat :=
  ((Config.regionStrings s.cfg r).filter fun i => (s.str i).st == .muted).length

/-- R144: the assist that region `r` gives each of its neighbours, in 0.125 mV. -/
def State.assistOf (s : State) (r : Nat) : Nat :=
  let u := (s.region r).sup
  if s.mutedIn r = 0 then 0
  else
    let k := s.getN Obj.neigh_assist
    min k (k * (8 * u.iReg - s.getN Obj.assist_util * u.cAct) / (8 * 1200))

/-- NEIGHBOUR_ASSIST (R144): a neighbour below the limit takes the largest. -/
def State.latchAssist (s : State) : State :=
  let give := (List.range 76).map fun r => if Config.popRegion s.cfg r then s.assistOf r else 0
  overAll s (Config.regions s.cfg) fun s n => s.modSup n fun u =>
    { u with assist := if u.util * 100 > s.getN Obj.assist_util * 4096 then 0
                       else maxN ((Config.neighbours s.cfg n).map fun r => give.getD r 0) }

/-- R145, R146: the ceiling of a region with `k` strings that are not MUTED. -/
def ceilingOf (r k : Nat) : Nat :=
  if r < 64 then if k ≥ 10 then 15 else if k ≥ 6 then 15 - (10 - k) else 0
  else if k ≥ 6 then 15 else if k ≥ 4 then 15 - 2 * (6 - k) else 0

/-- R117, R148, R389: REGION_HOLD rises; a request that waits for its grant is counted and recorded. -/
def State.raiseHold (s : State) (r : Nat) : State :=
  let t := s.modSup r fun u => { u with regHold := true }
  if !(s.region r).sup.regHold && (s.region r).wake.pending then
    (t.countSat Obj.wake_hold_requests 16).fire 24 1 (srcRegion r)
  else t

/-- DERATING (R145 to R148): the ceiling and REGION_HOLD, which falls at the first latch after one at which a string has
ended its return ramp. -/
def State.latchDerate (s : State) (r : Nat) : State :=
  let l := Config.regionStrings s.cfg r
  let k := l.length - s.mutedIn r
  let ended := l.any fun i => s.moved i && ((s.str i).st == .active || (s.str i).st == .blind)
  let s := if k = 0 then s.raiseHold r
    else s.modSup r fun u => { u with regHold := u.regHold && !u.rampEnded }
  (s.modSup r fun u => { u with ceiling := ceilingOf r k, rampEnded := ended }).lowerCapo r (ceilingOf r k)

/-! ## Service reasons (R154, R155) -/

def State.mutedTotal (s : State) : Nat :=
  ((Config.allStrings s.cfg).filter fun i => (s.str i).st == .muted).length
def State.blindTotal (s : State) : Nat := ((Config.allStrings s.cfg).filter fun i => (s.str i).blind).length

/-- Conditions that hold at a latch, as reason bits. -/
def State.reasonsHeld (s : State) : Nat :=
  let regs := Config.regions s.cfg
  let crs := Config.courses s.cfg
  b2n (regs.any fun r => decide (r < 64) && decide (s.getN Obj.svc_region_muted ≤ s.mutedIn r))
    + 2 * b2n (decide (s.getN Obj.svc_total_muted ≤ s.mutedTotal))
    + 4 * b2n (decide (s.getN Obj.svc_blind ≤ s.blindTotal))
    + 8 * b2n (regs.any fun r => decide (s.getN Obj.svc_pickups ≤
        ((s.region r).pk.filter fun k => k.cause != 0).length))
    + 64 * b2n (decide (s.getN Obj.svc_parity_limit ≤ s.blk.parityHour))
    + 128 * b2n (crs.any fun c => decide (s.getN Obj.course_fault_limit ≤ s.getN (Obj.course_faults_hour c)))
    + 512 * b2n (crs.any fun c => (s.course c).lost)

/-- SERVICE_EVALUATION: each bit found is set and recorded; the block enters or leaves SERVICE. -/
def State.latchService (s : State) : State :=
  let due := s.reasonsHeld ||| s.blk.reasonDue
  let s := overAll (s.modBlk fun b => { b with reasonDue := 0 }) ((List.range 10).filter (bit due)) State.setReason
  let any := decide (s.getN Obj.service_reasons ≠ 0)
  if s.blk.st = .run && any then s.enter .service
  else if s.blk.st = .service && !any then s.enter .run
  else s

/-! ## String commands (R142, R149, R158) -/

def State.stringMute (s : State) (i : Nat) : Ans := (0, s.mute i 1)

/-- R149: the keeper check comes first; every other refusal is recorded. -/
def State.stringReturn (s : State) (i : Nat) (keeper : Bool) : Ans :=
  let x := s.str i
  if !keeper && x.st == .muted && x.cause != 1 then (abortKeeper, s)
  else if x.st != .muted || x.cause = 5 || x.cause = 7 || !s.runs || !s.returnOk i then
    (abortAccess, s.fire 15 0 (srcString i))
  else (0, s.modStr i fun y => { y with retPending := true })

def State.stringSetBlind (s : State) (i : Nat) : Ans :=
  let x := s.str i
  if x.blind then (abortAccess, s)
  else if x.st = .active then (0, s.makeBlind i 6)
  else (0, s.flagBlind i 6)

def State.stringClearBlind (s : State) (i : Nat) : Ans :=
  let x := s.str i
  if !x.blind then (abortAccess, s)
  else
    let clear (y : Str) : Str := { y with blind := false, blindCause := 0 }
    if x.st = .blind then (0, s.strTo i .active fun y => clear { y with shI := 0, shMet := 0 })
    else (0, s.modStr i clear)

/-! ## Parity of the scoreboard (R127) -/

/-- The cause of a rebuilt entry, from state outside the entry. -/
def State.rebuildCause (s : State) (i : Nat) : Nat :=
  if s.get (Obj.rail_damped (railOf (regionOf i))) = 1 then 7
  else if (s.course (courseOf i)).outcome = 2 then 5
  else 6

/-- A parity error in a string's entry: it is rebuilt as MUTED; a string that was not MUTED before enters MUTED. -/
def State.rebuildString (s : State) (i : Nat) : State :=
  let cause := s.rebuildCause i
  let was := (s.str i).st == .muted
  let s := if was then s else s.mute i cause
  s.modStr i fun x =>
    let again := match x.parLast with | some t => decide (s.now < t + 1000000000) | none => false
    { x with
      st := .muted, cause := cause, blind := false, blindCause := 0, openCtr := 0, openLow := 0, hicHist := []
      retPending := false
      parAt := if cause = 6 && !again then some s.now else none
      parLast := if cause = 6 then some s.now else x.parLast }

/-- SCOREBOARD_PARITY_ERROR: of the entry, or of the region island's copy, which passes the string over until the entry
has been fetched again (SCOREBOARD_CHANGE_ARRIVAL). -/
def execScoreboardParityError (i : Nat) (s : State) (islandCopy : Bool := false) : Out :=
  onString s i (
    if islandCopy then s.parityError.modStr i fun x => { x with islBad := true }
    else s.parityError.rebuildString i)

/-- PARITY_RETURN_TIMER: 1 ms after a PARITY rebuild the return is due; a latch takes it under R150. -/
def execParityReturnTimer (i : Nat) (s : State) : Out :=
  onString s i (
    let x := s.str i
    match x.parAt with
    | some t =>
      if x.st = .muted && x.cause = 6 && decide (t + 1000000 ≤ s.now) then
        s.modStr i fun y => { y with parAt := none, retPending := true }
      else s
    | none => s)

end Sys2Proof.Machine
end

