-- ==== Sys2Proof/Machine/Faults.lean ====
section
/-! DEFINITION. Course faults: lane frames and lane loss (R129 to R131), hiccups (R133), follow-ups and alerts (R132,
R457), the copy of a course's fault record (R495 to R498), and the hour window (R132, R154). -/

namespace Sys2Proof.Machine

/-! ## Hiccups (R133) -/

/-- A hiccup report for a string in ACTIVE, BLIND or RETURNING: into HICCUP, or MUTED when exhausted or when it comes
during a commanded ramp. The report is an entry of the history in every case. -/
def State.hiccupReport (s : State) (i : Nat) : State :=
  let x := s.str i
  let h := (s.now :: x.hicHist).take 16
  let s := s.modStr i fun y => { y with hicHist := h }
  let old := h[s.getN Obj.hiccup_max - 1]?
  let spent := old.any fun t => decide (s.now ≤ t + s.getN Obj.hiccup_window * 1000000)
  if spent || (x.st == .returning && x.rampCmd) then
    ((s.countSat (Obj.string_hiccup_count i) 16).mute i 3).followCause (courseOf i)
  else (s.toHiccup i).followCause (courseOf i)

/-- HICCUP_REPORT for string position `n` of course `c`, with the fields of the frame before. -/
def State.hiccupBit (s : State) (c word old n : Nat) : State :=
  let i := 8 * c + n
  if !bit word (20 + n) || !Config.popString s.cfg i then s
  else match (s.str i).st with
    | .active | .blind | .returning => s.hiccupReport i
    | .hiccup => s
    | .shed | .muted => if bit old (20 + n) then s else s.fire 16 n (srcCourse c)

/-! ## Lanes (R130, R131) -/

/-- LANE_LOST: recorded, a course fault through its follow-up, and the lane reason. -/
def State.laneLost (s : State) (c : Nat) : State :=
  if (s.course c).lost then s
  else
    let s := s.senseSeen.modCourse c fun x => { x with lost := true, okRun := 0 }
    (((s.fire 17 0 (srcCourse c)).followCause c).noteReason 9).learnFault (regionOfCourse c)

/-- R130: a frame is accepted: coding, sync, parity, and the count unless it is exempt. -/
def frameGood (word : Nat) : Bool := bits word 31 28 == 13 && evenParity 32 word

def Course.accepts (x : Course) (word : Nat) (codingOk : Bool) : Bool :=
  codingOk && frameGood word && (match x.ref with
    | some k => bits word 7 4 == (k + 1) % 16
    | none => true)

/-- A rejected frame: the next good one is exempt from the count; four in a row lose the lane. -/
def State.rejectFrame (s : State) (c : Nat) : State :=
  let s := (s.countSat (Obj.course_lane_errors c) 16).modCourse c fun x =>
    { x with ref := none, rejRun := x.rejRun + 1, okRun := 0 }
  if (s.course c).rejRun ≥ 4 then s.laneLost c else s

/-- An accepted frame: its fields take effect, a backstop before the hiccups (R385, R388); four in a row regain a lost
lane. -/
def State.acceptFrame (s : State) (c word : Nat) : State :=
  let x := s.course c
  let back := bit word 11
  let s := s.modCourse c fun y =>
    { y with frame := word, ref := some (bits word 7 4), okAt := s.now, rejRun := 0, okRun := y.okRun + 1
             prevNew := some (bit word 9), backstop := y.backstop || back }
  let s := if x.lost && decide (4 ≤ x.okRun + 1) then
      (s.modCourse c fun y => { y with lost := false }).fire 17 1 (srcCourse c)
    else s
  let s := if back then
      (if bit x.frame 11 then s else s.followCause c).damper (railOfCourse c) 1 (srcCourse c)
    else s
  let s := overAll s (List.range 8) fun s n => s.hiccupBit c word x.frame n
  if bit word 9 && x.prevNew == some false then s.followCause c else s

/-- CRS_STAT_FRAME (R130, R522): a lane is decoded only under supervision. -/
def execCrsStatFrame (c word : Nat) (codingOk : Bool) (s : State) : Out :=
  onCourse s c (
    let x := s.course c
    let word := word % 2 ^ 32
    if !x.sup then s
    else if x.accepts word codingOk then s.acceptFrame c word
    else s.rejectFrame c)

/-- LANE_TIMEOUT (R131). -/
def execLaneTimeout (c : Nat) (s : State) : Out :=
  onCourse s c (
    let x := s.course c
    s.when (x.sup && decide (x.okAt + 6000 ≤ s.now)) (s.laneLost c))

/-- LANE_FLT_DAMPER (R131): CRS_FLT_N has been low for 300 µs on a lost lane. -/
def execLaneFltDamper (c : Nat) (s : State) : Out :=
  onCourse s c (
    let x := s.course c
    s.when (x.lost && x.flt && decide (x.fltAt + 300000 ≤ s.now)) (s.damper (railOfCourse c) 2 (srcCourse c)))

/-- LANE_VMIN_DAMPER (R131): on a lost lane with CRS_FLT_N low, vmin has stayed below the line for 10 µs. -/
def execLaneVminDamper (c : Nat) (s : State) : Out :=
  onCourse s c (
    let x := s.course c
    let low := match (s.region (regionOfCourse c)).loop.lowSince with
      | some t => decide (max t x.fltAt + 10000 ≤ s.now)
      | none => false
    s.when (x.lost && x.flt && low) (s.damper (railOfCourse c) 2 (srcCourse c)))

/-- CRS_FLT_N_FALL (R132). -/
def execCrsFltNFall (c : Nat) (s : State) : Out :=
  onCourse s c (s.when s.blk.st.active
    ((s.modCourse c fun x => { x with flt := true, fltAt := s.now }).followCause c))

/-- CRS_FLT_N_RISE (R131): with the lane lost, the course's HICCUP strings go to RETURNING. -/
def execCrsFltNRise (c : Nat) (s : State) : Out :=
  onCourse s c (
    let lost := (s.course c).lost
    let s := s.modCourse c fun x => { x with flt := false }
    if lost then
      overAll s ((Config.courseStrings s.cfg c).filter fun i => (s.str i).st == .hiccup) fun s i =>
        s.strTo i .returning fun y =>
          { y with rampAt := if s.runs then some (s.eng.period + 1) else none, rampCmd := false }
    else s)

/-! ## Follow-ups and records (R132, R457, R497) -/

/-- R132: what a follow-up sends first: STATUS_WORD, then PAGE and STATUS_IOUT for each string concerned. -/
def followReads (iout : List (Nat × Nat)) : List PmbusTxn :=
  .statusWord :: iout.flatMap fun p => [.page p.1, .statusIout]

/-- FOLLOW_UP (R132): a waiting follow-up reads STATUS_WORD and the STATUS_IOUT of each string concerned, given with its
page (log 97), and counts one course fault; the record's copy and CLEAR_FAULTS end it. -/
def execFollowUp (c statusWord : Nat) (s : State) (iout : List (Nat × Nat) := []) : Out :=
  onCourse s c (
    if (s.course c).follow = .waiting ∧ s.blk.st.serves then
      let s := s.modCourse c fun x =>
        { x with follow := .running false, status := statusWord % 65536, iout
                 sent := (followReads iout).map (courseAddr c, ·) }
      (s.courseFault c).fire 18 (statusWord % 256) (srcCourse c)
    else s)

/-- R495, R497: a record that checks. -/
def recordGood (b : List Byte) : Bool :=
  b.length == 128 && b.getD 0 0 == 1 && crc32c (b.take 124) == fieldAt b 124 4

/-- R497: one read of a record, segment by segment. -/
def recordReads : List PmbusTxn := [0, 1, 2, 3].flatMap fun i => [.recordSelect i, .recordData]

/-- R375: the TMON result word of a course: input 16 or 17 of its converter. -/
def State.tmonOf (s : State) (c : Nat) : Nat := (s.conv (c / 2)).tmon.getD (c % 2) 0

/-- COURSE_RECORD_COPY (R404, R497, R498): read once, and again where the first read fails; the copy, its state and the
three-part trigger. The record goes to the fault log only when its acknowledged bit read 0. A follow-up ends with
CLEAR_FAULTS (R132). -/
def State.recordCopy (s : State) (c : Nat) (first second : List Byte) : State :=
  let rec' := if recordGood first then first else (slice second 0 128)
  let good := recordGood first || recordGood second
  let acked := bit (rec'.getD 1 0) 1
  let detail := if !good then 2 else if acked then 1 else 0
  let s := s.modCourse c fun x =>
    { x with
      record := slice rec' 0 128
      recState := if !good then 3 else if acked then 2 else 1
      recTmon := s.tmonOf c
      sent := x.sent ++ (recordReads ++ (if recordGood first then [] else recordReads)
        ++ (if good && !acked then [PmbusTxn.recordAck] else [])
        ++ (if x.follow.isRunning then [PmbusTxn.clearFaults] else [])).map (courseAddr c, ·)
      copyDue := x.follow.isRunning && x.copyDue
      follow := match x.follow with
        | .running true => .waiting
        | .running false => .idle
        | f => f }
  let s := (s.count (Obj.course_record_copies c) 32).count (Obj.trig_count 19) 32
  let route := s.routeOf 19
  s.enqueue
    { ty := 19, detail, src := srcCourse c, part := some 0
      words := some ((List.range 32).map fun k => fieldAt rec' (4 * k) 4)
      route := if acked then route / 2 * 2 else route }

/-- R404: after DISCOVER, a course whose turn has come on its segment is read for MFR_MODEL and MFR_REVISION, each with
its byte count, before its record; no follow-up runs or waits on the segment. -/
def State.copyTurn (s : State) (c : Nat) : Bool :=
  (s.course c).copyDue && s.blk.st != .discover && s.segmentTurn c (·.copyDue)
    && (Config.courses s.cfg).all fun k => !(segmentOf k == segmentOf c && (s.course k).follow != .idle)

/-- R404: the two identification strings are read. -/
def State.readIdent (s : State) (c : Nat) (ident : List Byte) : State :=
  s.modCourse c fun x =>
    { x with ident := (x.ident ++ ident).take 32
             sent := [.mfrModel, .mfrRevision].map (courseAddr c, ·) }

/-- COURSE_RECORD_COPY: in a follow-up, or in the work of R404. -/
def execCourseRecordCopy (c : Nat) (first second : List Byte) (s : State) (ident : List Byte := []) : Out :=
  onCourse s c (
    if !s.blk.st.serves then s
    else if (s.course c).follow.isRunning then s.recordCopy c first second
    else s.when (s.copyTurn c) ((s.readIdent c ident).recordCopy c first second))

/-- SMBUS_ALERT (R457): the course that answers with its address is followed up; with no answer of a course the alert is
recorded. -/
def execSmbusAlert (seg : Nat) (addr : Option Nat) (s : State) : Out :=
  within s 10 seg (
    if !s.blk.st.active then s
    else match addr.bind (courseAt s.cfg seg) with
      | some c => s.followCause c
      | none => s.fire 20 0 (srcSegment seg))

/-- HOUR_WINDOW (R132, R154). -/
def execHourWindow (s : State) : Out :=
  .next (overAll (s.modBlk fun b => { b with parityHour := 0 }) (List.range 140) fun s c =>
    s.set (Obj.course_faults_hour c) 0)

end Sys2Proof.Machine
end

