-- ==== Sys2Proof/Machine/Flags.lean ====
section
/-! DEFINITION. The engine's number format and its flags (R166 to R169): saturating products and sums, output clamps
and conditional integration, each with the flag bits of R200 that it sets. -/

namespace Sys2Proof.Machine

/-- R200: the bits of `ch_flags`. -/
def flagSatMul : Nat := 1
def flagSatAcc : Nat := 2
def flagSatOut : Nat := 4
def flagIntHold : Nat := 8
def flagBankFault : Nat := 16

/-- A value with the flags that its computation has set. -/
structure Fl where
  val : Int
  fl : Nat := 0
deriving DecidableEq, Repr

/-- S32 saturation. -/
def sat32 (x : Int) : Int := clampI (-2147483648) 2147483647 x

/-- R166: a product of an operand and a coefficient: 64 bits, shifted with ties to even, saturated. -/
def mulC (x : Int) (k : Int × Nat) : Fl :=
  let p := roundEven (x * k.1) (2 ^ k.2)
  { val := sat32 p, fl := if sat32 p = p then 0 else flagSatMul }

/-- R167: an addition that saturates in S32; the flags of both operands are kept. -/
def Fl.add (a b : Fl) : Fl :=
  let v := a.val + b.val
  { val := sat32 v, fl := a.fl ||| b.fl ||| (if sat32 v = v then 0 else flagSatAcc) }

def Fl.neg (a : Fl) : Fl := { a with val := sat32 (-a.val) }
def Fl.sub (a b : Fl) : Fl :=
  let v := a.val - b.val
  { val := sat32 v, fl := a.fl ||| b.fl ||| (if sat32 v = v then 0 else flagSatAcc) }

/-- R167: an output clamped to its range. -/
def outClamp (lo hi : Int) (a : Fl) : Fl :=
  { val := clampI lo hi a.val, fl := a.fl ||| (if a.val ≤ lo ∨ hi ≤ a.val then flagSatOut else 0) }

/-- Which clamp an output has met: 1 the upper, −1 the lower, 0 none. -/
def clampMet (lo hi x : Int) : Int := if hi ≤ x then 1 else if x ≤ lo then -1 else 0

/-- R168: an integrator `i` with its update `new`, and the clamp its output met in the period before. -/
def integrate (i met : Int) (new : Fl) : Fl :=
  if new.fl != 0 || (met = 1 && new.val > i) || (met = -1 && new.val < i) then
    { val := i, fl := new.fl ||| flagIntHold }
  else new

/-- The value that a coefficient stands for (R166). -/
def coefValue (k : Int × Nat) : Int := (mulC 1 k).val

end Sys2Proof.Machine
end

