-- ==== Sys2Proof/Machine/Startup.lean ====
section
/-! DEFINITION. Supplies, reset and the block states (R394 to R425): SELFTEST, the fuse image (R401, R537 to R539 in
`Machine/Fuses.lean`), discovery, the rail ramps, shut-down and restart. -/

namespace Sys2Proof.Machine

/-! ## Supplies and RESET (R394 to R397) -/

/-- OFF: no state is kept. -/
def State.powerOff (s : State) : State :=
  { State.initial s.cfg with blk := { st := .off }, freeK := s.freeK, pending := s.pending }

/-- SUPPLIES_GOOD: block time starts at 0 on entry into RESET (R546), which lasts at least 10 µs. -/
def execSuppliesGood (s : State) : Out :=
  .next (if s.blk.st = .off then
    { State.initial s.cfg with freeK := s.freeK, pending := s.pending }
  else s)

/-- SUPPLIES_LOST, from any powered state. -/
def execSuppliesLost (s : State) : Out := .next s.powerOff

/-- R397, R513: what is kept across RESET_N: the logs with their sequence numbers. Queued triggers and held records are
lost, each counted; a freeze ends. -/
def Recorder.kept (x : Recorder) : Recorder :=
  { fault := x.fault, first := x.first, nextF := x.nextF, trace := x.trace, nextT := x.nextT, snaps := defaultSnaps }

/-- R513: a sequence counter whose parity fails is rebuilt as one above the highest number among the records of its log
whose CRC checks; each record that fails is counted. -/
def Recorder.rebuilt (x : Recorder) (k : LogCheck) : Recorder :=
  let seqs := if k.trace then x.trace.map (·.2.seq) else x.fault.map (·.seq)
  let good := seqs.filter fun q => !k.torn.contains q
  let next := if good.isEmpty then 0 else (maxN good + 1) % 2 ^ 32
  let x := { x with badCrc := x.badCrc + (seqs.length - good.length) }
  if k.trace then { x with nextT := next } else { x with nextF := next }

/-- RESET_N_LOW (R396, R397): every output takes its reset value; block time starts again at 0 (R546). The test access
port is not reset (R540), nor is the level of TEST_MODE. -/
def execResetNLow (s : State) (logs : List LogCheck := []) : Out :=
  .next (if s.blk.st = .off then s
  else
    let lost := s.recd.queue.length + s.recd.hold.length
    let t := State.initial s.cfg
    let t : State := { t with
      blk := { t.blk with resetCause := 1, resetCount := (s.blk.resetCount + 1) % 2 ^ 32
                          holdUntil := s.blk.holdUntil - s.now, refUntil := s.blk.refUntil - s.now }
      recd := logs.foldl Recorder.rebuilt s.recd.kept
      clk := { t.clk with refLost := s.clk.refLost, tap := s.clk.tap, ctrl := s.clk.ctrl, testMode := s.clk.testMode, shift := s.clk.shift, bound := s.clk.bound }
      dict := { t.dict with noiseK := s.dict.noiseK }
      freeK := s.freeK, pending := s.pending }
    let t := overAll t logs fun t _ => t.parityError
    t.set Obj.rec_lost (min (2 ^ 32 - 1) (s.getN Obj.rec_lost + lost) : Nat))

/-- R513, R400: SELFTEST's handling of the logs: emptied after a power-on, resumed after a RESET_N. The RESET record is
the first formed. EXTEST in effect becomes BYPASS (R542). -/
def State.enterSelftest (s : State) (riseAt : Nat) : State :=
  let s := s.modBlk fun b => { b with riseAt := riseAt }
  let s : State := if s.clk.tap = .extest then { s with clk := { s.clk with tap := .bypass } } else s
  (s.fire 1 s.blk.resetCause).enter .selftest

/-- RESET_EXIT (R396): RESET_N has been high for 3 cycles of REFCLK, the supplies good for 10 µs, and REFCLK has run for
1,000 cycles. -/
def execResetExit (riseAt : Nat) (s : State) : Out :=
  .next (s.when (s.blk.st == .reset && !s.clk.refLost && decide (max s.blk.holdUntil s.blk.refUntil ≤ s.now)
    && decide (riseAt + 30 ≤ s.now)) (s.enterSelftest riseAt))

/-! ## SELFTEST (R400, R356) -/

/-- R374: a converter is declared failed and recorded; it delivers code 0 from then on. Number 70 is the board-analog
converter. -/
def State.failConverter (s : State) (n : Nat) : State :=
  if n = 70 then
    if s.cg.baFailed then s else ({ s with cg := { s.cg with baFailed := true } } : State).fire 36 0 (srcConv 70)
  else if (s.conv n).failed then s
  else (s.modConv n fun c => { c with failed := true }).fire 36 0 (srcConv n)

/-- R356: the mean of sixteen codes differs from the fused value by more than `ref_tolerance`. -/
def State.refFails (s : State) (k : RefCheck) : Bool :=
  decide (16 * s.getN Obj.ref_tolerance < ((k.sum : Int) - (16 * k.fused : Nat)).natAbs)

/-- SELFTEST_COMPLETE: the result bits; a result other than 0 is recorded with the reasons that apply. A converter that
`refs` does not name has met its fused value. -/
def execSelftestComplete (memFail twinFail : Bool) (refs : List RefCheck) (s : State) : Out :=
  .next (if s.blk.st != .selftest then s
  else
    let bad := ((refs.filter s.refFails).map (·.conv)).filter fun n => Config.popConv s.cfg n || n == 70
    let res := b2n memFail + 2 * b2n twinFail + 4 * b2n (!bad.isEmpty)
    let s := s.set Obj.selftest_result res
    let s := if res = 0 then s else s.fire 3 res
    let s := if memFail then s.setReason 6 else s
    let s := if twinFail then s.setReason 5 else s
    (overAll s bad State.failConverter).enter .fuseload)

/-! ## Discovery (R402 to R405) -/

/-- Entry into DISCOVER: every populated course is discovered again; one that was absent stays absent. -/
def State.startDiscover (s : State) : State :=
  let s : State := { s with courses := s.courses.map fun c =>
    { c with done := c.absent, outcome := if c.absent then 2 else 0, fail := none } }
  s.enter .discover

/-- The outcome of a course (R402, R403). Outcome 2 mutes its strings; 3 and 4 count a course fault; all three are
recorded. A course that is taken as present has been sent the three transactions of R402; `ident` is what MFR_ID has
read. -/
def State.discovered (s : State) (c outcome : Nat) (ident : List Byte) : State :=
  let s := s.modCourse c fun x =>
    { x with done := true, outcome := outcome, fail := none, present := outcome != 2, absent := outcome == 2
             ident := if outcome = 1 then ident.take 9 else [], copyDue := outcome != 2
             sent := (if outcome = 2 then [.mfrId] else [.mfrId, .statusWord, .operation 0x80]).map (courseAddr c, ·) }
  let s := if outcome = 1 then s else s.fire 5 outcome (srcCourse c)
  if outcome = 2 then overAll s (Config.courseStrings s.cfg c) fun s i => s.mute i 5
  else if outcome = 3 ∨ outcome = 4 then s.courseFault c
  else s

/-- One attempt: a success ends discovery, a failure of one kind twice (PEC three times, R403) gives its outcome. -/
def State.attempt (s : State) (c : Nat) (res : PmbResult) (ident : List Byte) : State :=
  let before := match (s.course c).fail with
    | some (k, n, _) => if k = res then n else 0
    | none => 0
  match res with
  | .ok => s.discovered c 1 ident
  | .noAck => if before ≥ 1 then s.discovered c 2 ident
      else s.modCourse c fun x => { x with fail := some (.noAck, 1, s.now) }
  | .clockLow => if before ≥ 1 then s.discovered c 3 ident
      else s.modCourse c fun x => { x with fail := some (.clockLow, 1, s.now) }
  | .badPec => if before ≥ 2 then s.discovered c 4 ident
      else s.modCourse c fun x => { x with fail := some (.badPec, before + 1, s.now) }

/-- COURSE_DISCOVERY: the first attempt at a course, whose turn has come on its segment. -/
def execCourseDiscovery (c : Nat) (res : PmbResult) (ident : List Byte) (s : State) : Out :=
  onCourse s c (
    let x := s.course c
    s.when (s.blk.st == .discover && !x.done && x.fail.isNone && s.segmentTurn c fun k => !k.done) (s.attempt c res ident))

/-- PMBUS_RETRY (R455): a failed attempt is repeated 100 µs later. -/
def execPmbusRetry (c : Nat) (res : PmbResult) (ident : List Byte) (s : State) : Out :=
  onCourse s c (
    let x := s.course c
    match x.fail with
    | some (_, _, t) => s.when (s.blk.st == .discover && !x.done && decide (t + 100000 ≤ s.now)) (s.attempt c res ident)
    | none => s)

/-! ## The ramps (R406 to R412) -/

/-- R423: the order in use from an entry into RAMP. -/
def rampOrderOf (v : Nat) : List Nat := [v % 4, v / 4 % 4, v / 16 % 4]

/-- Entry into RAMP: the order and the length of the ramps are latched (R423); the rail channels start with trims and c at 0 and Kff at k4 (R183). -/
def State.startRamp (s : State) : State :=
  let s := s.modBlk fun b =>
    { b with rampOrder := rampOrderOf (s.getN Obj.ramp_order), rampTime := s.getN Obj.ramp_time, rampIdx := 0 }
  let s : State := { s with
    rails := s.rails.map fun x => { x with st := .off, refAt := none, enAt := none, joined := [], vRamp := 0 }
    chans := s.chans.map fun c =>
      let k4 := (if c.actB then c.bankB else c.bankA).getD 4 (1073741824, 0)
      { c with kff := clampI 805306368 1342177280 (coefValue k4), c := 0, off := 0, hold := false }
    strings := s.strings.map fun x => { x with shI := 0, shMet := 0, trimCalc := 0, trimOut := 0, trim := 0 } }
  s.enter .ramp

/-- DISCOVER_END (R405, R399): every populated course has an outcome. -/
def execDiscoverEnd (vinOk : Bool) (s : State) : Out :=
  .next (
    let all := (Config.courses s.cfg).all fun c => (s.course c).done
    if s.blk.st != .discover || !all then s
    else if s.blk.shutPending then (s.modBlk fun b => { b with downBegun := true, downLeft := [], shutCause := 1 }).enter .shutdown
    else if vinOk then s.startRamp
    else s)

/-- The rail whose turn it is in RAMP. -/
def State.turnRail (s : State) : Option Nat := s.blk.rampOrder[s.blk.rampIdx]?

/-- LEAVE_RAMP (R412): after the last rail the block enters RUN or SERVICE, and PWR_GOOD rises if every rail is GOOD. -/
def State.leaveRampIfDone (s : State) : State :=
  if s.blk.st = .ramp && decide (s.blk.rampIdx ≥ 3) then
    let s := s.enter (if s.getN Obj.service_reasons = 0 then .run else .service)
    let s := s.resumeWakes
    let good := s.rails.all fun x => x.st == .good
    let s : State := { s with cap := { s.cap with
      stepSeen := false, disFail := 0, disPass := 0, alloc := [], fmax := []
      next := none } }
    let s : State := { s with
      strings := s.strings.map fun x => { x with seedDue := x.seedOn }
      regions := s.regions.map fun x => { x with sup := { x.sup with distNow := true } } }
    if good then
      let s := s.modBlk fun b => { b with pwrGood := true }
      if s.getN Obj.startup_time = 0 then s.set Obj.startup_time ((s.now - s.blk.riseAt) % 2 ^ 32 : Nat) else s
    else s
  else s

/-- The next rail's turn comes. -/
def State.nextRail (s : State) : State := (s.modBlk fun b => { b with rampIdx := b.rampIdx + 1 }).leaveRampIfDone

/-- RAIL_RAMP_START (R406, R407): NOT_STARTED below half of its populated strings, else CRS_EN rises on its present
courses and firing is no longer halted there. -/
def State.railRampStart (s : State) (q : Nat) : State :=
  let crs := Config.railCourses s.cfg q
  let strs := (Config.allStrings s.cfg).filter fun i => railOf (regionOf i) == q
  let here := strs.filter fun i => let o := (s.course (courseOf i)).outcome; o == 1 || o == 3 || o == 4
  if 2 * here.length < strs.length then
    ((s.modRail q fun x => { x with st := .notStarted }).fire 6 3 (srcRail q)).nextRail
  else
    let s := overAll s crs fun s c => s.modCourse c fun x => { x with en := x.present }
    let s := s.modRail q fun x => { x with st := .ramping, enAt := some s.now, refAt := none, joined := [] }
    overAll s (Config.railRegs s.cfg q) fun s r => s.modRegion r fun x =>
      { x with strum := { x.strum with halt := false, ep := none, lockUntil := none, downRef := none }
               loop := { x.loop with vref := 0, refFrom := 0, refTo := 0, refBase := 0, rampV := 0, rampFrom := 0, pgSince := none, fixAt := none } }

def execRailRampStart (s : State) : Out :=
  .next (match s.blk.st, s.turnRail with
    | .ramp, some q => if (s.rail q).st = .off then s.railRampStart q else s
    | _, _ => s)

/-- R408: V0 of a rail in 0.15625 mV: the set-point of R180 with the needed fret at 0, the bump at 0, and the trim and
i_f as they stand. -/
def State.v0Of (s : State) (q : Nat) : Nat :=
  let v : Int := 524288 * ((s.tuneAt q 0 + s.tune.gAge + s.getN Obj.tguard + s.bandAdd q : Nat) : Int)
    + s.trimFvu q - s.dropFvu q (s.rail q).iF
  (roundUp (clampI (mvUnits (railVmin q) * 65536) (mvUnits (railVmax q) * 65536) v) 65536).toNat

/-- RAMP_REFERENCE_START (R407, R131): 10 µs after CRS_EN rose the reference starts, and lane supervision with it. -/
def execRampReferenceStart (q : Nat) (s : State) : Out :=
  onRail s q (
    let x := s.rail q
    match x.st, x.refAt, x.enAt with
    | .ramping, none, some t =>
      if s.blk.st != .ramp || decide (s.now < t + 10000) then s
      else
        let v0 := s.v0Of q
        let s := s.modRail q fun x => { x with refAt := some s.now, v0 := v0, vRamp := 0 }
        let s := s.set (Obj.rail_ramp_v0 q) v0
        overAll s (Config.railCourses s.cfg q) fun s c => s.modCourse c fun y =>
          if y.en then { y with sup := true, lost := false, ref := none, prevNew := none, rejRun := 0, okRun := 0
                                okAt := s.now } else y
    | _, _, _ => s)

/-- R410: when a position joins, from the start of the reference. -/
def joinTime (q rampTime p : Nat) : Nat := (if q = 0 then p / 2 else p) * rampTime * 1000 / 16

/-- POSITION_JOIN (R410). -/
def execPositionJoin (q p : Nat) (s : State) : Out :=
  onRail s q (
    let x := s.rail q
    match x.st, x.refAt with
    | .ramping, some t =>
      s.when (decide (p < (if q = 0 then 16 else 8)) && decide (t + joinTime q s.blk.rampTime p ≤ s.now)
          && !x.joined.contains p)
        (s.modRail q fun x => { x with joined := x.joined ++ [p] })
    | _, _ => s)

/-- R411: 100 µs have passed since the end of the ramp, and every populated region on its own or borrowed source has held
the window for as long. -/
def State.railHeld (s : State) (q : Nat) : Bool :=
  (s.rail q).refAt.any (fun t => decide (t + 1000 * s.blk.rampTime + 100000 ≤ s.now)) &&
  (Config.railRegs s.cfg q).all fun r =>
    let l := (s.region r).loop
    l.src == .fixedRate || (match l.pgSince with
      | some t => decide (t + 100000 ≤ s.now)
      | none => false)

/-- RAIL_POWER_GOOD (R411). -/
def execRailPowerGood (q : Nat) (s : State) : Out :=
  onRail s q (
    s.when (s.blk.st == .ramp && s.turnRail == some q && (s.rail q).st == .ramping && s.railHeld q)
      (((s.modRail q fun x => { x with st := .good }).set (Obj.rail_pg_time q) s.now).nextRail))

/-- The CRS_EN of a rail fall: pulses of its strings are cut, its regions are halted (R63). -/
def State.railEnLow (s : State) (q : Nat) : State :=
  let s := overAll s (Config.railCourses s.cfg q) fun s c => s.modCourse c fun x => { x with en := false, sup := false }
  overAll s (Config.railRegs s.cfg q) State.haltRegion

/-- RAIL_FAILED (R411): not good within `pg_deadline` of the end of its ramp. String states are kept. -/
def execRailFailed (q : Nat) (s : State) : Out :=
  onRail s q (
    let x := s.rail q
    match x.refAt with
    | some t =>
      s.when (s.blk.st == .ramp && s.turnRail == some q && x.st == .ramping
          && decide (t + 1000 * (s.blk.rampTime + s.getN Obj.pg_deadline) ≤ s.now))
        ((((s.railEnLow q).modRail q fun x => { x with st := .failed, refAt := none, enAt := none, joined := [] }).fire
          6 4 (srcRail q)).nextRail)
    | none => s)

/-! ## Shut-down and restart (R416 to R418) -/

/-- R417: the rails to be ramped down, in reverse order; rails that are not up stay off. -/
def State.downList (s : State) : List Nat :=
  s.blk.rampOrder.reverse.filter fun q => (s.rail q).st == .good || (s.rail q).st == .ramping

/-- `block_cmd` = 1 (R416). -/
def State.cmdShutdown (s : State) : Ans :=
  match s.blk.st with
  | .ramp | .run | .service =>
    let l := s.downList
    let s := s.modBlk fun b => { b with shutPending := true, shutCause := 1, downLeft := l, downBegun := false }
    (0, s.enter .shutdown)
  | .discover | .cooldown => (0, s.modBlk fun b => { b with shutPending := true })
  | _ => (abortAccess, s.fire 15 1)

/-- `block_cmd` = 2 (R416). -/
def State.cmdStart (s : State) : Ans :=
  if s.blk.st = .shutdown && !s.courses.any (·.en) then
    (0, (s.modBlk fun b => { b with shutPending := false, downLeft := [], downBegun := false }).startDiscover)
  else (abortAccess, s.fire 15 1)

/-- The ramp-down of a rail begins: the reference of its regions falls at 1 mV/µs, the twins hold their threshold
against the reference in force now (R417). -/
def State.beginDown (s : State) (q : Nat) : State :=
  let s := s.modRail q fun x => { x with st := .down, downAt := some s.now }
  overAll s (Config.railRegs s.cfg q) fun s r => s.modStrum r fun u => { u with downRef := some (s.region r).loop.vref }

/-- RAMP_DOWN_START (R417): in a commanded shut-down, once every fret is 0 or `shutdown_fret_wait` has run out. -/
def execRampDownStart (s : State) : Out :=
  .next (
    let frets := (Config.regions s.cfg).all fun r => (s.region r).fret.fret == 0
    match s.blk.downLeft with
    | q :: _ =>
      if s.blk.st = .shutdown && !s.blk.downBegun
          && (frets || decide (s.blk.since + 1000 * s.getN Obj.shutdown_fret_wait ≤ s.now)) then
        (s.modBlk fun b => { b with downBegun := true }).beginDown q
      else s
    | [] => s)

/-- RAIL_RAMP_DOWN_END (R417): the reference has reached `rail_vmin` in every region, the rail's CRS_EN fall, and the
next rail's ramp-down begins. -/
def execRailRampDownEnd (q : Nat) (s : State) : Out :=
  onRail s q (
    match s.blk.downLeft, (s.rail q).downAt with
    | q' :: rest, some t =>
      let reached := (Config.railRegs s.cfg q).all fun r =>
        decide (downRefAt ((s.region r).strum.downRef.getD 0) q (s.now - t) ≤ mvUnits (railVmin q))
      if s.blk.st = .shutdown && s.blk.downBegun && q' == q && reached then
        let s := (s.railEnLow q).modRail q fun x =>
          { x with st := .off, downAt := none, enAt := none, refAt := none, joined := [] }
        let s := overAll s (Config.railRegs s.cfg q) fun s r => s.modStrum r fun u => { u with downRef := none }
        let s := s.modBlk fun b => { b with downLeft := rest }
        match rest with
        | n :: _ => s.beginDown n
        | [] => s
      else s
    | _, _ => s)

/-- VIN_OK_LOSS (R418): after 10 µs of VIN_OK low. -/
def execVinOkLoss (s : State) : Out :=
  .next (match s.blk.st with
    | .ramp | .run | .service | .shutdown =>
      let s := ((s.haltAll.allEnLow.railsOff).count Obj.vin_loss_count 32).fire 7 0
      let s := s.modBlk fun b => { b with shutCause := 2, vinLostAt := s.now, downLeft := [], downBegun := true }
      if s.blk.st = .shutdown then s else s.enter .shutdown
    | _ => s)

/-- VIN_RESTART (R418): VIN_OK has been high for `vin_restart_delay`, in ms, since its loss (log 106), with no shut-down
pending. -/
def execVinRestart (s : State) : Out :=
  .next (s.when (s.blk.st == .shutdown && s.blk.shutCause == 2 && !s.blk.shutPending
      && decide (s.blk.vinLostAt + s.getN Obj.vin_restart_delay * 1000000 ≤ s.now))
    (((s.count Obj.vin_restart_count 32).fire 7 1).startDiscover))

end Sys2Proof.Machine
end

