-- ==== Sys2Proof/Machine/Thermal.lean ====
section
/-! DEFINITION. Temperatures: readings and their judgement (R327 to R335), bands, warning and refresh bands (R72, R338,
R351), throttle and recovery (R339 to R341), the trip and the restart (R342 to R349). Temperatures are in 0.125 °C. -/

namespace Sys2Proof.Machine

/-! ## Judging a diode (R331) -/

/-- R329, R331: −40.000 to +150.000 °C. -/
def inRange (v : Int) : Bool := decide (-320 ≤ v) && decide (v ≤ 1200)

/-- A diode that is valid has been read and carries no cause. -/
def Diode.valid (d : Diode) : Bool := d.has && d.cause == 0

/-- R331: 20 °C/ms × Δt + 0.500 °C, exactly, Δt in ns. -/
def rateWithin (old new : Int) (dt : Nat) : Bool := decide ((new - old).natAbs * 1000000 ≤ 160 * dt + 4000000)

/-- Latest readings of the thermal neighbours that satisfy a test. -/
def State.nearReadings (s : State) (r : Nat) (f : Diode → Bool) : List Int :=
  ((Config.thermal s.cfg r).filter fun n => f (s.diode n)).map fun n => (s.diode n).reading

/-- R331: the first cause that holds for a reading, 0 for none. -/
def State.diodeCause (s : State) (r : Nat) (v : Int) (parityOk : Bool) : Nat :=
  let d := s.diode r
  let near := s.nearReadings r Diode.valid
  let cross := !near.isEmpty && decide ((v - median near).natAbs > s.getN Obj.cross_limit)
  let rate := match d.good with
    | some (o, t) => !rateWithin o v (s.now - t)
    | none => false
  if !inRange v || !parityOk then 1
  else if cross then 2
  else if rate then 3
  else if (s.front (frontOf r)).failed then 4
  else if bit (s.getN Obj.diode_force) r then 5
  else 0

/-- R333: a declaration as suspect, recorded with the reason and the interrupt bit. -/
def State.declareDiode (s : State) (r cause : Nat) : State :=
  let s := (s.modDiode r fun d => { d with cause := cause, prob := 0 }).fire 11 cause (srcRegion r)
  (s.noteReason 4).orBits Obj.thermal_irq_status 4

/-- R332: entry into probation, recorded. -/
def State.probateDiode (s : State) (r : Nat) : State :=
  (s.modDiode r fun d => { d with cause := 7, prob := s.getN Obj.diode_probation }).fire 11 7 (srcRegion r)

/-- R331, R332: a reading is judged. -/
def State.judgeDiode (s : State) (r : Nat) (v : Int) (parityOk : Bool) : State :=
  let d := s.diode r
  let c := s.diodeCause r v parityOk
  if d.cause = 0 then if c = 0 then s else s.declareDiode r c
  else if d.cause = 7 then
    if c != 0 then s.declareDiode r c
    else if d.prob ≤ 1 then (s.modDiode r fun d => { d with cause := 0, prob := 0 }).fire 11 0 (srcRegion r)
    else s.modDiode r fun d => { d with prob := d.prob - 1 }
  else s

/-! ## Region temperatures (R335) -/

/-- R335; none before any diode has been read. -/
def State.regionTemp (s : State) (r : Nat) : Option Int :=
  let d := s.diode r
  let near := s.nearReadings r Diode.valid
  let all := (Config.regions s.cfg).map s.diode
  if d.valid then some d.reading
  else if !near.isEmpty then some (-(-(sumI near) / near.length))
  else
    let v := all.filter Diode.valid
    let l := if v.isEmpty then all.filter (·.has) else v
    (l.map (·.reading)).max?

/-- R72, R351: the lower boundaries of bands 1 to 3, and a band with hysteresis from a present one. -/
def bandRaw (b1 b2 b3 t : Int) : Nat := if t ≥ b3 then 3 else if t ≥ b2 then 2 else if t ≥ b1 then 1 else 0
def bandNext (b1 b2 b3 hyst t : Int) (now : Nat) : Nat :=
  let up := bandRaw b1 b2 b3 t
  let down := bandRaw b1 b2 b3 (t + hyst)
  if up ≥ now then up else min now down

/-- R72, R338, R351: a region temperature is updated with what it drives. The internal band stays B0 until the region's
own diode has been read. -/
def State.setTemp (s : State) (r : Nat) (t : Int) : State :=
  let d := s.diode r
  let g := s.used.g2
  let warn := if d.warn then decide (t ≥ g.warn - g.warnH) else decide (t ≥ g.warn)
  let first := warn && !(Config.regions s.cfg).any fun n => (s.diode n).warn
  let s := s.modDiode r fun d =>
    { d with
      temp := t, hasTemp := true, warn := warn
      band := if d.has then bandNext 320 600 761 (s.getN Obj.band_hyst) t d.band else 0
      tband := if d.hasTemp then bandNext 360 680 761 16 t d.tband else bandRaw 360 680 761 t }
  let s : State := if t ≥ g.thr - g.thrH then { s with therm := { s.therm with notCool := s.now } } else s
  if first then ((s.orBits Obj.thermal_irq_status 1).count Obj.warn_count 32).fire 10 2 (srcRegion r) else s

/-- R335: every region whose temperature depends on a completed reading: its own, and those whose diode is not valid. -/
def State.updateTemps (s : State) (r : Nat) : State :=
  overAll s ((Config.regions s.cfg).filter fun n => n == r || !(s.diode n).valid) fun s n =>
    match s.regionTemp n with
    | some t => s.setTemp n t
    | none => s

/-! ## Restart (R348) -/

/-- R348: the condition under which the restart timer counts. -/
def State.cooled (s : State) : Bool :=
  let all := (Config.regions s.cfg).map s.diode
  let v := all.filter Diode.valid
  (if v.isEmpty then all else v).all fun d => decide (d.reading ≤ s.used.g2.restart)

/-- The timer starts, goes on or returns to 0. -/
def State.restartTimer (s : State) : State :=
  if s.blk.st = .cooldown then
    { s with therm := { s.therm with coolAt := if s.cooled then some (s.therm.coolAt.getD s.now) else none } }
  else s

/-! ## Scan (R328, R329, R343) -/

/-- R328, R343: the calibration slots of front end `q` end at multiples of 100 µs plus 1,250·q ns; a confirmation that
begins at `now` takes away the next two that are not left out already. -/
def Front.leaveOut (f : Front) (q now : Nat) : Front :=
  { f with skip := 200000 + max f.skip ((now - 1250 * q) / 100000 * 100000 + 1250 * q) }

/-- A reading above shut-down starts a confirmation, or waits for the one in progress (R343). -/
def Front.confirm (f : Front) (q now r : Nat) : Front :=
  match f.conf with
  | none => { f.leaveOut q now with conf := some (r, []) }
  | some (d, _) => if d = r ∨ f.queue.contains r then f else { f with queue := f.queue ++ [r] }

/-- R344's test against the neighbours: a reading within 15 °C of the median of those that are trip-valid by their own
latest reading (log 19). -/
def State.tripCross (s : State) (r : Nat) (v : Int) : Bool :=
  let near := s.nearReadings r (·.tripOk)
  near.isEmpty || decide ((v - median near).natAbs ≤ 120)

/-- SCAN_READING: `value` is the result before the fused trim (R329). -/
def State.scanReading (s : State) (r : Nat) (value : Int) (parityOk : Bool) : State :=
  let d := s.diode r
  let v := value + d.trim
  let ok := inRange v && parityOk
  let trip := ok && s.tripCross r v && d.good.all fun p => rateWithin p.1 v (s.now - p.2)
  let s := s.takeGroup 2
  let s := s.judgeDiode r v parityOk
  let s := s.modDiode r fun d =>
    { d with reading := v, has := true, parity := !parityOk, tripOk := trip
             good := if ok then some (v, s.now) else d.good }
  let s := (s.updateTemps r).restartTimer
  if parityOk && decide (v > s.therm.shutdown) then s.modFront (frontOf r) fun f => f.confirm (frontOf r) s.now r else s

def execScanReading (r : Nat) (value : Int) (parityOk : Bool) (s : State) : Out :=
  onRegion s r (s.when s.blk.st.scans (s.scanReading r value parityOk))

/-- CALIBRATION_SLOT (R330): two failures in a row fail the front end; its diodes are declared together. A slot that the
front end leaves out measures nothing (R343). -/
def State.calibration (s : State) (q : Nat) (value : Int) : State :=
  let f := s.front q
  if f.failed || decide (s.now ≤ f.skip) then s
  else if (value - f.ref).natAbs ≤ 24 then s.modFront q fun f => { f with calBad := 0 }
  else if f.calBad = 0 then s.modFront q fun f => { f with calBad := 1 }
  else
    let s := s.modFront q fun f => { f with calBad := 2, failed := true }
    let s := overAll s ((Config.regions s.cfg).filter fun r => frontOf r == q) fun s r =>
      s.modDiode r fun d => { d with cause := 4, prob := 0 }
    (((s.fire 11 4 (srcFront q)).noteReason 4).orBits Obj.thermal_irq_status 4).restartTimer

def execCalibrationSlot (q : Nat) (value : Int) (s : State) : Out :=
  within s 4 q (s.when s.blk.st.scans (s.calibration q value))

/-! ## The trip (R342 to R346, R349) -/

/-- R345. -/
def State.corroborated (s : State) (d : Nat) : Bool :=
  ((Config.thermal s.cfg d).any fun n => (s.diode n).tripOk && decide ((s.diode n).reading > s.therm.shutdown - 120))
    || (Config.regions s.cfg).any fun n => n != d && (s.diode n).tripOk && decide ((s.diode n).reading > s.therm.shutdown)

/-- R342, R543: TEST_MODE is high with the trip-disable bit set. -/
def State.tripDisabled (s : State) : Bool := s.clk.testMode && bit s.clk.ctrl 0

/-- TRIP (R346, R348 to R350). -/
def State.trip (s : State) (d : Nat) : State :=
  if s.blk.st = .cooldown then s.fire 9 2 (srcRegion d)
  else
    let hist := (s.now :: s.therm.trips).take 3
    let third := hist[2]?.any fun t => decide (s.now - t ≤ 3600000000000)
    let s := s.haltAll.allEnLow.railsOff
    let s := (s.count Obj.trip_count 32).set Obj.trip_last_diode d
    let s : State := { s with therm := { s.therm with trips := hist, coolAt := none } }
    let s := s.modBlk fun b =>
      { b with tripN := true, irqSafety := true, downLeft := [], downBegun := false
               haltLimit := b.haltLimit || (third && b.st != .halted) }
    if s.blk.st = .halted then s.fire 9 2 (srcRegion d)
    else if third then ((s.fire 9 1 (srcRegion d)).enter .halted).setReason 8
    else ((s.fire 9 0 (srcRegion d)).enter .cooldown).restartTimer

/-- The next confirmation of front end `q`. -/
def Front.nextConf (f : Front) (q now : Nat) : Front :=
  match f.queue with
  | d :: l => { f.leaveOut q now with conf := some (d, []), queue := l }
  | [] => { f with conf := none }

/-- CONFIRMATION_READ (R343, R345): after the second read the diode is held or not, and the trip is decided. -/
def State.confirmationRead (s : State) (q : Nat) (value : Int) (parityOk : Bool) : State :=
  match (s.front q).conf with
  | none => s
  | some (d, l) =>
    let ok := parityOk && decide (value + (s.diode d).trim > s.therm.shutdown)
    if l.isEmpty then s.modFront q fun f => { f with conf := some (d, [ok]) }
    else
      let s := s.modFront q fun f => f.nextConf q s.now
      s.when (l.all id && ok && s.corroborated d && !s.tripDisabled) (s.trip d)

def execConfirmationRead (q : Nat) (value : Int) (parityOk : Bool) (s : State) : Out :=
  within s 4 q (s.when s.blk.st.scans (s.confirmationRead q value parityOk))

/-- RESTART_TIMER_EXPIRY (R348, R419): THERM_TRIP_N is released and the block enters DISCOVER. -/
def execRestartTimerExpiry (s : State) : Out :=
  .next (match s.blk.st, s.therm.coolAt with
    | .cooldown, some t =>
      s.when (decide (t + 1000000000 ≤ s.now))
        (let s : State := { s with therm := { s.therm with coolAt := none } }
         ((s.modBlk fun b => { b with tripN := false, irqSafety := false }).count Obj.trip_restart_count 32).startDiscover)
    | _, _ => s)

/-! ## Throttle and recovery (R339 to R341) -/

/-- THERMAL_DECISION: a throttle step when some region is hot. `thermal_step` is in 0.1%. -/
def State.thermalDecision (s : State) : State :=
  let s := s.takeThrottle
  let hot := (Config.regions s.cfg).filter fun r => (s.diode r).hasTemp && decide ((s.diode r).temp ≥ s.used.g2t.thr)
  match hot with
  | [] => s
  | r0 :: _ =>
    let n := s.therm.n
    let s : State := { s with therm := { s.therm with n := if n * s.used.g3.step ≥ 1000 then n else n + 1 } }
    let s := overAll s hot fun s r =>
      let l := min (s.region r).sup.limit (s.region r).fret.fret - 1
      (s.modSup r fun u => { u with limit := l }).lowerCapo r l
    let s := (s.count Obj.throttle_step_count 32).orBits Obj.thermal_irq_status 2
    ((s.fire 10 0 (srcRegion r0)).resetRecovery).abandonFrets

def execThermalDecision (s : State) : Out := .next (s.when s.runs s.thermalDecision)

/-- RECOVERY_STEP (R340). -/
def execRecoveryStep (s : State) : Out :=
  .next (s.when (s.runs && decide (s.therm.notCool + 2000000 ≤ s.now))
    { s with
      therm := { s.therm with n := s.therm.n - 1 }
      regions := s.regions.map fun x => { x with sup := { x.sup with limit := min 15 (x.sup.limit + 1) } } })

/-! ## Host writes (R332, R352) -/

/-- `diode_clear`: each suspect diode that is not forced, on a front end that has not failed, enters probation. -/
def State.diodeClear (s : State) (mask : Nat) : State :=
  overAll s ((Config.regions s.cfg).filter fun r => bit mask r) fun s r =>
    let d := s.diode r
    if d.cause != 0 && d.cause != 7 && !bit (s.getN Obj.diode_force) r && !(s.front (frontOf r)).failed then
      s.probateDiode r
    else s

/-- `diode_force`: a new bit makes a diode suspect with cause HOST; a cleared bit releases it into probation. -/
def State.diodeForce (s : State) (mask : Nat) : State :=
  let old := s.getN Obj.diode_force
  let s := s.set Obj.diode_force mask
  let s := overAll s (Config.regions s.cfg) fun s r =>
    let d := s.diode r
    if bit mask r && !bit old r then if d.cause = 0 ∨ d.cause = 7 then s.declareDiode r 5 else s
    else if !bit mask r && bit old r && !(s.front (frontOf r)).failed then s.probateDiode r
    else s
  s.restartTimer

end Sys2Proof.Machine
end

