-- ==== Sys2Proof/Machine/Conv.lean ====
section
/-! DEFINITION. The measurement converters (R353 to R384): sequence tables, FIRE mode, SYNC captures, urgent
conversions, converter failure, the slope test's readings (R137), the findings of R136, the board-analog converter and
the integrating energy converter. -/

namespace Sys2Proof.Machine

/-! ## Sweeps (R359, R361) -/

/-- Table A starts a sweep from its staged copy (R359); none where no entry of it is connected. -/
def Conv.startA (c : Conv) (cfg : Config) (n now : Nat) : Option Conv :=
  (Config.entryFrom cfg n c.sa c.saLen 0).map fun k =>
    ({ c with a := c.sa, aLen := c.saLen, inB := false, idx := k, resampled := false, toA := false } : Conv).track now

/-- R361, R373: the entry after the present one, at full speed or in low power. -/
def Conv.advance (c : Conv) (cfg : Config) (n now : Nat) (full : Bool) : Conv :=
  let c : Conv := { c with resampled := false }
  let next := Config.entryFrom cfg n (if c.inB then c.b else c.a) (if c.inB then c.bLen else c.aLen) (c.idx + 1)
  let orElse (x y : Option Conv) : Conv := (x.orElse fun _ => y).getD (c.track now)
  if !full then
    match c.inB, next with
    | true, some k => ({ c with idx := k } : Conv).track now
    | _, _ => orElse (c.startB cfg n now) none
  else if c.inB then
    match c.toA, next with
    | false, some k => ({ c with idx := k } : Conv).track now
    | _, _ => orElse (c.startA cfg n now) (c.startB cfg n now)
  else match next with
    | some k => ({ c with idx := k } : Conv).track now
    | none =>
      let d : Conv := { c with sinceB := c.sinceB + 1 }
      if d.sinceB ≥ 64 then orElse (d.startB cfg n now) (({ d with sinceB := 0 } : Conv).startA cfg n now)
      else orElse (d.startA cfg n now) none

/-! ## Modes (R373) -/

/-- Conversions at full speed, and table B alone. -/
def State.convFull (s : State) : Bool := s.blk.st.full && s.blk.fullSpeed
def State.convRuns (s : State) : Bool := s.blk.st.lowPower || s.blk.st.full

/-! ## What a conversion waits for (R362, R363, R369) -/

/-- The string whose strobe holds the conversion in progress, if it waits for one: an IMON of table A in FIRE mode, or
an urgent conversion on an edge. A string that was not in rotation when a FIRE-mode entry armed, or has left it since,
strobes none. -/
def State.strobeString (s : State) (n : Nat) : Option Nat :=
  let c := s.conv n
  match c.urgent with
  | some u => if u.mode = 1 ∨ u.mode = 2 then some (16 * n + u.input) else none
  | none =>
    let i := 16 * n + entryInput c.entry
    if c.sync || c.inB || !s.convFull || c.held.isSome || c.unarmed || 16 ≤ entryInput c.entry then none
    else if s.inRotation (regionOf i) (positionOf i) then some i
    else none

/-- Whether the entry in progress is an IMON entry of table A in FIRE mode. -/
def State.fireEntry (s : State) (n : Nat) : Bool :=
  let c := s.conv n
  c.urgent.isNone && !c.sync && !c.inB && decide (entryInput c.entry < 16)

/-- The sampling time of the conversion in progress. -/
def Conv.ts (c : Conv) : Nat :=
  match c.urgent with
  | some u => u.ts
  | none => entryTs c.entry
def Conv.gain (c : Conv) : Nat :=
  match c.urgent with
  | some u => 2 ^ u.gain
  | none => entryGain c.entry

/-- R353, R376: the attenuation of an input, and the input that the conversion in progress takes. -/
def inputAtt (i : Nat) : Nat := if i = 16 ∨ i = 17 then 2 else if i = 18 then 8 else 1
def Conv.input (c : Conv) : Nat :=
  match c.urgent with
  | some u => u.input
  | none => entryInput c.entry

/-- R355: the code of an input voltage in nV at an attenuation and a gain, corrected with the fused gain in 2⁻¹² and
then the fused offset in LSB (R538, log 95). -/
def codeOf (att gain : Nat) (off trim nv : Int) : Nat :=
  let raw := clampI 0 4095 (nv * (4096 * gain : Nat) / (1200000000 * att : Nat))
  (clampI 0 4095 (roundUp (raw * (4096 + trim)) 4096 + off)).toNat

/-- The code that a conversion of the entry in progress gives. -/
def Conv.codeOf (c : Conv) (nv : Int) : Nat := Machine.codeOf (inputAtt c.input) c.gain c.trimOff c.trimGain nv

/-- An edge in 250 ps that comes at least the sampling time after the arming. -/
def Conv.settledAt (c : Conv) (q : Nat) : Bool := decide (c.armedAt * 32 + c.ts * 125 ≤ q * 8)

/-- R362: the hold instant in a pulse, in 250 ps. -/
def State.strobeAt (s : State) (p : Pulse) : Nat :=
  (p.riseQ + roundUp ((p.fallQ - p.riseQ) * s.getN Obj.fire_sample_pos : Nat) 256 + s.get Obj.fire_sample_adj).toNat

/-- R362, R369: the instant in 250 ps at which a string's last pulse holds the conversion that waits for it: within an
ordinary pulse with m = 1 for a FIRE-mode entry, an edge of any pulse for an urgent one. -/
def State.holdAt (s : State) (c : Conv) (x : Str) : Option Nat :=
  match c.urgent with
  | none => (x.last.filter fun p => p.kind == .ordinary && c.settledAt p.riseQ).map s.strobeAt
  | some u => if u.mode = 1 then (x.last.map (·.riseQ)).filter c.settledAt else x.offEnd.filter c.settledAt

/-- FIRE_STROBE (R362, R369): the hold instant has come. -/
def execFireStrobe (n : Nat) (s : State) : Out :=
  onConv s n (match s.strobeString n with
    | none => s
    | some i =>
      let c := s.conv n
      match s.holdAt c (s.str i) with
      | some q => s.when (c.held.isNone && decide (q < 4 * (s.now + 1))) (s.modConv n fun c => { c with held := some q })
      | none => s)

/-- FIRE_WAIT_TIMEOUT (R363). -/
def execFireWaitTimeout (n : Nat) (s : State) : Out :=
  onConv s n (
    let c := s.conv n
    s.when ((s.strobeString n).isSome && c.held.isNone && cyclesPassed (s.now - c.armedAt) (s.getN Obj.fire_wait))
      (s.modConv n fun c => { c with held := some (4 * s.now), timed := true }))

/-- R363: an entry that begins to track arms a strobe where its string is in rotation. -/
def State.arm (s : State) (n : Nat) : State :=
  s.modConv n fun c =>
    let i := 16 * n + entryInput c.entry
    { c with unarmed := s.fireEntry n && !s.inRotation (regionOf i) (positionOf i) }

/-- R374: a converter fails, by its reference, a time-out or parity. -/
def State.convFailParity (s : State) (n : Nat) : State :=
  if (s.conv n).failed then s else s.parityError.failConverter n

/-! ## What a result does (R134 to R137, R364, R368) -/

/-- R128, R134, R484: the corrected current of an IMON code at a gain, in 10 mA; the offset is in 1 mA. The image of R538
holds no string correction of its own, so the fused one is the identity (log 20). -/
def Str.currentOf (x : Str) (code gain : Nat) : Int :=
  let num : Int := 75 * code - 51200 * gain
  if x.useRefine then
    roundUp (10 * num * (32768 + x.useGain) + x.useOffset * (256 * gain * 32768 : Nat)) (10 * (256 * gain * 32768))
  else roundUp num (256 * gain)

/-- R487: an installed correction applies from a cycle 0 on. -/
def Str.takeCorrection (x : Str) : Str := { x with useRefine := x.refine, useGain := x.gain, useOffset := x.offset }

/-- R136: RANGE, below 0.150 V or from 1.195 V on. -/
def codeOutside (code gain : Nat) : Bool := decide (code < 512 * gain) || decide (code * 1200 ≥ 1195 * 4096 * gain)

/-- R136, R141, R411: the runs of RANGE and STUCK take a code. The tests run in RUN and SERVICE, on strings that are
ACTIVE or RETURNING. -/
def State.senseRuns (s : State) (i code gain : Nat) : State :=
  let long := decide (16 ≤ s.onTime (regionOf i) i 20)
  let limit := s.getN Obj.sense_stuck_samples
  if !s.runs || !((s.str i).st == .active || (s.str i).st == .returning) then s.modStr i Str.resetSense
  else s.modStr i fun x =>
    let rr := if codeOutside code gain then x.rangeRun + 1 else 0
    let sr := if !long then 0 else if x.lastCode = some code then x.stuckRun + 1 else 1
    { x with rangeRun := rr, stuckRun := sr, lastCode := some code
             finding := if rr ≥ 4 then 1 else if sr ≥ limit ∧ x.finding = 0 then 2 else x.finding }

/-- R131: on a lost lane with CRS_FLT_N low, a low reading of a string in rotation counts as a hiccup. -/
def State.lostLaneReading (s : State) (i : Nat) : State :=
  let c := s.course (courseOf i)
  let x := s.str i
  if c.lost && c.flt && x.st.rotates && decide (x.conv < s.get Obj.open_level) then s.hiccupReport i else s

/-- A FIRE-mode conversion of string `i` (R134, R135, R364). -/
def State.imonResult (s : State) (i code gain : Nat) : State :=
  let v := (s.str i).currentOf code gain
  let low := decide (v < s.get Obj.open_level)
  let s := s.modStr i fun x =>
    let x := { x with conv := v, convN := min 255 (x.convN + 1), sum := x.sum + v, cnt := x.cnt + 1 }
    if low then { x with openLow := min 255 (x.openLow + 1) }
    else
      let x := x.zeroOpen
      match x.test with
      | some t => if t.finding = 0 then { x with test := none } else x
      | none => x
  (s.senseRuns i code gain).lostLaneReading i

/-- R67, R355: the VIN tap in mV. -/
def vinOfCode (code gain : Nat) : Nat := (roundUp (75 * code : Nat) (32 * gain)).toNat

/-- R374: a check-reference conversion; readings outside the tolerance in two consecutive sweeps fail the converter. -/
def State.refResult (s : State) (n code : Nat) : State :=
  let c := s.conv n
  if c.failed || decide (((code : Int) - c.refFused).natAbs ≤ s.getN Obj.ref_tolerance) then s
  else if c.refBad then s.failConverter n
  else s.modConv n fun c => { c with refOff := true }

/-- The result of a scheduled entry that is not an IMON in FIRE mode. -/
def State.otherResult (s : State) (n word code gain input : Nat) : State :=
  if input = 16 ∨ input = 17 then s.modConv n fun c => { c with tmon := c.tmon.set (input - 16) word }
  else if input = 18 then s.modConv n fun c => { c with vinTap := some (vinOfCode code gain) }
  else if input = 19 ∧ (s.conv n).inB then s.refResult n code
  else s

/-- R137: the next conversion that the slope test of a string asks for. -/
def State.askSlope (s : State) (i : Nat) : State :=
  match (s.str i).test with
  | some t =>
    if t.slope.isNone && t.pairs < 16 then
      s.askUrgent (i / 16)
        { input := i % 16, ts := 4, gain := 0, mode := if t.pairs % 2 = 0 then 1 else 2, owner := some i, slope := true }
    else s
  | none => s

/-- R137: a reading of the slope test. -/
def State.slopeReading (s : State) (i code : Nat) : State :=
  let v := (s.str i).currentOf code 1
  (s.modStr i fun x => { x with test := x.test.map fun t =>
    { t with pairs := t.pairs + 1, rise := if t.pairs % 2 = 0 then t.rise - v else t.rise + v } }).askSlope i

/-- An urgent result (R369, R370). In low power a supervisor requester receives nothing (R373). -/
def State.urgentResult (s : State) (n : Nat) (u : Urgent) (word code : Nat) (use : Bool) : State :=
  let s := s.count Obj.urgent_count 32
  match u.owner with
  | none => s.modConv n fun c => { c with urgRes := word }
  | some i =>
    if !use then s
    else if u.slope then s.slopeReading i code
    else s.senseRuns i code (2 ^ u.gain)

/-- The conversion after an urgent one: the next request, or the interrupted entry again (R371, R372). In low power
table A is not taken up again (R373). -/
def Conv.afterUrgent (c : Conv) (cfg : Config) (n now : Nat) (full : Bool) : Conv :=
  match c.queue with
  | u :: q => ({ c with urgent := some u, queue := q } : Conv).track now
  | [] =>
    if full || c.inB then ({ c with urgent := none, resampled := true, late := c.sync } : Conv).track now
    else ({ c with urgent := none } : Conv).advance cfg n now false

/-! ## SYNC captures (R365 to R367) -/

/-- R366: T_s of entry `k`: the largest among the converters that take part. -/
def State.slotTs (s : State) (k : Nat) : Nat :=
  maxN ((Config.convs s.cfg).map fun n =>
    let c := s.conv n
    if c.sync && decide (k < c.aLen) then entryTs (c.a.getD k 0) else 0)

/-- R366: cycles from the trigger to the hold of entry `k`. -/
def State.holdCycles (s : State) (k : Nat) : Nat :=
  sumN ((List.range k).map fun j => s.slotTs j + 12) + s.slotTs k

/-- R366, R371: nanoseconds from the trigger to the common instant of the entry in progress, and to the earliest hold
that an interrupted converter can reach. -/
def State.commonHold (s : State) (n : Nat) : Nat := s.holdCycles (s.conv n).idx * 1000 / 256
def State.reachHold (s : State) (n : Nat) : Nat :=
  (s.conv n).armedAt - s.cg.trigAt + ceilDiv (entryTs (s.conv n).entry * 1000) 256

/-- R371: an entry of an interrupted sweep that misses its common instant. -/
def State.missed (s : State) (n : Nat) : Bool := (s.conv n).late && decide (s.commonHold n < s.reachHold n)

/-- R374: 128 island cycles have passed since the hold of the conversion in progress. A converter that has ended its
part of a sweep converts nothing. -/
def State.holdLate (s : State) (n : Nat) : Bool :=
  let c := s.conv n
  match c.held with
  | some q => decide (q * 8 + 128 * 125 ≤ s.now * 32)
  | none =>
    if c.urgent.isNone && c.sync then
      decide (c.idx < 16) && cyclesPassed
        (s.now - (s.cg.trigAt + (if c.late then max (s.commonHold n) (s.reachHold n) else s.commonHold n))) 128
    else (s.strobeString n).isNone && cyclesPassed (s.now - c.armedAt) (c.ts + 128)

/-- CONVERSION_TIMEOUT (R374). -/
def execConversionTimeout (n : Nat) (s : State) : Out :=
  onConv s n (s.when (s.convRuns && s.holdLate n) (s.failConverter n))

/-- R475: the request counts of channel 4 that stand for a sweep: set to `n`. -/
def State.setSweepCount (s : State) (f : Nat → Nat) : State :=
  s.modDmaCh 4 fun c => { c with reqs := c.reqs.modify 1 f }

/-- R367, R475, R476: a sweep has ended on every converter. One that channel 4 has begun is kept; one that completes
while channel 4 still reads the sweep before is dropped with its counts; one that finds an unread sweep replaces it,
and the counts of that sweep are withdrawn. -/
def State.sweepEnds (s : State) : State :=
  let n := s.cg.doneGroups.length
  if s.cg.live then { s with cg := { s.cg with capture := s.cg.words, live := false } }
  else if s.cg.reading then (s.count Obj.sync_dropped 32).setSweepCount (· - n)
  else
    let s := if s.cg.unread then (s.count Obj.sync_dropped 32).setSweepCount (min n) else s
    { s with cg := { s.cg with capture := s.cg.words, unread := true } }

/-- R365, R380: the capture ends after its last sweep; a table B that the capture cut short is taken in full, and
FIRE-mode sweeps resume at the start of table A. -/
def State.captureStep (s : State) : State :=
  let left := s.cg.left - 1
  { s with
    cg := { s.cg with running := false, left := left, arm := if left = 0 then 0 else s.cg.arm }
    convs := s.convs.zipIdx.map fun (c, n) =>
      let d : Conv := { c with sync := false, late := false }
      let owed := if left = 0 ∧ 64 ≤ d.sinceB then d.startB s.cfg n s.now else none
      let d := if c.sync then (owed.orElse fun _ => d.startA s.cfg n s.now).getD d else d
      let i := 16 * n + entryInput d.entry
      if c.sync then { d with unarmed := !d.inB && decide (entryInput d.entry < 16) && !s.inRotation (regionOf i) (positionOf i) }
      else d }

/-- A converter has finished its sweep: its group, and with the last group the sweep. -/
def State.convSwept (s : State) (n : Nat) : State :=
  let busy (m : Nat) : Bool := (s.conv m).sync && decide ((s.conv m).idx < 16)
  let group := (Config.convs s.cfg).filter fun m => m / 10 == n / 10
  let s := if group.any busy || s.cg.doneGroups.contains (n / 10) then s
    else
      let s : State := { s with cg := { s.cg with doneGroups := s.cg.doneGroups ++ [n / 10] } }
      s.raiseReq 1 1 fun ch => ch == 4
  if (Config.convs s.cfg).any busy then s else (s.sweepEnds).captureStep

/-- A SYNC result goes to the capture buffer alone. Index 16 marks a finished sweep. -/
def State.syncResult (s : State) (n word : Nat) : State :=
  let c := s.conv n
  let s : State := { s with cg := { s.cg with words := s.cg.words.set (16 * n + c.idx) word } }
  match Config.entryFrom s.cfg n c.a c.aLen (c.idx + 1) with
  | some k => s.modConv n fun c => ({ c with idx := k, resampled := false } : Conv).track s.now
  | none => (s.modConv n fun c => { c with idx := 16 }).convSwept n

/-! ## CONVERSION_RESULT -/

/-- A scheduled result is written and used; the sequence goes on. -/
def State.scheduledResult (s : State) (n word code : Nat) (use timed : Bool) : State :=
  let c := s.conv n
  let input := entryInput c.entry
  let gain := entryGain c.entry
  let i := 16 * n + input
  let s := s.modConv n fun c =>
    if c.inB then { c with resB := c.resB.set c.idx word } else { c with resA := c.resA.set c.idx word }
  let s :=
    if !use then s
    else if input < 16 then if c.inB || timed then s else s.imonResult i code gain
    else s.otherResult n word code gain input
  let ended := !c.inB && (Config.entryFrom s.cfg n c.a c.aLen (c.idx + 1)).isNone
  let s := if ended && s.convFull then s.count (Obj.conv_sweeps n) 32 else s
  s.modConv n fun c => c.advance s.cfg n s.now s.convFull

/-- One result (R355, R360, R363, R368, R374) of an input voltage. A result that reaches the supervisor with a parity
error is not used (log 21). -/
def State.conversionResult (s : State) (n : Nat) (nv : Int) (parityOk : Bool) : State :=
  let s := if parityOk then s.modConv n fun c => { c with parBad := 0 }
    else
      let s := s.modConv n fun c => { c with parBad := c.parBad + 1 }
      if (s.conv n).parBad ≥ 4 then s.convFailParity n else s
  let c := s.conv n
  let code := if c.failed then 0 else c.codeOf nv
  let timed := c.timed || (s.fireEntry n && s.convFull && c.held.isNone)
  let resampled := c.urgent.isNone && (c.resampled || (c.sync && s.missed n))
  let word := code + 4096 * b2n c.urgent.isSome + 8192 * b2n timed + 16384 * b2n resampled + 32768 * b2n c.failed
  let s := if timed then s.count (Obj.conv_timed n) 32 else s
  let s := if resampled then s.count (Obj.conv_resampled n) 32 else s
  let use := parityOk && (s.convFull || c.inB)
  match c.urgent with
  | some u =>
    ((s.urgentResult n u word code (parityOk && s.convFull)).modConv n fun c =>
      c.afterUrgent s.cfg n s.now s.convFull).arm n
  | none => if c.sync then s.syncResult n word else (s.scheduledResult n word code use timed).arm n

/-- A conversion is in progress that waits for no strobe. -/
def State.converts (s : State) (n : Nat) : Bool :=
  let c := s.conv n
  let waits := c.held.isNone && (s.strobeString n).isSome
  let idle := c.urgent.isNone && c.sync && decide (c.idx ≥ 16)
  s.convRuns && !waits && !idle

/-! ## The slope test -/

/-- SLOPE_TEST_END (R137): after 8 pairs; `slope_min` is in percent. -/
def execSlopeTestEnd (i : Nat) (s : State) : Out :=
  onString s i (match (s.str i).test with
    | some t =>
      s.when (t.pairs ≥ 16 && t.slope.isNone)
        (s.modStr i fun x => { x with test := some { t with
          slope := some (decide (t.rise * 100 * t.dL ≥ 8 * s.getN Obj.slope_min * t.dI)) } })
    | none => s)

/-- At a latch: a test begun by a low reading asks for its next conversion where none is under way (R137, R372). -/
def State.latchSlope (s : State) (i : Nat) : State :=
  match (s.str i).test with
  | some t =>
    let c := s.conv (i / 16)
    let mine (u : Urgent) : Bool := u.slope && u.owner == some i
    if t.finding != 0 || c.coming.any mine || c.queue.any mine || c.urgent.any mine then s else s.askSlope i
  | none => s

/-- R372: refused supervisor requests set out again at a latch. -/
def State.latchRetry (s : State) : State :=
  let l := s.cg.retry
  overAll { s with cg := { s.cg with retry := [] } } l fun s (n, u) => s.askUrgent n u

/-! ## Urgent requests (R369 to R372) -/

/-- R369: a host request, or ACCESS. -/
def State.hostUrgent (s : State) (n v : Nat) : Ans :=
  let input := min 19 (v % 32)
  let mode := v / 65536 % 4
  if !Config.connected s.cfg n input || mode = 3 || ((mode = 1 || mode = 2) && 16 ≤ input) then (abortAccess, s)
  else (0, s.askUrgent n { input, ts := clampN 4 64 (v / 128 % 128), gain := v / 16384 % 4, mode })

/-- URGENT_REQUEST: the request stops the running conversion, queues, or is refused when 8 wait. Urgent conversions
run at full speed alone (R373); in low power a request is refused (log 22). -/
def State.urgentArrives (s : State) (n : Nat) : State :=
  match (s.conv n).coming with
  | [] => s
  | u :: rest =>
    let s := s.modConv n fun c => { c with coming := rest }
    let c := s.conv n
    if !s.convFull then s.count Obj.urgent_refused 32
    else if c.urgent.isNone then s.modConv n fun c => ({ c with urgent := some u } : Conv).track s.now
    else if c.queue.length ≥ 8 then
      let s := s.count Obj.urgent_refused 32
      if u.owner.isSome && !u.slope then { s with cg := { s.cg with retry := s.cg.retry ++ [(n, u)] } } else s
    else s.modConv n fun c => { c with queue := c.queue ++ [u] }

def execUrgentRequest (n : Nat) (s : State) : Out := onConv s n (s.urgentArrives n)

/-! ## Captures -/

/-- `sync_arm` (R365, R382): 1 single, 2 `sync_sweeps` sweeps, 0 cancel. -/
def State.syncArm (s : State) (v : Nat) : State :=
  if v = 0 then
    let t : State := { s with cg := { s.cg with left := 1 } }
    if s.cg.running then t.captureStep else { s with cg := { s.cg with arm := 0, left := 0, trigs := [] } }
  else
    { s with cg := { s.cg with arm := v, left := if v = 1 then 1 else s.getN Obj.sync_sweeps, trigs := [] } }

/-- R365, R366: a trigger lies at the present instant, to ±4 ns: `sync_delay` after an engine cycle 0, or after a FIRE
edge of `sync_string`. Cycles 0 fall on the block-time multiples of 1,000 ns (R546) while the engine runs. -/
def State.triggerDue (s : State) : Bool :=
  if s.getN Obj.sync_source = 0 then
    let late := (s.now + 66000 - s.getN Obj.sync_delay) % 1000
    s.engineOn && decide (late ≤ 4 ∨ 996 ≤ late)
  else s.cg.trigs.any fun q => decide (q ≤ 4 * s.now + 16 ∧ 4 * s.now ≤ q + 16)

/-- The trigger instants of `sync_string` that are past or present are used up. -/
def State.useTriggers (s : State) : State :=
  { s with cg := { s.cg with trigs := s.cg.trigs.filter fun q => decide (4 * s.now + 16 < q) } }

/-- R365, R366, R380: a sweep starts on every populated converter; one with an urgent conversion completes that and
joins late, and a table B cut short is owed. A trigger during a sweep is counted. -/
def State.syncTrigger (s : State) : State :=
  if s.cg.arm = 0 || !s.convFull then s
  else if s.cg.running then s.count Obj.sync_missed 32
  else
    { s with
      cg := { s.cg with running := true, trigAt := s.now, words := List.replicate 1120 0, doneGroups := [] }
      convs := s.convs.zipIdx.map fun (c, n) =>
        if !Config.popConv s.cfg n then c
        else
          let d := (c.startA s.cfg n s.now).getD { c with idx := 16 }
          let d := if c.urgent.isSome then { d with armedAt := c.armedAt, held := c.held, timed := c.timed } else d
          { d with
            sync := true, late := c.urgent.isSome, resampled := c.urgent.isSome
            sinceB := if c.inB then 64 else d.sinceB
            refOff := if c.inB then c.refBad else d.refOff } }

/-- SYNC_TRIGGER (R365). -/
def execSyncTrigger (s : State) : Out := .next (s.when s.triggerDue s.syncTrigger.useTriggers)

/-! ## Tables (R357, R359) -/

/-- A write of a table lands in the staged copy, each word clamped; of a length, clamped to 1 to 16. -/
def State.convTableSet (s : State) (n : Nat) (t : TableObj) (data : List Byte) : State :=
  let words := (List.range 16).map fun k => entryClamp (fieldAt data (2 * k) 2)
  let len := clampN 1 16 (data.getD 0 0)
  s.modConv n fun c => match t with
    | .a => { c with sa := words }
    | .aLen => { c with saLen := len }
    | .b => { c with sb := words }
    | .bLen => { c with sbLen := len }

/-- FULL_SPEED_START (R373): 4.0 µs after the order. The table B conversion in progress is finished first. -/
def execFullSpeedStart (s : State) : Out :=
  .next (match s.blk.fullAt with
    | some t =>
      if s.blk.st.full && decide (t ≤ s.now) then
        { (s.modBlk fun b => { b with fullSpeed := true, fullAt := none }) with
          convs := s.convs.map fun c => { c with toA := true } }
      else s
    | none => s)

/-! ## The board-analog converter (R376) -/

def State.baFail (s : State) : State := s.failConverter 70

/-- R376: the attenuation of an input. -/
def baAtt : BaInput → Nat
  | .vin => 8
  | .trim | .ref => 1

/-- A code of the board-analog converter, at full speed or in low power (R373): VIN in mV with its mean per control
period, TRIM_IN with the losses of R190, the reference. -/
def State.boardAnalog (s : State) (i : BaInput) (code : Nat) : State :=
  match i with
  | .vin =>
    let v := vinOfCode code 1
    let k := b2n (s.engineOn && s.convFull)
    { s with cg := { s.cg with vinSum := s.cg.vinSum + k * v, vinCnt := s.cg.vinCnt + k, vinLast := v } }
  | .trim =>
    let bad := code = 0 ∨ code = 4095 ∨ s.cg.baFailed
    let s : State := { s with cg := { s.cg with trimCode := code } }
    if bad then { s with eng := { s.eng with baBad := s.eng.baBad + 1 } }
    else { s with eng := { s.eng with baBad := 0 } }
  | .ref =>
    let s : State := { s with cg := { s.cg with refCode := code } }
    if s.cg.baFailed then s
    else if ((code : Int) - s.cg.baRef).natAbs ≤ s.getN Obj.ref_tolerance then { s with cg := { s.cg with baBad := 0 } }
    else if s.cg.baBad = 0 then { s with cg := { s.cg with baBad := 1 } }
    else s.baFail

/-- R374, R376: a conversion of the board-analog converter: an input voltage with its parity, or none where it has not
completed within 128 island cycles. A result with a parity error is not used (log 21). -/
def State.boardResult (s : State) (i : BaInput) (res : Option (Int × Bool)) : State :=
  match res with
  | none => s.baFail
  | some (_, false) =>
    let s : State := { s with cg := { s.cg with baPar := s.cg.baPar + 1 } }
    if s.cg.baPar < 4 || s.cg.baFailed then s else s.parityError.baFail
  | some (nv, true) =>
    let s : State := { s with cg := { s.cg with baPar := 0 } }
    s.boardAnalog i (if s.cg.baFailed then 0 else codeOf (baAtt i) 1 s.cg.baOff s.cg.baGain nv)

/-! ## The integrating energy converter (R377, R378) -/

/-- ENERGY_QUARTER: `vs` is the integral of the shunt voltage over the quarter in 10⁻¹⁵ V·s, at full scale ±80 mV ×
250 ns = ±20,000,000 of them. Charge is counted in pC, energy in fJ; both remainders are carried. -/
def State.energyQuarter (s : State) (vs0 : Int) : State :=
  let vs := clampI (-20000000) 20000000 vs0
  let beyond := vs != vs0
  let shunt := s.getN Obj.iin_shunt
  let q := vs * 10000 + s.cap.chargeRem
  let pc := q / shunt
  let pj := pc * s.cg.vinLast
  let total := s.cap.pcRem + pc
  let s := if beyond then s.count Obj.iin_overrange 32 else s
  let s := s.set Obj.iin_charge ((s.get Obj.iin_charge + total / 1000000) % (2 ^ 32 : Nat))
  { s with cap := { s.cap with
      chargeRem := q % shunt, inFj := s.cap.inFj + pj, inPc := s.cap.inPc + pc, pcRem := total % 1000000
      overRange := s.cap.overRange || beyond } }

def execEnergyQuarter (vs : Int) (s : State) : Out :=
  .next (s.when (s.cfg.hasIin && s.convRuns) (s.energyQuarter vs))

end Sys2Proof.Machine
end

