-- ==== Sys2Proof/Machine/Hints.lean ====
section
/-! DEFINITION. The hint scoreboard (R262 to R277): taking a hint, entries and merging, preparation times and pre-bump
requests, retirement, parity, the static class table, the learned droop (R292), and coverage. -/

namespace Sys2Proof.Machine

/-! ## The static class table (R267, R273) and what is confident (R289) -/

/-- Key of a learner cell. -/
def cellKey (r c : Nat) : Nat := 32 * r + c
def State.cell (s : State) (r c : Nat) : Cell := tabGet {} s.learn.cells (cellKey r c)
def State.putCell (s : State) (r c : Nat) (x : Cell) : State :=
  { s with learn := { s.learn with cells := tabPut s.learn.cells (cellKey r c) x } }

/-- R289, R293: a class is confident for a region. -/
def State.confident (s : State) (r c : Nat) : Bool := s.cfg.hasLearner && (s.cell r c).conf

/-- R267, R273: static current of a class in a region at intensity 15 and fret 15. -/
def State.staticCurrent (s : State) (c r : Nat) : Nat :=
  if s.hints.reload then designCurrent r else s.hints.cur.getD (76 * c + r) 0
def State.staticDroop (s : State) (c q : Nat) : Nat :=
  if s.hints.reload then 32 else s.hints.droop.getD (3 * c + q) 0
/-- Static lead in ns. -/
def State.staticLead (s : State) (c : Nat) : Nat := 10 * s.hints.lead.getD c 0

/-- R292: the learned droop, reported rounded up, and its count. -/
def State.learnedDroop (s : State) (c q : Nat) : Nat := ceilDiv (tabGet (0, 0) s.learn.droop (3 * c + q)).1 8
def State.droopCount (s : State) (c q : Nat) : Nat := (tabGet (0, 0) s.learn.droop (3 * c + q)).2

/-! ## Droop and lead of a hint (R274, R275) -/

/-- The populated regions that a mask names, and those of a rail. -/
def State.named (s : State) (mask : Nat) : List Nat := (Config.regions s.cfg).filter fun r => bit mask r
def State.namedOn (s : State) (mask q : Nat) : List Nat := (s.named mask).filter fun r => railOf r == q
def State.railsNamed (s : State) (mask : Nat) : List Nat := [0, 1, 2].filter fun q => !(s.namedOn mask q).isEmpty

/-- R274: the class is confident in every populated region of the rail that the hint names. -/
def State.hintConfident (s : State) (h : HintEntry) (q : Nat) : Bool :=
  s.cfg.hasLearner && (s.namedOn h.mask q).all fun r => s.confident r h.cls

/-- R274: D(h, q) in 1.25 mV. -/
def State.hintDroop (s : State) (h : HintEntry) (q : Nat) : Nat :=
  let st := ceilDiv (s.staticDroop h.cls q * (h.inten + 1)) 16
  if s.hintConfident h q && decide (s.getN Obj.droop_min_obs ≤ s.droopCount h.cls q) then
    max (s.learnedDroop h.cls q) st
  else st

/-- The coefficients of a channel's active bank. -/
def Chan.coef (c : Chan) (n : Nat) : Int × Nat := (if c.actB then c.bankB else c.bankA).getD n (0, 0)

/-- R182, R275: a droop of 1.25 mV units scaled by `bump_scale`, at most 40 mV, in fvu. -/
def State.bumpFvu (s : State) (q d : Nat) : Fl :=
  let p := mulC (524288 * d : Nat) ((s.chan (76 + q)).coef 1)
  { p with val := min p.val 16777216 }

/-- R275: the learned lead in ns. -/
def State.learnedLead (s : State) (h : HintEntry) : Nat :=
  let lead (q : Nat) : Nat :=
    let b := (s.bumpFvu q (s.hintDroop h q)).val.toNat
    let slew := s.getN (Obj.rail_bump_slew (76 + q))
    1000 * ceilDiv (10 * b) (1048576 * slew) + 10 * s.getN Obj.lead_margin
  clampN 50 2000 (ceilDiv (maxN ((s.railsNamed h.mask).map lead)) 10 * 10)

/-- R274: L(h) in ns. -/
def State.hintLead (s : State) (h : HintEntry) : Nat :=
  let st := s.staticLead h.cls
  if (s.railsNamed h.mask).any (s.hintConfident h) then max st (s.learnedLead h) else st

/-! ## Pre-bump requests (R276) -/

/-- Whether a hint asks now. -/
def State.asks (s : State) (h : HintEntry) : Bool :=
  !h.late && h.prepped && !h.bumpOff && decide (s.now < h.start + 10 * s.getN Obj.hint_bump_hold)

/-- R276: the request of a rail: the largest droop among the hints that ask, with the earliest start among equals. A hint
goes on asking until its hold ends, also where its window has ended before. -/
def State.bumpRequest (s : State) (q : Nat) : Option (Nat × Nat) :=
  ((s.hints.entries ++ s.hints.asking).filter fun h => s.asks h && !(s.namedOn h.mask q).isEmpty).foldl (fun b h =>
    let d := s.hintDroop h q
    match b with
    | some (m, t) => if m < d ∨ m = d ∧ h.start < t then some (d, h.start) else b
    | none => some (d, h.start)) none

/-! ## The list of entries -/

/-- R268: in order of start, the entry that entered the scoreboard earlier first among equals. -/
def insertHint (h : HintEntry) : List HintEntry → List HintEntry
  | [] => [h]
  | e :: l => if h.start < e.start ∨ h.start = e.start ∧ h.id < e.id then h :: e :: l else e :: insertHint h l

def State.hintOf (s : State) (id : Nat) : Option HintEntry := s.hints.entries.find? fun h => h.id == id
def State.modHint (s : State) (id : Nat) (f : HintEntry → HintEntry) : State :=
  { s with hints := { s.hints with entries := s.hints.entries.map fun h => if h.id = id then f h else h } }
def State.dropHint (s : State) (id : Nat) : State :=
  ({ s with hints := { s.hints with entries := s.hints.entries.filter fun h => h.id != id } } : State).hintsNotFull

/-- Takes away the armed starts of a hint. -/
def State.disarmHint (s : State) (id : Nat) : State :=
  { s with regions := s.regions.map fun x => { x with pre := x.pre.disarm (· == some id) } }

/-- R109: a start is armed in regions, with the preparation time from which a strum cancels it. -/
def State.armHint (s : State) (h : HintEntry) (rs : List Nat) : State :=
  overAll s rs fun s r => s.armPre r h.start (h.start - s.hintLead h) (some h.id)

/-- R276, R106: a preparation time has come: SHED strings of the named regions rejoin, and the hint asks its rails. -/
def State.prepare (s : State) (h : HintEntry) : State :=
  let s := overAll s (s.named h.mask) State.rejoinAll
  let s : State := { s with regions := s.regions.map fun x => { x with pre := { x.pre with
    ready := (x.pre.starts.zip x.pre.ready).map fun p => if p.1.2 = some h.id then min p.2 s.now else p.2 } } }
  s.modHint h.id fun e => { e with prepped := true }

/-- R276: the preparation time of a held hint has passed. -/
def State.prepDue (s : State) (h : HintEntry) : Bool :=
  !h.late && !h.prepped && decide (h.start ≤ s.now + s.hintLead h)

/-! ## Merging (R270, R271) -/

def startGap (a b : HintEntry) : Nat := if a.start ≤ b.start then b.start - a.start else a.start - b.start

/-- The entry whose start is nearest, with the later start on a tie. -/
def nearest (h : HintEntry) (l : List HintEntry) : Option HintEntry :=
  l.foldl (fun b e => match b with
    | some x => if startGap e h < startGap x h ∨ startGap e h = startGap x h ∧ x.start < e.start then some e else b
    | none => some e) none

/-- R271; `now` is the time from which the entry names the regions that the merge adds (R278). -/
def mergeHint (now : Nat) (e h : HintEntry) : HintEntry :=
  { e with
    joined := (h.mask - (h.mask &&& e.mask), now) :: e.joined
    start := if h.late then e.start else min e.start h.start
    stop := max e.stop h.stop
    mask := e.mask ||| h.mask
    inten := max e.inten h.inten
    mixed := e.mixed || e.cls != h.cls
    merges := min 255 (e.merges + 1) }

def State.mergeInto (s : State) (e h : HintEntry) : State :=
  let m := mergeHint s.now e h
  let rest := s.hints.entries.filter fun x => x.id != e.id
  let s : State := { s with hints := { s.hints with entries := insertHint m rest } }
  let fresh := (s.named m.mask).filter fun r => !bit e.mask r
  let s := if m.late then s
    else if m.start < e.start then (s.disarmHint e.id).armHint m (s.named m.mask)
    else if s.now < m.start then s.armHint m fresh
    else s
  let s := s.count Obj.hint_accepted 32
  if e.prepped then overAll s fresh State.rejoinAll else if s.prepDue m then s.prepare m else s

/-! ## Taking a hint (R262 to R265, R270, R272) -/

/-- R263: a byte of the word with its parity bit. -/
def hintParityOk (word par : Nat) : Bool :=
  (List.range 16).all fun n => (ones 8 (byteOf word n) + b2n (bit par n)) % 2 == 0

/-- R262, R265: the entry that a hint word spells, with its stamp. -/
def hintEntryOf (word stamp id : Nat) : HintEntry :=
  let lead := bits word 122 111
  let start := if bit word 0 then stamp - 10 * lead else stamp + 10 * lead
  { id, cls := bits word 127 123, start, stop := start + 1000 * bits word 110 95, inten := bits word 94 91
    mask := bits word 90 15, tag := bits word 14 1, late := bit word 0 || decide (lead < 4) }

/-- A hint enters the scoreboard. -/
def State.enterHint (s : State) (h : HintEntry) : State :=
  let s : State := { s with hints := { s.hints with
    entries := insertHint h s.hints.entries
    nextId := s.hints.nextId + 1
    max := max s.hints.max (s.hints.entries.length + 1) } }
  let s := s.count Obj.hint_accepted 32
  let s := if s.hints.entries.length = 16384 then
      (({ s with hints := { s.hints with full := true } } : State).fire 32 0).orBits Obj.hint_irq_status 1
    else s
  let s := if h.late then s else s.armHint h (s.named h.mask)
  if s.prepDue h then s.prepare h else s

/-- R292: the hints that qualify for a droop observation. -/
def State.observable (s : State) (h : HintEntry) : Bool :=
  s.cfg.hasLearner && !h.late && !h.mixed && h.merges == 0 && !h.observed

/-- R269: an entry is retired. It is kept apart for the tags of the period (R278), for a request that still stands (R276)
and for a droop observation that is still to come (R292). -/
def State.retireHint (s : State) (h : HintEntry) : State :=
  let keep := s.observable h && decide (s.now < h.start + s.getN Obj.droop_window)
  let ask := !h.late && h.prepped && !h.bumpOff && decide (s.now < h.start + 10 * s.getN Obj.hint_bump_hold)
  ({ s with hints := { s.hints with
    gone := if keep then s.hints.gone ++ [h] else s.hints.gone
    past := s.hints.past ++ [h]
    asking := if ask then s.hints.asking ++ [h] else s.hints.asking } } : State).dropHint h.id

/-- R269: the entries whose end has come are retired before an insertion. -/
def State.retireDue (s : State) : State :=
  overAll s (s.hints.entries.filter fun h => decide (h.stop ≤ s.now)) State.retireHint

/-- R270: a hint that finds the scoreboard full. -/
def State.coalesceHint (s : State) (h : HintEntry) : State :=
  let span := 10 * s.getN Obj.hint_merge_span
  let same := s.hints.entries.filter fun e =>
    e.cls == h.cls && decide (max e.start h.start < min e.stop h.stop)
  match nearest h same with
  | some e => (s.mergeInto e h).count Obj.hint_coalesced_class 32
  | none =>
    let near := if h.late ∨ span = 0 then none
      else (nearest h s.hints.entries).filter fun e => decide (startGap e h ≤ span)
    match near with
    | some e => (s.mergeInto e h).count Obj.hint_coalesced_near 32
    | none => (s.count Obj.hint_dropped 32).orBits Obj.hint_irq_status 2

/-- HINT: a hint is taken at the port. -/
def State.takeHint (s : State) (word0 par : Nat) : State :=
  let word := word0 % 2 ^ 128
  let spaced := match s.hints.lastAt with
    | some t => decide (t + 4 ≤ s.now)
    | none => true
  let h := hintEntryOf word s.now s.hints.nextId
  let s : State := { s with hints := { s.hints with last := word, lastAt := some s.now } }
  let good := hintParityOk word par
  let s := if good then s else s.parityError
  if !good || !spaced || bits word 110 95 == 0 || (s.named h.mask).isEmpty then
    (s.count Obj.hint_invalid 32).orBits Obj.hint_irq_status 4
  else if !s.runs then s.count Obj.hint_discarded_state 32
  else
    let s := (if h.late then s.count Obj.hint_late 32 else s).retireDue
    if s.hints.entries.length < 16384 then s.enterHint h else s.coalesceHint h

def execHint (word par : Nat) (s : State) : Out := .next (s.when s.blk.st.active (s.takeHint word par))

/-! ## The life of an entry -/

/-- PREPARATION_TIME (R276). -/
def execPreparationTime (id : Nat) (s : State) : Out :=
  .next (match s.hintOf id with
    | some h => s.when (s.prepDue h) (s.prepare h)
    | none => s)

/-- BUMP_HOLD_END (R276), of an entry held or of one retired before. -/
def execBumpHoldEnd (id : Nat) (s : State) : Out :=
  .next (match (s.hints.entries ++ s.hints.asking).find? fun h => h.id == id with
    | some h =>
      s.when (!h.late && decide (h.start + 10 * s.getN Obj.hint_bump_hold ≤ s.now))
        ({ s with hints := { s.hints with asking := s.hints.asking.filter fun e => e.id != id } }.modHint id fun e =>
          { e with bumpOff := true })
    | none => s)

/-- HINT_RETIRE (R269). -/
def execHintRetire (id : Nat) (s : State) : Out :=
  .next (match s.hintOf id with
    | some h => s.when (decide (h.stop ≤ s.now)) (s.retireHint h)
    | none => s)

/-- R278: a discarded entry has covered its regions up to now. -/
def State.discardHint (s : State) (h : HintEntry) : State :=
  ({ s with hints := { s.hints with past := s.hints.past ++ [{ h with stop := min h.stop s.now }] } } : State).dropHint h.id

/-- SCOREBOARD_ENTRY_PARITY (R273): R503 lists the event under two types (log 23). -/
def execScoreboardEntryParity (id : Nat) (s : State) : Out :=
  .next (match s.hintOf id with
    | some h => (((s.parityError.fire 32 2).fire 40 2).disarmHint h.id).discardHint h
    | none => s)

/-- STATIC_TABLE_PARITY (R273). -/
def execStaticTableParity (s : State) : Out :=
  .next (s.when s.blk.st.scans
    ({ s.parityError.fire 40 1 with hints := { (s.parityError.fire 40 1).hints with reload := true } }))

/-! ## Coverage (R218, R220, R278) -/

/-- The entries that name a region. -/
def State.naming (s : State) (r : Nat) : List HintEntry := s.hints.entries.filter fun h => bit h.mask r

/-- R278: where an entry's naming of a region begins: its start, or the merge that added the region. -/
def HintEntry.startIn (h : HintEntry) (r : Nat) : Nat :=
  match h.joined.find? fun p => bit p.1 r with
  | some p => max h.start p.2
  | none => h.start

/-- The entries that name a region, with those retired or discarded since the last cycle 0. -/
def State.covering (s : State) (r : Nat) : List HintEntry :=
  (s.hints.entries ++ s.hints.past).filter fun h => bit h.mask r

/-- Whether an interval [a, b) is covered throughout by windows, given in rising order of start. -/
def coversAll : List (Nat × Nat) → Nat → Nat → Bool
  | [], a, b => decide (b ≤ a)
  | (x, y) :: l, a, b => decide (b ≤ a) || (if x ≤ a then coversAll l (max a y) b else false)

/-- R278: the tag of a region for a period [a, b); none for an unusable period. -/
def State.tagOf (s : State) (r a b : Nat) : Option Nat :=
  let l := s.covering r
  if !(l.any fun h => decide (h.startIn r < b) && decide (a < h.stop)) then some 0
  else
    let whole := l.filter fun h => !h.mixed && decide (h.startIn r ≤ a) && decide (b ≤ h.stop)
    (whole.foldl (fun (o : Option HintEntry) h => match o with
      | some x => if x.start < h.start ∨ x.start = h.start ∧ x.id < h.id then some h else o
      | none => some h) none).map (·.cls)

/-! ## Learned droop (R292) -/

/-- DROOP_OBSERVATION for one rail: the lowest value of vmin − vref over the observation, in 0.15625 mV, less the bump and
rounded up to 1.25 mV; the observation is its negative (log 57). -/
def State.observeRail (s : State) (c q : Nat) (low : Int) : State :=
  let bump := (s.rail q).bump / 65536
  let o := clampI 0 32 ((bump - low) / 8)
  let d := tabGet ((0 : Nat), (0 : Nat)) s.learn.droop (3 * c + q)
  let v := (d.1 : Int) + roundEven (8 * o - d.1) 8
  { s with learn := { s.learn with droop := tabPut s.learn.droop (3 * c + q) (v.toNat, min 255 (d.2 + 1)) } }

/-- R292: whether a rail of a hint gives an observation. -/
def State.railObservable (s : State) (h : HintEntry) (q b : Nat) : Bool :=
  (s.namedOn h.mask q).all (fun r =>
    let x := s.region r
    x.loop.src != .fixedRate && !bit (s.getN Obj.disagree_shards) (shardOf r)
      && !(bit s.cap.disLast.1 (shardOf r) && decide (h.start < s.cap.disLast.2))
      && !(x.rep.fixed && decide (s.eng.zeroAt < b))
      && !x.sup.dLog.any fun p => p.2.2.2 && decide (p.1 < b) && decide (h.start < p.2.1))
    && s.get (Obj.rail_damped q) == 0

/-- R292: the lowest report of a region in the periods that overlap [a, b); the one in progress began at `start`. -/
def Region.lowest (x : Region) (start a b : Nat) : Option Int :=
  let l := (x.sup.dLog.filter fun p => decide (p.1 < b) && decide (a < p.2.1)).filterMap (·.2.2.1)
  ((if start < b then x.rep.dMin.toList else []) ++ l).min?

def State.droopObservation (s : State) (h : HintEntry) : State :=
  let b := h.start + s.getN Obj.droop_window
  let s := overAll s (s.railsNamed h.mask) fun s q =>
    match ((s.namedOn h.mask q).filterMap fun r => (s.region r).lowest s.eng.zeroAt h.start b).min? with
    | some low => if s.railObservable h q b then s.observeRail h.cls q low else s
    | none => s
  (({ s with hints := { s.hints with gone := s.hints.gone.filter fun e => e.id != h.id } } : State)).modHint h.id fun e =>
    { e with observed := true }

/-- DROOP_OBSERVATION (R292). -/
def execDroopObservation (id : Nat) (s : State) : Out :=
  .next (match (s.hints.entries ++ s.hints.gone).find? fun h => h.id == id with
    | some h => s.when (s.observable h && decide (h.start + s.getN Obj.droop_window ≤ s.now)) (s.droopObservation h)
    | none => s)

end Sys2Proof.Machine
end

