-- ==== Sys2Proof/Machine/Frets.lean ====
section
/-! DEFINITION. Frets and margin recovery (R202 to R225): needed and fitting frets, fret steps with their handshake,
the recovery of a rail, and the switch of matched operation. -/

namespace Sys2Proof.Machine

/-! ## Needed and fitting frets (R209, R211, R213) -/

/-- R213: the needed fret of a region. -/
def Fret.needed (f : Fret) : Nat :=
  if f.overtaken then f.fret
  else match f.step with
  | .upWait => f.fret + 1
  | .up => if f.req then f.fret + 1 else f.fret
  | .idle | .down => f.fret

def State.railNeeded (s : State) (q : Nat) : Nat := maxN ((Config.railRegs s.cfg q).map fun r => (s.region r).fret.needed)

/-- R211: the highest fret that fits on VCORE; sums in 1.25 mV against `rail_vmax` in mV. -/
def State.fretFit (s : State) (q : Nat) : Nat :=
  if q = 0 then
    maxN ((List.range 16).filter fun f =>
      decide (5 * (s.tuneAt 0 f + s.tune.gAge + s.getN Obj.tguard + s.bandAdd 0) ≤ 4 * railVmax 0))
  else 15

/-! ## Steps (R212 to R216) -/

/-- R203: the states in which a step is started. -/
def State.fretStates (s : State) : Bool :=
  s.runs || s.blk.st == .shutdown && s.blk.shutCause == 1

/-- FRET_STEP_START: a step toward the target, one fret at a time. A lowering step raises its request at once. -/
def State.fretStepStart (s : State) (r : Nat) : State :=
  let s := s.abandonFret r
  let f := (s.region r).fret
  let t := s.fretTarget r
  if !s.fretStates || f.step != .idle || f.req || f.ack || t = f.fret then s
  else if f.fret < t then s.modFret r fun f => { f with step := .upWait, settled := 0, val := f.fret + 1 }
  else s.modFret r fun f => { f with step := .down, val := f.fret - 1, req := true, reqAt := s.now, late := false }

def execFretStepStart (r : Nat) (s : State) : Out := onRegion s r (s.fretStepStart r)

/-- FRET_CMD_REQ_RAISE (R213): the second settled cycle 410 in a row has come. -/
def execFretCmdReqRaise (r : Nat) (s : State) : Out :=
  onRegion s r (
    let s := s.abandonFret r
    let f := (s.region r).fret
    s.when (f.step == .upWait && decide (2 ≤ f.settled) && s.fretStates)
      (s.modFret r fun f => { f with step := .up, req := true, reqAt := s.now, late := false }))

/-- R213: at a cycle 410 a region that waits for its voltage counts a settled period whose target covered it. -/
def State.fretSettle (s : State) (r : Nat) : State :=
  let q := s.rail (railOf r)
  s.modFret r fun f =>
    if f.step == .upWait then
      { f with settled := if q.settled && decide (f.fret + 1 ≤ q.needOut) then f.settled + 1 else 0 }
    else f

/-- FRET_CMD_ACK_RISE (R204, R214, R535). -/
def execFretCmdAckRise (r : Nat) (s : State) : Out :=
  onRegion s r (
    let f := (s.region r).fret
    if !s.blk.st.active then s
    else if !f.req then (if f.ack then s else s.breach 3)
    else
      let s := s.modFret r fun f =>
        { f with ack := true, ackAt := s.now, req := false, fret := if f.overtaken then f.fret else f.val }
      if f.overtaken then s else s.modSup r fun u => { u with distNow := true })

/-- FRET_CMD_ACK_FALL (R204, R212): the step has ended; FRET_CMD_VAL is the fret, 0 in DISCOVER (R421). A fall in the supervisor cycle of the rise comes before the
request has fallen (R535, log 24). -/
def execFretCmdAckFall (r : Nat) (s : State) : Out :=
  onRegion s r (
    let f := (s.region r).fret
    if !f.ack then s
    else
      let s := if f.ackAt / 4 = s.now / 4 then s.breach 4 else s
      let s := if f.overtaken then s else s.count (Obj.region_fret_changes r) 32
      s.modFret r fun f => { fret := f.fret, val := if s.blk.st = .discover then 0 else f.fret })

/-- FRET_ACK_LATE (R215). -/
def execFretAckLate (r : Nat) (s : State) : Out :=
  onRegion s r (
    let f := (s.region r).fret
    s.when (f.req && !f.late && decide (f.reqAt + s.getN Obj.fret_ack_timeout ≤ s.now))
      (((s.modFret r fun f => { f with late := true }).count Obj.fret_ack_late 32).fire 28 f.val (srcRegion r)))

/-! ## Margin recovery (R217 to R222) -/

/-- R217. -/
def State.recoveryRuns (s : State) : Bool :=
  s.get Obj.recovery_enable == 1 && s.cfg.hasLearner && (!s.cap.matched || s.cap.susp) && s.runs

def State.rcv (s : State) (c q : Nat) : Rcv := tabGet {} s.learn.rcv (3 * c + q)
def State.putRcv (s : State) (c q : Nat) (x : Rcv) : State :=
  { s with learn := { s.learn with rcv := tabPut s.learn.rcv (3 * c + q) x } }

/-- R219: a class is confident on a rail when it is so in every populated region of it (log 25). -/
def State.confidentOn (s : State) (c q : Nat) : Bool :=
  !(Config.railRegs s.cfg q).isEmpty && (Config.railRegs s.cfg q).all fun r => s.confident r c

/-- R218: classes other than 0 whose hints cover a region at some instant of [a, b), those of hints retired since the
last cycle 0 among them. -/
def State.classesIn (s : State) (r a b : Nat) : List Nat :=
  ((s.covering r).filter fun h => h.cls != 0 && decide (h.startIn r < b) && decide (a < h.stop)).map (·.cls)

/-- R218: the lowest vmin − vref of a period, in 0.15625 mV, enters the undershoot of the classes that cover a region. -/
def State.noteUndershoot (s : State) (r a b : Nat) (low : Int) : State :=
  overAll s (s.classesIn r a b) fun s c =>
    let q := railOf r
    if s.confidentOn c q then
      let x := s.rcv c q
      s.putRcv c q { x with now := some (max (x.now.getD 0) (-low).toNat) }
    else s

/-- R218: at a learner step the undershoot of the step enters the history of a class on a rail. -/
def State.rcvRoll (s : State) : State :=
  { s with learn := { s.learn with rcv := s.learn.rcv.map fun p =>
      (p.1, { p.2 with now := none, hist := (match p.2.now with
        | some u => (u :: p.2.hist).take 1024
        | none => p.2.hist) }) } }

/-- R219: the recovery of one class on one rail after a learner step. D_max is rounded up to 1.25 mV (log 25). -/
def State.rcvStep (s : State) (c q : Nat) : State :=
  if !s.confidentOn c q then s.putRcv c q {}
  else
    let x := s.rcv c q
    let rv :=
      if x.hist.length < 8 then 0
      else
        let d := ceilDiv (maxN (x.hist.take (s.getN Obj.recovery_window))) 8
        let t := s.getN Obj.tguard - (d + s.getN Obj.recovery_margin)
        let t := min t (min (s.getN Obj.recovery_max) (s.getN Obj.tguard - s.tune.floor))
        if t < x.rv then t else min t (x.rv + 1)
    s.putRcv c q { x with rv }

/-- MARGIN_RECOVERY_UPDATE (R219), where margin recovery's classes have anything to update. -/
def State.rcvUpdate (s : State) : State :=
  overAll s (s.learn.rcv.map (·.1)) fun s k => s.rcvStep (k / 3) (k % 3)

/-- R219: a class that has become unconfident loses its history at once. -/
def State.rcvForget (s : State) (c q : Nat) : State :=
  if (s.learn.rcv.any fun p => p.1 == 3 * c + q) && !s.confidentOn c q then s.putRcv c q {} else s

/-- R220: the recovery of a rail at a cycle 0, in 1.25 mV. -/
def State.recoveryOf (s : State) (q : Nat) : Nat :=
  let b := s.now + s.getN Obj.recovery_lead
  let regs := Config.railRegs s.cfg q
  let covered := regs.all fun r =>
    coversAll (((s.naming r).filter fun h => h.cls != 0).map fun h => (h.start, h.stop)) s.now b
  if !s.recoveryRuns || (s.rail q).recHold.isSome || !covered then 0
  else
    let cl := (regs.map fun r => s.classesIn r s.now b).flatten
    min ((cl.map fun c => (s.rcv c q).rv).min?.getD 0) (s.getN (Obj.rail_slew (76 + q)) * 6 / 5)

/-- R208, R221: the recovery and g_trans of a rail at a cycle 0; g_trans falls by 1.25 mV a millisecond at most while
margin recovery runs, and equals `tguard` while it is off. -/
def State.recoveryPeriod (s : State) (q : Nat) : State :=
  let v := s.recoveryOf q
  let t := 1000 * max (s.getN Obj.tguard - v) s.tune.floor
  s.modRail q fun x => { x with recov := v, gTrans := if s.recoveryRuns && t < x.gTrans then max t (x.gTrans - 1) else t }

/-- RECOVERY_HOLD_EXPIRY (R222). -/
def execRecoveryHoldExpiry (q : Nat) (s : State) : Out :=
  onRail s q (match (s.rail q).recHold with
    | some t => s.when (decide (t ≤ s.now)) (s.modRail q fun x => { x with recHold := none })
    | none => s)

/-! ## Matched operation (R223, R224) -/

/-- R224: a part whose model entries read 0xFFFF cannot enter matched operation (log 26). -/
def State.matchedPossible (s : State) : Bool := !s.tune.model.isEmpty && !s.tune.model.contains 0xFFFF

/-- `matched_enable` (R223, R224): it takes effect at the next millisecond boundary. -/
def State.setMatched (s : State) (v : Nat) : State :=
  s.set Obj.matched_enable (if v ≥ 1 ∧ s.matchedPossible then 1 else 0)

end Sys2Proof.Machine
end

