-- ==== Sys2Proof/Machine/Cap.lean ====
section
/-! DEFINITION. Power, the cap and telemetry (R230 to R261, R548): the power of a period, the millisecond boundary with
its checks, telemetry frames, and the cap controller's step with its delivery. Predicted power is held exactly, as
integers in units of 12.5 µW / (16 × 232792560): 10 mA × 1.25 mV, divided so that every scaling of R245 is whole. -/

namespace Sys2Proof.Machine

/-- The least common multiple of 7 to 22: clock frequencies are 7 + f hundreds of MHz (R202). -/
def freqLcm : Nat := 232792560

/-! ## Figures in mW -/

/-- The mean over `n` periods of a sum of P_k (10 mA × 0.15625 mV) in mW (R232). -/
def meanMw (sum : Int) (n : Nat) : Nat := if n = 0 then 0 else (roundUp sum (640 * n)).toNat
/-- The mean over `n` periods of a sum of P_est. -/
def estMw (sum : Int) (n : Nat) : Nat := if n = 0 then 0 else (roundUp sum (80 * 16 * freqLcm * n)).toNat
/-- The mean over `n` periods of a sum of the nominal power, in 10 mW / 4080. -/
def nomMw (sum : Int) (n : Nat) : Nat := if n = 0 then 0 else (roundUp (10 * sum) (4080 * n)).toNat

/-- R235: η_f in 2⁻¹⁵. -/
def State.eta (s : State) : Nat :=
  if !s.cfg.hasIin then 32768
  else if s.cap.effHist.length < 16 then 29491
  else s.getN Obj.cap_eff

/-- R242: P_lim in mW with the G3 set in use. -/
def State.limitMw (s : State) : Nat := s.used.g3.cap * (1000 - s.therm.n * s.used.g3.step)

/-- Matched operation on and not suspended (R223). -/
def State.matchedActs (s : State) : Bool := s.cap.matched && !s.cap.susp

/-! ## Prediction (R245, R277) -/

/-- R277: the classes and intensities of the entries that are not late and overlap [a, b). -/
def State.stepHints (s : State) (r a b : Nat) : List (Nat × Nat) :=
  ((s.naming r).filter fun h => !h.late && decide (h.start < b) && decide (a < h.stop)).flatMap fun h =>
    (h.cls, h.inten) :: (if h.mixed then [(0, 15)] else [])

/-- One prediction: in 1/16 of 10 mA, with the fret it refers to, its weight, and whether it is learned. -/
structure Pred where
  cur : Nat
  fret : Nat
  weight : Nat
  learned : Bool
deriving DecidableEq, Repr

/-- A current at fret `f` from a prediction, in 10 mA / (16 × lcm). -/
def scaleTo (cur fret f : Nat) : Nat := cur * (7 + f) * (freqLcm / (7 + fret))

def State.classWeight (s : State) (c : Nat) : Nat := byteOf (s.getN Obj.cap_class_weight) c

/-- R245, R290: the prediction of one class. -/
def State.predict (s : State) (r : Nat) (h : Nat × Nat) : Pred :=
  if s.confident r h.1 && !s.matchedActs then
    ⟨16 * tabGet 0 s.learn.fwd (cellKey r h.1), (s.region r).fret.fret, s.classWeight h.1, true⟩
  else ⟨s.staticCurrent h.1 r * (h.2 + 1), 15, s.classWeight h.1, false⟩

/-- R245, R248: the largest prediction; among equal ones the largest weight. Class 0 stands where no hint does. -/
def State.estimate (s : State) (r a b : Nat) : Pred :=
  let l := (match s.stepHints r a b with | [] => [(0, 15)] | l => l).map (s.predict r)
  l.foldl (fun b p =>
    let x := scaleTo p.cur p.fret 15
    let y := scaleTo b.cur b.fret 15
    if y < x ∨ x = y ∧ b.weight < p.weight then p else b) (l.headD ⟨0, 15, 0, false⟩)

/-! ## P_est and the nominal power (R224, R255) -/

/-- R246: the predicted voltage of a rail at its highest fret, in 1.25 mV. -/
def State.predVolt (s : State) (q f : Nat) : Nat :=
  let v := s.tuneAt q f + s.tune.gAge + s.getN Obj.tguard
  if q = 0 then v + s.bandAdd 0 else min v (railVmax q * 4 / 5)

/-- The highest of a rail's regions in a list by region. -/
def State.highest (s : State) (q : Nat) (a : List Nat) : Nat :=
  maxN ((Config.railRegs s.cfg q).map fun r => a.getD r 0)

/-- The frets in force. -/
def State.frets (s : State) : List Nat := s.regions.map (·.fret.fret)

/-- R255: e(r) × V of a region at the frets in force. -/
def State.estPower (s : State) (r : Nat) : Nat :=
  let u := (s.region r).sup
  scaleTo u.est u.estFret (s.region r).fret.fret * s.predVolt (railOf r) (s.highest (railOf r) s.frets)

/-- R224: (p_idle, p_act) of a rail at a fret, in 10 mW. -/
def State.modelAt (s : State) (q f : Nat) : Nat × Nat :=
  (s.tune.model.getD (32 * q + 2 * f) 0, s.tune.model.getD (32 * q + 2 * f + 1) 0)

/-- R224: nominal power of a period in 10 mW / 4080; a missing frame counts as activity 1. -/
def State.nominal (s : State) : Nat :=
  sumN ((Config.regions s.cfg).map fun r =>
    let x := s.region r
    let m := s.modelAt (railOf r) x.fret.fret
    4080 * m.1 + m.2 * x.sup.act.getD 4080)

/-! ## One control period (R232, R252, R254, R255) -/

/-- R254: the sense-fault flag of a period: what holds at its end, and what has held at some instant of it. -/
def State.senseFault (s : State) : Bool :=
  s.cap.senseNow || s.strings.any (fun x => x.st == .blind)
    || (Config.regions s.cfg).any (fun r =>
      let x := s.region r
      x.loop.src != .own || x.sup.lastRep.srcChange || x.sup.lastRep.fixed)
    || s.courses.any (·.lost) || s.convs.any (·.failed) || s.cg.baFailed

/-- V(r) in 0.15625 mV. -/
def Region.powerVolt (x : Region) : Int :=
  if x.loop.src = .fixedRate ∨ x.sup.lastRep.fixed = true then x.loop.vref else x.sup.vMean

/-- The sums of one region. -/
def State.powerRegion (s : State) (r : Nat) : State :=
  s.modRegion r fun x =>
    { x with sup := { x.sup with
        iStep := x.sup.iStep + x.sup.iReg, nStep := x.sup.nStep + 1
        iFrame := x.sup.iFrame + x.sup.iReg, nFrame := x.sup.nFrame + 1
        notOwn := x.sup.notOwn || x.loop.src != .own || x.sup.lastRep.srcChange
        actSum := x.sup.actSum + x.sup.act.getD 4080
        capoSeen := x.sup.capoSeen || decide (0 < s.getN (Obj.region_capo r)) } }

/-- Adds to the entry of a shard. -/
def addShard (l : List Int) (k : Nat) (v : Int) : List Int :=
  (List.range 8).map fun i => l.getD i 0 + (if i = k then v else 0)

/-- The power figures of a period, after its latch. -/
def State.powerPeriod (s : State) : State :=
  let s := overAll s (Config.regions s.cfg) State.powerRegion
  let s := overAll s [0, 1, 2] fun s q =>
    let p := sumI ((Config.railRegs s.cfg q).map fun r => ((s.region r).sup.iReg : Int) * (s.region r).powerVolt)
    s.modRail q fun x => { x with pMs := x.pMs + p, pStep := x.pStep + p, pFrame := x.pFrame + p }
  let fault := s.senseFault
  let s : State := { s with cap := { s.cap with
    nStep := s.cap.nStep + 1, nMs := s.cap.nMs + 1
    senseStep := s.cap.senseStep || fault, senseMs := s.cap.senseMs || fault, senseNow := false } }
  if !s.runs then s
  else
    let s := if s.cap.stepSeen then s
      else overAll s (Config.regions s.cfg) fun s r =>
        let p := s.estimate r s.now (s.now + 1000)
        s.modSup r fun u => { u with est := p.cur, estFret := p.fret }
    let s := overAll s (Config.regions s.cfg) fun s r =>
      let e : Int := s.estPower r
      let m : Int := ((s.region r).sup.iReg : Int) * (s.region r).powerVolt
      { s with cap := { s.cap with
          estStep := s.cap.estStep + e, estMs := s.cap.estMs + e
          estShard := addShard s.cap.estShard (shardOf r) e, measShard := addShard s.cap.measShard (shardOf r) m } }
    let n : Int := s.nominal
    { s with cap := { s.cap with nomStep := s.cap.nomStep + n, nomMs := s.cap.nomMs + n } }

/-! ## Telemetry (R238 to R241) -/

/-- R239: states in which frames are produced. -/
def BState.frames : BState → Bool
  | .ramp | .run | .service | .cooldown => true
  | _ => false

/-- R240: one region entry. -/
def State.frameEntry (s : State) (r : Nat) : List Byte :=
  if !Config.popRegion s.cfg r then List.replicate 8 0
  else
    let u := (s.region r).sup
    let minv := bit s.used.g7.mode r
    let v := if minv then (match u.minV with | some (v, _) => v | none => 0xFFFF)
      else if u.nFrame = 0 then 0 else (roundUp (u.iFrame : Nat) u.nFrame).toNat
    let stamp := if minv then (match u.minV with | some (_, t) => t | none => 0) else 0
    leBytes 2 v ++ leBytes 5 stamp ++ [2 + 4 * b2n u.notOwn + b2n minv]

/-- R240: the frame that closes now. -/
def State.frameBytes (s : State) : List Byte :=
  let t := s.telem
  let n := maxN ((Config.regions s.cfg).map fun r => (s.region r).sup.nFrame)
  let p (q : Nat) : Nat := meanMw (s.rail q).pFrame n
  let valid := s.cfg.hasIin && !t.inBad
  let flags := t.flags + 4 * b2n s.cap.matched + 16 * b2n valid
  let head := leBytes 4 t.seq ++ leBytes 8 s.now ++ [s.used.g7.grain, t.ms, flags, 0]
    ++ leBytes 4 (p 0) ++ leBytes 4 (p 1) ++ leBytes 4 (p 2)
    ++ leBytes 4 (if s.cfg.hasIin then (roundUp (t.inSum : Nat) (max 1 t.ms)).toNat else 0)
    ++ leBytes 8 (s.getN Obj.energy_delivered) ++ leBytes 8 (s.getN Obj.energy_input)
    ++ leBytes 2 s.used.g3.cap ++ leBytes 2 (s.limitMw / 1000)
    ++ leBytes 4 (roundUp t.estSum (max 1 t.ms)).toNat ++ leBytes 4 0
  let tail := ((List.range 76).map s.frameEntry).flatten
  head ++ leBytes 4 (crc32c (head ++ tail)) ++ tail

/-- The sums of a frame start again. -/
def State.frameClear (s : State) : State :=
  { s with
    telem := { s.telem with ms := 0, flags := 0, inBad := false, inSum := 0, estSum := 0 }
    rails := s.rails.map fun x => { x with pFrame := 0 }
    regions := s.regions.map fun x => { x with sup := { x.sup with iFrame := 0, nFrame := 0, minV := none, notOwn := false } } }

/-- R239: a committed G7 set waits to be taken. -/
def State.telemDue (s : State) : Bool := s.committed 7 && !s.sameCycle 7

/-- R239: the frame in progress closes at a multiple of its grain, and where a committed G7 set is taken. -/
def State.frameBoundary (s : State) : State :=
  let old := s.used.g7
  let due := decide (s.now / 1000000 % old.grain = 0) || s.telemDue
  let s := if due && s.blk.st.frames then
      ({ s with telem := { s.telem with done := some s.frameBytes, seq := (s.telem.seq + 1) % 2 ^ 32 } } : State).frameClear
    else if due || !s.blk.st.frames then s.frameClear
    else s
  s.takeGroup 7

/-- R240: a frame with its `dropped` bit set, and its CRC again. -/
def markDropped (f : List Byte) : List Byte :=
  let g := f.set 14 (f.getD 14 0 ||| 64)
  patch g 60 (leBytes 4 (crc32c (g.take 60 ++ g.drop 64)))

/-- A dropped frame is counted (R241, R258). -/
def State.countDropped (s : State) : State := (s.count Obj.telem_dropped 32).orBits Obj.cap_irq_status 16

/-- A frame is offered to channel 3, with three requests (R241, R475). -/
def State.offer (s : State) (f : List Byte) : State :=
  (({ s with telem := { s.telem with offered := some f, begun := false } } : State).dropReq 2).raiseReq 2 3

/-- FRAME_READY (R241). -/
def State.frameReady (s : State) (f : List Byte) : State :=
  let drop := s.cfg.hasDma && s.telem.offered.isSome && (!s.telem.begun || s.telem.waiting.isSome)
  let f := if drop then markDropped f else f
  let s := if drop then s.countDropped else s
  let s : State := { s with telem := { s.telem with done := none, latest := f, lastSeq := fieldAt f 0 4 } }
  let s := s.orBits Obj.cap_irq_status 4
  if !s.cfg.hasDma then s
  else if s.telem.offered.isSome && s.telem.begun then { s with telem := { s.telem with waiting := some f } }
  else s.offer f

def execFrameReady (s : State) : Out :=
  .next (match s.telem.done with
    | some f => s.frameReady f
    | none => s)

/-! ## The millisecond boundary (R231, R235, R237, R252 to R256) -/

/-- R254: P_used in mW from its parts: nominal, delivered, measured and estimated power. -/
def State.usedPower (s : State) (nom meas est : Nat) (sense : Bool) : Nat :=
  if s.matchedActs then nom
  else if s.cap.disagree || sense then max meas (est * 32768 / s.eta)
  else meas

/-- Delivered power of the millisecond in mW. -/
def State.msDelivered (s : State) : Nat := meanMw (sumI (s.rails.map (·.pMs))) s.cap.nMs

/-- R235: η_f after a millisecond of RUN or SERVICE, from its delivered energy in 1/640 nJ and its input energy in nJ. -/
def State.effStep (s : State) (del inp : Int) : State :=
  let h := ((del, inp) :: s.cap.effHist).take 16
  let s : State := { s with cap := { s.cap with effHist := h } }
  let d := sumI (h.map (·.1))
  let i := sumI (h.map (·.2))
  if h.length = 16 ∧ d > 0 ∧ i > 0 then
    s.set Obj.cap_eff (clampI 26214 32768 (roundUp (d * 32768) (640 * i.toNat)))
  else if h.length < 16 then s.set Obj.cap_eff 29491
  else s

/-- R233: input power of the millisecond in mW, from its energy in fJ. -/
def State.msInput (s : State) : Nat := (roundUp s.cap.inFj 1000000000).toNat

/-- R231, R232: the power figures of a millisecond. -/
def State.msPowers (s : State) : State :=
  let n := s.cap.nMs
  let s := overAll s [0, 1, 2] fun s q => s.set (Obj.power_rail q) (meanMw (s.rail q).pMs n : Nat)
  let s := s.set Obj.power_delivered (s.msDelivered : Nat)
  s.set Obj.power_estimate (estMw s.cap.estMs n : Nat)

/-- R233, R377: the input figures, `inTot` in nJ. -/
def State.msInputs (s : State) (inTot : Int) : State :=
  if s.cfg.hasIin then
    ((s.set Obj.power_input (s.msInput : Nat)).set Obj.iin_current
      (clampI 0 100000 (roundUp s.cap.inPc 10000000))).set Obj.energy_input
      ((s.get Obj.energy_input + inTot / 1000) % (2 ^ 64 : Nat))
  else s

/-- R231 item 1: power, energy and telemetry figures. A millisecond counts in η_f where all of it lies in RUN or
SERVICE (R235). -/
def State.msFigures (s : State) : State :=
  let del := sumI (s.rails.map (·.pMs))
  let nj := (del / 640).toNat + s.cap.remDel
  let inNj := s.cap.inFj / 1000000
  let inTot := inNj + s.cap.remIn
  let n := s.cap.nMs
  let s := s.msPowers
  let s := s.set Obj.energy_delivered ((s.get Obj.energy_delivered + (nj / 1000 : Nat)) % (2 ^ 64 : Nat))
  let s := s.msInputs inTot
  let s := if s.runs && s.learn.msRun then s.effStep del inNj else s
  let t := s.telem
  let flags := t.flags ||| b2n (s.cap.floor || s.cap.floorSeen) ||| 2 * b2n s.cap.disagree ||| 8 * b2n s.cap.susp ||| 32 * b2n s.cap.senseMs
  { s with
    cap := { s.cap with
      remDel := nj % 1000, remIn := (inTot % 1000).toNat, inMw := s.msInput
      inFj := s.cap.inFj % 1000000, inPc := 0, overRange := false }
    telem := { t with
      ms := t.ms + 1, flags := flags, inBad := t.inBad || s.cap.overRange
      inSum := t.inSum + s.msInput, estSum := t.estSum + (estMw s.cap.estMs n : Nat) } }

/-- R234: P_meas of the millisecond just closed, in mW. -/
def State.msMeasured (s : State) : Nat := max s.msDelivered (if s.cfg.hasIin then s.cap.inMw else 0)

/-- R223, R225: the switch of matched operation, and its ceiling check. -/
def State.msMatched (s : State) : State :=
  let s : State := { s with cap := { s.cap with matched := s.get Obj.matched_enable == 1 } }
  if s.runs && s.cap.matched && decide (s.msMeasured > s.used.g3.cap * 1100) then
    ((({ s with cap := { s.cap with susp := true } } : State).count Obj.matched_ceiling_events 32).fire 29 0).orBits
      Obj.cap_irq_status 8
  else { s with cap := { s.cap with susp := false } }

/-- R256: whether an estimate and a measurement over the millisecond disagree; `w` is the absolute limit in W / `d`. -/
def State.disagrees (s : State) (est meas : Int) (d : Nat) : Bool :=
  let m := meas * (2 * freqLcm : Nat)
  let rel := m * s.getN Obj.disagree_pct
  let abs : Int := (s.getN Obj.disagree_w * s.cap.nMs * 80000 * 16 * freqLcm * 1000 / d : Nat)
  decide (((est - m).natAbs : Int) * 1000 > max rel abs)

/-- R256: DISAGREE is set. Where the learner is absent, no shard is paused and no recovery returned: P_used changes only. -/
def State.setDisagree (s : State) : State :=
  let own := (List.range 8).filter fun k => s.disagrees (s.cap.estShard.getD k 0) (s.cap.measShard.getD k 0) 8
  let shards := if own.isEmpty then List.range 8 else own
  let s : State := { s with cap := { s.cap with disagree := true, disPass := 0 } }
  let s := ((s.orBits Obj.cap_irq_status 2).count Obj.disagree_count 32).fire 31 1
  if !s.cfg.hasLearner then s else
  let s := s.set Obj.disagree_shards (sumN (shards.map (2 ^ ·)) : Nat)
  overAll s.resetRecovery shards fun s k => s.stopPass k 8

/-- R231 item 3. -/
def State.msDisagree (s : State) : State :=
  let fails := s.disagrees s.cap.estMs (sumI (s.rails.map (·.pMs))) 1
  let s : State := { s with cap := { s.cap with
    disFail := if fails then s.cap.disFail + 1 else 0, disPass := if fails then 0 else s.cap.disPass + 1 } }
  if !s.cap.disagree && decide (s.getN Obj.disagree_ms ≤ s.cap.disFail) then s.setDisagree
  else if s.cap.disagree && decide (s.getN Obj.disagree_clear ≤ s.cap.disPass) then
    (({ s with cap := { s.cap with disagree := false, disLast := (s.getN Obj.disagree_shards, s.now) } } : State).set Obj.disagree_shards 0).fire 31 0
  else s

/-- R231 item 4, R252, R253. The test takes the limit as the thermal decision has left it (R350). -/
def State.msFloor (s : State) : State :=
  let n := s.cap.nMs
  let used := s.usedPower (nomMw s.cap.nomMs n) s.msMeasured (estMw s.cap.estMs n) s.cap.senseMs
  if s.cap.floor then
    let s := s.count Obj.cap_floor_ms 32
    if used * 1000 ≤ s.limitMw * (1000 - s.getN Obj.cap_floor_release) then s.clearCapFloor else s
  else
    let low := (Config.regions s.cfg).all fun r => !(s.region r).sup.capoSeen
    if low && decide (used > s.limitMw) then
      ((({ s with cap := { s.cap with floor := true } } : State).orBits Obj.cap_irq_status 1).count
        Obj.cap_floor_count 32).fire 30 1
    else s

/-- The sums of a millisecond start again. -/
def State.msClear (s : State) : State :=
  { s with
    rails := s.rails.map fun x => { x with pMs := 0 }
    regions := s.regions.map fun x => { x with sup := { x.sup with
      capoSeen := false, faultOld := x.sup.faultPrev, faultPrev := x.sup.faultNow, faultNow := false } }
    learn := { s.learn with
      stepPending := s.learn.msRun && s.cfg.hasLearner, msRun := s.runs
      acc := if s.learn.msRun then s.learn.acc else [] }
    cap := { s.cap with floorSeen := false, estMs := 0, nomMs := 0, estShard := [], measShard := [], nMs := 0, senseMs := false } }

/-- MILLISECOND_BOUNDARY (R231): the figures, then in RUN and SERVICE the three checks in order; then the frame. -/
def State.millisecond (s : State) : State :=
  let s := s.msFigures
  let s := s.msMatched
  let s := if s.runs then s.msDisagree.msFloor else s
  s.frameBoundary.msClear

def execMillisecondBoundary (s : State) : Out := .next (s.when s.blk.st.active s.millisecond)

/-! ## The allocation (R246 to R249) -/

/-- What the allocation reads of one region. -/
structure Cand where
  r : Nat
  /-- Measured mean and prediction as currents with the frets they refer to, in 1/16 of 10 mA. -/
  meas : Nat
  measFret : Nat
  est : Pred
  fmax : Nat
  weight : Nat
  act : Nat
deriving DecidableEq, Repr

/-- R245: Î(r, f). -/
def Cand.current (c : Cand) (matched : Bool) (f : Nat) : Nat :=
  let e := scaleTo c.est.cur c.est.fret f
  if matched then e else max (scaleTo c.meas c.measFret f) e

/-- R247: the terms of f_max before the region current limit. -/
def State.fretTerms (s : State) (r : Nat) : Nat × Nat :=
  (min (s.region r).sup.ceiling (min (s.getN (Obj.region_fret_request r)) (s.getN (Obj.rail_fret_fit (railOf r)))),
    (s.region r).sup.limit)

/-- R247: the region current limit. -/
def Cand.limited (c : Cand) (matched : Bool) (util cAct top : Nat) : Nat :=
  maxN ((List.range (top + 1)).filter fun f => decide (c.current matched f * 200 ≤ util * cAct * 25 * 16 * freqLcm))

/-- The candidate of a region at a step boundary. -/
def State.candOf (s : State) (r : Nat) : Cand :=
  let u := (s.region r).sup
  let p := s.estimate r (s.now + 20000) (s.now + 120000)
  let m := if u.nStep = 0 then u.iReg else (roundUp (u.iStep : Nat) u.nStep).toNat
  let t := s.fretTerms r
  let c : Cand :=
    { r, meas := 16 * m, measFret := (s.region r).fret.fret, est := p, fmax := 0, weight := p.weight
      act := if u.nStep = 0 then 4080 else u.actSum / u.nStep }
  { c with fmax := c.limited s.matchedActs (s.getN Obj.cap_util_max) u.cAct (min t.1 t.2) }

/-- R246: P(a), with the allocation as a list beside the candidates. -/
def State.allocSum (s : State) (cs : List Cand) (a : List Nat) : Nat :=
  let l := cs.zip a
  sumN ([0, 1, 2].map fun q =>
    let on := l.filter fun p => railOf p.1.r == q
    sumN (on.map fun p => p.1.current s.matchedActs p.2) * s.predVolt q (maxN (on.map (·.2))))

/-- R246: the nominal power of an allocation, in the units of P(a). -/
def State.allocNominal (s : State) (cs : List Cand) (a : List Nat) : Nat :=
  sumN ((cs.zip a).map fun p =>
    let m := s.modelAt (railOf p.1.r) p.2
    (4080 * m.1 + m.2 * p.1.act) * (800 * 16 * freqLcm / 4080))

def State.allocPower (s : State) (cs : List Cand) (a : List Nat) : Nat :=
  if s.matchedActs then max (s.allocSum cs a) (s.allocNominal cs a) else s.allocSum cs a

/-- A raise that the loop weighs: its place, its weight and its cost. -/
structure Raise where
  k : Nat
  weight : Nat
  dp : Nat
deriving DecidableEq, Repr

/-- R248: the raise that comes first. -/
def bestRaise (l : List Raise) : Option Raise :=
  let up := l.filter fun x => 0 < x.weight
  if up.isEmpty then
    l.foldl (fun b x => match b with | some y => if x.dp < y.dp then some x else b | none => some x) none
  else
    up.foldl (fun b x => match b with
      | some y => if x.weight * y.dp > y.weight * x.dp then some x else b
      | none => some x) none

/-- R248: the allocation, and the candidate that did not fit with the residual. -/
def State.allocLoop (s : State) (cs : List Cand) (budget : Int) : Nat → List Nat → List Nat × Option (Raise × Int)
  | 0, a => (a, none)
  | n + 1, a =>
    let p := s.allocPower cs a
    let raises := ((cs.zip a).zipIdx.filter fun x => decide (x.1.2 < x.1.1.fmax)).map fun x =>
      (⟨x.2, x.1.1.weight, s.allocPower cs (a.set x.2 (x.1.2 + 1)) - p⟩ : Raise)
    match bestRaise raises with
    | none => (a, none)
    | some c =>
      if (p : Int) + c.dp > budget then (a, some (c, budget - p))
      else s.allocLoop cs budget n (a.set c.k (a.getD c.k 0 + 1))

/-! ## The step (R244, R250, R251, R548) -/

/-- R250: the integral term. `lim` is the limit over the step measured. -/
def State.integralStep (s : State) (lim used : Nat) : State :=
  let c := s.cap
  let top : Int := 10 * s.getN Obj.cap_int_max * s.used.g3.cap * 32768
  let new := c.iTerm + (s.getN Obj.cap_ki : Int) * ((lim : Int) - used)
  let regs := Config.regions s.cfg
  let full := !c.alloc.isEmpty && regs.all fun r => c.alloc.getD r 0 == c.fmax.getD r 0
  let zero := !c.alloc.isEmpty && regs.all fun r => c.alloc.getD r 0 == 0
  let skip := (c.iMet = 1 && new > c.iTerm) || (c.iMet = -1 && new < c.iTerm) || (full && used < lim)
    || (zero && lim < used) || c.pLimChanged
  if skip then
    ({ s with cap := { c with iTerm := clampI (-top) top c.iTerm, iMet := clampMet (-top) top c.iTerm } } : State).count
      Obj.cap_int_hold 32
  else { s with cap := { c with iTerm := clampI (-top) top new, iMet := clampMet (-top) top new } }

/-- R249: the dither region's capo. -/
def State.ditherStep (s : State) (cs : List Cand) (d : Option (Raise × Int)) (capos : List Nat) : State :=
  match d with
  | none =>
    { s with cap := { s.cap with next := some capos, dither := none, sigma := 0, upper := (false :: s.cap.upper).take 10 } }
  | some (c, r) =>
    let reg := (cs.getD c.k ⟨0, 0, 0, ⟨0, 0, 0, false⟩, 0, 0, 0⟩).r
    let sigma := (if s.cap.dither = some reg then s.cap.sigma else 0) + r
    let up := decide (sigma ≥ c.dp)
    { s with cap := { s.cap with
        next := some (if up then capos.set reg (capos.getD reg 0 + 1) else capos)
        dither := some reg, sigma := (if up then sigma - c.dp else sigma), upper := (up :: s.cap.upper).take 10 } }

/-- R548. -/
def State.binding (s : State) (cs : List Cand) (a : List Nat) (dithers : Bool) : Nat :=
  let at_ := (cs.zip a).filter fun p => p.2 == p.1.fmax && decide (p.1.fmax < 15)
  let thermal := at_.any fun p => let t := s.fretTerms p.1.r; decide (t.2 ≤ t.1 ∧ t.2 = p.1.fmax)
  let ceiling := at_.any fun p => let t := s.fretTerms p.1.r; decide (t.1 ≤ t.2 ∧ t.1 = p.1.fmax)
  let current := at_.any fun p => let t := s.fretTerms p.1.r; decide (p.1.fmax < min t.1 t.2)
  b2n dithers + 2 * b2n ((dithers && decide (0 < s.therm.n)) || thermal) + 4 * b2n ceiling + 8 * b2n current

/-- The objects of a step (R258, R261), by region. -/
def State.stepObjects (s : State) (cs : List Cand) (nominal : Bool) : State :=
  overAll s cs fun s c =>
    let f := (s.region c.r).fret.fret
    let i := c.current s.matchedActs f
    let e := scaleTo c.est.cur c.est.fret f
    let src := if s.matchedActs then (if nominal then 3 else 2)
      else if scaleTo c.meas c.measFret f ≥ e then 0 else if c.est.learned then 1 else 2
    let s := (s.set (Obj.region_capo_max c.r) c.fmax).set (Obj.region_cap_source c.r) (src : Nat)
    let s := s.set (Obj.region_cap_current c.r) (min 65535 ((roundUp (i : Nat) (16 * freqLcm)).toNat) : Nat)
    s.modSup c.r fun u =>
      { u with est := c.est.cur, estFret := c.est.fret, meas := c.meas, measFret := c.measFret
               iStep := 0, nStep := 0, actSum := 0 }

/-- CAP_STEP (R244). -/
def State.capStep (s : State) : State :=
  let s := s.takeGroup 3
  let n := s.cap.nStep
  let pDel := meanMw (sumI (s.rails.map (·.pStep))) n
  let used := s.usedPower (nomMw s.cap.nomStep n) (pDel * 32768 / s.eta) (estMw s.cap.estStep n) s.cap.senseStep
  let lim := s.limitMw
  let s := s.integralStep (if s.cap.stepSeen then s.cap.pLim else lim) used
  let cs := (Config.regions s.cfg).map s.candOf
  let budget : Int := ((lim : Int) * 32768 + s.cap.iTerm) * (s.eta * 80 * 16 * freqLcm : Nat) / (2 ^ 30 : Nat)
  let res := s.allocLoop cs budget 1141 (cs.map fun _ => 0)
  let spread (f : Cand × Nat → Nat) : List Nat :=
    (cs.zip res.1).foldl (fun l p => l.set p.1.r (f p)) (List.replicate 76 0)
  let nominal := decide (s.allocNominal cs res.1 > s.allocSum cs res.1)
  let bind := s.binding cs res.1 res.2.isSome
  let s := (s.set Obj.cap_binding (bind : Nat)).stepObjects cs nominal
  let s := s.ditherStep cs res.2 (spread (·.2))
  let s := ((s.set Obj.cap_used_power (min 65535 ((used + 500) / 1000) : Nat)).count Obj.cap_step_count 64)
  { s with
    rails := s.rails.map fun x => { x with pStep := 0 }
    cap := { s.cap with
      alloc := spread (·.2), fmax := spread (·.1.fmax), pLim := lim
      pLimChanged := s.cap.stepSeen && s.cap.pLim != lim, sense := s.cap.senseStep
      estStep := 0, nomStep := 0, nStep := 0, senseStep := false, stepSeen := true } }

/-- A step boundary outside RUN and SERVICE: the sums of a step start again, and no step is run. -/
def State.stepClear (s : State) : State :=
  { s with
    rails := s.rails.map fun x => { x with pStep := 0 }
    regions := s.regions.map fun x => { x with sup := { x.sup with iStep := 0, nStep := 0, actSum := 0 } }
    cap := { s.cap with estStep := 0, nomStep := 0, nStep := 0, senseStep := false } }

def execCapStep (s : State) : Out := .next (if s.runs then s.capStep else s.stepClear)

/-- R247, R251: f_max of a region as it now stands: its present terms and region current, with Î of the last step. -/
def State.fmaxNow (s : State) (r : Nat) : Nat :=
  let u := (s.region r).sup
  let t := s.fretTerms r
  let c : Cand :=
    { r, meas := u.meas, measFret := u.measFret, est := ⟨u.est, u.estFret, 0, false⟩, fmax := 0, weight := 0, act := 0 }
  c.limited s.matchedActs (s.getN Obj.cap_util_max) u.cAct (min t.1 t.2)

/-- R251: no capo stands above f_max. -/
def State.holdCapo (s : State) (r : Nat) : State := s.lowerCapo r (s.fmaxNow r)
def State.holdCapos (s : State) : State := overAll s (Config.regions s.cfg) State.holdCapo

/-- CAPO_DELIVERY (R244, R251): every capo on one cycle, none above f_max as it now stands. -/
def State.capoDelivery (s : State) (l : List Nat) : State :=
  let s := overAll s (Config.regions s.cfg) fun s r => s.setCapo r (min (l.getD r 0) (s.fmaxNow r))
  ({ s with cap := { s.cap with next := none } } : State).abandonFrets

def execCapoDelivery (s : State) : Out :=
  .next (match s.cap.next with
    | some l => s.when s.runs (s.capoDelivery l)
    | none => s)

end Sys2Proof.Machine
end

