-- ==== Sys2Proof/Machine/Learner.lean ====
section
/-! DEFINITION. The phase learner (R278 to R326): activity frames, live and forward predictions with watchdog and
confidence, the learner step with the update rules, passes with their commit and discard, parity, rule slots, shards,
and the records and streams of export and import. -/

namespace Sys2Proof.Machine

/-! ## Predictions (R283, R287) -/

/-- Σ w_i · x_i. -/
def dotW (w : List Int) (x : List Nat) : Int := sumI (List.zipWith (fun a (b : Nat) => a * b) w x)

/-- `x · 2^e`, to nearest with ties to even. -/
def scale2 (x e : Int) : Int := if 0 ≤ e then x * (2 ^ e.toNat : Nat) else roundEven x (2 ^ (-e).toNat)

/-- R287: floor and ceiling of region `r` in class `c`, in 10 mA; C_act is in 125 mA. -/
def State.predFloor (s : State) (r c : Nat) : Nat :=
  s.staticCurrent c r * (700 + 100 * (s.region r).fret.fret) * s.getN Obj.pred_floor_pct / 220000
def State.predCeil (s : State) (r c : Nat) : Nat := max (s.predFloor r c) ((s.region r).sup.cAct * 25 / 2)

def State.clampPred (s : State) (r c : Nat) (y : Int) : Int := clampI (s.predFloor r c) (s.predCeil r c) y

/-- R283: y_raw for features `x`. -/
def Cell.raw (x : Cell) (f : List Nat) : Int := x.b + scale2 (dotW x.w f) x.e
/-- R283: the forward prediction before its clamps. -/
def Cell.forward (x : Cell) : Int := x.b + scale2 (dotW x.w x.xbar) (x.e - 8)

/-! ## Activity frames (R280) -/

/-- R280: a frame that is not taken. Its count belongs to the learner (R293). -/
def State.actReject (s : State) : State := if s.cfg.hasLearner then s.count Obj.learn_act_missing 32 else s

/-- ACTIVITY_FRAME. It is late more than 300 ns after the rising edge of ACT_TICK (R533). The last frame of an interval
decides: one that is rejected takes away a good one before it, and a good one in time replaces a rejected one. -/
def State.activityFrame (s : State) (r data par : Nat) : State :=
  let good := (List.range 16).all fun n => (ones 8 (byteOf data n) + b2n (bit par n)) % 2 == 0
  if !Config.popRegion s.cfg r then s.actReject
  else if !good || !s.engineOn || decide (s.eng.tickAt + 300 < s.now) then
    s.actReject.modSup r fun u => { u with frame := none, frameBad := true }
  else s.modSup r fun u => { u with frame := some ((List.range 16).map (byteOf data)), frameBad := false }

def execActivityFrame (r data par : Nat) (s : State) : Out :=
  within s 128 r (s.when s.blk.st.active (s.activityFrame r data par))

/-! ## The live prediction of a period (R283, R284, R288, R289, R298) -/

/-- R284. -/
def meanStep (m x : Nat) : Nat := ((m : Int) + roundEven (256 * x - m) 64).toNat

/-- R288: the watchdog after a residual, to nearest with ties to even in its unit. -/
def watchdogStep (a res shift : Nat) : Nat := ((a : Int) + roundEven (65536 * res - a) (2 ^ shift)).toNat

/-- R289: the confidence of a cell after a usable period. -/
def State.confAfter (s : State) (x : Cell) : Bool :=
  let lim := s.getN Obj.conf_limit * 65536
  if x.a > lim then false
  else if 4 * x.a ≤ 3 * lim ∧ s.getN Obj.conf_min_obs ≤ x.n then true
  else x.conf

/-- R289: stores a cell; a change of its confidence is counted, and a lost one takes the recovery of its class (R219). -/
def State.storeCell (s : State) (r c : Nat) (x : Cell) : State :=
  let old := (s.cell r c).conf
  let s := s.putCell r c x
  if old = x.conf then s
  else
    let s := s.count Obj.learn_conf_changes 32
    if x.conf then s else s.rcvForget c (railOf r)

/-- R298: adds to an accumulator; it saturates in S24. -/
def Acc.add (a : Acc) (k : Nat) (v : Int) : Acc :=
  let n := a.g.getD k 0 + v
  let m := clampI (-8388607) 8388607 n
  { g := a.g.set k m, sat := if m = n ∨ a.sat.contains k then a.sat else k :: a.sat }

def Acc.period (a : Acc) (g : Int) (x : List Nat) : Acc :=
  ((List.range 16).foldl (fun a i => a.add i (g * (x.getD i 0 : Nat))) a).add 16 g

/-- R298: the usable period enters the accumulators of its cell. -/
def State.accumulate (s : State) (r c : Nat) (g : Int) (x : List Nat) : State :=
  let old := tabGet {} s.learn.acc (cellKey r c)
  let new := old.period g x
  let s : State := { s with learn := { s.learn with acc := tabPut s.learn.acc (cellKey r c) new } }
  s.count (Obj.shard_grad_sat (shardOf r)) 32 (new.sat.length - old.sat.length)

/-- One usable period of region `r` in class `c` with features `x`. A period of a millisecond without a step enters no
accumulator (R297). -/
def State.liveOne (s : State) (r c : Nat) (x : List Nat) : State :=
  let cell := s.cell r c
  let i : Int := (s.region r).sup.iReg
  let raw := cell.raw x
  let s := if raw < s.predFloor r c then s.count Obj.learn_clamp_floor 32
    else if raw > s.predCeil r c then s.count Obj.learn_clamp_ceil 32 else s
  let res := (i - s.clampPred r c raw).natAbs
  let s := if s.learn.dueRun then s.accumulate r c (clampI (-4096) 4095 (raw - i)) x else s
  let cell := { cell with
    xbar := List.zipWith meanStep cell.xbar x
    a := watchdogStep cell.a res (s.getN Obj.conf_shift)
    n := min 65535 (cell.n + 1) }
  s.storeCell r c { cell with conf := s.confAfter cell }

/-- R279: a region whose period is due; without a valid frame the period is unusable. -/
def State.liveRegion (s : State) (r : Nat) : State :=
  let u := (s.region r).sup
  match u.tagDue with
  | none => s
  | some c =>
    match u.frame with
    | some x => (s.liveOne r c x).modSup r fun u => { u with tag := c, tagDue := none }
    | none => s.modSup r fun u => { u with tag := 0xFF, tagDue := none }

/-- LIVE_PREDICTIONS (R286). -/
def execLivePredictions (s : State) : Out :=
  .next (s.when s.cfg.hasLearner (overAll s (Config.regions s.cfg) State.liveRegion))

/-- FORWARD_REFRESH (R286): every forward prediction, clamped at the region's present fret. -/
def execForwardRefresh (s : State) : Out :=
  .next (s.when (s.cfg.hasLearner && s.blk.st.active)
    (let fwd := (Config.regions s.cfg).flatMap fun r =>
      (List.range 32).map fun c => (cellKey r c, (s.clampPred r c (s.cell r c).forward).toNat)
    { s with learn := { s.learn with fwd } }))

/-! ## Update rules (R306 to R309) -/

/-- The state of one parameter with the number of saturations that its update met. -/
structure Param where
  w : Int
  m : Int
  v : Nat
  sat : Nat := 0
deriving DecidableEq, Repr

def satTo (lo hi x : Int) (n : Nat) : Int × Nat :=
  let y := clampI lo hi x
  (y, if y = x then n else n + 1)

/-- R307: K(t) of a coefficient in UQ16.16; the power is formed to 2⁻³², to nearest. -/
def corrTable (a : Int) (on : Bool) (t : Nat) : Nat :=
  if !on || decide (a ≤ 0) then 65536
  else
    let p := (roundEven ((a.toNat ^ t * 2 ^ 32 : Nat) : Int) (2 ^ (15 * t))).toNat
    if 2 ^ 32 ≤ p then 0xFFFFFFFF
    else min 0xFFFFFFFF (roundEven ((2 ^ 48 : Nat) : Int) (2 ^ 32 - p)).toNat

/-- Integer square root by bits, from bit `k` down. -/
def isqrtFrom : Nat → Nat → Nat → Nat
  | 0, _, r => r
  | k + 1, n, r => if (r + 2 ^ k) * (r + 2 ^ k) ≤ n then isqrtFrom k n (r + 2 ^ k) else isqrtFrom k n r

/-- R306: rsqrt of a UQ16.16 value above 0, in 2⁻²⁴, to nearest. -/
def rsqrt24 (v : Nat) : Nat := (isqrtFrom 35 (2 ^ 66 / v) 0 + 1) / 2

/-- The largest and smallest Q8.24. -/
def satQ24 (x : Int) (n : Nat) : Int × Nat := satTo (-2147483648) 2147483647 x n

/-- R306: d, with u in Q8.24; one rounding to whole parameter units. -/
def updateNum (g : GroupLatch) (u w : Int) : Int := g.eta * (256 * u + g.decay * w * 512)

/-- R306, R308: a native rule. -/
def nativeUpdate (c : SlotSet) (g : GroupLatch) (t : Nat) (sigma : Int) (p : Param) : Param :=
  let m := satTo (-32768) 32767 (roundEven (c.a1 * p.m) 32768 + c.a2 * sigma) 0
  let v := satTo 0 65535 (roundEven (c.b1 * p.v) 32768 + c.b2 * sigma.natAbs) m.2
  let mh := (satQ24 (roundEven (m.1 * corrTable c.a1 (bit c.flags 0) t) 128) 0).1
  let vh := min 0xFFFFFFFF (roundEven (v.1 * corrTable c.b1 (bit c.flags 1) t) 32768).toNat
  let third := if vh = 0 then 0 else
    roundEven ((satQ24 (roundEven (c.c3 * mh) 32768) 0).1 * (rsqrt24 vh : Nat)) 16777216
  let u := satQ24 (c.c1 * sigma * 512 + roundEven (c.c2 * mh) 32768 + third) v.2
  let w := satTo (-32768) 32767 (p.w - roundEven (updateNum g u.1 p.w) (2 ^ 39)) u.2
  { w := w.1, m := m.1, v := v.1.toNat, sat := w.2 }

/-- R309: Km(t) of rule 10. -/
def legacyKm (t : Nat) : Nat := 65536 * 8 ^ t / (8 ^ t - 7 ^ t)

/-- R309: rules 8, 9 and 10; products are truncated toward minus infinity. -/
def legacyUpdate (rule : Nat) (g : GroupLatch) (t : Nat) (sigma : Int) (p : Param) : Param :=
  let m := if rule = 8 then (0, 0) else satTo (-32768) 32767 (p.m - p.m / 8 + sigma * 4096) 0
  let u : Int :=
    if rule = 8 then sigma * 16777216
    else if rule = 9 then m.1.sign * 16777216
    else clampI (-32768) 32767 (m.1 * legacyKm t / 65536) * 512
  let w := satTo (-32768) 32767 (p.w - updateNum g u p.w / (2 ^ 39 : Nat)) m.2
  { w := w.1, m := m.1, v := 0, sat := w.2 }

/-- The update of one parameter under the latched settings of its group. -/
def State.updateParam (s : State) (g : GroupLatch) (t : Nat) (sigma : Int) (p : Param) : Param :=
  if g.slot < 8 then nativeUpdate (s.slot g.slot).serve g t sigma p else legacyUpdate g.slot g t sigma p

/-! ## Re-quantisation (R285) -/

/-- The inference weight of a master at an exponent. -/
def quant (e w : Int) : Int := roundEven w (2 ^ (e + 8).toNat)
def quantFits (e : Int) (l : List Int) : Bool := l.all fun w => decide (-8 ≤ quant e w ∧ quant e w ≤ 7)

/-- e_fit, from −8 up to +5. -/
def fitFrom (l : List Int) : Nat → Int → Int
  | 0, e => e
  | n + 1, e => if quantFits e l then e else fitFrom l n (e + 1)
def eFit (l : List Int) : Int := fitFrom l 13 (-8)

/-- R285 for a changed cell. -/
def Cell.requant (x : Cell) : Cell :=
  let fit := eFit x.master
  let x := if x.e < fit then { x with e := fit, falls := 0 }
    else if fit < x.e then
      (if x.falls ≥ 15 then { x with e := fit, falls := 0 } else { x with falls := x.falls + 1 })
    else { x with falls := 0 }
  { x with w := x.master.map (quant x.e) }

/-! ## A pass (R299, R300, R304, R311) -/

/-- R301: the group of the weights and of the bias of class `c`. -/
def State.groupW (s : State) (c : Nat) : Nat := byteOf (s.getN Obj.learn_group_w) c
def State.groupB (s : State) (c : Nat) : Nat := byteOf (s.getN Obj.learn_group_b) c
def State.latched (s : State) (g : Nat) : GroupLatch := s.learn.latch.getD g {}

/-- One parameter of a cell: 0 to 15 the weights, 16 the bias. -/
def Cell.param (x : Cell) (k : Nat) (reset : Bool) : Param :=
  { w := if k = 16 then x.b else x.master.getD k 0
    m := if reset then 0 else x.m.getD k 0
    v := if reset then 0 else x.v.getD k 0 }
def Cell.setParam (x : Cell) (k : Nat) (p : Param) : Cell :=
  let x := { x with m := x.m.set k p.m, v := x.v.set k p.v }
  if k = 16 then { x with b := p.w } else { x with master := x.master.set k p.w }

/-- What a pass carries from cell to cell: the shadow copy, the parameters handled and where something saturated, and
the updates by group. -/
structure PassAcc where
  shadow : List (Nat × Cell) := []
  n : Nat := 0
  sats : List Nat := []
  upd : List (Nat × Nat) := []
deriving DecidableEq, Repr

/-- One visited cell: its new copy, re-quantised where a value has changed (R285), and the saturations of each of the parameters handled. -/
def State.passCell (s : State) (t : Nat) (a : PassAcc) (key : Nat) (acc : Acc) : PassAcc :=
  let c := key % 32
  let x := s.cell (key / 32) c
  let gw := s.latched (s.groupW c)
  let gb := s.latched (s.groupB c)
  let ks := (if gw.frozen then [] else List.range 16) ++ (if gb.frozen then [] else [16])
  if ks.isEmpty then a
  else
    let one (y : Cell × List Nat) (j : Nat) : Cell × List Nat :=
      let p := s.updateParam (if j = 16 then gb else gw) t (acc.g.getD j 0).sign
        (y.1.param j (if j = 16 then x.resetB else x.resetW))
      (y.1.setParam j p, y.2 ++ [p.sat])
    let y := ks.foldl one (x, [])
    let z := if y.1 = x then x else y.1.requant
    let z := if gw.frozen then z else { z with resetW := false }
    let z := if gb.frozen then z else { z with resetB := false }
    let sats := y.2.zipIdx.flatMap fun p => List.replicate p.1 (a.n + p.2)
    let put (l : List (Nat × Nat)) (g n : Nat) : List (Nat × Nat) := tabPut l g (tabGet 0 l g + n)
    let upd := if gw.frozen then a.upd else put a.upd (s.groupW c) 16
    let upd := if gb.frozen then upd else put upd (s.groupB c) 1
    { shadow := tabPut a.shadow key z, n := a.n + ks.length, sats := a.sats ++ sats, upd }

/-- The cells of a shard that a pass visits, in rising order of region and class. -/
def State.visited (s : State) (k : Nat) : List (Nat × Acc) :=
  s.learn.accOld.filter fun p => shardOf (p.1 / 32) == k

/-- R306: t of a shard. -/
def State.passT (s : State) (k : Nat) : Nat := min ((s.shard k).counter + 1) 4095

/-- R300: the whole pass of a shard, worked out from the committed copy and the latched settings. -/
def State.passOf (s : State) (k : Nat) : PassAcc :=
  (s.visited k).foldl (fun a p => s.passCell (s.passT k) a p.1 p.2) {}

/-! ## The learner step (R297, R302, R303, R311 to R314) -/

/-- R302, R303, R311: the settings of one group are latched. -/
def State.latchGroup (s : State) (g : Nat) : State :=
  let old := s.latched g
  let written := s.get (Obj.group_eta_written g) == 1
  let new : GroupLatch :=
    { eta := if written then s.get (Obj.group_eta g) else old.eta
      decay := s.get (Obj.group_decay g), slot := s.getN (Obj.group_rule g), frozen := s.get (Obj.group_frozen g) == 1 }
  let s := (s.set (Obj.group_eta_written g) 0).set (Obj.group_eta_stale g) (if written then 0 else 1)
  let s := if written then s else (s.count Obj.learn_eta_stale_count 32).orBits Obj.learn_irq_status 4
  let cells := if new.slot = old.slot then s.learn.cells else s.learn.cells.map fun p =>
    (p.1, { p.2 with
      resetW := p.2.resetW || s.groupW (p.1 % 32) == g, resetB := p.2.resetB || s.groupB (p.1 % 32) == g })
  { s with learn := { s.learn with latch := s.learn.latch.set g new, cells } }

/-- R314; `bad` says that the counter has failed its parity. -/
def State.checkCounter (s : State) (bad : Bool) (k : Nat) : State :=
  let top := min (s.getN Obj.learn_global_steps) 16777215
  if (s.shard k).counter ≤ top && !bad then s
  else
    let s := if bad then s.parityError else s
    let s := (s.modShard k fun x => { x with counter := top }).countSat (Obj.shard_ctr_fixed k) 16
    (s.orBits Obj.learn_irq_status 2).fire 34 0 (srcShard k)

/-- R313: the code under which a shard skips its step, 0 for none. -/
def State.skipCode (s : State) (k : Nat) (p : PassAcc) : Nat :=
  if p.n = 0 then 1
  else if s.cap.disagree && bit (s.getN Obj.disagree_shards) k then 2
  else if (Config.regions s.cfg).any fun r =>
      shardOf r == k && ((s.region r).sup.faultPrev || (s.region r).sup.faultOld) then 3
  else if s.get (Obj.shard_halt k) = 1 then 4
  else if (s.shard k).running then 5
  else 0

/-- One shard at the step start. -/
def State.stepShard (bad : List Nat) (s : State) (k : Nat) : State :=
  let s := s.checkCounter (bad.contains k) k
  let p := s.passOf k
  let code := s.skipCode k p
  if code ≠ 0 then
    (s.modShard k fun x => { x with outcome := code, stepOpen := false }).count (Obj.shard_skips k) 32
  else
    let cycles := 32 + ceilDiv p.n 4
    let s := s.modShard k fun x =>
      { x with running := true, stepOpen := true, startAt := s.now, doneAt := s.now + 2 * cycles, shadow := p.shadow
               params := p.n, sats := p.sats, upd := p.upd }
    (s.set (Obj.shard_pass_cycles k) (cycles : Nat)).set (Obj.shard_cells_visited k) ((s.visited k).length : Nat)

/-- R315, R219: every shard has committed or skipped its step. -/
def State.stepDone (s : State) : State :=
  if s.learn.shards.any (·.stepOpen) then s else s.rcvUpdate.raiseReq 4 1

/-- R310: sets that have been built serve from here on. -/
def State.slotsServe (s : State) : State :=
  { s with learn := { s.learn with slots := s.learn.slots.map fun x =>
      { x with serve := x.ready.getD x.serve, ready := none } } }

/-- LEARNER_STEP (R297); `bad` are the shards whose counter fails its parity (R314). -/
def State.learnerStep (bad : List Nat) (s : State) : State :=
  let s := s.count Obj.learn_global_steps 32
  let s : State := { s with learn := { s.learn with accOld := s.learn.acc, acc := [], stepPending := false } }
  let s := (overAll s (List.range 64) State.latchGroup).slotsServe.rcvRoll
  (overAll s (List.range 8) (State.stepShard bad)).stepDone

def execLearnerStep (s : State) (badCounters : List Nat := []) : Out :=
  .next (s.when (s.cfg.hasLearner && s.learn.stepPending && s.engineOn && decide (s.eng.zeroAt + 900 ≤ s.now))
    (s.learnerStep badCounters))

/-! ## Commit and discard (R315, R316) -/

/-- R315: the instants at which a commit may fall. -/
def State.commitWindow (s : State) : Bool := decide (s.eng.zeroAt + 800 ≤ s.now ∧ s.now < s.eng.zeroAt + 1000)

/-- The committed cell with what its shadow copy holds. -/
def Cell.commit (x y : Cell) : Cell :=
  { x with w := y.w, e := y.e, b := y.b, master := y.master, m := y.m, v := y.v, falls := y.falls
           resetW := y.resetW, resetB := y.resetB }

def State.commitCell (s : State) (key : Nat) (y : Cell) : State :=
  let x := s.cell (key / 32) (key % 32)
  let s := if x.e < y.e then s.count Obj.learn_requant_up 32
    else if y.e < x.e then s.count Obj.learn_requant_down 32 else s
  s.putCell (key / 32) (key % 32) (x.commit y)

/-- PASS_COMMIT. -/
def State.passCommit (s : State) (k : Nat) : State :=
  let x := s.shard k
  let s := overAll s x.shadow fun s p => s.commitCell p.1 p.2
  let s := overAll s x.upd fun s p => s.count (Obj.group_updates p.1) 32 p.2
  let s := (s.count (Obj.shard_param_sat k) 32 x.sats.length).count (Obj.shard_commits k) 32
  let s := s.modShard k fun x =>
    { x with running := false, shadow := [], upd := [], sats := [], stepOpen := false, outcome := 0
             counter := min 16777215 (x.counter + 1) }
  if x.stepOpen then s.stepDone else s

def execPassCommit (k : Nat) (s : State) : Out :=
  within s 8 k (
    let x := s.shard k
    s.when (x.running && decide (x.doneAt ≤ s.now) && x.xfer != 1 && s.commitWindow) (s.passCommit k))

/-- R291: a cell is reloaded to its reset values. -/
def State.resetCell (s : State) (r c : Nat) : State :=
  let s := (s.parityError.count Obj.learn_cell_resets 32).storeCell r c {}
  (s.learnFault r).fire 35 c (srcRegion r)

/-- PASS_DISCARD (R316) for a parity error in a memory that the pass reads: a cell, or another memory of the pass. The
other causes stop their passes where they arise. -/
def State.passDiscard (s : State) (k : Nat) (parityIn : Option (Nat × Nat)) : State :=
  let s := s.stopPass k 9
  match parityIn with
  | some p => if Config.popRegion s.cfg p.1 && decide (p.2 < 32) then s.resetCell p.1 p.2 else s.parityError
  | none => s.parityError

def execPassDiscard (k : Nat) (parityIn : Option (Nat × Nat)) (s : State) : Out :=
  within s 8 k (s.when (s.cfg.hasLearner && (s.shard k).running) (s.passDiscard k parityIn))

/-- CELL_PARITY_ERROR (R291); a pass that reads the cell is stopped first (R316). -/
def State.cellParity (s : State) (t : CellTarget) : State :=
  match t with
  | .cell r c => (s.stopPass (shardOf r) 9).resetCell r c
  | .droop c q =>
    let s := s.parityError
    ({ s with learn := { s.learn with droop := tabPut s.learn.droop (3 * c + q) (0, 0) } } : State).fire 40 3

def execCellParityError (t : CellTarget) (s : State) : Out :=
  match t with
  | .cell r c => onRegion s r (s.when (s.cfg.hasLearner && decide (c < 32)) (s.cellParity t))
  | .droop c q => onRail s q (s.when (s.cfg.hasLearner && decide (c < 32)) (s.cellParity t))

/-! ## Groups, slots and shards as the dictionary drives them -/

/-- R303: a write of `group_eta`. -/
def State.groupEta (s : State) (g : Nat) (v : Int) : State :=
  (s.set (Obj.group_eta g) v).set (Obj.group_eta_written g) 1

/-- R310: the staged set of a native slot. -/
def State.stagedSlot (s : State) (k : Nat) : SlotSet :=
  { a1 := s.get (Obj.slot_a1 k), a2 := s.get (Obj.slot_a2 k), b1 := s.get (Obj.slot_b1 k), b2 := s.get (Obj.slot_b2 k)
    c1 := s.get (Obj.slot_c1 k), c2 := s.get (Obj.slot_c2 k), c3 := s.get (Obj.slot_c3 k)
    flags := s.getN (Obj.slot_flags k) }

/-- `slot_apply` (R310): the build starts, or starts again. -/
def State.applySlot (s : State) (k : Nat) : State :=
  s.modSlot k fun x => { x with build := some (s.stagedSlot k, s.now + 40000) }

/-- SLOT_BUILD_END (R310): within 40 µs. -/
def execSlotBuildEnd (slot : Nat) (s : State) : Out :=
  within s 8 slot (match (s.slot slot).build with
    | some p => s.modSlot slot fun x => { x with build := none, ready := some p.1 }
    | none => s)

/-- `shard_halt` (R313, R316). -/
def State.setHalt (s : State) (k v : Nat) : State :=
  let s := s.set (Obj.shard_halt k) v
  if v = 1 then s.stopPass k 7 else s

/-- `shard_xfer` (R318). -/
def State.setXfer (s : State) (k v : Nat) : Ans :=
  if v = 2 ∧ s.get (Obj.shard_halt k) = 0 then (abortAccess, s)
  else
    let s := s.modShard k fun x =>
      { x with xfer := v, pos := 0, buf := [], refusedAll := false, xferSteps := s.getN Obj.learn_global_steps }
    (0, { s with learn := { s.learn with lastXfer := k } })

/-! ## Cell records and streams (R319 to R322) -/

/-- R4: `version` and `config_hash`. -/
def versionWord : Nat := 0x00030100
def State.configHash (s : State) : Nat :=
  let c := s.cfg
  crc32c ([c.units, c.nVcore, c.nStr, 8, 4, (Config.allStrings c).length, (Config.courses c).length,
    (Config.convs c).length].flatMap (leBytes 4))

def packWeights (w : List Int) : Nat := leNat ((List.range 8).map fun i =>
  ofSigned 4 (w.getD (2 * i) 0) + 16 * ofSigned 4 (w.getD (2 * i + 1) 0))

/-- R320. -/
def State.cellRecord (s : State) (r c : Nat) : List Byte :=
  let x := s.cell r c
  let s16 (l : List Int) : List Byte := l.flatMap fun v => leBytes 2 (ofSigned 16 v)
  let u16 (l : List Nat) : List Byte := l.flatMap (leBytes 2)
  let body := [r, c, b2n x.conf, ofSigned 8 x.e, 0, 0] ++ leBytes 2 x.n ++ leBytes 4 x.a ++ s16 x.master ++ s16 [x.b]
    ++ [0, 0] ++ s16 x.m ++ [0, 0] ++ u16 x.v ++ [0, 0] ++ leBytes 8 (packWeights x.w) ++ u16 x.xbar
    ++ List.replicate 28 0
  body ++ leBytes 4 (crc32c body)

/-- R321: the cell that a record spells, unconfident, its weights rebuilt. -/
def cellOfRecord (b : List Byte) : Cell :=
  let s16 (o n : Nat) : List Int := (List.range n).map fun i => signedAt b (o + 2 * i) 2
  let u16 (o n : Nat) : List Nat := (List.range n).map fun i => fieldAt b (o + 2 * i) 2
  let x : Cell :=
    { e := clampI (-8) 5 (signedAt b 3 1), n := fieldAt b 6 2, a := fieldAt b 8 4, master := s16 12 16
      b := signedAt b 44 2, m := s16 48 17, v := u16 84 17, xbar := u16 128 16 }
  let e := max x.e (eFit x.master)
  { x with e, w := x.master.map (quant e) }

/-- R321: a refusal. -/
def State.importRefuse (s : State) (code : Nat) : Ans :=
  (code, (s.count Obj.learn_import_refused 32).set Obj.learn_import_last code)

/-- R321: one cell record for shard `k`. -/
def State.importCell (s : State) (k : Nat) (b : List Byte) : Ans :=
  let r := fieldAt b 0 1
  let c := fieldAt b 1 1
  if fieldAt b 188 4 ≠ crc32c (slice b 0 188) then s.importRefuse abortLength
  else if !Config.popRegion s.cfg r || shardOf r != k then s.importRefuse abortAbsent
  else if 32 ≤ c then s.importRefuse abortNoSub
  else if s.get (Obj.group_frozen (s.groupW c)) = 1 ∨ s.get (Obj.group_frozen (s.groupB c)) = 1 then
    s.importRefuse abortFrozen
  else
    let x := cellOfRecord b
    let s := if clampI (-8) 5 (signedAt b 3 1) < x.e then s.count Obj.learn_requant_up 32 else s
    (0, s.storeCell r c x)

/-- R322: the region and class that `learn_cell_sel` selects. -/
def State.cellSel (s : State) : Nat × Nat := (bits (s.getN Obj.learn_cell_sel) 6 0, bits (s.getN Obj.learn_cell_sel) 12 8)

/-- R322: a write of `learn_cell`. The shard is the one of the cell selected. -/
def State.writeCell (s : State) (b : List Byte) : Ans :=
  let r := s.cellSel.1
  if !Config.popRegion s.cfg r then (abortAbsent, s)
  else if s.get (Obj.shard_halt (shardOf r)) = 0 then (abortAccess, s)
  else s.importCell (shardOf r) b

/-- R319: the populated cells of a shard, in order. -/
def State.shardCells (s : State) (k : Nat) : List (Nat × Nat) :=
  ((Config.regions s.cfg).filter fun r => shardOf r == k).flatMap fun r => (List.range 32).map fun c => (r, c)

def State.streamHeader (s : State) (k : Nat) : List Byte :=
  let body := [1, k] ++ leBytes 2 (s.shardCells k).length ++ leBytes 4 (s.shard k).counter ++ leBytes 4 versionWord
    ++ leBytes 4 s.configHash ++ leBytes 4 (s.shard k).xferSteps ++ List.replicate 40 0
  body ++ leBytes 4 (crc32c body)

def State.streamLength (s : State) (k : Nat) : Nat := 64 + 192 * (s.shardCells k).length

/-- `n` bytes of the stream of a shard from position `p` on. -/
def State.streamBytes (s : State) (k p n : Nat) : List Byte :=
  let first := (p - 64) / 192
  let cells := ((s.shardCells k).drop first).take (n / 192 + 2)
  let body := cells.flatMap fun x => s.cellRecord x.1 x.2
  if p < 64 then slice (s.streamHeader k ++ body) p n else slice body (p - 64 - 192 * first) n

/-- R321: the header of an import. -/
def State.importHeader (s : State) (k : Nat) (b : List Byte) : State :=
  let good := fieldAt b 60 4 == crc32c (slice b 0 60) && fieldAt b 1 1 == k
    && bits (fieldAt b 8 4) 23 16 == bits versionWord 23 16 && fieldAt b 12 4 == s.configHash
  if good then s.modShard k fun x => { x with counter := fieldAt b 4 3 }
  else (s.importRefuse abortLength).2.modShard k fun x => { x with refusedAll := true }

/-- The bytes of an import as they come: a header of 64, then records of 192. -/
def State.importBytes (s : State) (k : Nat) : List Byte → State
  | [] => s
  | b :: l =>
    let x := s.shard k
    let buf := x.buf ++ [b]
    let full := buf.length = (if x.pos < 64 then 64 else 192)
    let s := s.modShard k fun x => { x with pos := x.pos + 1, buf := if full then [] else buf }
    let s := if !full || x.refusedAll then s
      else if x.pos < 64 then s.importHeader k buf else (s.importCell k buf).2
    s.importBytes k l

/-- R326: `shard_state`. -/
def State.shardState (s : State) (k : Nat) : Nat :=
  let x := s.shard k
  if s.get (Obj.shard_halt k) = 1 then 3
  else if x.running then (if x.doneAt ≤ s.now then 2 else 1)
  else if s.cap.disagree && bit (s.getN Obj.disagree_shards) k then 4
  else 0

end Sys2Proof.Machine
end

