-- ==== Sys2Proof/Machine/Pickups.lean ====
section
/-! DEFINITION. The supervisor's judgement of pickups once a control period (R51 to R54), and the host's clear and force
of a pickup. -/

namespace Sys2Proof.Machine

/-- R191: v_pred of a region channel in fvu, from the reference delivered in the period before and the latched I_reg,
with the flags that its arithmetic sets (R166, R167). -/
def State.predictedFl (s : State) (r : Nat) : Fl :=
  ({ val := (s.region r).sup.vrOut * 65536 } : Fl).sub (mulC (s.region r).sup.iReg ((s.chan r).coef 8))
def State.predicted (s : State) (r : Nat) : Int := (s.predictedFl r).val

/-! ## The conditions of R51 -/

/-- The period mean of a pickup in 0.15625 mV, to nearest. -/
def Pickup.mean (k : Pickup) : Option Int := if k.cnt = 0 then none else some (roundUp k.sum k.cnt)

/-- The other valid pickups of a region. -/
def otherValid (l : List Pickup) (p : Nat) : List Pickup :=
  (l.zipIdx.filter fun x => x.2 != p && x.1.cause == 0).map (·.1)

/-- R51: whether a cause's condition is present for pickup `p` in this period. -/
def State.pickPresent (s : State) (r : Nat) (l : List Pickup) (p cause : Nat) : Bool :=
  let k := l.getD p {}
  let others := otherValid l p
  let means := others.filterMap Pickup.mean
  let lim : Int := 16 * s.getN Obj.pick_dev_limit
  match cause, k.mean with
  | 1, some m => decide (2 ≤ others.length) && !means.isEmpty && decide (median means - m > lim)
  | 2, some m => decide (2 ≤ others.length) && !means.isEmpty && decide (m - median means > lim)
  | 3, some _ => k.lo == k.hi && others.any fun o => decide (0 < o.cnt) && o.lo != o.hi
  | 4, _ => decide (s.getN Obj.pick_parity_limit < k.par)
  | 6, some m =>
    (s.chan r).doubt && decide (((m * 65536 - s.predicted r).natAbs : Int) > lim * 65536)
      && others.all fun o => match o.mean with
        | some v => decide ((v * 65536 - s.predicted r).natAbs ≤ 8 * 65536 * s.getN Obj.plaus_limit)
        | none => false
  | _, _ => false

/-- How many periods in a row a cause's condition has been present, this one included. -/
def State.pickRun (s : State) (r : Nat) (l : List Pickup) (p cause : Nat) : Nat :=
  let k := l.getD p {}
  if s.pickPresent r l p cause then
    (match cause with | 1 => k.lowRun | 2 => k.highRun | 3 => k.stuckRun | 6 => k.doubtRun | _ => 0) + 1
  else 0

/-- R51, R52: the cause that invalidates pickup `p` now; only PARITY may invalidate the last valid one. -/
def State.pickFails (s : State) (r : Nat) (l : List Pickup) (p : Nat) : Option Nat :=
  let k := l.getD p {}
  let last := k.cause == 0 && (otherValid l p).isEmpty
  let long (c : Nat) : Bool := match c with
    | 1 | 2 => decide (s.getN Obj.pick_dev_periods ≤ s.pickRun r l p c)
    | 3 => decide (s.getN Obj.pick_stuck_periods ≤ s.pickRun r l p c)
    | 4 => s.pickPresent r l p 4
    | _ => decide (2 ≤ s.pickRun r l p c)
  if k.cause != 0 && k.cause != 7 then none
  else (if last then [4] else [1, 2, 3, 4, 6]).find? long

/-- R52: pickups are invalidated one at a time, the lowest index first, and the rest are judged again. -/
def State.pickJudge (s : State) (r : Nat) : Nat → List Pickup → List Pickup
  | 0, l => l
  | n + 1, l =>
    match (List.range l.length).findSome? fun p => (s.pickFails r l p).map fun c => (p, c) with
    | some (p, c) => s.pickJudge r n (l.modify p fun k =>
        { k with cause := c, lowRun := 0, highRun := 0, stuckRun := 0, doubtRun := 0, probRun := 0 })
    | none => l

/-- R51, R53: the runs of one pickup after the judgement, the end of its probation, and its sums started again. -/
def State.pickSettle (s : State) (r : Nat) (l : List Pickup) (p : Nat) : Pickup :=
  let k := l.getD p {}
  let k' := k.restart
  if k.cause != 0 && k.cause != 7 then k'
  else
    let k' := { k' with
      lowRun := s.pickRun r l p 1, highRun := s.pickRun r l p 2, stuckRun := s.pickRun r l p 3
      doubtRun := s.pickRun r l p 6 }
    if k.cause = 0 then k'
    else
      let run := if [1, 2, 3, 4, 6].any (s.pickPresent r l p) then 0 else k.probRun + 1
      if s.getN Obj.pick_probation ≤ run then { k' with cause := 0, probRun := 0 } else { k' with probRun := run }

/-- Records each change of a pickup's validity. -/
def State.pickEvents (s : State) (r : Nat) (old new : List Pickup) : State :=
  overAll s (List.range new.length) fun s p =>
    let c := (new.getD p {}).cause
    if (old.getD p {}).cause = c then s else s.fire 21 (16 * p + c) (srcRegion r)

/-- PICKUP_EVALUATION (R51 to R53). -/
def State.pickEvaluate (s : State) (r : Nat) : State :=
  let old := (s.region r).pk
  let l := s.pickJudge r old.length old
  let new := (List.range l.length).map (s.pickSettle r l)
  (s.modRegion r fun x => { x with pk := new }).pickEvents r old new

/-! ## The host (R53) -/

/-- R53: probation begins. -/
def Pickup.probation (k : Pickup) : Pickup :=
  { k with cause := 7, probRun := 0, lowRun := 0, highRun := 0, stuckRun := 0, doubtRun := 0 }

/-- Changes the pickups of a region and records what changed. -/
def State.pickChange (s : State) (r : Nat) (f : Nat → Pickup → Pickup) : State :=
  let old := (s.region r).pk
  let new := old.zipIdx.map fun x => f x.2 x.1
  (s.modRegion r fun x => { x with pk := new }).pickEvents r old new

/-- R82: the bits of the pickups that a region has. -/
def pickMask (r : Nat) : Nat := if r < 64 then 0x1FF else 0xF

/-- `region_pickup_clear`: an invalid pickup that is not forced enters probation. One already in probation goes on with
the probation it is in (log 86). -/
def State.pickClear (s : State) (r mask : Nat) : State :=
  let force := s.getN (Obj.region_pickup_force r)
  s.pickChange r fun p k => if bit mask p && !bit force p && k.cause != 0 && k.cause != 7 then k.probation else k

/-- `region_pickup_force`: a bit set holds its pickup invalid with cause HOST; a bit cleared ends in probation. -/
def State.pickForce (s : State) (r mask : Nat) : State :=
  let old := s.getN (Obj.region_pickup_force r)
  let mask := mask &&& pickMask r
  let s := s.set (Obj.region_pickup_force r) mask
  s.pickChange r fun p k =>
    if bit mask p then { k with cause := 5 } else if bit old p then k.probation else k

end Sys2Proof.Machine
end

