-- ==== Sys2Proof/Machine/Engine.lean ====
section
/-! DEFINITION. The outer-loop control engine (R162 to R201): cycle 0 with everything latched there (R42, R164), rail
channels, region channels, the trim input, plausibility and doubt, the outputs of cycle 400 with their arrival, and the
coefficient banks. -/

namespace Sys2Proof.Machine

/-! ## Inputs of cycle 0 (R164) -/

/-- R164: what the report of a new period holds at its start: an episode, a round, a pre-strum or the fixed-rate mode
that goes on from the period before falls in it too. -/
def State.newReport (s : State) (r : Nat) : Report :=
  let x := s.region r
  let high (k : PulseKind) : Bool := (Config.regionStrings s.cfg r).any fun i => (s.str i).pulse.any fun p => p.kind == k
  { strum := x.strum.ep.isSome || high .strum, spread := high .spread, pre := x.pre.run.isSome
    fixed := x.loop.src == .fixedRate }

/-- The report of the period that ends at a cycle 0, `a` to `b`, and the objects latched with it. -/
def State.takeReport (s : State) (a b r : Nat) : State :=
  let x := s.region r
  let rep := { x.rep with fixed := x.rep.fixed || x.loop.src == .fixedRate }
  let new := s.newReport r
  let s := s.modRegion r fun x =>
    { x with
      rep := new
      sup := { x.sup with
        lastRep := rep
        vMean := if rep.vCnt = 0 then x.sup.vMean else (roundUp rep.vSum rep.vCnt).toNat
        dLog := ((a, b, rep.dMin, rep.fixed) :: x.sup.dLog).take 12 } }
  let s := (s.set (Obj.region_fire_count r) rep.pulses).set (Obj.region_vref r) x.loop.vref
  let s := s.set (Obj.region_vmin r) x.loop.vmin
  match rep.dMin with
  | some d => s.noteUndershoot r a b d
  | none => s

/-- R376: the VIN_SNS measurement of a period, in mV; that of the last one where a period has had no conversion. -/
def State.vinMean (s : State) : Nat :=
  if s.cg.vinCnt = 0 then s.cg.vinSns else (roundUp (s.cg.vinSum : Nat) s.cg.vinCnt).toNat

/-- R67: the VIN used for a region, with its source. -/
def State.vinFor (s : State) (r : Nat) : Nat × Nat :=
  let good (v : Nat) : Bool := decide (4500 ≤ v ∧ v ≤ 7500)
  let sns := s.vinMean
  match (s.conv (convOf r)).vinTap.filter good with
  | some v => (v, 0)
  | none => if 0 < s.cg.vinCnt && good sns then (sns, 1) else ((s.region r).sup.vin, 2)

def State.takeVin (s : State) (r : Nat) : State :=
  let v := s.vinFor r
  ((s.modSup r fun u => { u with vin := v.1 }).set (Obj.region_vin r) v.1).set (Obj.region_vin_source r) v.2

/-- R280, R224: the frame of the interval before is due; a missing one is counted from the second interval on. -/
def State.takeFrame (s : State) (r : Nat) : State :=
  let u := (s.region r).sup
  let s := if u.frame.isNone && !u.frameBad && decide (2 ≤ s.eng.ticks) then s.actReject else s
  s.modSup r fun u => { u with act := u.frame.map sumN, frame := none, frameBad := false }

/-- R278, R279: the tag of the period [a, b), where all but its activity frame makes it usable. -/
def State.takeTag (s : State) (a b r : Nat) : State :=
  let x := s.region r
  let ok := s.cfg.hasLearner && s.runs && x.loop.src != .fixedRate && !x.sup.lastRep.fixed
    && decide (0 < x.sup.cAct) && !(s.chan r).doubt && decide (0 < s.eng.ticks)
  let tag := if ok then s.tagOf r a b else none
  s.modSup r fun u => { u with tagDue := tag, tag := if tag.isNone then 0xFF else u.tag }

/-- R186: G6 is taken; a change of mode begins with an input that is not lost. -/
def State.takeTrimGroup (s : State) : State :=
  let t := s.takeGroup 6
  if t.used.g6.mode = s.used.g6.mode then t
  else { t with eng := { t.eng with lost := false, decay := false, baBad := 0, pwmAt := t.now } }

/-- BANK_SWAP_TAKE_EFFECT (R196). -/
def State.takeSwaps (s : State) : State :=
  let l := (List.range 79).filter fun ch => (s.chan ch).sampled
  overAll s l fun s ch =>
    (s.modChan ch fun c => { c with actB := !c.actB, sampled := false, copying := true }).count
      (Obj.ch_swap_count ch) 32

/-- The first part of a cycle 0: clocks, groups, reports, VIN, frames, bank swaps. -/
def State.beginPeriod (s : State) : State :=
  let a := s.eng.zeroAt
  let s : State := { s with eng := { s.eng with
    zeroAt := s.now, period := s.eng.period + 1, stall := true } }
  let s := (((s.takeGroup 1).takeGroup 4).takeGroup 5).takeTrimGroup
  let regs := Config.regions s.cfg
  let s := overAll s regs (State.takeReport · a s.now)
  let s := (overAll (overAll s regs State.takeVin) regs State.takeFrame).takeSwaps
  { s with
    cg := { s.cg with vinSns := s.vinMean, vinSum := 0, vinCnt := 0 }
    strings := s.strings.map Str.takeCorrection }

/-! ## The supervisor's latch (R42) -/

/-- What a latch decides for one string (R135 to R140). -/
def State.latchString (s : State) (i : Nat) : State := if s.runs then (s.latchTests i).latchSlope i else s

/-- R40 to R42, R134: the figures of the regions, with m(r) of every string. -/
def State.latchFigures (s : State) : State :=
  let regs := Config.regions s.cfg
  let s := overAll (overAll s regs State.latchRegion) regs State.latchLateral
  let s := overAll s (Config.allStrings s.cfg) State.latchMr
  { s with strings := s.strings.map Str.pushMr }

/-- Decisions on RETURNING strings, then returns and ramps (R126, R153). -/
def State.latchStates (s : State) : State :=
  let l := Config.allStrings s.cfg
  let s := overAll s l State.latchMr
  (if s.runs then overAll s l State.latchTestsRet else s).latchReturns

/-- LATCH (R42) and the decisions taken with it, in the order of R385: strings, currents, pickups, tests, rotation,
assist, derating, service reasons; no capo stands above f_max after it (R251). -/
def State.latch (s : State) : State :=
  let regs := Config.regions s.cfg
  let s : State := { s with strings := s.strings.map Str.latchMean }
  let s := (overAll s regs State.latchDisturb).latchStates.latchFigures
  let s := overAll s regs State.pickEvaluate
  let s := overAll s.latchRetry (Config.allStrings s.cfg) State.latchString
  let s := overAll s regs State.latchRotation
  let s := (overAll s.latchAssist regs State.latchDerate).latchService
  if s.runs && s.cap.stepSeen then s.holdCapos else s

/-! ## Fret terms and rail channels (R180 to R183, R209) -/

/-- R209, R220, R276: what fret control and the scoreboard hand to a rail channel. -/
def State.railTerms (s : State) (q : Nat) : State :=
  let s := s.set (Obj.rail_fret_fit q) (s.fretFit q)
  let s := (s.recoveryPeriod q).modRail q fun x => { x with needCalc := s.railNeeded q, req := s.bumpRequest q }
  s.set (Obj.rail_vtune q) (s.tuneAt q (s.rail q).needCalc)

/-- A step from `x` toward `t` by at most `up` or `down`. -/
def slewTo (x t up down : Int) : Int := if x ≤ t then min t (x + up) else max t (x - down)

/-- R181: a slew of 0.25 mV/µs units in fvu per period. -/
def slewFvu (v : Nat) : Int := (v * 1048576 / 10 : Nat)

/-- R182: the pre-bump of a rail. -/
def State.bumpNext (s : State) (q : Nat) : Int :=
  let x := s.rail q
  let up := slewFvu (s.getN (Obj.rail_bump_slew (76 + q)))
  let down := slewFvu (s.getN (Obj.rail_slew (76 + q)))
  match x.req with
  | none => slewTo x.bump 0 0 down
  | some (d, start) => if s.now < start then slewTo x.bump (s.bumpFvu q d).val up down else x.bump

/-- R166: the flags of the product of R182, where it is formed. -/
def State.bumpFlags (s : State) (q : Nat) : Nat :=
  match (s.rail q).req with
  | none => 0
  | some (d, start) => if s.now < start then (s.bumpFvu q d).fl else 0

/-- R408: the ramp reference of a rail in fvu. -/
def State.rampRef (s : State) (q : Nat) : Int :=
  let x := s.rail q
  match x.refAt with
  | none => 0
  | some t => (x.v0 * 65536 * min (s.now - t) (1000 * s.blk.rampTime) / (1000 * s.blk.rampTime) : Nat)

/-- R180: i_f of a rail. -/
def State.railFiltered (s : State) (q : Nat) : Fl :=
  let i : Int := sumN ((Config.railRegs s.cfg q).map fun r => (s.region r).sup.iReg)
  let x := (s.rail q).iF
  ({ val := x } : Fl).add (mulC (sat32 (i - x)) ((s.chan (76 + q)).coef 0))

/-- R180: the target of a rail in fvu, with `i` as i_f. -/
def State.railTarget (s : State) (q : Nat) (i : Fl) : Fl :=
  let x := s.rail q
  let term (v : Int) : Fl := { val := sat32 v }
  let tune := term (524288 * (s.tuneAt q x.needCalc : Int))
  let drop := term (s.dropFvu q i.val)
  let sum := (((tune.add (term (524288 * (s.tune.gAge : Int)))).add (term (x.gTrans * 524288 / 1000 : Nat))).add
    (term (524288 * (s.bandAdd q : Int)))).add (term (s.trimFvu q))
  { (sum.sub drop) with fl := (sum.sub drop).fl ||| i.fl }

/-- One rail channel. In RAMP the base follows the ramp and the bump is 0 (R183). -/
def State.railChannel (s : State) (q : Nat) : State :=
  let ch := 76 + q
  if (s.chan ch).hold then s.modChan ch fun c => { c with hold := false }
  else
    let i := s.railFiltered q
    let target := s.railTarget q i
    let lo : Int := mvUnits (railVmin q) * 65536
    let hi : Int := mvUnits (railVmax q) * 65536
    let ramp := s.blk.st == .ramp
    let slew := slewFvu (s.getN (Obj.rail_slew ch))
    let base := if ramp then max lo (s.rampRef q) else slewTo (s.rail q).base target.val slew slew
    let bump := if ramp then 0 else s.bumpNext q
    let sp := outClamp lo hi (({ val := base } : Fl).add { val := bump })
    let fl := target.fl ||| sp.fl ||| (if ramp then 0 else s.bumpFlags q)
    let s := s.modRail q fun x =>
      { x with iF := i.val, target := target.val, base := base, bump := bump, vRamp := if ramp then s.rampRef q else x.vRamp
               settledCalc := decide (base = target.val), spCalc := (roundUp sp.val 65536).toNat }
    s.modChan ch fun c => { c with live := fl, flags := c.flags ||| fl }

/-- The set-point of a rail in fvu before its rounding. -/
def State.setpointFvu (s : State) (q : Nat) : Int :=
  clampI (mvUnits (railVmin q) * 65536) (mvUnits (railVmax q) * 65536) ((s.rail q).base + (s.rail q).bump)

/-! ## The trim (R186 to R190) -/

/-- R186: the target in µV; the raw trim is in 0.125 mV. -/
def State.trimTarget (s : State) : Int :=
  let g := s.used.g6
  if g.mode = 0 then 0
  else clampI (-64000) 63000 (roundEven (s.eng.raw * 125 * g.gain) 256 + g.offset * 125)

/-- R187, R190: the trim value moves once a period; while the input is lost it holds, then decays by 1 mV/ms. -/
def State.trimPeriod (s : State) : State :=
  let e := s.eng
  let v := if s.used.g6.mode != 0 && e.lost then (if e.decay then slewTo e.val 0 1 1 else e.val)
    else slewTo e.val s.trimTarget 1000 1000
  { s with eng := { e with val := v } }

/-! ## Region channels (R171 to R177) -/

/-- R173: whether the integrators hold in this period; a channel in doubt holds too (R193). -/
def State.shareHolds (s : State) (r : Nat) (doubt : Bool) : Bool :=
  let u := (s.region r).sup.lastRep
  let n := ((Config.regionStrings s.cfg r).filter fun i => (s.str i).st == .active).length
  doubt || n < 2 || u.strum || u.spread || u.pre

/-- R484: the seed of an ACTIVE string enters its integrator. -/
def State.seedString (s : State) (i : Nat) : State :=
  if (s.str i).seedDue && s.runs then
    s.modStr i fun x => { x with seedDue := false, shI := if x.st = .active then x.seed * 65536 else x.shI }
  else s

/-- R172: strings that are neither ACTIVE nor SHED have integrator and trim 0; SHED ones hold, and so do all of them
where the integrators hold. -/
def State.shareIdle (s : State) (i : Nat) : State :=
  s.modStr i fun x => match x.st with
    | .active | .shed => { x with trimCalc := x.trimOut }
    | _ => { x with shI := 0, shMet := 0, trimCalc := 0 }

/-- R26, R172: the sharing target of a region's strings in 10 mA: the active mean, never above 5 A. -/
def State.shareTarget (s : State) (r : Nat) : Int := min 500 (s.region r).sup.mMean

/-- R172: the update of an ACTIVE string's integrator. -/
def State.shareUpdate (s : State) (r i : Nat) : Fl :=
  let c := s.chan r
  let x := s.str i
  let dev := sat32 (s.shareTarget r - x.mean)
  integrate x.shI x.shMet ((({ val := x.shI } : Fl).add (mulC dev (c.coef 1))).sub (mulC x.shI (c.coef 2)))

/-- R172: the integrator with the mean taken off, and the trim formed from it. -/
def State.shareOut (s : State) (r : Nat) (mean : Int) (p : Nat × Fl) : State × Nat :=
  let c := s.chan r
  let x := s.str p.1
  let i := ({ p.2 with } : Fl).sub { val := mean }
  let t := outClamp (-536870912) 536870912 (i.add (mulC (sat32 (s.shareTarget r - x.mean)) (c.coef 0)))
  (s.modStr p.1 fun x =>
    { x with shI := i.val, shMet := clampMet (-536870912) 536870912 t.val, trimCalc := roundEven t.val 65536 }, t.fl)

/-- Current sharing of a region: the new state and the flags. -/
def State.sharing (s : State) (r : Nat) (doubt : Bool) : State × Nat :=
  let l := Config.regionStrings s.cfg r
  let s := overAll (overAll s l State.seedString) l State.shareIdle
  if s.shareHolds r doubt then (s, 0)
  else
    let act := (l.filter fun i => (s.str i).st == .active).map fun i => (i, s.shareUpdate r i)
    let mean := roundEven (sumI (act.map (·.2.val))) act.length
    act.foldl (fun a p => let b := a.1.shareOut r mean p; (b.1, a.2 ||| b.2)) (s, 0)

/-- R174: the range of Kff in Q2.30. -/
def kffLo : Int := 805306368
def kffHi : Int := 1342177280

/-- R174: Kff of a region after a period, its value and flags. -/
def State.kffNext (s : State) (r : Nat) (doubt : Bool) : Fl :=
  let c := s.chan r
  let u := (s.region r).sup.lastRep
  let n := s.rotCount r
  if doubt || n = 0 || u.fixed || u.strum || u.spread || u.pre || n != c.nPrev then { val := c.kff }
  else
    let e : Int := u.fires * s.used.g1e.tsw - 4000 * n
    outClamp kffLo kffHi (integrate c.kff c.kMet (({ val := c.kff } : Fl).add (mulC (sat32 e) (c.coef 3))))

/-- R66: ton_base in 1/64 ns, truncated. R66 gives Kff as UQ1.15, R170 and R174 keep it in Q2.30; all of its bits enter
(log 89). -/
def State.tonBaseOf (s : State) (r : Nat) (kff : Int) : Nat :=
  let x := s.region r
  kff.toNat * x.loop.vref.toNat * s.used.g1e.tsw * 5 / (2 ^ 31 * x.sup.vin)

/-- R176: taking part, but for the neighbours. -/
def State.consEligible (s : State) (r : Nat) : Bool :=
  s.runs && decide (0 < (s.region r).sup.cAct) && !(s.chan r).doubt && (s.region r).loop.src == .own
def State.consParts (s : State) (r : Nat) : List Nat := (Config.neighbours s.cfg r).filter s.consEligible
def State.takesPart (s : State) (r : Nat) : Bool := s.consEligible r && !(s.consParts r).isEmpty

/-- R175: c of a region that takes part, before the rail mean is taken off. -/
def State.consNext (s : State) (r : Nat) : Fl :=
  let c := s.chan r
  let l := s.consParts r
  let m := roundEven (sumI (l.map fun n => ((s.region n).sup.util : Int))) l.length
  let e := ((s.region r).sup.util : Int) - m
  integrate c.c c.cMet ((({ val := c.c } : Fl).sub (mulC e (c.coef 5))).sub (mulC c.c (c.coef 6)))

/-- R175: the consensus terms of a rail, all of its regions together. -/
def State.consensus (s : State) (q : Nat) (doubt : Nat → Bool) : State :=
  let l := ((Config.railRegs s.cfg q).filter fun r => s.takesPart r && !doubt r).map fun r => (r, s.consNext r)
  let mean := roundEven (sumI (l.map (·.2.val))) l.length
  overAll s l fun s p =>
    let k := coefValue ((s.chan p.1).coef 7)
    let v := outClamp (-k) k (p.2.sub { val := mean })
    s.modChan p.1 fun c =>
      { c with c := v.val, cMet := clampMet (-k) k v.val, live := c.live ||| v.fl, flags := c.flags ||| v.fl }

/-- R176, R177: the offset of a region and its reference in 0.15625 mV, with the flags of their clamps. -/
def State.refNext (s : State) (r : Nat) : Fl × Fl :=
  let q := railOf r
  let assist := roundEven (((s.region r).sup.assist : Int) * 524288) 10
  let off := outClamp (-3355443) 3355443 (({ val := (s.chan r).c } : Fl).add { val := assist })
  let v := outClamp (mvUnits (railVmin q) * 65536) (mvUnits (railVmax q) * 65536)
    (({ val := s.setpointFvu q } : Fl).add { val := off.val })
  (off, v)

/-- R198: a region channel that delivers the outputs of the period before computes nothing. -/
def State.regionHeld (s : State) (r : Nat) : State :=
  let s := s.modChan r fun c => { c with hold := false }
  let s := overAll s (Config.regionStrings s.cfg r) fun s i => s.modStr i fun x => { x with trimCalc := x.trimOut }
  s.modSup r fun u => { u with vrCalc := u.vrOut, tbCalc := u.tbOut }

/-- R183: a region channel in RAMP: trims and c at 0, Kff at k4, the reference on the ramp. -/
def State.regionRamp (s : State) (r : Nat) : State :=
  if (s.chan r).hold then s.regionHeld r
  else
    let k := coefValue ((s.chan r).coef 4)
    let s := overAll s (Config.regionStrings s.cfg r) fun s i => s.modStr i fun x =>
      { x with shI := 0, shMet := 0, trimCalc := 0 }
    let s := s.modChan r fun c =>
      { c with kff := clampI kffLo kffHi k, kMet := 0, c := 0, cMet := 0, off := 0, nPrev := s.rotCount r }
    s.modSup r fun u => { u with vrCalc := s.rampRef (railOf r) / 65536, tbCalc := s.tonBaseOf r (clampI kffLo kffHi k) }

/-- One region channel in RUN or SERVICE, after the consensus terms; a channel that delivers the outputs of the period
before (R198) computes nothing. -/
def State.regionChannel (s : State) (r : Nat) (doubt : Bool) : State :=
  if (s.chan r).hold then s.regionHeld r
  else
    let sh := s.sharing r doubt
    let s := sh.1
    let k := s.kffNext r doubt
    let v := s.refNext r
    let fl := sh.2 ||| k.fl ||| v.1.fl ||| v.2.fl
    let s := s.modSup r fun u => { u with vrCalc := truncZero v.2.val 65536, tbCalc := s.tonBaseOf r k.val }
    s.modChan r fun c =>
      { c with kff := k.val, kMet := clampMet kffLo kffHi k.val, off := v.1.val, nPrev := s.rotCount r
               live := c.live ||| fl, flags := c.flags ||| fl }

/-! ## Plausibility (R191 to R194) -/

/-- R192: periods that are skipped. -/
def State.plausSkips (s : State) (r : Nat) : Bool :=
  let x := s.region r
  let u := x.sup.lastRep
  !s.runs || u.strum || u.spread || u.pre || u.srcChange || u.fixed
    || decide ((x.sup.vrOut - x.sup.vrPrev).natAbs * 5 > 32)

/-- R191: the deviation d of a channel, with the flags of its arithmetic. -/
def State.deviation (s : State) (r : Nat) : Fl :=
  ({ val := sat32 ((s.region r).sup.vMean * 65536) } : Fl).sub (s.predictedFl r)

/-- R191: d is formed in every period that has a mean of vmin, and reported; its flags are the first of the period. -/
def State.noteDeviation (s : State) (r : Nat) : State :=
  if (s.region r).sup.lastRep.vCnt = 0 then s.modChan r fun c => { c with live := 0 }
  else
    let d := s.deviation r
    s.modChan r fun c =>
      { c with dev := clampI (-32768) 32767 (truncZero d.val 65536), live := d.fl, flags := c.flags ||| d.fl }

/-- PLAUSIBILITY: the counts of a channel, and whether it enters or leaves doubt. A period without a mean of vmin says
nothing. -/
def State.plausible (s : State) (r : Nat) : State :=
  let s := s.noteDeviation r
  if s.plausSkips r || (s.region r).sup.lastRep.vCnt == 0 then s
  else
    let bad := decide (((s.deviation r).val.natAbs : Int) > 524288 * s.getN Obj.plaus_limit)
    let s := s.modChan r fun c =>
      { c with bad := if bad then c.bad + 1 else 0, good := if bad then 0 else c.good + 1 }
    let c := s.chan r
    if !c.doubt && decide (s.getN Obj.plaus_periods ≤ c.bad) then s.modChan r fun c => { c with doubtCalc := some true, good := 0 }
    else if c.doubt && decide (s.getN Obj.plaus_clear ≤ c.good) then s.modChan r fun c => { c with doubtCalc := some false }
    else s

/-- R193: a channel holds while it is in doubt, the period of entry included. -/
def Chan.holdsDoubt (c : Chan) : Bool := c.doubt || c.doubtCalc == some true

/-! ## CONTROL_PERIOD (R163) -/

/-- The computation of a period from its latched inputs. -/
def State.compute (s : State) : State :=
  let s := s.trimPeriod
  let s := overAll s [0, 1, 2] State.railTerms
  let s := overAll s.abandonFrets [0, 1, 2] State.railChannel
  let regs := Config.regions s.cfg
  let s := overAll s regs State.plausible
  if s.blk.st = .ramp then overAll s regs State.regionRamp
  else
    let held (r : Nat) : Bool := (s.chan r).holdsDoubt || (s.chan r).hold
    let s := overAll s [0, 1, 2] (State.consensus · · held)
    overAll s regs fun s r => s.regionChannel r (s.chan r).holdsDoubt

/-- R280, R533: ACT_TICK rises 2 to 4 cycles of HMEM_CLK after a cycle 0; where in that range is open (log 98). -/
def State.tickDelay (s : State) (k : Nat) : Nat :=
  let f := clampN 200 1000 s.clk.hmem
  2000 / f + k % (4000 / f - 2000 / f + 1)
def State.pulseTick (s : State) : State :=
  let k := s.takeFree
  { k.2 with eng := { k.2.eng with tickAt := s.now + s.tickDelay k.1 } }

/-- Cycle 0: inputs, the supervisor's latch, tags, the computation, power sums. ACT_TICK pulses (R280). -/
def State.controlPeriod (s : State) : State :=
  let a := s.eng.zeroAt
  let s := s.beginPeriod.latch
  let s := overAll s (Config.regions s.cfg) (State.takeTag · a s.now)
  let s : State := { s with
    hints := { s.hints with
      past := [], asking := s.hints.asking.filter s.asks
      entries := s.hints.entries.map fun h => { h with joined := [] } }
    eng := { s.eng with ticks := s.eng.ticks + 1 }
    learn := { s.learn with dueRun := s.learn.perRun, perRun := s.learn.msRun } }
  let s := s.pulseTick
  if s.engineOn then
    let s := s.compute.powerPeriod
    { s with eng := { s.eng with computed := true } }
  else s

def execControlPeriod (s : State) : Out := .next (s.when s.engineOn s.controlPeriod)

/-! ## Outputs (R163, R165) -/

/-- ENGINE_OUTPUTS: all outputs of the period are written at cycle 400. -/
def State.engineOutputs (s : State) : State :=
  { s with
    eng := { s.eng with computed := false, written := true }
    rails := s.rails.map fun x => { x with spOut := x.spCalc, needOut := x.needCalc, settled := x.settledCalc }
    regions := s.regions.map fun x => { x with sup := { x.sup with
      vrPrev := x.sup.vrOut, vrOut := x.sup.vrCalc, tbOut := x.sup.tbCalc } }
    chans := s.chans.map fun c => { c with kffOut := c.kff, cOut := c.c, offOut := c.off }
    strings := s.strings.map fun x => { x with trimOut := x.trimCalc } }

def execEngineOutputs (s : State) : Out := .next (s.when (s.engineOn && s.eng.computed) s.engineOutputs)

/-- R193: the doubt check of a region's string sensors. -/
def State.askDoubt (s : State) (r : Nat) : State :=
  overAll s (Config.regionStrings s.cfg r) fun s i =>
    s.askUrgent (i / 16) { input := i % 16, ts := 4, gain := 0, mode := 0, owner := some i }

/-- DOUBT_ENTRY and DOUBT_EXIT at cycle 410 (R193, R194). -/
def State.takeDoubt (s : State) (r : Nat) : State :=
  match (s.chan r).doubtCalc with
  | none => s
  | some true =>
    let s := s.modChan r fun c => { c with doubt := true, doubtCalc := none, bad := 0 }
    (((s.countSat (Obj.ch_doubt_count r) 16).fire 25 1 (srcChan r))).askDoubt r
  | some false => (s.modChan r fun c => { c with doubt := false, doubtCalc := none, bad := 0 }).fire 25 0 (srcChan r)

/-- The outputs of a period reach one region island (R59, R68). -/
def State.islandOutputs (s : State) (r : Nat) : State :=
  let u := (s.region r).sup
  let s := s.modLoop r fun l => { l.newRef (s.refTarget l u.vrOut) u.vrOut with tonBase := u.tbOut }
  (s.set (Obj.region_ton_base r) u.tbOut).fretSettle r

/-- OUTPUTS_ARRIVAL at cycle 410: the outputs, and the committed G1 and G4 sets (R81, R102). -/
def State.outputsArrival (s : State) : State :=
  let s := s.applyIsland
  let s : State := { s with
    eng := { s.eng with written := false }
    strings := s.strings.map fun x => { x with trim := x.trimOut } }
  let regs := Config.regions s.cfg
  overAll (overAll s regs State.islandOutputs) regs State.takeDoubt

def execOutputsArrival (s : State) : Out := .next (s.when s.eng.written s.outputsArrival)

/-! ## Coefficient banks (R195 to R198) -/

/-- SWAP_SAMPLE at cycle 498: requests are sampled, and shadow writes stall from here to the end of the copy. -/
def execSwapSample (s : State) : Out :=
  .next (s.when s.engineOn { s with
    eng := { s.eng with stall := true }
    chans := s.chans.map fun c => { c with sampled := c.sampled || c.req, req := false } })

/-- The shadow bank of a channel. -/
def Chan.shadow (c : Chan) : List (Int × Nat) := if c.actB then c.bankA else c.bankB
def Chan.active (c : Chan) : List (Int × Nat) := if c.actB then c.bankB else c.bankA
def Chan.setShadow (c : Chan) (l : List (Int × Nat)) : Chan := if c.actB then { c with bankA := l } else { c with bankB := l }
def Chan.setActive (c : Chan) (l : List (Int × Nat)) : Chan := if c.actB then { c with bankB := l } else { c with bankA := l }

/-- R201: the value of a coefficient (subs 1 to 24) or of a shift (subs 33 to 56) lands in the shadow bank. -/
def Chan.land (c : Chan) (w : Nat × Int) : Chan :=
  if w.1 < 0x21 then c.setShadow (c.shadow.modify (w.1 - 1) fun k => (w.2, k.2))
  else c.setShadow (c.shadow.modify (w.1 - 0x21) fun k => (k.1, w.2.toNat))

/-- BANK_COPY_END at cycle 48: the new shadow holds what the active bank holds, then the stalled writes land. -/
def Chan.copyEnd (c : Chan) : Chan :=
  let d := if c.copying then c.setShadow c.active else c
  c.stalled.foldl Chan.land { d with copying := false, stalled := [] }

def execBankCopyEnd (s : State) : Out :=
  .next { s with eng := { s.eng with stall := false }, chans := s.chans.map Chan.copyEnd }

/-- R179, R185: the range of a coefficient's value. -/
def coefRange (ch n : Nat) : Int × Int :=
  if ch < 76 then
    match n with
    | 0 | 1 => (0, 1073741824)
    | 2 | 6 => (0, 2147483647)
    | 3 | 5 | 8 => (0, 1048576)
    | 4 => (kffLo, kffHi)
    | 7 => (0, 3355443)
    | _ => (-2147483648, 2147483647)
  else
    match n with
    | 0 => (0, 2147483647)
    | 1 => (0, 65536)
    | _ => (-2147483648, 2147483647)

/-- R197: what the shadow bank will hold once the writes that are stalled have landed. A request that comes while their
handshakes last is served after them, so a read shows this bank (log 45). -/
def Chan.shadowSeen (c : Chan) : List (Int × Nat) :=
  if c.stalled.isEmpty then c.shadow else c.copyEnd.shadow

/-- R197: a shadow write, clamped; stalled while a copy may run. While the engine does not run no copy runs either, and
a write lands at once (log 90). -/
def State.shadowWrite (s : State) (ch sub : Nat) (v : Int) : State :=
  let w := if sub < 0x21 then clampI (coefRange ch (sub - 1)).1 (coefRange ch (sub - 1)).2 v else clampI 0 31 v
  s.modChan ch fun c =>
    if s.engineOn && s.eng.stall then { c with stalled := c.stalled ++ [(sub, w)] } else c.land (sub, w)

/-- `bank_swap` (R196): requests of populated channels; those of one sample act as one. -/
def State.bankSwap (s : State) (mask : Nat) : State :=
  { s with chans := s.chans.zipIdx.map fun p =>
      if bit mask p.2 && Config.popChan s.cfg p.2 then { p.1 with req := true } else p.1 }

/-- `ch_flags_clear` (R169). -/
def State.flagsClear (s : State) (ch mask : Nat) : State :=
  s.modChan ch fun c => { c with flags := c.flags &&& (31 - mask % 32) }

/-- R198: the outputs of the period before are delivered: of the period in progress, or of the next. -/
def State.holdOutputs (s : State) (ch : Nat) : State :=
  if !s.eng.computed then s.modChan ch fun c => { c with hold := true }
  else if ch < 76 then
    let s := overAll s (Config.regionStrings s.cfg ch) fun s i => s.modStr i fun x => { x with trimCalc := x.trimOut }
    s.modSup ch fun u => { u with vrCalc := u.vrOut, tbCalc := u.tbOut }
  else s.modRail (ch - 76) fun x => { x with spCalc := x.spOut }

/-- BANK_PARITY_ERROR (R198). -/
def State.bankParity (s : State) (ch : Nat) (t : ParityTarget) : State :=
  match t with
  | .bank =>
    let s := s.parityError.modChan ch fun c =>
      { c.setActive (if ch < 76 then regionBank else railBank) with
        flags := c.flags ||| flagBankFault, live := c.live ||| flagBankFault }
    (s.holdOutputs ch).fire 26 0 (srcChan ch)
  | .share i => ((s.parityError.modStr i fun x => { x with shI := 0, shMet := 0 }).fire 26 1 (srcChan ch))
  | .cons => ((s.parityError.modChan ch fun c => { c with c := 0, cMet := 0 }).fire 26 1 (srcChan ch))
  | .kff =>
    let k := clampI kffLo kffHi (coefValue ((s.chan ch).coef 4))
    ((s.parityError.modChan ch fun c => { c with kff := k, kMet := 0 }).fire 26 1 (srcChan ch))

/-- Whether an integrator of that name belongs to a channel. -/
def State.ownsTarget (s : State) (ch : Nat) : ParityTarget → Bool
  | .bank => true
  | .share i => Config.popString s.cfg i && regionOf i == ch
  | .kff | .cons => ch < 76

def execBankParityError (ch : Nat) (t : ParityTarget) (s : State) : Out :=
  within s 79 ch (s.when (Config.popChan s.cfg ch && s.engineOn && s.ownsTarget ch t) (s.bankParity ch t))

/-! ## The trim input (R188 to R190) -/

/-- The first usable period or conversion ends a loss. -/
def State.trimFound (s : State) (raw : Int) : State :=
  let t : State := { s with eng := { s.eng with raw := raw, usable := true, lost := false, decay := false } }
  if s.eng.lost then t.fire 27 1 else t

/-- TRIM_PWM_PERIOD (R188): high and low time in 4 ns. -/
def State.pwmPeriod (s : State) (high low : Nat) : State :=
  let n := high + low
  if s.used.g6.mode != 1 || n < 250 || n > 31250 || high < 5 || low < 5 then s
  else
    let s := s.trimFound (roundUp (1016 * high : Nat) n - 512)
    { s with eng := { s.eng with pwmTicks := n, pwmAt := s.now } }

def execTrimPwmPeriod (high low : Nat) (s : State) : Out := .next (s.when s.blk.st.active (s.pwmPeriod high low))

/-- R190: whether the input is lost. In PWM mode there is no last usable period before the first one; until it has come
the trim stays where it stands and the input is not declared lost (log 91). -/
def State.trimGone (s : State) : Bool :=
  match s.used.g6.mode with
  | 1 => decide (0 < s.eng.pwmTicks) && decide (s.eng.pwmAt + 16 * s.eng.pwmTicks ≤ s.now)
  | 2 => decide (4 ≤ s.eng.baBad)
  | _ => false

/-- TRIM_INPUT_LOST (R190). -/
def execTrimInputLost (s : State) : Out :=
  .next (s.when (s.trimGone && !s.eng.lost)
    (({ s with eng := { s.eng with lost := true, lostAt := s.now, decay := false } } : State).fire 27 0))

/-- TRIM_HOLD_EXPIRY (R190). -/
def execTrimHoldExpiry (s : State) : Out :=
  .next (s.when (s.eng.lost && decide (s.eng.lostAt + 1000000 * s.getN Obj.trim_hold ≤ s.now))
    { s with eng := { s.eng with decay := true } })

/-- BOARD_ANALOG_CONVERSION (R376), with the analog trim of R189. A code of 0x000 or 0xFFF is no reading of the input
(R190) and leaves the raw trim, also before the loss is declared (log 92). -/
def State.boardConversion (s : State) (i : BaInput) (res : Option (Int × Bool)) : State :=
  let s := s.boardResult i res
  let c := s.cg.trimCode
  match i, res with
  | .trim, some (_, true) =>
    if s.used.g6.mode = 2 && !s.cg.baFailed && c != 0 && c != 4095 then s.trimFound (roundUp (1016 * c : Nat) 4096 - 512)
    else s
  | _, _ => s

def execBoardAnalogConversion (i : BaInput) (res : Option (Int × Bool)) (s : State) : Out :=
  .next (s.when s.convRuns (s.boardConversion i res))

/-- R199: `trim_state`. -/
def State.trimState (s : State) : Nat :=
  if s.used.g6.mode = 0 then 0 else if !s.eng.lost then 1 else if s.eng.decay then 3 else 2

end Sys2Proof.Machine
end

