-- ==== Sys2Proof/Machine/Fuses.lean ====
section
/-! DEFINITION. FUSELOAD (R401): the fuse image (R538) with the check of its tuning part (R205 to R207), and the reload
of the static class table (R273). -/

namespace Sys2Proof.Machine

/-- A U16 of the image. -/
def imgU16 (b : List Byte) (o : Nat) : Nat := fieldAt b o 2

/-! ## The tuning part (R205, R206) -/

/-- R206: each entry is the larger of itself and the one before. -/
def rising : List Nat → Nat → List Nat
  | [], _ => []
  | x :: l, m => max x m :: rising l (max x m)

/-- The fused tuning part, each value clamped to the range of its object. -/
def tuningOf (b : List Byte) : Tuning :=
  let table (o : Nat) : List Nat := (List.range 16).map fun f => clampN 400 760 (imgU16 b (o + 2 * f))
  { chip := table 0x10, matched := table 0x30
    mem := [clampN 520 680 (imgU16 b 0x50), clampN 600 760 (imgU16 b 0x52),
      clampN 520 680 (imgU16 b 0x54), clampN 600 760 (imgU16 b 0x56)]
    gAge := clampN 8 16 (b.getD 0x58 0), floor := clampN 16 36 (b.getD 0x59 0)
    model := (List.range 96).map fun k => imgU16 b (0x5C + 2 * k) }

/-- R206: the fallback table, in 1.25 mV. -/
def tuningFallback : Tuning :=
  let t := (List.range 16).map fun f => 560 + 10 * f
  { chip := t, matched := t, mem := [624, 688, 624, 688], gAge := 16, floor := 36, source := 1
    model := List.replicate 96 0xFFFF }

/-- Bit f for each fret of which a test holds. -/
def fretBits (f : Nat → Bool) : Nat := sumN (((List.range 16).filter f).map (2 ^ ·))

/-- R206, R207: a fused table made consistent. -/
def Tuning.checked (t : Tuning) : Tuning :=
  let c := rising t.chip 0
  let m := rising t.matched 0
  { t with
    chip := c, matched := m
    adjusted := fretBits fun f => c.getD f 0 != t.chip.getD f 0 || m.getD f 0 != t.matched.getD f 0
    exceed := fretBits fun f => decide (m.getD f 0 < c.getD f 0) }

/-- TUNE_CHECK (R206): an event for the fallback, or for each fret raised. -/
def State.tuneCheck (s : State) (b : List Byte) : State :=
  let grade := min 15 (b.getD 1 0)
  if fieldAt b 0x11C 4 ≠ crc32c (slice b 0x10 0x10C) then
    ({ s with tune := { tuningFallback with grade := grade } } : State).fire 4 0
  else
    let t := (tuningOf b).checked
    let s : State := { s with tune := { t with grade := grade } }
    overAll s ((List.range 16).filter (bit t.adjusted)) fun s _ => s.fire 4 1

/-! ## The rest of the image -/

/-- R267: the static class table. -/
def Hints.loadStatic (h : Hints) (b : List Byte) : Hints :=
  { h with
    cur := (List.range 2432).map fun k => imgU16 b (0x780 + 2 * k)
    droop := (List.range 96).map fun k => min 32 (b.getD (0x1A80 + k) 0)
    lead := (List.range 32).map fun k => clampN 5 200 (b.getD (0x1AE0 + k) 0)
    reload := false }

/-- Pickup corrections of a region (R48). -/
def State.loadPickups (s : State) (b : List Byte) (r : Nat) : State :=
  s.modRegion r fun x => { x with pk := x.pk.zipIdx.map fun p =>
    let o := 0x120 + 2 * (firstPickup r + p.2)
    { p.1 with o := signedAt b o 1, g := fieldAt b (o + 1) 1 } }

/-- A ramp order names each rail once (R406). -/
def orderValid (v : Nat) : Bool := [0, 1, 2].all fun q => (rampOrderOf v).contains q

def State.loadImage (s : State) (b : List Byte) : State :=
  let s := overAll s (Config.regions s.cfg) fun s r =>
    (s.loadPickups b r).modDiode r fun d => { d with trim := signedAt b (0x600 + r) 1 }
  let s := overAll s (List.range 4) fun s q => s.modFront q fun f => { f with ref := signedAt b (0x64C + 2 * q) 2 }
  let s := overAll s (Config.convs s.cfg) fun s n => s.modConv n fun c =>
    { c with trimOff := signedAt b (0x660 + 4 * n) 1, trimGain := signedAt b (0x661 + 4 * n) 1
             refFused := min 4095 (imgU16 b (0x662 + 4 * n)) }
  let order := if orderValid (b.getD 2 0) then b.getD 2 0 % 64 else 0x24
  let s := (s.modBlk fun x => { x with fusedOrder := order }).set Obj.ramp_order order
  { s with
    hints := s.hints.loadStatic b
    therm := { s.therm with shutdown := clampI 880 1000 (signedAt b 6 2) }
    cg := { s.cg with
      baOff := signedAt b (0x660 + 4 * 70) 1, baGain := signedAt b (0x661 + 4 * 70) 1
      baRef := min 4095 (imgU16 b (0x662 + 4 * 70)) }
    dict := { s.dict with
      key := slice b 0x1B00 32
      i3c := { s.dict.i3c with inst := b.getD 3 0 % 16, maker := imgU16 b 4 % 32768 } } }

/-- FUSELOAD_COMPLETE: the image is loaded and checked, and the block enters DISCOVER. -/
def execFuseloadComplete (image : List Byte) (s : State) : Out :=
  .next (s.when (s.blk.st == .fuseload) ((s.loadImage image).tuneCheck image).startDiscover)

/-- STATIC_TABLE_RELOADED (R273). -/
def execStaticTableReloaded (image : List Byte) (s : State) : Out :=
  .next (s.when s.hints.reload { s with hints := s.hints.loadStatic image })

end Sys2Proof.Machine
end

