-- ==== Sys2Proof/Machine/ObjRead.lean ====
section
/-! DEFINITION. What each object of the dictionary reads (R426 to R428): the register file, or a value computed from the
state. One function for each index range, by sub-index. `who` is the slot of the reading session, none for a
sessionless read and for the recorder. -/

namespace Sys2Proof.Machine

/-- A value of an object: a number, or the bytes of a BLOB. -/
inductive Val where
  | num (v : Int)
  | blob (b : List Byte)
deriving DecidableEq, Repr

def nat (n : Nat) : Option Val := some (.num n)
def int (v : Int) : Option Val := some (.num v)
def flag (b : Bool) : Option Val := some (.num (b2n b))
def blobOf (b : List Byte) : Option Val := some (.blob b)

/-- A BLOB of `n` bytes with bit `i` set where `f i` holds. -/
def bitMap (n : Nat) (f : Nat → Bool) : List Byte :=
  (List.range n).map fun j => sumN ((List.range 8).map fun i => if f (8 * j + i) then 2 ^ i else 0)

/-- `n` unsigned 16-bit words. -/
def words16 (n : Nat) (f : Nat → Nat) : List Byte := ((List.range n).map fun i => leBytes 2 (f i)).flatten

/-! ## Identity and block (R4, R423, R547) -/

def State.readIdentity (s : State) (sub : Nat) : Option Val :=
  match sub with
  | 0x04 => nat s.configHash
  | 0x05 => nat s.cfg.variant
  | _ => none

def State.readConfig (s : State) (sub : Nat) : Option Val :=
  match sub with
  | 0x01 => nat s.cfg.units
  | 0x02 => nat s.cfg.nVcore
  | 0x03 => nat s.cfg.nStr
  | 0x06 => nat (Config.allStrings s.cfg).length
  | 0x07 => nat (Config.courses s.cfg).length
  | 0x08 => nat (Config.convs s.cfg).length
  | _ => none

def State.readBlock (s : State) (sub : Nat) : Option Val :=
  match sub with
  | 0x01 => nat s.blk.st.code
  | 0x02 | 0x05 => nat 0
  | 0x03 => nat s.blk.since
  | 0x06 => nat s.blk.resetCause
  | 0x07 => nat s.blk.resetCount
  | 0x0B => nat s.blk.shutCause
  | 0x0C => flag s.blk.shutPending
  | 0x15 => nat s.now
  | 0x16 => flag s.clk.refLost
  | 0x18 => blobOf (bitMap 10 fun r => s.clk.bad.contains r)
  | 0x1B => nat s.clk.hmem
  | _ => none

/-! ## Commit groups (R450, R451, R458, R459) -/

def State.readCommit (s : State) (sub : Nat) : Option Val :=
  match sub with
  | 0x01 | 0x03 => nat 0
  | 0x02 => nat s.dict.pending
  | _ => none

/-- R451: the staged value of a member while its group is pending, else the committed one. -/
def State.staged (s : State) (g : Reg) (group : Nat) : Int :=
  if bit s.dict.pending group then (rfGet s.dict.staged g.addr).getD (s.get g) else s.get g

/-! ## Rails and regions (R44, R45, R82, R120, R121, R161, R228, R229, R261, R424) -/

def RailSt.code : RailSt → Nat
  | .off => 0 | .ramping => 1 | .good => 2 | .notStarted => 3 | .failed => 4 | .down => 5

/-- The guard in force is reported rounded up to its unit (log 60). R227 lets the objects of margin recovery abort where
the learner is absent and does not say whether `rail_recovery` is one of them: it is served in every variant, and reads
0 where nothing recovers (log 93). -/
def State.readRail (s : State) (q sub : Nat) : Option Val :=
  let rs := Config.railRegs s.cfg q
  match sub with
  | 0x03 => nat ([0, 64, 72].getD q 0)
  | 0x04 => nat rs.length
  | 0x05 => nat (sumN (rs.map (Config.strings s.cfg)))
  | 0x06 => nat (if q = 0 then 50 * s.cfg.nVcore else if q = 1 then 240 else 110)
  | 0x07 => nat (sumN (rs.map fun r => (s.region r).sup.cAct))
  | 0x08 => nat (sumN (rs.map fun r => (s.region r).sup.iReg))
  | 0x0B => nat (s.railNeeded q)
  | 0x0D => nat (ceilDiv (s.rail q).gTrans 1000)
  | 0x0E => nat (s.rail q).recov
  | 0x10 => nat (s.rail q).st.code
  | _ => none

/-- Strings of a region in a state. -/
def State.stringsIn (s : State) (r : Nat) (x : StrSt) : Nat :=
  ((Config.regionStrings s.cfg r).filter fun i => (s.str i).st == x).length

def FretStep.code : FretStep → Nat
  | .idle => 0 | .upWait => 1 | .up => 2 | .down => 3

def State.readRegionFabric (s : State) (r sub : Nat) : Option Val :=
  let u := (s.region r).sup
  match sub with
  | 0x01 => nat (railOf r)
  | 0x02 => nat (if r < 64 then 16 * (r / 8) + r % 8 else 0xFF)
  | 0x03 | 0x04 | 0x05 | 0x06 => nat (((Config.neighbourDirs s.cfg r).getD (sub - 3) none).getD 0xFF)
  | 0x07 => nat (Config.strings s.cfg r)
  | 0x08 => nat (s.stringsIn r .muted)
  | 0x09 => nat (min 65535 u.iReg)
  | 0x0A => nat u.cAct
  | 0x0B => nat u.cSt
  | 0x0C => nat (min 255 u.need)
  | 0x0D => nat (s.lateral r)
  | 0x0E => nat u.util
  | 0x0F | 0x10 | 0x11 | 0x12 => nat (((Config.thermalDirs s.cfg r).getD (sub - 0x0F) none).getD 0xFF)
  | _ => none

def State.readRegionLoop (s : State) (r sub : Nat) : Option Val :=
  let x := s.region r
  match sub with
  | 0x15 => nat (sumN (x.pk.zipIdx.map fun (k, p) => if k.cause = 0 then 2 ^ p else 0))
  | 0x16 => nat (sumN (x.pk.zipIdx.map fun (k, p) => k.cause * 8 ^ p))
  | 0x17 => nat 0
  | 0x19 => nat x.loop.src.code
  | 0x1A => nat (s.diode r).band
  | 0x1F => blobOf (x.pk.map fun k => [ofSigned 8 k.o, k.g]).flatten
  | 0x28 => nat (s.stringsIn r .shed)
  | 0x29 => nat (min 200 x.sup.hold)
  | 0x2A => nat (if x.pre.run.isSome then 2 else if x.pre.starts.isEmpty then 0 else 1)
  | 0x2B => nat ((x.pre.starts.map (·.1)).headD 0)
  | 0x2E => nat x.sup.ceiling
  | 0x2F => flag x.sup.regHold
  | 0x30 => nat x.sup.assist
  | 0x31 => nat (s.stringsIn r .blind)
  | 0x32 => nat (s.stringsIn r .hiccup)
  | 0x33 => nat (s.stringsIn r .returning)
  | 0x34 => nat x.fret.fret
  | 0x35 => nat (s.fretTarget r)
  | 0x37 => nat x.fret.step.code
  | 0x3D => flag s.cap.floor
  | _ => none

def State.readRegion (s : State) (r sub : Nat) : Option Val :=
  (s.readRegionFabric r sub).or (s.readRegionLoop r sub)

/-! ## Loop settings, wakes, strings, courses, faults (R79, R122, R158, R159, R160, R425, R519) -/

/-- R79: `ripple_window` follows `tsw_target` as the engine has latched it, at cycle 0 (log 94). -/
def State.readLoopSettings (s : State) (sub : Nat) : Option Val :=
  match sub with
  | 0x0C => nat s.used.g1e.window
  | _ => none

def State.readWake (s : State) (sub : Nat) : Option Val :=
  match sub with
  | 0x0A => blobOf (bitMap 10 fun r => (s.region r).wake.pending)
  | _ => none

def State.readString (s : State) (i sub : Nat) : Option Val :=
  let x := s.str i
  match sub with
  | 0x01 => nat x.st.code
  | 0x02 => nat x.cause
  | 0x03 => nat (if x.blind then x.blindCause else 0)
  | 0x04 => int x.mean
  | 0x05 => int x.trim
  | 0x06 => nat (if x.st = .returning then rampEighths x.rampStep else 0)
  | 0x07 => nat (if x.st = .returning then x.rampStep else 0)
  | 0x08 => nat x.openCtr
  | 0x0C => nat 0
  | _ => none

/-- A BLOB whose table gives it at most `n` bytes is `n` bytes long, the missing ones 0 (log 61). -/
def padTo (n : Nat) (b : List Byte) : List Byte := slice b 0 n

def State.readCourse (s : State) (c sub : Nat) : Option Val :=
  let x := s.course c
  match sub with
  | 0x01 => flag x.present
  | 0x02 => nat x.frame
  | 0x03 => flag x.lost
  | 0x05 => flag x.flt
  | 0x06 => flag x.backstop
  | 0x09 => nat x.status
  | 0x0A => blobOf (padTo 32 x.ident)
  | 0x0B => nat x.outcome
  | 0x0C => blobOf (padTo 128 x.record)
  | 0x0D => nat x.recState
  | _ => none

def State.readFaults (s : State) (sub : Nat) : Option Val :=
  match sub with
  | 0x16 => nat s.mutedTotal
  | 0x17 => nat s.blindTotal
  | _ => none

/-! ## The engine (R199 to R201) -/

def State.readEngine (s : State) (sub : Nat) : Option Val :=
  match sub with
  | 0x02 => blobOf (List.replicate 10 0)
  | 0x03 => blobOf (bitMap 10 fun ch => (s.chan ch).req || (s.chan ch).sampled)
  | 0x0C => int (truncZero s.eng.val 125)
  | 0x0D => int s.eng.raw
  | 0x0E => nat s.trimState
  | 0x0F => nat s.eng.pwmTicks
  | 0x10 => nat s.eng.period
  | _ => none

/-- `fvu` per 0.15625 mV is 65,536 (R170). -/
def fvuUnits (v : Int) : Int := truncZero v 65536

def State.readChannel (s : State) (ch sub : Nat) : Option Val :=
  let c := s.chan ch
  let x := s.rail (ch - 76)
  match sub with
  | 0x01 => flag (decide (ch ≥ 76))
  | 0x02 => flag c.actB
  | 0x04 => nat c.flags
  | 0x05 => nat c.live
  | 0x06 => nat 0
  | 0x07 => int (c.kffOut / 32768)
  | 0x08 => int (fvuUnits c.cOut)
  | 0x09 => int (fvuUnits c.offOut)
  | 0x0A => int c.dev
  | 0x0B => flag c.doubt
  | 0x10 => int (fvuUnits x.target)
  | 0x11 => nat x.spOut
  | 0x12 => int (fvuUnits x.bump)
  | 0x16 => flag x.settled
  | 0x17 => int x.iF
  | _ => none

def State.readCoef (s : State) (ch sub : Nat) : Option Val :=
  let at_ (l : List (Int × Nat)) (k : Nat) : Int × Nat := l.getD k (0, 0)
  let c := s.chan ch
  if sub < 0x20 then int (at_ c.shadowSeen (sub - 1)).1
  else if sub < 0x40 then nat (at_ c.shadowSeen (sub - 0x21)).2
  else if sub < 0x60 then int (at_ c.active (sub - 0x41)).1
  else nat (at_ c.active (sub - 0x61)).2

/-! ## Frets (R227) -/

def State.readTune (s : State) (sub : Nat) : Option Val :=
  if 1 ≤ sub ∧ sub ≤ 0x10 then nat (s.tune.chip.getD (sub - 1) 0)
  else if 0x11 ≤ sub ∧ sub ≤ 0x20 then nat (s.tune.matched.getD (sub - 0x11) 0)
  else match sub with
  | 0x21 => nat (s.tune.mem.getD 0 0)
  | 0x22 => nat (s.tune.mem.getD 1 0)
  | 0x23 => nat (s.tune.mem.getD 2 0)
  | 0x24 => nat (s.tune.mem.getD 3 0)
  | 0x25 => nat s.tune.gAge
  | 0x26 => nat s.tune.floor
  | 0x28 => nat s.tune.source
  | 0x29 => nat s.tune.adjusted
  | 0x2A => nat s.tune.grade
  | 0x2C => nat (if !s.cap.matched then 0 else if s.cap.susp then 2 else 1)
  | 0x2D => nat s.tune.exceed
  | 0x2F => blobOf (words16 96 fun i => s.tune.model.getD i 0)
  | 0x39 => blobOf ((List.range 96).map fun i => (s.rcv (i / 3) (i % 3)).rv)
  | _ => none

/-! ## Cap, power, telemetry (R258 to R260) -/

def State.readCap (s : State) (sub : Nat) : Option Val :=
  match sub with
  | 0x03 => nat (s.cap.pLim / 1000)
  | 0x04 => nat s.therm.n
  | 0x05 => nat (b2n s.cap.floor + 2 * b2n s.cap.disagree + 4 * b2n s.cap.sense + 8 * b2n s.matchedActs +
      16 * b2n s.cap.dither.isSome)
  | 0x09 => int (truncZero s.cap.iTerm 3276800)
  | 0x0C => nat s.eta
  | 0x0F => nat (s.cap.dither.getD 0xFF)
  | 0x10 => nat (s.cap.upper.filter id).length
  | 0x1C => nat 0
  | _ => none

def State.readTelem (s : State) (sub : Nat) : Option Val :=
  match sub with
  | 0x03 => blobOf (padTo 672 s.telem.latest)
  | 0x04 => nat s.telem.lastSeq
  | _ => none

/-! ## Temperatures (R352) -/

/-- R346, R352: the valid diode of the highest latest reading; the lowest index among equals (log 62). -/
def State.hottest (s : State) : Option (Nat × Int) :=
  ((Config.regions s.cfg).filter fun r => (s.diode r).valid).foldl (fun b r =>
    let v := (s.diode r).reading
    match b with
    | some (_, w) => if v > w then some (r, v) else b
    | none => some (r, v)) none

def State.readThermal (s : State) (sub : Nat) : Option Val :=
  let pop (r : Nat) (v d : Nat) : Nat := if Config.popRegion s.cfg r then v else d
  let all := Config.regions s.cfg
  match sub with
  | 0x01 => blobOf (words16 76 fun r => pop r (ofSigned 16 (s.diode r).reading) 0x8000)
  | 0x02 => blobOf (words16 76 fun r => pop r (ofSigned 16 (s.diode r).temp) 0x8000)
  | 0x03 => blobOf (bitMap 10 fun r => Config.popRegion s.cfg r && (s.diode r).valid)
  | 0x04 => blobOf ((List.range 76).map fun r => pop r (s.diode r).cause 0)
  | 0x05 => blobOf (List.replicate 10 0)
  | 0x0D => int s.therm.shutdown
  | 0x0F => nat (b2n (all.any fun r => (s.diode r).warn) +
      2 * b2n (all.any fun r => (s.diode r).hasTemp && decide ((s.diode r).temp ≥ s.used.g2t.thr)) +
      4 * b2n (decide (s.therm.n > 0) || all.any fun r => decide ((s.region r).sup.limit < 15)) +
      8 * b2n (s.blk.st == .cooldown) + 16 * b2n s.blk.haltLimit)
  | 0x10 => blobOf ((List.range 76).map fun r => (s.region r).sup.limit)
  | 0x14 => blobOf ((List.range 3).map fun k => leBytes 8 (s.therm.trips.getD k 0)).flatten
  | 0x16 => nat (match s.therm.coolAt with | some t => min 1000 ((s.now - t) / 1000000) | none => 0)
  | 0x17 => int ((s.hottest.map (·.2)).getD 0)
  | 0x18 => nat ((s.hottest.map (·.1)).getD 0xFF)
  | 0x19 => nat (sumN ((List.range 4).map fun q => if (s.front q).failed then 2 ^ q else 0))
  | 0x1A => nat (sumN ((List.range 8).map fun k => (if s.blk.st.scans then (s.diode (64 + k)).tband else 3) * 4 ^ k))
  | 0x1B => flag s.tripDisabled
  | 0x1E => nat 0
  | _ => none

/-! ## The learner (R294, R323 to R326) and the hints (R295) -/

def State.confidentCells (s : State) : Nat := (s.learn.cells.filter fun x => x.2.conf).length

/-- R289: the watchdog average in 10 mA, rounded to nearest. -/
def Cell.resid (x : Cell) : Nat := min 65535 ((x.a + 32768) / 65536)

def State.readLearner (s : State) (sub : Nat) : Option Val :=
  let perRegion (f : Nat → Nat) : Nat → Nat := fun r => if Config.popRegion s.cfg r then f r else 0
  if 0x40 ≤ sub ∧ sub ≤ 0x5F then blobOf (bitMap 10 fun r => Config.popRegion s.cfg r && (s.cell r (sub - 0x40)).conf)
  else if 0x60 ≤ sub ∧ sub ≤ 0x7F then blobOf (words16 76 (perRegion fun r => (s.cell r (sub - 0x60)).resid))
  else if 0x80 ≤ sub ∧ sub ≤ 0x9F then
    blobOf (words16 76 (perRegion fun r => tabGet 0 s.learn.fwd (cellKey r (sub - 0x80))))
  else match sub with
  | 0x0D => nat s.confidentCells
  | 0x16 => let c := s.cellSel; blobOf (s.cellRecord c.1 c.2)
  | 0x1B => nat 0
  | 0xA0 => blobOf ((List.range 96).map fun i => s.learnedDroop (i / 3) (i % 3))
  | 0xA1 => blobOf ((List.range 96).map fun i => min 255 (s.droopCount (i / 3) (i % 3)))
  | 0xA2 => blobOf ((List.range 76).map fun r => if Config.popRegion s.cfg r then (s.region r).sup.tag else 0xFF)
  | _ => none

/-- R324: populated parameters of a group. -/
def State.groupMembers (s : State) (g : Nat) : Nat :=
  let n := (Config.regions s.cfg).length
  sumN ((List.range 32).map fun c => (if s.groupW c = g then 16 * n else 0) + (if s.groupB c = g then n else 0))

def State.readGroup (s : State) (g sub : Nat) : Option Val :=
  match sub with
  | 0x07 => nat (s.groupMembers g)
  | _ => none

/-- The members of a set in the order of R325. -/
def SlotSet.item (x : SlotSet) (k : Nat) : Int := [x.a1, x.a2, x.b1, x.b2, x.c1, x.c2, x.c3, (x.flags : Int)].getD k 0

/-- The set applied last: built, ready or in service (log 63). -/
def Slot.applied (x : Slot) : SlotSet := match x.build with
  | some (b, _) => b
  | none => x.ready.getD x.serve

def State.readSlot (s : State) (k sub : Nat) : Option Val :=
  let x := s.slot k
  if 0x0C ≤ sub then int (x.applied.item (sub - 0x0C))
  else if sub ≤ 8 then (if k < 8 then none else int (x.serve.item (sub - 1)))
  else match sub with
  | 0x09 => nat 0
  | 0x0A => flag x.build.isNone
  | 0x0B => nat (if s.get Obj.learn_global_steps = 0 then 0
      else (s.learn.latch.filter fun g => g.slot == k).length)
  | _ => none

def State.readShard (s : State) (k sub : Nat) : Option Val :=
  let x := s.shard k
  match sub with
  | 0x01 => nat x.counter
  | 0x02 => nat (s.shardState k)
  | 0x04 => nat x.outcome
  | 0x0D => nat x.xfer
  | _ => none

/-- R295: the earliest start not yet reached among the held hints that are not late. -/
def State.nextStart (s : State) : Nat :=
  (((s.hints.entries.filter fun h => !h.late && decide (h.start > s.now)).map (·.start)).min?).getD 0

def State.readHints (s : State) (sub : Nat) : Option Val :=
  let perRegion (c : Nat) : Nat → Nat := fun r => if Config.popRegion s.cfg r then s.staticCurrent c r else 0
  if 0x40 ≤ sub ∧ sub ≤ 0x5F then blobOf (words16 76 (perRegion (sub - 0x40)))
  else match sub with
  | 0x02 => nat s.hints.entries.length
  | 0x03 => nat s.hints.max
  | 0x0C => blobOf (leBytes 16 s.hints.last)
  | 0x0D => nat s.nextStart
  | 0x0E => blobOf ((List.range 3).map fun q => match s.bumpRequest q with | some (v, _) => v | none => 0)
  | 0x11 => nat 0
  | 0x60 => blobOf ((List.range 96).map fun i => s.staticDroop (i / 3) (i % 3))
  | 0x61 => blobOf ((List.range 32).map fun c => s.hints.lead.getD c 0)
  | _ => none

/-! ## Converters (R381 to R384) -/

/-- R373: 0 off, 1 calibration, 2 low power, 3 full speed. -/
def State.convMode (s : State) : Nat :=
  if s.blk.st = .selftest then 1 else if s.convFull then 3 else if s.convRuns then 2 else 0

def State.readConv (s : State) (n sub : Nat) : Option Val :=
  let c := s.conv n
  match sub with
  | 0x01 => blobOf (words16 16 fun k => c.sa.getD k 0)
  | 0x02 => nat c.saLen
  | 0x03 => blobOf (words16 16 fun k => c.sb.getD k 0)
  | 0x04 => nat c.sbLen
  | 0x05 => blobOf (words16 16 fun k => c.resA.getD k 0)
  | 0x06 => blobOf (words16 16 fun k => c.resB.getD k 0)
  | 0x07 => nat c.refFused
  | 0x08 => flag c.failed
  | 0x0C => nat 0
  | 0x0D => nat c.urgRes
  | _ => none

def State.readBoard (s : State) (sub : Nat) : Option Val :=
  match sub with
  | 0x01 => nat s.cg.vinSns
  | 0x02 => nat s.cg.trimCode
  | 0x03 => nat s.cg.refCode
  | 0x04 => flag s.cg.baFailed
  | _ => none

def State.readConvGlobal (s : State) (sub : Nat) : Option Val :=
  match sub with
  | 0x01 => nat s.convMode
  | 0x07 => blobOf (bitMap 9 fun n => if n = 70 then s.cg.baFailed else (s.conv n).failed)
  | 0x0B => nat s.cg.arm
  | 0x0F => blobOf (words16 1120 fun i => s.cg.capture.getD i 0)
  | _ => none

def State.readIin (s : State) (sub : Nat) : Option Val :=
  match sub with
  | 0x05 => nat (match s.convMode with | 3 => 1 | 2 => 2 | _ => 0)
  | _ => none

/-! ## DMA and the string table (R493, R494) -/

def DmaSt.code : DmaSt → Nat
  | .idle => 0 | .fetching => 1 | .transferring => 2 | .waitReq => 3 | .waitOwn => 4 | .completing => 5
  | .halted => 6 | .aborting => 7

/-- Fields of a descriptor's words (R466 to R468). -/
def DmaCh.word (c : DmaCh) (k : Nat) : Nat := c.words.getD k 0
def DmaCh.len (c : DmaCh) : Nat := c.word 2 % 2 ^ 24
def DmaCh.reqSrc (c : DmaCh) : Nat := bits (c.word 3) 26 24
def DmaCh.residue (c : DmaCh) : Nat := c.len - c.conf

def State.readDma (s : State) (k sub : Nat) : Option Val :=
  let c := s.dmaCh k
  match sub with
  | 0x02 | 0x10 => nat 0
  | 0x03 => nat c.st.code
  | 0x04 => nat c.status
  | 0x05 => nat c.cur
  | 0x06 => nat c.residue
  | 0x0B => nat (if c.words.isEmpty then 0 else c.reqs.getD c.reqSrc 0)
  | 0x0F => nat c.irq
  | 0x12 => nat c.run
  | _ => none

/-- R494: an entry that is not cached reads 0 here; a dictionary read of it waits (R494, log 64). -/
def State.cachedEntry (s : State) (i : Nat) : List Byte :=
  match s.dma.tab.find i with
  | some e => padTo 64 e.bytes
  | none => List.replicate 64 0

def State.readTable (s : State) (sub : Nat) : Option Val :=
  let e := s.cachedEntry (s.getN Obj.st_sel)
  match sub with
  | 0x03 => nat s.dma.tab.st
  | 0x04 => nat ((Config.allStrings s.cfg).filter fun i => (s.str i).installed).length
  | 0x06 => blobOf (bitMap 140 fun i => (s.str i).refused)
  | 0x08 => nat 0
  | 0x0A => blobOf e
  | 0x0B => blobOf (slice e 3 5 ++ slice e 28 16)
  | _ => none

/-! ## The recorder (R516 to R518) -/

/-- R499: the 64 bytes of a record. -/
def LogRec.bytes (x : LogRec) : List Byte :=
  let b := leBytes 4 x.seq ++ leBytes 2 x.trigger ++ [x.flags % 256, x.words.length % 256]
    ++ ((List.range 12).map fun k => leBytes 4 (x.words.getD k 0)).flatten ++ leBytes 4 x.source
  b ++ leBytes 4 (crc32c b)

/-- R503: the class of a trigger type; reserved types read 0 (log 6). -/
def classOf (t : Nat) : Nat :=
  [0, 1, 0, 2, 1, 1, 2, 2, 3, 3, 1, 1, 2, 1, 0, 0, 0, 2, 0, 1, 0, 1, 1, 2, 0, 1, 2, 1, 1, 1, 1, 1, 0, 1, 2, 1, 2, 2, 1, 1,
   2, 0].getD t 0

/-- R507: the freeze ends 100 ms after its last write of 1. -/
def freezeTime : Nat := 100000000

/-- The trace record at a position, all zeros where none was written. -/
def State.traceAt (s : State) (p : Nat) : List Byte :=
  match s.recd.trace.find? fun x => x.1 == p with
  | some (_, x) => x.bytes
  | none => List.replicate 64 0

/-- The fault record at a position, all zeros beyond the records stored. -/
def State.faultAt (s : State) (p : Nat) : List Byte :=
  match s.recd.fault[p]? with
  | some x => x.bytes
  | none => List.replicate 64 0

def State.readFaultLog (s : State) (sub : Nat) : Option Val :=
  let x := s.recd
  match sub with
  | 0x01 => nat x.fault.length
  | 0x02 => nat x.first
  | 0x03 => nat (if x.nextF = 0 ∧ x.latest.isNone then 0 else (x.nextF + 2 ^ 32 - 1) % 2 ^ 32)
  | 0x04 => nat x.overflow
  | 0x05 => flag x.freeze.isSome
  | 0x06 => nat (match x.freeze with | some t => ceilDiv (t + freezeTime - s.now) 1000000 | none => 0)
  | 0x07 => nat x.hold.length
  | 0x08 => nat x.holdOver
  | 0x0A => blobOf (s.faultAt (s.getN Obj.fault_sel))
  | 0x0B => blobOf (match x.latest with | some l => l.bytes | none => List.replicate 64 0)
  | 0x0C => nat 0
  | 0x11 => nat x.queueMax
  | 0x12 => nat x.badCrc
  | _ => none

def State.readTraceLog (s : State) (sub : Nat) : Option Val :=
  match sub with
  | 0x01 => nat ((s.recd.nextT + 2 ^ 32 - 1) % 2 ^ 32)
  | 0x03 => blobOf (s.traceAt (s.getN Obj.trace_sel))
  | 0x04 => nat 0
  | _ => none

def readTrig (t sub : Nat) : Option Val :=
  match sub with
  | 0x01 => if routeFixed t then nat 3 else none
  | 0x02 => nat (classOf t)
  | _ => none

/-! ## Sessions and the keeper (R460, R461) -/

/-- R453: a lockout is in force until its end comes (KEEPER_LOCKOUT_END). -/
def State.lockedOut (s : State) : Bool := s.dict.lockUntil.isSome

def Session.ident (x : Session) (k : Nat) : Nat := 16 * x.gen + k

def State.readKeeper (s : State) (who : Option Nat) (sub : Nat) : Option Val :=
  match sub with
  | 0x03 => nat (if who.any fun k => (s.session k).keeper then 1 else if s.lockedOut then 2 else 0)
  | 0x04 => nat s.dict.failures
  | 0x05 => nat (match s.dict.lockUntil with | some t => min 60000 (ceilDiv (t - s.now) 1000000) | none => 0)
  | 0x06 => nat 0
  | _ => none

def State.readSessions (s : State) (who : Option Nat) (sub : Nat) : Option Val :=
  match sub with
  | 0x01 => blobOf ((List.range 11).map fun k =>
      let x := s.session k
      16 * x.gen + 2 * b2n x.keeper + b2n x.isOpen)
  | 0x02 => nat (match who with | some k => (s.session k).ident k | none => 0xFF)
  | 0x06 => nat 0
  | 0x07 => nat s.cfg.staticAddr
  | 0x08 => nat s.dict.i3c.dyn
  | _ => none

/-! ## Any object -/

/-- The value that an object of base index `base`, instance `i` reads when it is computed from the state. -/
def State.computed (s : State) (who : Option Nat) (base i sub : Nat) : Option Val :=
  match base with
  | 0x1000 => s.readIdentity sub
  | 0x1010 => s.readConfig sub
  | 0x1100 => s.readBlock sub
  | 0x1200 => s.readCommit sub
  | 0x2000 => s.readRail i sub
  | 0x2100 => s.readRegion i sub
  | 0x2200 => s.readLoopSettings sub
  | 0x2300 => s.readWake sub
  | 0x3000 => s.readString i sub
  | 0x3800 => s.readCourse i sub
  | 0x3900 => s.readFaults sub
  | 0x4000 => s.readEngine sub
  | 0x4100 => s.readChannel i sub
  | 0x4200 => s.readCoef i sub
  | 0x4800 => s.readTune sub
  | 0x5000 => s.readCap sub
  | 0x5200 => s.readTelem sub
  | 0x5800 => s.readThermal sub
  | 0x6000 => s.readLearner sub
  | 0x6100 => s.readGroup i sub
  | 0x6200 => s.readSlot i sub
  | 0x6300 => s.readShard i sub
  | 0x6400 => s.readHints sub
  | 0x7000 => s.readConv i sub
  | 0x7050 => s.readBoard sub
  | 0x7060 => s.readConvGlobal sub
  | 0x7100 => s.readIin sub
  | 0x7800 => s.readDma i sub
  | 0x7810 => s.readTable sub
  | 0x8000 => s.readFaultLog sub
  | 0x8100 => s.readTraceLog sub
  | 0x8200 => readTrig i sub
  | 0x9000 => s.readKeeper who sub
  | 0x9100 => s.readSessions who sub
  | _ => none

end Sys2Proof.Machine
end

