-- ==== Sys2Proof/Machine/Lookup.lean ====
section
/-! DEFINITION. Finding an object (R426, R430, R431): which objects exist, which are absent (R7), what a found object
reads. -/

namespace Sys2Proof.Machine

/-- R5: whether a unit is part of the variant. -/
def Config.owns (c : Config) : Own → Bool
  | .always => true
  | .learner => c.hasLearner
  | .iin => c.hasIin
  | .dma => c.hasDma
  | .trace => c.hasTrace

/-- A found object: its type, access right, range, commit group, register, and its base index, instance and sub-index. -/
structure Obj' where
  ty : Ty
  acc : Acc'
  rng : Rng := .whole
  grp : Nat := 0
  reg : Reg := ⟨0, 0⟩
  base : Nat
  i : Nat := 0
  sub : Nat
deriving DecidableEq, Repr

def ObjRow.covers (w : ObjRow) (idx : Nat) : Bool := decide (w.base ≤ idx) && decide (idx < w.base + w.n)
def ObjRow.holds (w : ObjRow) (idx sub : Nat) : Bool :=
  w.covers idx && decide (w.sub ≤ sub) && decide (sub < w.sub + w.cnt)

/-- R7, R9: an index of an unpopulated region, string, course, channel or converter. -/
def Config.unpopulated (c : Config) (idx : Nat) : Bool :=
  if idx < 0x2100 then false
  else if idx < 0x2100 + 76 then !Config.popRegion c (idx - 0x2100)
  else if idx < 0x3000 then false
  else if idx < 0x3000 + 1120 then !Config.popString c (idx - 0x3000)
  else if idx < 0x3800 then false
  else if idx < 0x3800 + 140 then !Config.popCourse c (idx - 0x3800)
  else if idx < 0x4100 then false
  else if idx < 0x4100 + 79 then !Config.popChan c (idx - 0x4100)
  else if idx < 0x4200 then false
  else if idx < 0x4200 + 79 then !Config.popChan c (idx - 0x4200)
  else if idx < 0x7000 then false
  else if idx < 0x7000 + 70 then !Config.popConv c (idx - 0x7000)
  else false

/-- Sub-indices that exist on one kind of unit only (R200, R325, R493). -/
def subExists (idx sub : Nat) : Bool :=
  if decide (0x4100 ≤ idx) && decide (idx < 0x4100 + 79) then
    (decide (sub < 7) || decide (sub > 0x0C) || decide (idx < 0x4100 + 76)) &&
      (decide (sub < 0x10) || decide (sub > 0x17) || decide (0x4100 + 76 ≤ idx))
  else if decide (0x6208 ≤ idx) && decide (idx ≤ 0x620A) then sub ≤ 8 || sub == 0x0B
  else if idx == 0x7801 then !([1, 2, 5, 7, 9, 0x0A, 0x12].contains sub)
  else true

/-- R82: the pickup calibration of a VMEM or VLNK region is shorter. -/
def tyOf (w : ObjRow) (idx sub : Nat) : Ty :=
  if w.base = 0x2100 ∧ sub = 0x1F ∧ 0x2100 + 64 ≤ idx then .blob 8 else w.ty

def ObjRow.obj (w : ObjRow) (idx sub : Nat) : Obj' :=
  { ty := tyOf w idx sub, acc := w.acc, rng := w.rng, grp := w.grp, reg := w.reg (idx - w.base) (sub - w.sub)
    base := w.base, i := idx - w.base, sub }

/-- R451, R459: the staged mirror. -/
def mirrorIndex : Nat := 0x1201

/-- The highest sub-index present at an index (R426). -/
def highestSub (c : Config) (idx : Nat) : Nat :=
  if idx = mirrorIndex then members.length
  else maxN ((objTable.filter fun w => w.covers idx && Config.owns c w.own).map fun w =>
    maxN ((List.range' w.sub w.cnt).filter (subExists idx)))

/-- R431: an object, or the first of ABSENT_UNIT, NO_OBJECT and NO_SUB that applies. -/
def findObj (c : Config) (idx sub : Nat) : Except Nat Obj' :=
  let rows := objTable.filter fun w => w.covers idx
  if Config.unpopulated c idx then .error abortAbsent
  else if idx = mirrorIndex then
    if sub = 0 then .ok { ty := .u8, acc := .ro, base := idx, sub := 0 }
    else match members[sub - 1]? with
      | some (g, n, t) => .ok { ty := t, acc := .ro, grp := n, reg := g, base := idx, sub }
      | none => .error abortNoSub
  else if rows.isEmpty then .error abortNoObject
  else if rows.all fun w => !Config.owns c w.own then .error abortAbsent
  else if sub = 0 then .ok { ty := .u8, acc := .ro, base := idx, sub := 0 }
  else match rows.find? fun w => w.holds idx sub with
    | none => .error abortNoSub
    | some w =>
      if !Config.owns c w.own then .error abortAbsent
      else if !subExists idx sub then .error abortNoSub
      else .ok (w.obj idx sub)

/-- Index of a found object. -/
def Obj'.index (o : Obj') : Nat := o.base + o.i

/-- R14: an object that is only read shows its value within the range of its table. -/
def Obj'.shown (o : Obj') (v : Val) : Val :=
  match o.acc, v with
  | .ro, .num n => .num ((o.rng.apply n).getD n)
  | _, _ => v

/-- The value of a found object. -/
def State.value (s : State) (who : Option Nat) (o : Obj') : Val :=
  if o.sub = 0 then .num (highestSub s.cfg o.index)
  else if o.base = mirrorIndex then .num (s.staged o.reg o.grp)
  else o.shown ((s.computed who o.base o.i o.sub).getD (.num (s.get o.reg)))

/-- A value as the bytes of a frame (R427). -/
def Obj'.bytes (o : Obj') (v : Val) : List Byte := match v with
  | .num v => o.ty.encode v
  | .blob b => padTo o.ty.length b

/-- The bytes that a found object reads. -/
def State.objBytes (s : State) (who : Option Nat) (o : Obj') : List Byte := o.bytes (s.value who o)

def Ty.isBlob : Ty → Bool
  | .blob _ => true
  | _ => false

end Sys2Proof.Machine
end

