-- ==== Sys2Proof/Machine/Recorder.lean ====
section
/-! DEFINITION. The event recorder (R499 to R518): forming a record with its snapshot words, the fault log with its
freeze and holding queue, the trace log, and clearing. -/

namespace Sys2Proof.Machine

/-! ## Snapshot words (R501, R504) -/

/-- The list in use for a type. The default list of types 8 and 12 is `course_stat_frame` for a course source. -/
def State.snapList (s : State) (t : Nat) (src : Source) : List Nat :=
  let l := s.recd.snaps.getD t []
  if (t = 8 ∨ t = 12) ∧ src.kind = 4 ∧ l = defaultSnaps.getD t [] then [0x38000280] else l

/-- R501: the 32 bits that a value gives: word `k` of a U64 or of a BLOB, a shorter value extended by its type. -/
def snapWord (ty : Ty) (b : List Byte) (k : Nat) : Option Nat :=
  match ty with
  | .u64 => some (fieldAt b (if k = 1 then 4 else 0) 4)
  | .blob n => if 4 * k < n then some (fieldAt b (4 * k) 4) else none
  | _ => some (ofSigned 32 (ty.decode b))

/-- One entry of a snapshot list: its word, or none where it cannot be read. `keeper_challenge` cannot be read by the
recorder, which holds no session (log 65). -/
def State.snapEntry (s : State) (src : Source) (e : Nat) : Option Nat :=
  let idx := (e / 65536 + (if bit e 7 then src.idx else 0)) % 65536
  match findObj s.cfg idx (bits e 15 8) with
  | .error _ => none
  | .ok o =>
    if o.acc == .wo || o.acc == .cmd || (o.base == 0x9000 && o.sub == 1) then none
    else snapWord o.ty (s.objBytes none o) (e % 128)

/-! ## Storing (R505, R506, R508, R511, R515) -/

def faultSize : Nat := 1024
def traceSize : Nat := 4096
def holdSize : Nat := 32

def LogRec.multi (x : LogRec) : Bool := bit x.flags 2
def LogRec.part (x : LogRec) : Nat := x.flags % 4

/-- R505: a record that is not stored. -/
def State.overflow (s : State) : State :=
  { s with recd := { s.recd with overflow := min (2 ^ 32 - 1) (s.recd.overflow + 1) } }

/-- A record is stored in the fault log: the DMA event, and for a string `last_record_seq` (R514, R515). -/
def State.storeFault (s : State) (x : LogRec) : State :=
  let s : State := { s with recd := { s.recd with fault := s.recd.fault ++ [x] } }
  let s := s.raiseReq 3 1 fun ch => ch != 5
  if x.source / 2 ^ 28 = 3 then s.stUpdate (x.source % 65536) 3 x.seq else s

/-- A formed record enters the fault log, or is counted as overflow. -/
def State.enterFault (s : State) (x : LogRec) (skip : Bool) : State :=
  if skip || decide (s.recd.fault.length ≥ faultSize) then s.overflow else s.storeFault x

/-- R508: a record waits in the holding queue while the log is frozen. -/
def State.holdFault (s : State) (x : LogRec) (skip : Bool) : State :=
  if skip || decide (s.recd.hold.length ≥ holdSize) then
    { s with recd := { s.recd with holdOver := min (2 ^ 32 - 1) (s.recd.holdOver + 1) } }
  else { s with recd := { s.recd with hold := s.recd.hold ++ [x] } }

/-- A fault-routed record: latest-record slot, then the log or the holding queue. -/
def State.takeFault (s : State) (x : LogRec) (skip : Bool) : State :=
  let s : State := { s with recd := { s.recd with latest := some x, nextF := (s.recd.nextF + 1) % 2 ^ 32 } }
  if s.recd.freeze.isSome then s.holdFault x skip else s.enterFault x skip

/-- R511: a trace record at its position. -/
def State.takeTrace (s : State) (x : LogRec) : State :=
  let t : State := { s with recd := { s.recd with
    trace := tabPut s.recd.trace (x.seq % traceSize) x, nextT := (s.recd.nextT + 1) % 2 ^ 32 } }
  t.raiseReq 3 1 fun ch => ch == 5

/-! ## Forming (R499, R500) -/

/-- The flags of a record: class, logs, `snap_fault`, `multi` and part. -/
def recFlags (t : Trig) (snapFault : Bool) : Nat :=
  64 * classOf t.ty + 32 * (t.route % 2) + 16 * (t.route / 2 % 2) + 8 * b2n snapFault
    + (match t.part with | some k => 4 + k % 4 | none => 0)

/-- The snapshot words of a trigger and whether one could not be read. A course record carries 12, 12 and 8 of its
32 words (R504). -/
def State.recWords (s : State) (t : Trig) : List Nat × Bool :=
  match t.words, t.part with
  | some w, some k => (if k % 4 = 2 then slice w 24 8 else slice w (12 * (k % 4)) 12, false)
  | some w, none => (w, false)
  | none, _ =>
    let l := (s.snapList t.ty t.src).map (s.snapEntry t.src)
    (l.map fun o => o.getD 0xFFFFFFFF, l.any Option.isNone)

/-- R505, R508: whether the three parts of a course record find no room together. -/
def State.noRoom (s : State) : Bool :=
  if s.recd.freeze.isSome then decide (s.recd.hold.length + 3 > holdSize)
  else decide (s.recd.fault.length + 3 > faultSize)

/-- The record of a trigger is formed, numbered in each log of its route, and written. -/
def State.formRecord (s : State) (t : Trig) : State :=
  let w := s.recWords t
  let x : LogRec :=
    { seq := s.recd.nextF, trigger := 256 * t.detail + t.ty % 64, flags := recFlags t w.2, words := w.1
      source := t.src.word }
  let s := if t.route % 2 = 1 then s.takeFault x (t.part.any (4 ≤ ·)) else s
  if t.route / 2 % 2 = 1 then s.takeTrace { x with seq := s.recd.nextT } else s

/-- What is left in the queue of a trigger whose record has been formed: a course record goes on with its next part. -/
def Trig.rest (t : Trig) : List Trig :=
  match t.part with
  | some k => if k % 4 < 2 then [{ t with part := some (k + 1) }] else []
  | none => []

/-- R505: part 0 decides for the three parts together whether they are stored. -/
def State.settlePart (s : State) (t : Trig) : Trig :=
  match t.part with
  | some 0 => { t with part := some (if s.noRoom then 4 else 0) }
  | _ => t

/-- RECORD_FORMED: the trigger first in the queue. -/
def State.recordFormed (s : State) : State :=
  match s.recd.queue with
  | [] => s
  | t :: q =>
    let t := s.settlePart t
    ({ s with recd := { s.recd with queue := t.rest ++ q } } : State).formRecord t

def execRecordFormed (s : State) : Out := .next (s.when s.blk.st.active s.recordFormed)

/-! ## Freeze (R507 to R509) -/

/-- The held records enter the log in order; the parts of one copy that find no room together are skipped. -/
def State.flushHold (s : State) (skip : Bool) : List LogRec → State × Bool
  | [] => (s, skip)
  | x :: l =>
    let skip := if x.multi then (if x.part = 0 then s.noRoom else skip) else false
    (s.enterFault x skip).flushHold skip l

/-- The freeze ends: the holding queue empties into the log. A course record still being formed follows its parts. -/
def State.endFreeze (s : State) : State :=
  match s.recd.freeze with
  | none => s
  | some _ =>
    let l := s.recd.hold
    let t : State := { s with recd := { s.recd with freeze := none, hold := [] } }
    let r := t.flushHold false l
    let s := r.1
    match s.recd.queue with
    | t :: q =>
      if r.2 && t.part.any fun k => k == 1 || k == 2 then
        { s with recd := { s.recd with queue := { t with part := t.part.map (· + 4) } :: q } }
      else s
    | [] => s

/-- `fault_freeze`: 1 freezes or restarts the time, 0 ends the freeze. -/
def State.setFreeze (s : State) (v : Nat) : State :=
  if v = 1 then { s with recd := { s.recd with freeze := some s.now } } else s.endFreeze

/-- FREEZE_EXPIRED: 100 ms after the last write of 1. -/
def execFreezeExpired (s : State) : Out :=
  .next (match s.recd.freeze with
    | some t => s.when (decide (t + freezeTime ≤ s.now)) (s.endFreeze.fire 41 0)
    | none => s)

/-! ## Clearing (R512) -/

/-- The LOG_CLEARED record, formed at once, with the three words of R512. -/
def clearedTrig (log sess held lost path route : Nat) : Trig :=
  { ty := 0, detail := log, src := srcSession sess, words := some [held, lost, path], route }

/-- R502, R512: `fault_clear` of a session; `path` is 0 I3C, 1 register window. -/
def State.clearFault (s : State) (sess path : Nat) : Ans :=
  if s.recd.freeze.isSome || (s.dmaCh 0).st != .idle then (abortAccess, s)
  else
    let t := clearedTrig 0 sess s.recd.fault.length s.recd.overflow path 1
    let u : State := { s with recd := { s.recd with
      fault := [], hold := [], overflow := 0, holdOver := 0, first := s.recd.nextF } }
    (0, (u.count (Obj.trig_count 0) 32).formRecord t)

/-- `trace_clear`. -/
def State.clearTrace (s : State) (sess path : Nat) : Ans :=
  if (s.dmaCh 5).st != .idle then (abortAccess, s)
  else
    let t := clearedTrig 1 sess s.recd.trace.length 0 path 2
    let u : State := { s with recd := { s.recd with trace := [] } }
    (0, (u.count (Obj.trig_count 0) 32).formRecord t)

/-! ## Settings (R502, R516, R518) -/

/-- A write of `trig_snap_count` installs the count and the staged entries together. -/
def State.installSnaps (s : State) (t v : Nat) : State :=
  let s := s.set (Obj.trig_snap_count t) v
  let l := (List.range v).map fun k => s.getN (Obj.trig_snap t k)
  { s with recd := { s.recd with snaps := s.recd.snaps.set t l } }

/-- R516: a read of `rec_queue_max` restarts it. -/
def State.restartQueueMax (s : State) : State :=
  { s with recd := { s.recd with queueMax := s.recd.queue.length } }

end Sys2Proof.Machine
end

