-- ==== Sys2Proof/Machine/Dma.lean ====
section
/-! DEFINITION. The DMA engine (R462 to R481, R493) and the string table (R482 to R492, R494): descriptors and their
checks, bursts through the holding register, responses on the memory port, completion, halts, the cache of entries.
What the engine puts on the port is the list of its transactions; host memory is outside the block. -/

namespace Sys2Proof.Machine

/-! ## Fields of a descriptor (R466 to R470) -/

def DmaCh.own (c : DmaCh) : Bool := bit (c.word 0) 31
def DmaCh.irqBit (c : DmaCh) : Bool := bit (c.word 0) 30
def DmaCh.last (c : DmaCh) : Bool := bit (c.word 0) 29
def DmaCh.dir (c : DmaCh) : Nat := bits (c.word 0) 25 24
def DmaCh.srcW (c : DmaCh) : Nat := bits (c.word 0) 19 16
def DmaCh.dstW (c : DmaCh) : Nat := bits (c.word 0) 15 12
def DmaCh.pace (c : DmaCh) : Nat := bits (c.word 3) 17 16
def DmaCh.beats (c : DmaCh) : Nat := c.word 3 % 32
def DmaCh.src (c : DmaCh) : Nat := c.word 4 + 2 ^ 32 * c.word 5
def DmaCh.dst (c : DmaCh) : Nat := c.word 6 + 2 ^ 32 * c.word 7
def DmaCh.next (c : DmaCh) : Nat := c.word 8 + 2 ^ 32 * c.word 9
def DmaCh.packs (c : DmaCh) : Bool := c.dstW == 6
def DmaCh.unpacks (c : DmaCh) : Bool := c.srcW == 6
/-- Events of the source that the descriptor names. -/
def DmaCh.events (c : DmaCh) : Nat := c.reqs.getD c.reqSrc 0

/-- R469: bytes of an access; PACK12 has no width of its own. -/
def widthOf (code : Nat) : Nat := [1, 2, 4, 8, 16, 64].getD code 1

/-- R463: directions that a channel allows. -/
def dirAllowed (ch dir : Nat) : Bool :=
  match ch with
  | 0 | 3 | 4 | 5 => dir == 1
  | 2 => dir == 2
  | 6 => dir == 1 || dir == 2
  | 7 => dir == 0
  | _ => false

/-- R466 to R468: reserved fields are 0. -/
def DmaCh.reservedZero (c : DmaCh) : Bool :=
  bits (c.word 0) 28 26 == 0 && bits (c.word 0) 23 20 == 0 && bits (c.word 0) 11 0 == 0 && bits (c.word 2) 31 24 == 0
    && bits (c.word 3) 31 27 == 0 && bits (c.word 3) 23 18 == 0 && bits (c.word 3) 15 5 == 0

/-- Field values that are valid (R467 to R470), for a channel. -/
def DmaCh.fieldsValid (c : DmaCh) (ch : Nat) : Bool :=
  dirAllowed ch c.dir && decide (c.srcW ≤ 6) && decide (c.dstW ≤ 6) && (!c.packs || c.srcW == 1)
    && (!c.unpacks || c.dstW == 1) && decide (c.reqSrc ≤ 4) && decide (c.pace ≠ 3) && decide (1 ≤ c.beats)
    && decide (c.beats ≤ 16) && !(ch == 4 && c.pace == 1 && !c.packs)

/-- Addresses (R466, R469, R471). -/
def DmaCh.addressesValid (c : DmaCh) : Bool :=
  decide (c.word 5 < 65536) && decide (c.word 7 < 65536) && (c.last || decide (c.word 9 < 65536) && c.next % 64 == 0)
    && (c.dir == 1 || c.src % widthOf c.srcW == 0) && (c.dir == 2 || c.dst % widthOf c.dstW == 0)

/-- R469, R470: the length is a multiple of the larger memory-side width, of 4 under PACK12, of 3 when unpacking. -/
def DmaCh.lengthValid (c : DmaCh) : Bool :=
  let s := if c.dir = 1 then 1 else widthOf c.srcW
  let d := if c.dir = 2 then 1 else widthOf c.dstW
  c.len % max s d == 0 && (!(c.packs || c.unpacks) || c.len % 4 == 0) && (!c.unpacks || c.len % 3 == 0)

/-- R471. -/
def DmaCh.valid (c : DmaCh) (ch : Nat) : Bool :=
  c.reservedZero && c.fieldsValid ch && c.addressesValid && c.lengthValid

/-! ## PACK12 (R470) -/

/-- Packing: each two elements of two bytes become three bytes. -/
def pack12 : List Byte → List Byte
  | a :: b :: c :: d :: l => a :: (16 * (c % 16) + b % 16) :: (c / 16 + 16 * (d % 16)) :: pack12 l
  | _ => []

/-- Unpacking: the inverse, with bits [15:12] at 0. -/
def unpack12 : List Byte → List Byte
  | x :: y :: z :: l => x :: y % 16 :: (y / 16 + 16 * (z % 16)) :: z / 16 :: unpack12 l
  | _ => []

def DmaCh.transform (c : DmaCh) (b : List Byte) : List Byte :=
  if c.packs then pack12 b else if c.unpacks then unpack12 b else b

/-- Destination bytes of source bytes, and source bytes of destination bytes confirmed (R472). -/
def DmaCh.destOf (c : DmaCh) (n : Nat) : Nat := if c.packs then n / 4 * 3 else if c.unpacks then n / 3 * 4 else n
def DmaCh.sourceOf (c : DmaCh) (n : Nat) : Nat := if c.packs then n / 3 * 4 else if c.unpacks then n / 4 * 3 else n

/-! ## Bursts (R468, R476) -/

/-- Source bytes of a whole burst: BURST beats of 16 bytes at the destination, never less than one access there. -/
def DmaCh.burstSource (c : DmaCh) : Nat :=
  c.sourceOf (max (16 * c.beats) (if c.dir = 2 then 1 else widthOf c.dstW))

/-- R476: source bytes up to the end of the internal unit, for one burst per request. -/
def DmaCh.unitLeft (c : DmaCh) (ch : Nat) : Nat :=
  let o := c.src + c.pos
  if c.pace ≠ 1 then c.len
  else match ch with
    | 0 | 5 => 64 - o % 64
    | 3 => if o < 256 then 256 - o else if o < 512 then 512 - o else 672 - o
    | 4 => 320 - o % 320
    | _ => c.len

/-- R476: a descriptor that cannot begin before an event comes. -/
def DmaCh.mustWait (c : DmaCh) : Bool := c.pace != 0 && c.events == 0 && c.len != 0

/-- R476: the next burst's event is there, or it needs none. -/
def DmaCh.paceOk (c : DmaCh) : Bool := c.pace == 0 || (c.pace == 2 && decide (0 < c.pos)) || decide (0 < c.events)

/-- The whole length has been moved on, or the destination has ended. -/
def DmaCh.moved (c : DmaCh) : Bool := c.early || decide (c.len ≤ c.pos)

/-- States in which a channel moves data. -/
def DmaCh.moves (c : DmaCh) : Bool := c.st == .transferring || c.st == .waitReq || c.st == .aborting

/-- A data access cut into pieces of `w` bytes, or for PACK12 at 16-byte boundaries (R469, R531). -/
def pieces (w : Nat) (packed : Bool) : Nat → Nat → List Byte → List (Nat × List Byte)
  | 0, _, _ => []
  | k + 1, a, b =>
    if b.isEmpty then []
    else
      let n := if packed then 16 - a % 16 else w
      (a, b.take n) :: pieces w packed k (a + n) (b.drop n)

/-! ## Internal endpoints (R463) -/

/-- Length of the internal source of a channel; none where it refuses (R478). -/
def State.sourceLength (s : State) (ch o : Nat) : Option Nat :=
  match ch with
  | 0 => some (64 * faultSize)
  | 3 => s.telem.offered.map fun _ => 672
  | 4 => some 2240
  | 5 => some (64 * traceSize)
  | 6 =>
    let k := s.learn.lastXfer
    if (s.shard k).xfer = 1 ∧ (s.shard k).pos = o then some (s.streamLength k) else none
  | _ => none

/-- The `n` bytes at an offset of the internal source. -/
def State.sourceBytes (s : State) (ch o n : Nat) : List Byte :=
  let rec_ (at_ : Nat → List Byte) : List Byte :=
    slice ((List.range (n / 64 + 2)).flatMap fun j => at_ (o / 64 + j)) (o % 64) n
  match ch with
  | 0 => rec_ s.faultAt
  | 3 => slice (s.telem.offered.getD []) o n
  | 4 =>
    let w := if s.cg.live then s.cg.words else s.cg.capture
    (List.range' o n).map fun i => byteOf (w.getD (i / 2) 0) (i % 2)
  | 5 => rec_ s.traceAt
  | 6 => s.streamBytes s.learn.lastXfer o n
  | _ => []

/-- R476: a read at offset 0 begins a frame or a sweep. -/
def State.beginSource (s : State) (ch o : Nat) : State :=
  if ch = 3 ∧ o = 0 then { s with telem := { s.telem with begun := true } }
  else if ch = 4 ∧ o = 0 then
    { s with cg := { s.cg with
        reading := true, live := !s.cg.unread && s.cg.running && !s.cg.doneGroups.isEmpty } }
  else s

/-- The end of a frame, a sweep or an export stream has been read up to offset `o`. -/
def State.endSource (s : State) (ch o : Nat) : State :=
  match ch with
  | 3 =>
    if o < 672 then s
    else
      let t : State := { s with telem := { s.telem with offered := none, begun := false, waiting := none } }
      match s.telem.waiting with
      | some f => t.offer f
      | none => t
  | 4 => if o < 2240 then s else { s with cg := { s.cg with reading := false, live := false, unread := false } }
  | 6 =>
    let k := s.learn.lastXfer
    s.modShard k fun x => { x with pos := o, xfer := if s.streamLength k ≤ o then 0 else x.xfer }
  | _ => s

/-! ## Sessions of the ring (R448) -/

/-- Closing a session ends its keeper status and discards its buffers (R435). -/
def State.closeSession (s : State) (k : Nat) : State := s.modSession k fun x => { gen := x.gen }

/-- Opening a slot advances its generation (R434). -/
def State.openSlot (s : State) (k : Nat) : State :=
  s.modSession k fun x => { gen := (x.gen + 1) % 16, isOpen := true, last := s.now }

/-! ## Halts and completion (R472, R473, R478, R479) -/

def codeDone : Nat := 1
def codeAborted : Nat := 2
def codeSrcFault : Nat := 3
def codeDstFault : Nat := 4
def codeDescFault : Nat := 5
def codeLoopSelf : Nat := 6
def codeLoopLimit : Nat := 7
def codeParity : Nat := 8
def codeTimeout : Nat := 9

def statusWord (code residue : Nat) : Nat := code * 2 ^ 24 + residue % 2 ^ 24

/-- Transactions of a channel that wait for a place are given up; those that have been answered are removed. -/
def State.clearTxns (s : State) (ch : Nat) : State :=
  { s with dma := { s.dma with
      waiting := s.dma.waiting.filter fun t => t.ch != ch
      txns := s.dma.txns.filter fun t => t.ch != ch || !t.answered } }

/-- What ends with a channel's run: the ring's session (R448), the hold on a sweep (R476). -/
def State.channelEnds (s : State) (ch : Nat) : State :=
  if ch = 2 then s.closeSession 10
  else if ch = 4 then { s with cg := { s.cg with reading := false, live := false } }
  else s

/-- A channel is halted: an event, and bit 1 of `dma_irq_status` (R478). -/
def State.dmaHalted (s : State) (ch code : Nat) : State :=
  let s := (s.clearTxns ch).modDmaCh ch fun c => { c with st := .halted, irq := c.irq ||| 2, hold := [], burst := 0 }
  (s.fire 37 code (srcDma ch)).channelEnds ch

/-- R478: a fault in the descriptor memory: nothing more is written to the descriptor. -/
def State.haltNow (s : State) (ch code : Nat) : State :=
  (s.modDmaCh ch fun c => { c with status := statusWord code c.residue, code := code }).dmaHalted ch code

/-- R478: a fault with a descriptor in execution: outstanding responses are awaited, then the status is written. -/
def State.dataFault (s : State) (ch code : Nat) : State :=
  if (s.dmaCh ch).code ≠ 0 then s
  else
    let s : State := { s with dma := { s.dma with waiting := s.dma.waiting.filter fun t => t.ch != ch } }
    s.modDmaCh ch fun c => { c with code := code, st := .completing, hold := [], burst := 0 }

/-- Whether a channel has a transaction that is not answered. -/
def State.busyTx (s : State) (ch : Nat) (f : TxKind → Bool := fun _ => true) : Bool :=
  (s.dma.txns.any fun t => t.ch == ch && !t.answered && f t.kind) || s.dma.waiting.any fun t => t.ch == ch && f t.kind

/-- A descriptor is fetched, as 64 bytes. -/
def State.fetchDesc (s : State) (ch addr : Nat) : State :=
  (s.modDmaCh ch fun c => { c with st := .fetching, cur := addr, fresh := false }).memIssue
    { ch, kind := .desc, addr, len := 64 }

/-- R473, step 2: the status is written. -/
def State.writeStatus (s : State) (ch code : Nat) : State :=
  let w := statusWord code (s.dmaCh ch).residue
  let s := (s.clearTxns ch).modDmaCh ch fun c =>
    { c with st := .completing, code := code, status := w, hold := [], burst := 0 }
  s.memIssue { ch, kind := .status, addr := (s.dmaCh ch).cur + 4, len := 4, data := leBytes 4 w }

/-- R473, step 3: word 0 as fetched, with OWN cleared. -/
def State.writeOwn (s : State) (ch : Nat) : State :=
  let c := s.dmaCh ch
  s.memIssue { ch, kind := .own, addr := c.cur, len := 4, data := leBytes 4 (c.word 0 % 2 ^ 31) }

/-- A channel becomes idle. -/
def State.dmaIdle (s : State) (ch : Nat) : State :=
  (s.modDmaCh ch fun c => { c with st := .idle, abort := false }).channelEnds ch

/-- R479: an abort has ended: bit 2 of `dma_irq_status`, and the channel is idle. -/
def State.dmaAborted (s : State) (ch : Nat) : State :=
  (s.modDmaCh ch fun c => { c with irq := c.irq ||| 4 }).dmaIdle ch

/-- R473, step 4, and what follows: the next descriptor, the end of the chain, or a halt. -/
def State.descDone (s : State) (ch : Nat) : State :=
  let c := s.dmaCh ch
  let s := (s.count (Obj.dma_desc_done ch) 32).modDmaCh ch fun c =>
    { c with irq := if c.irqBit then c.irq ||| 1 else c.irq }
  if c.code = codeAborted then s.dmaAborted ch
  else if c.code ≠ codeDone then s.dmaHalted ch c.code
  else if c.abort then s.dmaAborted ch
  else if c.last then s.dmaIdle ch
  else s.fetchDesc ch c.next

/-- R473: the data of a descriptor are through, so that its status can be written. -/
def State.canComplete (s : State) (ch : Nat) : Bool :=
  let c := s.dmaCh ch
  !s.busyTx ch && !c.fresh && (
    match c.st with
    | .transferring | .waitReq =>
      c.moved && (c.hold.isEmpty || c.early) || (ch == 2 && decide (c.len ≤ c.rd) && decide (c.hold.length < 64))
    | .completing => c.code != 0
    | .aborting => c.burst == 0
    | _ => false)

/-- DESCRIPTOR_COMPLETE (R473). -/
def State.descComplete (s : State) (ch : Nat) : State :=
  let c := s.dmaCh ch
  if !s.canComplete ch then s
  else s.writeStatus ch (if c.code ≠ 0 then c.code else if c.st = .aborting then codeAborted else codeDone)

def onChannel (ch : Nat) (s t : State) : Out := within s 8 ch (onUnit s s.cfg.hasDma t)

def execDescriptorComplete (ch : Nat) (s : State) : Out := onChannel ch s (s.descComplete ch)

/-! ## Commands (R479) -/

/-- START. A channel's counts are set to 0 (R475); channel 2 opens the ring's session (R448). -/
def State.dmaStart (s : State) (ch : Nat) : State :=
  let s := s.modDmaCh ch fun c => { st := .fetching, status := c.status, irq := c.irq }
  let s := if ch = 2 then s.openSlot 10 else s
  s.fetchDesc ch (s.getN (Obj.dma_desc_addr ch))

/-- ABORT of a channel that is neither idle nor halted. -/
def State.dmaAbort (s : State) (ch : Nat) : State :=
  match (s.dmaCh ch).st with
  | .waitOwn =>
    (s.modDmaCh ch fun c => { c with status := statusWord codeAborted c.residue }).dmaAborted ch
  | .completing => s.modDmaCh ch fun c => { c with abort := true }
  | _ => s.modDmaCh ch fun c => { c with st := .aborting }

/-- KICK ends an OWN wait; otherwise it has no effect. -/
def State.dmaKick (s : State) (ch : Nat) : State :=
  if (s.dmaCh ch).st = .waitOwn then s.fetchDesc ch (s.dmaCh ch).cur else s

def DmaSt.rests : DmaSt → Bool
  | .idle | .halted => true
  | _ => false

/-- `dma_cmd`. -/
def State.dmaCommand (s : State) (ch v : Nat) : Ans :=
  let rests := (s.dmaCh ch).st.rests
  match v with
  | 1 => if rests then (0, s.dmaStart ch) else (abortAccess, s)
  | 2 => if rests then (abortAccess, s) else (0, s.dmaAbort ch)
  | _ => (0, s.dmaKick ch)

/-! ## DESCRIPTOR_FETCH (R471, R474, R477) -/

/-- A checked descriptor begins to execute; it may have to wait for an event, which begins a new run. -/
def State.descBegin (s : State) (ch : Nat) : State :=
  s.modDmaCh ch fun c =>
    let c := { c with code := 0, rd := 0, pos := 0, wconf := 0, conf := 0, burst := 0, hold := [], early := false
                      run := c.run + 1, st := .transferring }
    if c.mustWait then { c with st := .waitReq, waitAt := s.now, run := 1 } else c

/-- A fetched descriptor that has OWN set. One that waits for an event begins a new run, so the chain limit does not
concern it (R477). -/
def State.descCheck (s : State) (ch : Nat) : State :=
  let c := s.dmaCh ch
  if !c.valid ch then s.writeStatus ch codeDescFault
  else if !c.last ∧ c.next = c.cur then s.writeStatus ch codeLoopSelf
  else if !c.mustWait ∧ s.get (Obj.dma_chain_limit ch) ≤ c.run then s.writeStatus ch codeLoopLimit
  else s.descBegin ch

/-- A fetched descriptor is taken up: OWN clear makes the channel wait; an abort ends it. -/
def State.descFetched (s : State) (ch : Nat) : State :=
  if !(s.dmaCh ch).fresh then s
  else
    let aborting := (s.dmaCh ch).st == .aborting
    let s := s.modDmaCh ch fun c =>
      { c with fresh := false, code := 0, rd := 0, pos := 0, wconf := 0, conf := 0, hold := [], burst := 0 }
    let c := s.dmaCh ch
    if !c.own then
      if aborting then
        (s.modDmaCh ch fun c => { c with status := statusWord codeAborted c.residue }).dmaAborted ch
      else s.modDmaCh ch fun c => { c with st := .waitOwn, waitAt := s.now, run := 0 }
    else if aborting then s
    else s.descCheck ch

def execDescriptorFetch (ch : Nat) (s : State) : Out := onChannel ch s (s.descFetched ch)

/-- OWN_POLL (R474). -/
def execOwnPoll (ch : Nat) (s : State) : Out :=
  onChannel ch s (
    let c := s.dmaCh ch
    s.when (c.st == .waitOwn && decide (c.waitAt + s.getN (Obj.dma_own_poll ch) * 1000 ≤ s.now)) (s.fetchDesc ch c.cur))

/-- PACE_TIMEOUT (R476). -/
def execPaceTimeout (ch : Nat) (s : State) : Out :=
  onChannel ch s (
    let c := s.dmaCh ch
    let t := s.getN (Obj.dma_pace_timeout ch)
    s.when (c.st == .waitReq && c.events == 0 && t != 0 && decide (c.waitAt + t * 1000000 ≤ s.now))
      (s.dataFault ch codeTimeout))

/-! ## DMA_BURST (R464, R465, R476) -/

/-- A channel has a beat ready: it can fill its holding register, or empty it. -/
def State.dmaReady (s : State) (ch : Nat) : Bool :=
  let c := s.dmaCh ch
  let bursting := decide (0 < c.burst) || (c.st != .aborting && !c.moved && c.paceOk)
  let reads := s.busyTx ch (· == .dataRd)
  let waits := s.dma.waiting.any fun t => t.ch == ch
  c.moves && !c.fresh && !s.busyTx ch (· == .desc) && !waits && bursting && (c.dir == 1 ||
    !reads && ((!c.hold.isEmpty && ch != 2) || (c.hold.isEmpty && decide (c.rd < c.len))))

/-- The next channel after `a` in rotating order among channels `lo` to `lo + 3` that satisfies `f`. -/
def rotateNext (lo a : Nat) (f : Nat → Bool) : Option Nat :=
  (((List.range' 1 4).map fun k => lo + (a - lo + k) % 4)).find? f

/-- R464: which channel may issue now: within a priority the one in the middle of a burst, else the next in rotation;
a low-priority channel only while no high-priority channel has a beat ready. -/
def State.mayIssue (s : State) (ch : Nat) : Bool :=
  let mid (lo : Nat) : Option Nat := (List.range' lo 4).find? fun k => (s.dmaCh k).burst > 0 && s.dmaReady k
  let turn (lo last : Nat) : Option Nat := (mid lo).or (rotateNext lo last s.dmaReady)
  if ch < 4 then turn 0 s.dma.lastHi == some ch
  else (turn 0 s.dma.lastHi).isNone && turn 4 s.dma.lastLo == some ch

/-- A burst starts: it consumes its event. -/
def State.startBurst (s : State) (ch : Nat) : State :=
  let s := s.modDmaCh ch fun c =>
    let uses := c.pace == 1 || (c.pace == 2 && c.pos == 0)
    { c with
      st := if c.st == .waitReq then .transferring else c.st
      reqs := if uses then c.reqs.modify c.reqSrc (· - 1) else c.reqs
      burst := min (c.len - c.pos) (min c.burstSource (c.unitLeft ch)) }
  { s with dma := if ch < 4 then { s.dma with lastHi := ch } else { s.dma with lastLo := ch } }

/-- Destination writes of source bytes that leave the holding register. -/
def State.writeOut (s : State) (ch : Nat) (b : List Byte) : State :=
  let c := s.dmaCh ch
  let d := c.transform b
  let s := s.modDmaCh ch fun c => { c with pos := c.pos + b.length, burst := c.burst - b.length }
  overAll s (pieces (widthOf c.dstW) c.packs d.length (c.dst + c.destOf c.pos) d) fun s p =>
    s.memIssue { ch, kind := .dataWr, addr := p.1, len := p.2.length, data := p.2 }

/-- One fill from an internal source, written out. -/
def State.fillInternal (s : State) (ch : Nat) : State :=
  let c := s.dmaCh ch
  let o := c.src + c.pos
  match s.sourceLength ch o with
  | none => s.dataFault ch codeSrcFault
  | some n =>
    if n ≤ o then s.dataFault ch codeSrcFault
    else
      let k := min (min c.burst 64) (n - o)
      let b := s.sourceBytes ch o k
      let s := (s.beginSource ch o).modDmaCh ch fun c => { c with rd := c.pos + k }
      (s.writeOut ch b).endSource ch (o + k)

/-- Reads that fill the holding register: 64 source bytes, 48 when unpacking. -/
def State.fillMemory (s : State) (ch : Nat) : State :=
  let c := s.dmaCh ch
  let n := min (if c.unpacks then 48 else 64) (c.len - c.rd)
  let s := s.modDmaCh ch fun c => { c with rd := c.rd + n }
  overAll s (pieces (widthOf c.srcW) c.unpacks n (c.src + c.rd) (List.replicate n 0)) fun s p =>
    s.memIssue { ch, kind := .dataRd, addr := p.1, len := p.2.length }

/-- R478, R481: source bytes handed to the import of channel 6. -/
def State.importChunk (s : State) (ch : Nat) (b : List Byte) : State :=
  let c := s.dmaCh ch
  let k := s.learn.lastXfer
  if (s.shard k).xfer ≠ 2 ∨ (s.shard k).pos ≠ c.dst + c.pos then s.dataFault ch codeDstFault
  else
    let n := min b.length (s.streamLength k - (s.shard k).pos)
    let s := s.importBytes k (b.take n)
    let s := s.modDmaCh ch fun c =>
      { c with pos := c.pos + n, burst := c.burst - n, wconf := c.wconf + n, conf := c.conf + n }
    let s := s.count (Obj.dma_bytes ch) 64 n
    if (s.shard k).refusedAll then (s.modShard k fun x => { x with xfer := 0 }).dataFault ch codeDstFault
    else if (s.shard k).pos < s.streamLength k then s
    else (s.modShard k fun x => { x with xfer := 0 }).modDmaCh ch fun c =>
      { c with early := decide (c.pos < c.len), burst := 0, hold := [] }

/-- What a channel that takes the port does: a fill, or the holding register moved on. -/
def State.moveOn (s : State) (ch : Nat) : State :=
  let c := s.dmaCh ch
  if c.dir = 1 then s.fillInternal ch
  else if c.hold.isEmpty then
    if c.dir = 2 ∧ ch = 2 ∧ c.dst ≠ 0 then s.dataFault ch codeDstFault else s.fillMemory ch
  else
    let b := c.hold.take c.burst
    let s := s.modDmaCh ch fun c => { c with hold := c.hold.drop b.length }
    if c.dir = 2 then s.importChunk ch b else s.writeOut ch b

/-- R476: between bursts a paced channel waits for its next event, which ends the run. -/
def State.waitPace (s : State) (ch : Nat) : State :=
  let c := s.dmaCh ch
  if c.st = .transferring ∧ c.burst = 0 ∧ c.pace = 1 ∧ !c.moved ∧ c.events = 0 then
    s.modDmaCh ch fun c => { c with st := .waitReq, waitAt := s.now, run := 1 }
  else s

/-- DMA_BURST; `holdOk` is the parity of the holding register, of which channel 2's feeds the ring (R465, R478). -/
def State.dmaBurst (s : State) (ch : Nat) (holdOk : Bool) : State :=
  if !holdOk && (s.dmaCh ch).moves && !(s.dmaCh ch).hold.isEmpty then s.parityError.dataFault ch codeParity
  else if !(s.dmaReady ch && s.mayIssue ch) then s
  else
    let s := if (s.dmaCh ch).burst = 0 then s.startBurst ch else s
    ((s.takePort ch).moveOn ch).waitPace ch

/-- DMA_BURST: one holding register of a burst takes the port. -/
def execDmaBurst (ch : Nat) (s : State) (holdOk : Bool := true) : Out := onChannel ch s (s.dmaBurst ch holdOk)

/-! ## String-table entries (R482 to R492) -/

/-- A table fault (R492): `st_state` 4, an event, bit 1; queued updates are discarded. -/
def State.stFault (s : State) (code : Nat) : State :=
  let s := s.modTab fun t => { t with st := 4, sweeping := false, sweep := [], flush := [], queue := [] }
  let s := (s.modDmaCh 1 fun c => { c with status := statusWord code 0 }).dmaHalted 1 code
  s.fire 38 2

/-- R487: an entry that is accepted. -/
def entryGood (i : Nat) (b : List Byte) : Bool :=
  crc32c (b.take 60) == fieldAt b 60 4 && fieldAt b 0 2 == i && b.getD 2 0 == 1

/-- R484, R487: the correction of an entry is installed; a new one drops a test in progress. -/
def Str.install (x : Str) (b : List Byte) : Str :=
  let f := b.getD 3 0
  let gain := clampI (-4096) 4096 (signedAt b 4 2)
  let offset := clampI (-500) 500 (signedAt b 6 2)
  let same := x.installed && x.refine == bit f 0 && x.gain == gain && x.offset == offset
  let x := if same then x else x.dropTest
  { x with
    refine := bit f 0, gain, offset, seedOn := bit f 1, seed := clampI (-8192) 8192 (signedAt b 8 2)
    seedDue := bit f 1, installed := true, refused := false }

/-- R485: an entry enters the cache of 128; the one used longest ago leaves it, written back where it is dirty. -/
def State.cachePut (s : State) (e : CacheEnt) : State :=
  let others := s.dma.tab.cache.filter fun x => x.s != e.s
  let s := match others[127]? with
    | some old => if old.dirty.isSome then s.stWrite old else s
    | none => s
  s.modTab fun t => { t with cache := e :: others.take 127 }

/-- R483: bits [7:2] of `host_flags`, byte 19, bytes 24 to 27 and bytes 44 to 59 are reserved and read 0 (R14). -/
def entryClean (b : List Byte) : List Byte :=
  let b := patch (patch b 3 [b.getD 3 0 % 4]) 19 [0]
  patch (patch b 24 (List.replicate 4 0)) 44 (List.replicate 16 0)

/-- R490: the fields that host software owns, in an entry. -/
def entryHost (b fields : List Byte) : List Byte :=
  entryClean (patch (patch b 3 (slice fields 0 5)) 28 (slice fields 5 16))

/-- R490: a fresh entry for a refused one. -/
def entryFresh (i : Nat) : List Byte :=
  leBytes 2 i ++ [1] ++ List.replicate 17 0 ++ leBytes 4 0xFFFFFFFF ++ List.replicate 40 0

/-- R490: a host write on an entry that the block holds, or on a fresh one. While the table is off nothing stays
cached (R492), so the entry is written back at once. -/
def State.hostEntry (s : State) (e : CacheEnt) (fields : List Byte) : State :=
  let b := entryHost e.bytes fields
  let s := if s.dma.tab.st = 0 then s.stWrite { e with bytes := b } else s.cachePut (e.change s.now b)
  s.modStr e.s fun x => x.install b

/-- R488: updates that wait are made in order while their entries are cached; the next one to be fetched stops them. -/
def State.stDrain (s : State) : List (Nat × Nat × Nat) → State
  | [] => s.modTab fun t => { t with queue := [] }
  | (i, f, v) :: q =>
    if (s.str i).refused then s.stDrain q
    else match s.dma.tab.find i with
      | some e => (s.modTab fun t => t.touch (e.change s.now (entryUpdate e.bytes f v))).stDrain q
      | none => (s.modTab fun t => { t with queue := (i, f, v) :: q }).stFetch i

/-- Host writes that waited for entry `i`, whose bytes `b` have been fetched. -/
def State.hostWaiting (s : State) (i : Nat) (b : List Byte) : State :=
  let l := s.dma.tab.hostWr.filter fun w => w.1 == i
  let s := s.modTab fun t => { t with hostWr := t.hostWr.filter fun w => w.1 != i }
  overAll s l fun s w =>
    let e : CacheEnt := if (s.str i).refused then { s := i, bytes := entryFresh i }
      else (s.dma.tab.find i).getD { s := i, bytes := entryClean b }
    s.hostEntry e w.2

/-- R486: the sweep goes on with the next entry. -/
def State.sweepOn (s : State) (i : Nat) : State :=
  match s.dma.tab.sweep with
  | j :: l =>
    if j ≠ i then s
    else
      let s := s.modTab fun t => { t with sweep := l }
      match l with
      | k :: _ => s.stFetch k
      | [] => s
  | [] => s

/-- R487: a fetched entry is refused, or installed and cached. An entry fetched again for a string that has one
installed is cached alone, outside a sweep, and nothing is installed or cached while the table is off (log 70). -/
def State.entryTaken (s : State) (i : Nat) (b : List Byte) : State :=
  if !entryGood i b then
    let s := s.modStr i fun x => { x with refused := true }
    (s.countSat Obj.st_bad_entries 16).fire 38 0 (srcString i)
  else if s.dma.tab.st = 0 then s
  else
    let sweeps := s.dma.tab.sweep.head? == some i
    let s := if sweeps || !(s.str i).installed then s.modStr i fun x => x.install b else s
    s.cachePut { s := i, bytes := entryClean b }

/-- The fetched bytes of an entry whose read has been answered. -/
def State.entryRead (s : State) (i : Nat) : Option (List Byte) :=
  (s.dma.txns.find? fun t => t.answered && t.kind == .stRd i).map (·.data)

def State.entryFetched (s : State) (i : Nat) (b : List Byte) : State :=
  let s : State := { s with dma := { s.dma with txns := s.dma.txns.filter fun t => !(t.answered && t.kind == .stRd i) } }
  let s := (s.entryTaken i b).hostWaiting i b
  let s := s.stDrain s.dma.tab.queue
  let s := s.sweepOn i
  (s.stFlushOn s.dma.tab.flush).stFlushEnd

/-- `st_enable` (R486, R492). A write of the value it has changes nothing (log 71). -/
def State.setTable (s : State) (v : Nat) : State :=
  if s.get Obj.st_enable = v then s
  else if v = 1 then
    let l := Config.allStrings s.cfg
    let s := (s.set Obj.st_enable 1).modTab fun t => { t with st := 1, sweeping := true, sweep := l, cache := [] }
    (s.modDmaCh 1 fun c => { c with st := .idle }).stFetch (l.headD 0)
  else
    let s := overAll s (s.dma.tab.cache.filter fun e => e.dirty.isSome) State.stWrite
    let s := (s.set Obj.st_enable 0).modTab fun t =>
      { t with st := 0, sweeping := false, sweep := [], flush := [], queue := [], cache := [] }
    overAll s (s.dma.tab.reads.map (·.s) ++ s.dma.tab.hostWr.map (·.1)) State.stFetch

/-- ST_SWEEP_END (R486). -/
def execStSweepEnd (s : State) : Out :=
  .next (s.when (s.dma.tab.sweeping && s.dma.tab.sweep.isEmpty)
    ((s.modTab fun t => { t with sweeping := false, st := if t.st = 1 then 2 else t.st }).modDmaCh 1 fun c =>
      { c with irq := c.irq ||| 1 }))

/-- ST_WRITEBACK_DUE (R488): `st_wb_delay`, in ms, after the first update of a dirty entry. -/
def execStWritebackDue (i : Nat) (s : State) : Out :=
  onString s i (match s.dma.tab.find i with
    | some e =>
      match e.dirty with
      | some t => s.when (s.stOn && decide (t + s.getN Obj.st_wb_delay * 1000000 ≤ s.now)) (s.stWrite e)
      | none => s
    | none => s)

/-- ST_CACHE_PARITY (R491): the entry leaves the cache with the updates made since its last write, and is fetched
again. -/
def execStCacheParity (i : Nat) (s : State) : Out :=
  onString s i (match s.dma.tab.find i with
    | some _ =>
      let s := s.modTab fun t => { t with cache := t.cache.filter fun e => e.s != i }
      ((s.parityError.count Obj.st_parity_refetch 32).fire 38 1 (srcString i)).stFetch i
    | none => s)

/-- R491: a parity error in the correction store of a string: its correction is installed again from the cache, or it
runs on its fused defaults until its entry has been fetched again. -/
def State.correctionParity (s : State) (i : Nat) : State :=
  let s := s.parityError
  match s.dma.tab.find i with
  | some e => s.modStr i fun x => (x.install e.bytes).takeCorrection
  | none =>
    (s.modStr i fun x => { x with installed := false, refine := false, gain := 0, offset := 0 }.takeCorrection).stFetch i

/-- CONVERSION_RESULT: an entry that waits for a strobe has no result yet. `storeOk` is the parity of the correction
that the supervisor reads for an IMON (R491). -/
def execConversionResult (n : Nat) (nv : Int) (parityOk : Bool) (s : State) (storeOk : Bool := true) : Out :=
  onConv s n (
    let i := 16 * n + (s.conv n).input
    let bad := !storeOk && decide ((s.conv n).input < 16) && (s.str i).installed
    s.when (s.converts n) ((s.when bad (s.correctionParity i)).conversionResult n nv parityOk))

/-- `st_flush` (R489). -/
def State.flushTable (s : State) : State := s.stStartFlush

/-- `st_host_fields` for the string selected (R490): at once where the entry is held or was refused, else once it has
been fetched. -/
def State.hostFields (s : State) (fields : List Byte) : Ans :=
  let i := s.getN Obj.st_sel
  if !Config.popString s.cfg i then (abortAbsent, s)
  else if (s.str i).refused then (0, s.hostEntry { s := i, bytes := entryFresh i } fields)
  else match s.dma.tab.find i with
    | some e => (0, (s.hostEntry e fields).count Obj.st_cache_hits 32)
    | none =>
      (0, ((s.modTab fun t => { t with hostWr := t.hostWr ++ [(i, fields)] }).count Obj.st_cache_misses 32).stFetch i)

/-! ## Responses on the memory port (R478, R531, R535) -/

def State.modTxn (s : State) (id : Nat) (f : Txn → Txn) : State :=
  { s with dma := { s.dma with txns := s.dma.txns.map fun t => if t.id = id && !t.answered then f t else t } }
def State.dropTxn (s : State) (id : Nat) : State :=
  { s with dma := { s.dma with txns := s.dma.txns.filter fun t => t.answered || t.id != id } }
/-- The transaction outstanding under an ID. -/
def State.txnOf (s : State) (id : Nat) : Option Txn := s.dma.txns.find? fun t => t.id == id && !t.answered

/-- R472: data writes are confirmed in address order: the answered ones before the first that is not. -/
def State.confirmWrites (s : State) (ch : Nat) : State :=
  let l := s.dma.txns.filter fun t => t.ch == ch && t.kind == .dataWr
  let good := l.takeWhile fun t => t.answered && !t.err
  let n := sumN (good.map (·.len))
  let rest := l.drop good.length
  let s : State := { s with dma := { s.dma with
    txns := (s.dma.txns.filter fun t => !(t.ch == ch && t.kind == .dataWr)) ++ rest } }
  (s.modDmaCh ch fun c => { c with wconf := c.wconf + n, conf := c.sourceOf (c.wconf + n) }).count
    (Obj.dma_bytes ch) 64 n

/-- Data reads enter the holding register in address order. -/
def State.collectReads (s : State) (ch : Nat) : State :=
  let l := s.dma.txns.filter fun t => t.ch == ch && t.kind == .dataRd
  let good := l.takeWhile fun t => t.answered
  let rest := l.drop good.length
  let s : State := { s with dma := { s.dma with
    txns := (s.dma.txns.filter fun t => !(t.ch == ch && t.kind == .dataRd)) ++ rest } }
  s.modDmaCh ch fun c => if c.code ≠ 0 then c else { c with hold := c.hold ++ good.flatMap (·.data) }

/-- A transaction ends without its data: an error response, a timeout or a parity error (R478, R492). -/
def State.txnFault (s : State) (t : Txn) (parity : Bool) : State :=
  match t.kind with
  | .desc => (s.dropTxn t.id).haltNow t.ch (if parity then codeParity else codeDescFault)
  | .dataRd => (s.dropTxn t.id).dataFault t.ch (if parity then codeParity else codeSrcFault)
  | .dataWr => (s.modTxn t.id fun t => { t with answered := true, err := true }).dataFault t.ch codeDstFault
  | .ringWr => (s.dropTxn t.id).dataFault t.ch codeDstFault
  | .status | .own => (s.dropTxn t.id).haltNow t.ch codeDescFault
  | .stRd _ => (s.dropTxn t.id).stFault (if parity then codeParity else codeSrcFault)
  | .stWr _ => (s.dropTxn t.id).stFault codeDstFault

/-- A write that has drawn a good response. -/
def State.writeGood (s : State) (t : Txn) : State :=
  match t.kind with
  | .dataWr => (s.modTxn t.id fun t => { t with answered := true }).confirmWrites t.ch
  | .ringWr =>
    ((s.dropTxn t.id).modDmaCh t.ch fun c => { c with wconf := c.wconf + 64, conf := c.wconf + 64 }).count
      (Obj.dma_bytes t.ch) 64 64
  | .status => (s.dropTxn t.id).writeOwn t.ch
  | .own => (s.dropTxn t.id).descDone t.ch
  | .stWr _ => ((s.dropTxn t.id).count Obj.st_writebacks 32).stFlushEnd
  | _ => s

/-- MEMORY_WRITE_RESPONSE. A response that no transaction expects is a breach (R535). -/
def State.writeResponse (s : State) (id : Nat) (err : Bool) : State :=
  match s.txnOf id with
  | some t => if t.kind.write then (if err then s.txnFault t false else s.writeGood t).issueWaiting else s.breach 5
  | none => s.breach 5

def onTxn (id : Nat) (s t : State) : Out := within s 64 id (onUnit s s.cfg.hasDma t)

def execMemoryWriteResponse (id : Nat) (err : Bool) (s : State) : Out := onTxn id s (s.writeResponse id err)

/-- R531: beats of a read, and the part of them that it asks for. -/
def Txn.beatsDue (t : Txn) : Nat := (t.addr % 16 + t.len + 15) / 16
def Txn.asked (t : Txn) : List Byte := slice t.data (t.addr % 16) t.len

/-- The words of a descriptor. -/
def wordsOf (b : List Byte) : List Nat := (List.range 16).map fun k => fieldAt b (4 * k) 4

/-- A read whose beats have all come. -/
def State.readGood (s : State) (t : Txn) : State :=
  match t.kind with
  | .desc => (s.dropTxn t.id).modDmaCh t.ch fun c => { c with words := wordsOf t.asked, fresh := true }
  | .dataRd => (s.modTxn t.id fun x => { x with answered := true, data := t.asked }).collectReads t.ch
  | .stRd _ => s.modTxn t.id fun x => { x with answered := true, data := t.asked }
  | _ => s

/-- MEMORY_READ_BEAT: 16 bytes and their parity check. -/
def State.readBeat (s : State) (id : Nat) (data : List Byte) (parityOk last err : Bool) : State :=
  match s.txnOf id with
  | none => s.breach 5
  | some t =>
    if t.kind.write then s.breach 5
    else
      let t := { t with data := t.data ++ slice data 0 16, beats := t.beats + 1, err := t.err || err
                        parity := t.parity || !parityOk }
      let s := if parityOk then s else s.parityError
      if !last then s.modTxn id fun _ => t
      else
        let wrong := t.beats != t.beatsDue
        let s := if wrong then s.breach 6 else s
        (if t.parity && !t.err && !wrong then s.txnFault t true
          else if t.err || wrong then s.txnFault t false
          else s.readGood t).issueWaiting

def execMemoryReadBeat (id : Nat) (data : List Byte) (parityOk last err : Bool) (s : State) : Out :=
  onTxn id s (s.readBeat id data parityOk last err)

/-- MEMORY_TIMEOUT (R478): no response within `dma_mem_timeout`, in µs, of the issue. -/
def execMemoryTimeout (id : Nat) (s : State) : Out :=
  onTxn id s (match s.txnOf id with
    | some t =>
      s.when (decide (t.issuedAt + s.getN (Obj.dma_mem_timeout t.ch) * 1000 ≤ s.now)) ((s.txnFault t false).issueWaiting)
    | none => s)

end Sys2Proof.Machine
end

