-- ==== Sys2Proof/Machine/Dict.lean ====
section
/-! DEFINITION. The dictionary engine: requests, sessions, the order of the checks of an access (R431), reads with their
snapshots (R436, R440), writes with their segments (R441), what each writable object's own rule does with a value,
commit groups (R449, R450), keeper sessions (R452 to R454), and the response of each path. -/

namespace Sys2Proof.Machine

/-- A request (R437, R439). -/
structure Req where
  op : Nat
  sess : Nat
  idx : Nat := 0
  sub : Nat := 0
  flags : Nat := 0
  off : Nat := 0
  data : List Byte := []
deriving DecidableEq, Repr

/-- A response (R438). -/
structure Resp where
  op : Nat
  sess : Nat
  status : Nat
  objLen : Nat := 0
  data : List Byte := []
deriving DecidableEq, Repr

def Resp.bytes (x : Resp) : List Byte :=
  [x.op % 256, x.sess % 256, x.status % 256] ++ leBytes 2 x.objLen ++ [x.data.length % 256] ++ x.data

/-- The fields of a frame in their widths (R437). -/
def Req.fit (q : Req) : Req :=
  { op := q.op % 256, sess := q.sess % 256, idx := q.idx % 65536, sub := q.sub % 256, flags := q.flags % 256
    off := q.off % 65536, data := q.data.map (· % 256) }

def opOpen : Nat := 1
def opClose : Nat := 2
def opRead : Nat := 3
def opWrite : Nat := 4

/-- The session byte of a sessionless access (R436). -/
def noSession : Nat := 0xFF

/-! ## Interrupt lines (R421, R536) -/

/-- R155, R421; in HALTED under the trip limit it stays asserted until RESET_N (R349). -/
def State.serviceOut (s : State) : Bool :=
  s.blk.st.active && (decide (s.getN Obj.service_reasons ≠ 0) || s.blk.st == .service || s.blk.haltLimit)

/-- The IRQ_N lines asserted, one bit each. -/
def State.irqLines (s : State) : Nat :=
  let on (status enable : Reg) : Bool := decide (s.getN status &&& s.getN enable ≠ 0)
  b2n s.blk.irqSafety + 2 * b2n s.serviceOut
    + 4 * b2n (s.dma.ch.zipIdx.any fun c => decide (c.1.irq &&& s.getN (Obj.dma_irq_enable c.2) ≠ 0))
    + 8 * b2n (on Obj.cap_irq_status Obj.cap_irq_enable || on Obj.hint_irq_status Obj.hint_irq_enable
        || on Obj.learn_irq_status Obj.learn_irq_enable || on Obj.thermal_irq_status Obj.thermal_irq_enable)

/-- Lines released since the last interrupt may become asserted anew (R444, log 80). -/
def State.noteLines (s : State) : State :=
  { s with dict := { s.dict with i3c := { s.dict.i3c with lines := s.dict.i3c.lines &&& s.irqLines } } }

/-! ## Delivery -/

def State.modI3c (s : State) (f : I3c → I3c) : State := { s with dict := { s.dict with i3c := f s.dict.i3c } }
def State.modMbx (s : State) (m : Nat) (f : Mailbox → Mailbox) : State :=
  { s with dict := { s.dict with mbx := s.dict.mbx.modify m f } }

/-- A response enters `MBX_RSP` (R446); the bytes of the buffer past its end keep what they held (log 82). -/
def Mailbox.respond (m : Mailbox) (x : Resp) : Mailbox :=
  { m with rsp := patch m.rsp 0 x.bytes, rspLen := x.bytes.length, busy := false, done := true }

/-- A response becomes ready on its path (R443, R444, R446, R447). -/
def State.deliver (s : State) (p : Path) (x : Resp) : State :=
  let s : State := { s with dict := { s.dict with status := x.status, data := x.data } }
  match p with
  | .i3c => s.modI3c fun c => { c with resp := some x.bytes, ibi := c.ibi || c.enint }
  | .mbx0 => s.modMbx 0 fun m => m.respond x
  | .mbx1 => s.modMbx 1 fun m => m.respond x
  | .ring => { s with dict := { s.dict with ring := (if x.status = 0 then 1 else 2, x.status) } }

/-- A request of the path is still being served: a read that waits for its string-table entry (R494, log 64). -/
def State.pathBusy (s : State) (p : Path) : Bool := s.dma.tab.reads.any fun w => w.path == p

/-! ## Sessions (R434 to R436) -/

/-- Slots of a path. -/
def pathSlots : Path → List Nat
  | .i3c => [0, 1, 2, 3, 4, 5, 6, 7]
  | .mbx0 | .mbx1 => [8, 9]
  | .ring => [10]

/-- The slot that a session byte names on a path; the ring's records name none, their session is slot 10 (R448). -/
def State.slotOf (s : State) (p : Path) (b : Nat) : Option Nat :=
  let k := match p with | .ring => 10 | _ => b % 16
  if (pathSlots p).contains k && (s.session k).isOpen && (p == .ring || (s.session k).gen == b / 16) then some k else none

/-- R435: OPEN. BUSY comes before SESSION (R431). -/
def State.serveOpen (s : State) (p : Path) (q : Req) : Resp × State :=
  match (pathSlots p).find? fun k => !(s.session k).isOpen with
  | none => ({ op := q.op, sess := q.sess, status := abortBusy }, s.count Obj.session_busy_count 32)
  | some k =>
    if q.sess ≠ noSession then ({ op := q.op, sess := q.sess, status := abortSession }, s)
    else
      let s := s.openSlot k
      ({ op := q.op, sess := (s.session k).ident k, status := 0 }, s)

/-- CLOSE. -/
def State.serveClose (s : State) (p : Path) (q : Req) : Resp × State :=
  match s.slotOf p q.sess with
  | none => ({ op := q.op, sess := q.sess, status := abortSession }, s)
  | some k => ({ op := q.op, sess := q.sess, status := 0 }, s.closeSession k)

/-! ## Keeper sessions (R452, R453) -/

def challengeLife : Nat := 10000000000
def lockoutTime : Nat := 60000000000

/-- A challenge in force. -/
def State.challengeOf (s : State) (k : Nat) : Option (List Byte) :=
  match (s.session k).chal with
  | some (c, t) => if s.now < t + challengeLife then some c else none
  | none => none

/-- A read of `keeper_challenge` in a session: fresh bytes of the noise source (log 4). -/
def State.newChallenge (s : State) (k : Nat) : List Byte × State :=
  let c := leBytes 8 (Config.noise s.dict.noiseK).toNat
  let s : State := { s with dict := { s.dict with noiseK := s.dict.noiseK + 1 } }
  (c, s.modSession k fun x => { x with chal := some (c, s.now) })

/-- R453: a failed response; the eighth in a row locks attempts out. -/
def State.keeperFails (s : State) (k : Nat) : State :=
  let s : State := { s with dict := { s.dict with failures := s.dict.failures + 1 } }
  let s := s.fire 39 1 (srcSession k)
  if s.dict.failures < 8 then s
  else
    let s : State := { s with dict := { s.dict with lockUntil := some (s.now + lockoutTime) } }
    (s.count Obj.keeper_lockouts 32).fire 39 2 (srcSession k)

/-- A write of `keeper_response`. -/
def State.keeperResponse (s : State) (k : Nat) (resp : List Byte) : Ans :=
  if s.lockedOut then (abortAccess, s)
  else
    let want := (s.challengeOf k).map fun c => keeperDigest c s.dict.key
    let s := s.modSession k fun x => { x with chal := none }
    if want == some resp then
      let s := s.modSession k fun x => { x with keeper := true }
      let s : State := { s with dict := { s.dict with failures := 0 } }
      (0, (s.count Obj.keeper_grants 32).fire 39 0 (srcSession k))
    else (abortAccess, s.keeperFails k)

/-! ## Commit groups (R80, R102, R108, R239, R337, R449 to R451) -/

/-- A staged write; the value is kept as written. -/
def State.stage (s : State) (o : Obj') (v : Int) : State :=
  { s with dict := { s.dict with
      staged := rfPut s.dict.staged o.reg.addr v, pending := s.dict.pending ||| 2 ^ o.grp } }

/-- Members of a group. -/
def groupMembersOf (g : Nat) : List Reg := (members.filter fun m => m.2.1 == g).map (·.1)

/-- A member clamped to its own range (R429). -/
def State.clampMember (s : State) (m : Reg) (v : Int) : Int :=
  match findObj s.cfg (m.addr / 256) (m.addr % 256) with
  | .ok o => (o.rng.apply v).getD v
  | .error _ => v

/-- A member is lowered to at most a bound, or raised to at least one. -/
def State.lower (s : State) (m : Reg) (b : Int) : State := s.set m (min (s.get m) b)
def State.raise (s : State) (m : Reg) (b : Int) : State := s.set m (max (s.get m) b)

/-- The group's own rule, on members that have been clamped. -/
def State.consistent (s : State) (g : Nat) : State :=
  match g with
  | 1 =>
    let s := s.lower Obj.toff_min (s.get Obj.tsw_target / 2)
    let top := s.get Obj.tsw_target - s.get Obj.toff_min
    let s := s.lower Obj.ton_min top
    (s.raise Obj.ton_max (s.get Obj.ton_min)).lower Obj.ton_max top
  | 2 =>
    let s := s.lower Obj.throttle_level (s.therm.shutdown - 40)
    let s := s.lower Obj.warn_level (s.get Obj.throttle_level)
    s.lower Obj.restart_level (s.get Obj.throttle_level - s.get Obj.throttle_hyst)
  | 3 => s.raise Obj.thermal_step (ceilDiv 2000 (s.getN Obj.cap_w) : Nat)
  | 4 => s.raise Obj.ov_offset (s.get Obj.release_depth + 16)
  | 5 => s.raise Obj.rejoin_level (s.get Obj.shed_level + 10)
  | 7 => s.set Obj.telem_grain (powerOfTwo (s.getN Obj.telem_grain))
  | _ => s

/-- The staged set of a group is given up. -/
def State.unstage (s : State) (g : Nat) : State :=
  { s with dict := { s.dict with
      staged := (groupMembersOf g).foldl (fun m r => rfDel m r.addr) s.dict.staged
      pending := s.dict.pending &&& (254 - 2 ^ g) } }

/-- R450: one group is committed, where it is pending. -/
def State.commitGroup (s : State) (g : Nat) : State :=
  if !bit s.dict.pending g then s
  else
    let l := (groupMembersOf g).map fun m => (m, s.clampMember m (s.staged m g))
    let s := ((overAll s l fun s m => s.set m.1 m.2).consistent g).unstage g
    ({ s with dict := { s.dict with commitAt := s.dict.commitAt.set g (some s.now) } } : State).count Obj.commit_count 32

/-- The groups that a mask names. -/
def groupsOf (mask : Nat) : List Nat := [1, 2, 3, 4, 5, 6, 7].filter (bit mask)

def State.commitMask (s : State) (mask : Nat) : State := overAll s (groupsOf mask) State.commitGroup
def State.discardMask (s : State) (mask : Nat) : State := overAll s (groupsOf mask) State.unstage

/-! ## What a written value does: the objects with a rule of their own, by index -/

/-- A plain object takes the value. -/
def State.plain (s : State) (o : Obj') (v : Int) : Ans := (0, s.set o.reg v)

def State.writeBlock (s : State) (o : Obj') (v : Int) : Ans :=
  match o.sub with
  | 0x02 => if v = 1 then s.cmdShutdown else s.cmdStart
  | 0x05 => (0, s.clrBits Obj.service_reasons v.toNat)
  | 0x0D => (0, s.set Obj.ramp_order (if orderValid v.toNat then v else s.blk.fusedOrder))
  | _ => s.plain o v

def State.writeCommit (s : State) (o : Obj') (v : Int) : Ans :=
  match o.sub with
  | 0x01 => (0, s.commitMask v.toNat)
  | _ => (0, s.discardMask v.toNat)

def State.writeRegion (s : State) (o : Obj') (v : Int) : Ans :=
  match o.sub with
  | 0x17 => (0, s.pickClear o.i v.toNat)
  | 0x18 => (0, s.pickForce o.i v.toNat)
  | 0x36 => (0, ((s.set o.reg v).holdCapo o.i).abandonFrets)
  | _ => s.plain o v

def State.writeString (s : State) (k : Nat) (o : Obj') (v : Int) : Ans :=
  match v.toNat with
  | 1 => s.stringMute o.i
  | 2 => s.stringReturn o.i (s.session k).keeper
  | 3 => s.stringSetBlind o.i
  | _ => s.stringClearBlind o.i

def State.writeEngine (s : State) (o : Obj') (v : Int) : Ans :=
  match o.sub with
  | 0x02 => (0, s.bankSwap v.toNat)
  | _ => s.plain o v

def State.writeChannel (s : State) (o : Obj') (v : Int) : Ans :=
  match o.sub with
  | 0x06 => (0, s.flagsClear o.i v.toNat)
  | _ => s.plain o v

def State.writeTune (s : State) (o : Obj') (v : Int) : Ans :=
  match o.sub with
  | 0x27 => (0, s.set Obj.tguard (max v s.tune.floor))
  | 0x2B => (0, s.setMatched v.toNat)
  | _ => s.plain o v

def State.writeCap (s : State) (o : Obj') (v : Int) : Ans :=
  match o.sub with
  | 0x1C => (0, s.clrBits Obj.cap_irq_status v.toNat)
  | _ => s.plain o v

def State.writeThermal (s : State) (o : Obj') (v : Int) : Ans :=
  match o.sub with
  | 0x05 => (0, s.diodeClear v.toNat)
  | 0x06 => (0, s.diodeForce v.toNat)
  | 0x1E => (0, s.clrBits Obj.thermal_irq_status v.toNat)
  | _ => s.plain o v

/-- R323: each byte of a class map is a group, 0 to 63. -/
def classMap (b : List Byte) : Int := (leNat ((slice b 0 32).map (min 63)) : Nat)

def State.writeLearner (s : State) (o : Obj') (v : Int) (b : List Byte) : Ans :=
  match o.sub with
  | 0x12 | 0x13 => s.plain o (classMap b)
  | 0x16 => s.writeCell b
  | 0x1B => (0, s.clrBits Obj.learn_irq_status v.toNat)
  | _ => s.plain o v

def State.writeGroup (s : State) (o : Obj') (v : Int) : Ans :=
  match o.sub with
  | 0x01 => (0, s.groupEta o.i v)
  | _ => s.plain o v

/-- R325: the sets of slots 8 to 10 are fixed. -/
def State.writeSlot (s : State) (o : Obj') (v : Int) : Ans :=
  if 8 ≤ o.i then (abortAccess, s)
  else match o.sub with
    | 0x09 => (0, s.applySlot o.i)
    | _ => s.plain o v

/-- R318, R321: a shard whose import runs stays halted. -/
def State.writeShard (s : State) (o : Obj') (v : Int) : Ans :=
  match o.sub with
  | 0x03 => if v = 0 ∧ (s.shard o.i).xfer = 2 then (abortAccess, s) else (0, s.setHalt o.i v.toNat)
  | 0x0D => s.setXfer o.i v.toNat
  | _ => s.plain o v

def State.writeHints (s : State) (o : Obj') (v : Int) : Ans :=
  match o.sub with
  | 0x11 => (0, s.clrBits Obj.hint_irq_status v.toNat)
  | _ => s.plain o v

def State.writeConv (s : State) (o : Obj') (v : Int) (b : List Byte) : Ans :=
  match o.sub with
  | 0x01 => (0, s.convTableSet o.i .a b)
  | 0x02 => (0, s.convTableSet o.i .aLen [v.toNat])
  | 0x03 => (0, s.convTableSet o.i .b b)
  | 0x04 => (0, s.convTableSet o.i .bLen [v.toNat])
  | 0x0C => s.hostUrgent o.i v.toNat
  | _ => s.plain o v

def State.writeConvGlobal (s : State) (o : Obj') (v : Int) : Ans :=
  match o.sub with
  | 0x0B => (0, s.syncArm v.toNat)
  | _ => s.plain o v

/-- Addresses whose bits [5:0] read 0. -/
def align64 (v : Int) : Int := v / 64 * 64

def State.writeDma (s : State) (o : Obj') (v : Int) : Ans :=
  match o.sub with
  | 0x01 => s.plain o (align64 v)
  | 0x02 => s.dmaCommand o.i v.toNat
  | 0x10 => (0, s.modDmaCh o.i fun c => { c with irq := c.irq &&& (7 - v.toNat % 8) })
  | _ => s.plain o v

/-- R492: `st_base` can be written only while `st_enable` is 0. -/
def State.writeTable (s : State) (o : Obj') (v : Int) (b : List Byte) : Ans :=
  match o.sub with
  | 0x01 => if s.get Obj.st_enable = 0 then s.plain o (align64 v) else (abortAccess, s)
  | 0x02 => (0, s.setTable v.toNat)
  | 0x08 => (0, s.flushTable)
  | 0x0B => s.hostFields b
  | _ => s.plain o v

/-- R512: the path word of a LOG_CLEARED record. -/
def pathWord : Path → Nat
  | .i3c => 0
  | _ => 1

def State.writeFaultLog (s : State) (p : Path) (k : Nat) (o : Obj') (v : Int) : Ans :=
  match o.sub with
  | 0x05 => (0, s.setFreeze v.toNat)
  | 0x0C => if (s.session k).keeper then s.clearFault k (pathWord p) else (abortKeeper, s)
  | _ => s.plain o v

def State.writeTraceLog (s : State) (p : Path) (k : Nat) (o : Obj') (v : Int) : Ans :=
  match o.sub with
  | 0x04 => if (s.session k).keeper then s.clearTrace k (pathWord p) else (abortKeeper, s)
  | _ => s.plain o v

/-- R502, R518. -/
def State.writeTrig (s : State) (o : Obj') (v : Int) : Ans :=
  match o.sub with
  | 0x01 => if routeFixed o.i then (0, s) else s.plain o v
  | 0x03 => (0, s.installSnaps o.i v.toNat)
  | _ => s.plain o v

def State.writeKeeper (s : State) (k : Nat) (o : Obj') (b : List Byte) : Ans :=
  match o.sub with
  | 0x02 => s.keeperResponse k b
  | _ => (0, s.modSession k fun x => { x with keeper := false })

/-- The value of a write, in range, reaches its object in session `k` (`b` are its bytes). -/
def State.writeValue (s : State) (p : Path) (k : Nat) (o : Obj') (v : Int) (b : List Byte) : Ans :=
  match o.base with
  | 0x1100 => s.writeBlock o v
  | 0x1200 => s.writeCommit o v
  | 0x2100 => s.writeRegion o v
  | 0x3000 => s.writeString k o v
  | 0x4000 => s.writeEngine o v
  | 0x4100 => s.writeChannel o v
  | 0x4200 => (0, s.shadowWrite o.i o.sub v)
  | 0x4800 => s.writeTune o v
  | 0x5000 => s.writeCap o v
  | 0x5800 => s.writeThermal o v
  | 0x6000 => s.writeLearner o v b
  | 0x6100 => s.writeGroup o v
  | 0x6200 => s.writeSlot o v
  | 0x6300 => s.writeShard o v
  | 0x6400 => s.writeHints o v
  | 0x7000 => s.writeConv o v b
  | 0x7060 => s.writeConvGlobal o v
  | 0x7800 => s.writeDma o v
  | 0x7810 => s.writeTable o v b
  | 0x8000 => s.writeFaultLog p k o v
  | 0x8100 => s.writeTraceLog p k o v
  | 0x8200 => s.writeTrig o v
  | 0x9000 => s.writeKeeper k o b
  | 0x9100 => (0, s.closeSession v.toNat)
  | _ => s.plain o v

/-- A whole value of an object: staged, or clamped and taken (R429, R449). -/
def State.writeWhole (s : State) (p : Path) (k : Nat) (o : Obj') (b : List Byte) : Ans :=
  let v := o.ty.decode b
  if o.grp ≠ 0 then (0, s.stage o v)
  else match o.rng.apply v with
    | none => (abortAccess, s)
    | some w => s.writeValue p k o w b

/-! ## Checks of an access (R431) -/

/-- Objects that name another object by a selection: ABSENT_UNIT where it is not populated (R7, R322, R494). -/
def State.selectionAbsent (s : State) (o : Obj') : Bool :=
  if o.base = 0x7810 ∧ (o.sub = 0x0A ∨ o.sub = 0x0B) then !Config.popString s.cfg (s.getN Obj.st_sel)
  else if o.base = 0x6000 ∧ o.sub = 0x16 then !Config.popRegion s.cfg s.cellSel.1
  else false

/-- `keeper_challenge`. -/
def Obj'.isChallenge (o : Obj') : Bool := o.base == 0x9000 && o.sub == 1

/-- Address of a found object. -/
def Obj'.addr (o : Obj') : Nat := addrOf o.index o.sub

/-- The object of an access, or the abort code of the checks up to KEEPER_REQUIRED. -/
def State.lookup (s : State) (write : Bool) (keeper : Bool) (idx sub : Nat) : Except Nat Obj' :=
  match findObj s.cfg idx sub with
  | .error e => .error e
  | .ok o =>
    if s.selectionAbsent o then .error abortAbsent
    else if write then
      if o.acc == .ro then .error abortAccess
      else if o.acc == .rwk && !keeper then .error abortKeeper
      else .ok o
    else if o.acc == .wo then .error abortAccess
    else .ok o

/-! ## WRITE (R441) -/

/-- What a segment of a BLOB write comes to: an abort, a longer buffer, or the whole value. -/
inductive Gathered where
  | bad
  | more (b : List Byte)
  | whole (b : List Byte)
deriving DecidableEq, Repr

def gather (buf : Option (Nat × List Byte)) (addr len off : Nat) (last : Bool) (data : List Byte) : Gathered :=
  let have_ := match buf with | some (_, b) => b | none => []
  let fits := match buf with | some (a, _) => a == addr | none => true
  let all := have_ ++ data
  if !fits || off ≠ have_.length || 64 < data.length || len < all.length then .bad
  else if !last then .more all
  else if all.length = len then .whole all
  else .bad

def State.writeBlob (s : State) (p : Path) (k : Nat) (o : Obj') (q : Req) : Ans :=
  let put (b : Option (Nat × List Byte)) : State := s.modSession k fun x => { x with wbuf := b }
  match gather (s.session k).wbuf o.addr o.ty.length q.off (bit q.flags 0) q.data with
  | .bad => (abortLength, put none)
  | .more b => (0, put (some (o.addr, b)))
  | .whole b => (put none).writeWhole p k o b

/-- A scalar's value: the type's length, offset 0, LAST. -/
def State.writeScalar (s : State) (p : Path) (k : Nat) (o : Obj') (q : Req) : Ans :=
  if q.data.length ≠ o.ty.length ∨ q.off ≠ 0 ∨ !bit q.flags 0 then (abortLength, s) else s.writeWhole p k o q.data

def State.serveWrite (s : State) (p : Path) (q : Req) : Resp × State :=
  let end_ (status len : Nat) (s : State) : Resp × State :=
    ({ op := q.op, sess := q.sess, status, objLen := if status = 0 then len else 0 }, s)
  match s.slotOf p q.sess with
  | none => end_ abortSession 0 s
  | some k =>
    match s.lookup true (s.session k).keeper q.idx q.sub with
    | .error e => end_ e 0 s
    | .ok o =>
      let a := if o.ty.isBlob then s.writeBlob p k o q else s.writeScalar p k o q
      end_ a.1 o.ty.length a.2

/-! ## READ (R436, R440) -/

/-- What a completed read does beside returning its value (R295, R516). -/
def State.readEffect (s : State) (o : Obj') : State :=
  if o.base = 0x6400 ∧ o.sub = 0x03 then { s with hints := { s.hints with max := s.hints.entries.length } }
  else if o.base = 0x8000 ∧ o.sub = 0x11 then s.restartQueueMax
  else s

/-- Objects that show the selected string-table entry, which is fetched first where it is not cached (R494). -/
def State.mustFetch (s : State) (o : Obj') : Bool :=
  o.base == 0x7810 && (o.sub == 0x0A || o.sub == 0x0B) && (s.dma.tab.find (s.getN Obj.st_sel)).isNone

def okRead (q : Req) (o : Obj') (data : List Byte) : Resp :=
  { op := q.op, sess := q.sess, status := 0, objLen := o.ty.length, data }

/-- A present value of a BLOB, returned from an offset; a session takes it into its snapshot. -/
def State.readBlobValue (s : State) (who : Option Nat) (q : Req) (o : Obj') (b : List Byte) : Resp × State :=
  let n := min 64 (o.ty.length - q.off)
  match who with
  | none => (okRead q o (slice b q.off n), s)
  | some k => (okRead q o (slice b 0 (min 64 o.ty.length)), s.modSession k fun x => { x with snap := some (o.addr, b) })

/-- A hit of the string table's cache is counted (R494). Without the DMA engine a read of `sync_capture` is what reads a
sweep (R367, log 99). -/
def State.readHit (s : State) (o : Obj') : State :=
  if o.base = 0x7810 ∧ (o.sub = 0x0A ∨ o.sub = 0x0B) then
    match s.dma.tab.find (s.getN Obj.st_sel) with
    | some e => (s.modTab fun t => t.touch e).count Obj.st_cache_hits 32
    | none => s
  else if o.base = 0x7060 ∧ o.sub = 0x0F ∧ !s.cfg.hasDma then { s with cg := { s.cg with unread := false } }
  else s

/-- A BLOB read that has passed the checks of R431 but for its length and its own rule. None: the response waits. -/
def State.readBlob (s : State) (p : Path) (who : Option Nat) (q : Req) (o : Obj') : Option Resp × State :=
  let bad (e : Nat) : Option Resp × State := (some { op := q.op, sess := q.sess, status := e }, s)
  let fresh := who.isNone || q.off == 0
  if who.isNone && o.isChallenge then bad abortSession
  else if o.ty.length ≤ q.off || (who.isNone && decide (64 < o.ty.length)) then bad abortLength
  else if fresh then
    if o.isChallenge then
      match who with
      | none => bad abortSession
      | some k =>
        if s.lockedOut then bad abortAccess
        else
          let c := s.newChallenge k
          let r := c.2.readBlobValue who q o c.1
          (some r.1, r.2)
    else if s.mustFetch o then
      let i := s.getN Obj.st_sel
      let s := (s.modTab fun t => { t with reads := t.reads ++ [⟨p, q.sess, q.sub, q.off, i⟩] }).count Obj.st_cache_misses 32
      (none, s.stFetch i)
    else
      let r := s.readBlobValue who q o (s.objBytes who o)
      (some r.1, r.2.readHit o)
  else match who.bind fun k => (s.session k).snap with
    | some (a, b) =>
      if a ≠ o.addr then bad abortLength
      else if o.isChallenge && s.lockedOut then bad abortAccess
      else (some (okRead q o (slice b q.off (min 64 (o.ty.length - q.off)))), s)
    | none => bad abortLength

def State.serveRead (s : State) (p : Path) (q : Req) : Option Resp × State :=
  let bad (e : Nat) : Option Resp × State := (some { op := q.op, sess := q.sess, status := e }, s)
  let who := s.slotOf p q.sess
  if q.sess ≠ noSession && who.isNone then bad abortSession
  else
    let who := if q.sess = noSession then none else who
    match s.lookup false false q.idx q.sub with
    | .error e => bad e
    | .ok o =>
      if o.ty.isBlob then s.readBlob p who q o
      else if q.off ≠ 0 then bad abortLength
      else (some (okRead q o (s.objBytes who o)), s.readEffect o)

/-! ## The engine (R401, R432, R439) -/

/-- A request served, and its response where it is ready. -/
def State.serve (s : State) (p : Path) (q : Req) : Option Resp × State :=
  if q.op = opOpen then let r := s.serveOpen p q; (some r.1, r.2)
  else if q.op = opClose then let r := s.serveClose p q; (some r.1, r.2)
  else if q.op = opRead then s.serveRead p q
  else if q.op = opWrite then let r := s.serveWrite p q; (some r.1, r.2)
  else (some { op := q.op, sess := q.sess, status := abortAccess }, s)

/-- R435: a completed request restarts its session's idle time; the request is counted (R461). -/
def State.complete (s : State) (p : Path) (q : Req) : State :=
  let s := match s.slotOf p q.sess with
    | some k => s.modSession k fun x => { x with last := s.now }
    | none => s
  s.count Obj.request_count 32

/-- A request reaches the engine: it is served from DISCOVER on, and ends with BUSY before (R401). The ring carries
writes only (R447). An OPEN so refused is counted (R461). While a read of the path waits, the path takes no further request (R443, R446). -/
def State.request (s : State) (p : Path) (q : Req) : State :=
  let q := q.fit
  if s.blk.st == .off || s.pathBusy p || (p == .ring && q.op != opWrite) then s
  else if !s.blk.st.serves then
    (if q.op = opOpen then s.count Obj.session_busy_count 32 else s).deliver p
      { op := q.op, sess := q.sess, status := abortBusy }
  else
    let r := s.serve p q
    match r.1 with
    | some x => ((r.2.complete p q).deliver p x).noteLines
    | none =>
      match p with
      | .i3c => r.2.modI3c fun c => { c with resp := none }
      | .mbx0 => r.2.modMbx 0 fun m => { m with busy := true, done := false }
      | .mbx1 => r.2.modMbx 1 fun m => { m with busy := true, done := false }
      | .ring => r.2

/-- A read that waited for the entry of string `i` is answered with its bytes `b` (R494, log 64). -/
def State.answerOne (s : State) (b : List Byte) (w : WaitRead) : State :=
  let q : Req := { op := opRead, sess := w.sess, idx := 0x7810, sub := w.sub, off := w.off }
  match findObj s.cfg 0x7810 w.sub with
  | .error _ => s
  | .ok o =>
    let v := if w.sub = 0x0A then padTo 64 b else slice b 3 5 ++ slice b 28 16
    let who := if w.sess = noSession then none else s.slotOf w.path w.sess
    let r := s.readBlobValue who q o v
    ((r.2.complete w.path q).deliver w.path r.1).noteLines

def State.answerReads (s : State) (i : Nat) (b : List Byte) : State :=
  let l := s.dma.tab.reads.filter fun w => w.s == i
  let s := s.modTab fun t => { t with reads := t.reads.filter fun w => w.s != i }
  let b := match s.dma.tab.find i with | some e => e.bytes | none => b
  overAll s l fun s w => s.answerOne b w

/-! ## Writes as commands -/

/-- Bytes of data that one frame of a path carries (R437, R447). -/
def pathRoom : Path → Nat
  | .ring => 48
  | _ => 64

/-- The WRITE frames that carry a whole value, one after another. -/
def State.putBytes (s : State) (p : Path) (sess idx sub : Nat) (b : List Byte) : State :=
  let n := max 1 (ceilDiv b.length (pathRoom p))
  overAll s (List.range n) fun s j =>
    s.request p { op := opWrite, sess, idx, sub, flags := if j + 1 = n then 1 else 0, off := (pathRoom p) * j
                  data := slice b ((pathRoom p) * j) (min (pathRoom p) (b.length - (pathRoom p) * j)) }

/-- The WRITE of a number, in the object's own type. -/
def State.putNum (s : State) (p : Path) (sess idx sub : Nat) (v : Int) : State :=
  s.putBytes p sess idx sub (match findObj s.cfg idx sub with
    | .ok o => o.ty.encode v
    | .error _ => leBytes 1 (ofSigned 8 v))

/-- The READ of an object from its first byte. -/
def State.getObj (s : State) (p : Path) (sess idx sub : Nat) : State := s.request p { op := opRead, sess, idx, sub }

end Sys2Proof.Machine
end

