-- ==== Sys2Proof/Machine/DictCmds.lean ====
section
/-! DEFINITION. The commands that are requests of the dictionary: each reaches the engine of `Machine/Dict.lean` as the
frames of R437 that it stands for, on a path and naming a session, and has the effect of its object's rule (log 81). -/

namespace Sys2Proof.Machine

/-- The object of the unit numbered `i` among `n` whose objects begin at `base`. A unit that no configuration has names
no object (R12), and the request is answered NO_OBJECT (R427). -/
def unitObj (base n i : Nat) : Nat := if i < n then base + i else 0xFFFF

/-! ## The block, the engine, frets -/

/-- BLOCK_CMD_SHUTDOWN (R416): `block_cmd` = 1. -/
def execBlockCmdShutdown (p : Path) (sess : Nat) (s : State) : Out :=
  .next (s.putNum p sess 0x1100 0x02 1)

/-- BLOCK_CMD_START (R416): `block_cmd` = 2. -/
def execBlockCmdStart (p : Path) (sess : Nat) (s : State) : Out :=
  .next (s.putNum p sess 0x1100 0x02 2)

/-- SERVICE_CLEAR (R155). -/
def execServiceClear (p : Path) (sess : Nat) (mask : Nat) (s : State) : Out :=
  .next (s.putNum p sess 0x1100 0x05 mask)

/-- BANK_SWAP (R196): ten bytes, one bit for each channel. -/
def execBankSwap (p : Path) (sess : Nat) (mask : Nat) (s : State) : Out :=
  .next (s.putBytes p sess 0x4000 0x02 (leBytes 10 mask))

/-- SHADOW_WRITE (R197, R201): subs 0x01 to 0x18 a coefficient, 0x21 to 0x38 a shift. -/
def execShadowWrite (p : Path) (sess : Nat) (ch : Nat) (sub : Nat) (value : Int) (s : State) : Out :=
  .next (s.putNum p sess (unitObj 0x4200 79 ch) sub value)

/-- CH_FLAGS_CLEAR (R169). -/
def execChFlagsClear (p : Path) (sess : Nat) (ch : Nat) (mask : Nat) (s : State) : Out :=
  .next (s.putNum p sess (unitObj 0x4100 79 ch) 0x06 mask)

/-- MATCHED_ENABLE_WRITE (R223). -/
def execMatchedEnableWrite (p : Path) (sess : Nat) (v : Nat) (s : State) : Out :=
  .next (s.putNum p sess 0x4800 0x2B v)

/-! ## Cap, hints, learner -/

/-- CAP_IRQ_CLEAR (R258). -/
def execCapIrqClear (p : Path) (sess : Nat) (mask : Nat) (s : State) : Out :=
  .next (s.putNum p sess 0x5000 0x1C mask)

/-- HINT_IRQ_CLEAR (R295). -/
def execHintIrqClear (p : Path) (sess : Nat) (mask : Nat) (s : State) : Out :=
  .next (s.putNum p sess 0x6400 0x11 mask)

/-- HINT_ENTRIES_MAX_READ (R295). -/
def execHintEntriesMaxRead (p : Path) (sess : Nat) (s : State) : Out :=
  .next (s.getObj p sess 0x6400 0x03)

/-- GROUP_ETA_WRITE (R303). -/
def execGroupEtaWrite (p : Path) (sess : Nat) (g : Nat) (v : Int) (s : State) : Out :=
  .next (s.putNum p sess (unitObj 0x6100 64 g) 0x01 v)

/-- GROUP_FROZEN_WRITE (R305). -/
def execGroupFrozenWrite (p : Path) (sess : Nat) (g : Nat) (v : Nat) (s : State) : Out :=
  .next (s.putNum p sess (unitObj 0x6100 64 g) 0x04 v)

/-- SLOT_APPLY (R310). -/
def execSlotApply (p : Path) (sess : Nat) (slot : Nat) (s : State) : Out :=
  .next (s.putNum p sess (unitObj 0x6200 11 slot) 0x09 1)

/-- SHARD_HALT (R316): `shard_halt` = 1. -/
def execShardHalt (p : Path) (sess : Nat) (k : Nat) (s : State) : Out :=
  .next (s.putNum p sess (unitObj 0x6300 8 k) 0x03 1)

/-- SHARD_RESUME (R317): `shard_halt` = 0. -/
def execShardResume (p : Path) (sess : Nat) (k : Nat) (s : State) : Out :=
  .next (s.putNum p sess (unitObj 0x6300 8 k) 0x03 0)

/-- SHARD_EXPORT (R318): `shard_xfer` = 1. -/
def execShardExport (p : Path) (sess : Nat) (k : Nat) (s : State) : Out :=
  .next (s.putNum p sess (unitObj 0x6300 8 k) 0x0D 1)

/-- SHARD_IMPORT (R318): `shard_xfer` = 2. -/
def execShardImport (p : Path) (sess : Nat) (k : Nat) (s : State) : Out :=
  .next (s.putNum p sess (unitObj 0x6300 8 k) 0x0D 2)

/-- LEARN_CELL_WRITE (R322): the record arrives in its segments. -/
def execLearnCellWrite (p : Path) (sess : Nat) (rec : List Byte) (s : State) : Out :=
  .next (s.putBytes p sess 0x6000 0x16 rec)

/-- LEARN_IRQ_CLEAR (R323). -/
def execLearnIrqClear (p : Path) (sess : Nat) (mask : Nat) (s : State) : Out :=
  .next (s.putNum p sess 0x6000 0x1B mask)

/-! ## Temperatures, pickups, converters -/

/-- DIODE_CLEAR (R332). -/
def execDiodeClear (p : Path) (sess : Nat) (mask : Nat) (s : State) : Out :=
  .next (s.putBytes p sess 0x5800 0x05 (leBytes 10 mask))

/-- DIODE_FORCE_WRITE (R332). -/
def execDiodeForceWrite (p : Path) (sess : Nat) (mask : Nat) (s : State) : Out :=
  .next (s.putBytes p sess 0x5800 0x06 (leBytes 10 mask))

/-- THERMAL_IRQ_CLEAR (R352). -/
def execThermalIrqClear (p : Path) (sess : Nat) (mask : Nat) (s : State) : Out :=
  .next (s.putNum p sess 0x5800 0x1E mask)

/-- PICKUP_CLEAR (R53). -/
def execPickupClear (p : Path) (sess : Nat) (r : Nat) (mask : Nat) (s : State) : Out :=
  .next (s.putNum p sess (unitObj 0x2100 76 r) 0x17 mask)

/-- PICKUP_FORCE_WRITE (R53). -/
def execPickupForceWrite (p : Path) (sess : Nat) (r : Nat) (mask : Nat) (s : State) : Out :=
  .next (s.putNum p sess (unitObj 0x2100 76 r) 0x18 mask)

/-- SYNC_ARM_SINGLE (R365): `sync_arm` = 1. -/
def execSyncArmSingle (p : Path) (sess : Nat) (s : State) : Out :=
  .next (s.putNum p sess 0x7060 0x0B 1)

/-- SYNC_ARM_SWEEPS (R365): `sync_arm` = 2. -/
def execSyncArmSweeps (p : Path) (sess : Nat) (s : State) : Out :=
  .next (s.putNum p sess 0x7060 0x0B 2)

/-- SYNC_CANCEL (R382): `sync_arm` = 0. -/
def execSyncCancel (p : Path) (sess : Nat) (s : State) : Out :=
  .next (s.putNum p sess 0x7060 0x0B 0)

/-- CONV_URGENT (R369). -/
def execConvUrgent (p : Path) (sess : Nat) (n : Nat) (v : Nat) (s : State) : Out :=
  .next (s.putNum p sess (unitObj 0x7000 70 n) 0x0C v)

/-- Sub-indices of the sequence-table objects (R381). -/
def tableSub : TableObj → Nat
  | .a => 0x01
  | .aLen => 0x02
  | .b => 0x03
  | .bLen => 0x04

/-- CONV_TABLE_WRITE (R359). -/
def execConvTableWrite (p : Path) (sess : Nat) (n : Nat) (t : TableObj) (data : List Byte) (s : State) : Out :=
  .next (s.putBytes p sess (unitObj 0x7000 70 n) (tableSub t) data)

/-! ## Strings -/

/-- STRING_CMD_MUTE (R158): `string_cmd` = 1. -/
def execStringCmdMute (p : Path) (sess : Nat) (i : Nat) (s : State) : Out :=
  .next (s.putNum p sess (unitObj 0x3000 1120 i) 0x0C 1)

/-- STRING_CMD_RETURN (R149): `string_cmd` = 2. -/
def execStringCmdReturn (p : Path) (sess : Nat) (i : Nat) (s : State) : Out :=
  .next (s.putNum p sess (unitObj 0x3000 1120 i) 0x0C 2)

/-- STRING_CMD_SET_BLIND (R142): `string_cmd` = 3. -/
def execStringCmdSetBlind (p : Path) (sess : Nat) (i : Nat) (s : State) : Out :=
  .next (s.putNum p sess (unitObj 0x3000 1120 i) 0x0C 3)

/-- STRING_CMD_CLEAR_BLIND (R142): `string_cmd` = 4. -/
def execStringCmdClearBlind (p : Path) (sess : Nat) (i : Nat) (s : State) : Out :=
  .next (s.putNum p sess (unitObj 0x3000 1120 i) 0x0C 4)

/-! ## Requests of the dictionary itself -/

/-- OPEN (R435). -/
def execOpen (p : Path) (sess : Nat) (s : State) : Out := .next (s.request p { op := opOpen, sess })

/-- CLOSE (R435). -/
def execClose (p : Path) (sess : Nat) (s : State) : Out := .next (s.request p { op := opClose, sess })

/-- READ (R436, R440). -/
def execRead (p : Path) (sess idx sub off : Nat) (s : State) : Out :=
  .next (s.request p { op := opRead, sess, idx, sub, off })

/-- WRITE (R441): one frame. -/
def execWrite (p : Path) (sess idx sub flags off : Nat) (data : List Byte) (s : State) : Out :=
  .next (s.request p { op := opWrite, sess, idx, sub, flags, off, data })

/-- REGISTER_WRITE (R428, R429): the write of a number to an object, in the frames that its type needs. -/
def execRegisterWrite (p : Path) (sess idx sub : Nat) (v : Int) (s : State) : Out := .next (s.putNum p sess idx sub v)

/-- R435: sessions of slots 0 to 9 expire. -/
def idleLimit : Nat := 1000000000

/-- SESSION_EXPIRY (R435): 1 s without a request. The ring's session never expires while its channel runs (R448). -/
def execSessionExpiry (slot : Nat) (s : State) : Out :=
  within s 11 slot
    (s.when (decide (slot < 10) && (s.session slot).isOpen && decide ((s.session slot).last + idleLimit ≤ s.now))
      ((s.closeSession slot).count Obj.session_expired_count 32))

/-- COMMIT (R450). -/
def execCommit (p : Path) (sess : Nat) (mask : Nat) (s : State) : Out :=
  .next (s.putNum p sess 0x1200 0x01 mask)

/-- COMMIT_DISCARD (R450). -/
def execCommitDiscard (p : Path) (sess : Nat) (mask : Nat) (s : State) : Out :=
  .next (s.putNum p sess 0x1200 0x03 mask)

/-- The consumer of a group takes the committed set whole (R391). A committed G7 set closes the frame in progress at a
millisecond boundary (R239); a new trim mode begins with an input that is not lost (R186). -/
def State.groupTaken (s : State) (g : Nat) : State :=
  match g with
  | 6 => s.takeTrimGroup
  | 7 => if s.telemDue && decide (s.now % 1000000 = 0) then s.frameBoundary else s
  | _ => s.takeGroup g

/-- COMMIT_GROUP_TAKEN (R391), at the consumer's instant of R390. -/
def execCommitGroupTaken (g : Nat) (s : State) : Out :=
  within s 8 g (s.when (decide (1 ≤ g)) (s.groupTaken g))

/-- KEEPER_CHALLENGE (R452). -/
def execKeeperChallenge (p : Path) (sess : Nat) (s : State) : Out :=
  .next (s.getObj p sess 0x9000 0x01)

/-- KEEPER_RESPONSE (R453). -/
def execKeeperResponse (p : Path) (sess : Nat) (resp : List Byte) (s : State) : Out :=
  .next (s.putBytes p sess 0x9000 0x02 resp)

/-- CHALLENGE_LAPSE (R452): 10 s after it was read. -/
def execChallengeLapse (slot : Nat) (s : State) : Out :=
  within s 11 slot (match (s.session slot).chal with
    | some (_, t) => s.when (decide (t + challengeLife ≤ s.now)) (s.modSession slot fun x => { x with chal := none })
    | none => s)

/-- KEEPER_LOCKOUT_END (R453): 60 s after it began. -/
def execKeeperLockoutEnd (s : State) : Out :=
  .next (match s.dict.lockUntil with
    | some t => s.when (decide (t ≤ s.now)) { s with dict := { s.dict with lockUntil := none, failures := 0 } }
    | none => s)

/-- KEEPER_DROP (R454). -/
def execKeeperDrop (p : Path) (sess : Nat) (s : State) : Out :=
  .next (s.putNum p sess 0x9000 0x06 1)

/-- SESSION_EVICT (R461). -/
def execSessionEvict (p : Path) (sess : Nat) (slot : Nat) (s : State) : Out :=
  .next (s.putNum p sess 0x9100 0x06 slot)

/-! ## DMA, the string table, the recorder -/

/-- DMA_START (R479): `dma_cmd` = 1. -/
def execDmaStart (p : Path) (sess : Nat) (ch : Nat) (s : State) : Out :=
  .next (s.putNum p sess (unitObj 0x7800 8 ch) 0x02 1)

/-- DMA_ABORT (R479): `dma_cmd` = 2. -/
def execDmaAbort (p : Path) (sess : Nat) (ch : Nat) (s : State) : Out :=
  .next (s.putNum p sess (unitObj 0x7800 8 ch) 0x02 2)

/-- DMA_KICK (R479): `dma_cmd` = 3. -/
def execDmaKick (p : Path) (sess : Nat) (ch : Nat) (s : State) : Out :=
  .next (s.putNum p sess (unitObj 0x7800 8 ch) 0x02 3)

/-- DMA_IRQ_CLEAR (R493). -/
def execDmaIrqClear (p : Path) (sess : Nat) (ch : Nat) (mask : Nat) (s : State) : Out :=
  .next (s.putNum p sess (unitObj 0x7800 8 ch) 0x10 mask)

/-- ST_ENABLE (R486): `st_enable` = 1. -/
def execStEnable (p : Path) (sess : Nat) (s : State) : Out :=
  .next (s.putNum p sess 0x7810 0x02 1)

/-- ST_DISABLE (R492): `st_enable` = 0. -/
def execStDisable (p : Path) (sess : Nat) (s : State) : Out :=
  .next (s.putNum p sess 0x7810 0x02 0)

/-- ST_FLUSH (R489). -/
def execStFlush (p : Path) (sess : Nat) (s : State) : Out :=
  .next (s.putNum p sess 0x7810 0x08 1)

/-- ST_HOST_FIELDS_WRITE (R490). -/
def execStHostFieldsWrite (p : Path) (sess : Nat) (fields : List Byte) (s : State) : Out :=
  .next (s.putBytes p sess 0x7810 0x0B fields)

/-- ST_ENTRY_FETCHED (R487): the entry whose read has been answered; reads that waited for it are answered (R494). -/
def execStEntryFetched (i : Nat) (s : State) : Out :=
  onString s i (match s.entryRead i with
    | some b => (s.entryFetched i b).answerReads i b
    | none => s)

/-- TRIG_SNAP_COUNT_WRITE (R502). -/
def execTrigSnapCountWrite (p : Path) (sess : Nat) (t : Nat) (v : Nat) (s : State) : Out :=
  .next (s.putNum p sess (unitObj 0x8200 64 t) 0x03 v)

/-- FAULT_FREEZE (R507): `fault_freeze` = 1. -/
def execFaultFreeze (p : Path) (sess : Nat) (s : State) : Out :=
  .next (s.putNum p sess 0x8000 0x05 1)

/-- FAULT_UNFREEZE (R508): `fault_freeze` = 0. -/
def execFaultUnfreeze (p : Path) (sess : Nat) (s : State) : Out :=
  .next (s.putNum p sess 0x8000 0x05 0)

/-- FAULT_CLEAR (R512). -/
def execFaultClear (p : Path) (sess : Nat) (s : State) : Out :=
  .next (s.putNum p sess 0x8000 0x0C 1)

/-- TRACE_CLEAR (R512). -/
def execTraceClear (p : Path) (sess : Nat) (s : State) : Out :=
  .next (s.putNum p sess 0x8100 0x04 1)

/-- REC_QUEUE_MAX_READ (R516). -/
def execRecQueueMaxRead (p : Path) (sess : Nat) (s : State) : Out :=
  .next (s.getObj p sess 0x8000 0x11)

end Sys2Proof.Machine
end

