-- ==== Sys2Proof/Machine/Ports.lean ====
section
/-! DEFINITION. The access paths as the outside drives them and the test port: the I3C target (R442 to R444), the register
port with its mailboxes (R445, R446, R528, R529), the dictionary ring (R447, R448), REFCLK and the clock checks (R526,
R527, R544), the test access port (R540 to R543). -/

namespace Sys2Proof.Machine

/-- A supply is present. -/
def State.powered (s : State) : Bool := s.blk.st != .off

/-! ## I3C (R442 to R444) -/

/-- I3C_PRIVATE_READ (R443): the ready response, which stays readable, or a NACK. -/
def execI3cPrivateRead (s : State) : Out :=
  .next (s.when s.powered (s.modI3c fun c => { c with out := c.resp }))

/-- I3C_FRAME_DISCARD (R443). The frame was not whole, so what the response repeats of it is open (log 5). -/
def execI3cFrameDiscard (s : State) : Out :=
  .next (s.when (s.powered && !s.pathBusy .i3c) (
    let a := s.takeFree
    let b := a.2.takeFree
    b.2.deliver .i3c { op := a.1 % 256, sess := b.1 % 256, status := abortLength }))

def State.setDynamic (s : State) (a : Nat) : State := s.modI3c fun c => { c with dyn := a % 128 }

/-- ENTDAA. -/
def execEntdaa (addr : Nat) (s : State) : Out := .next (s.when s.powered (s.setDynamic addr))

/-- SETDASA, to the block's static address. -/
def execSetdasa (static addr : Nat) (s : State) : Out :=
  .next (s.when (s.powered && static == s.cfg.staticAddr) (s.setDynamic addr))

/-- RSTDAA: the dynamic address goes and slots 0 to 7 close (R435, R443). -/
def execRstdaa (s : State) : Out :=
  .next (s.when s.powered (overAll (s.setDynamic 0) (pathSlots .i3c) State.closeSession))

/-- R442: the provisional ID. -/
def State.provisionalId (s : State) : Nat :=
  s.dict.i3c.maker % 2 ^ 15 * 2 ^ 33 + 0x0F3D * 2 ^ 16 + s.dict.i3c.inst % 16 * 2 ^ 12

def State.ccc (s : State) (b : List Byte) : Out := .next (s.when s.powered (s.modI3c fun c => { c with out := some b }))

/-- GETPID, most significant byte first. PRESUMED: the order of bytes of the I3C standard (log 83). -/
def execGetpid (s : State) : Out := s.ccc (leBytes 6 s.provisionalId).reverse
/-- GETBCR. -/
def execGetbcr (s : State) : Out := s.ccc [0x06]
/-- GETDCR. -/
def execGetdcr (s : State) : Out := s.ccc [0x00]

/-- R444: the payload of an in-band interrupt. -/
def State.ibiPayload (s : State) : Nat := s.irqLines + 16 * b2n s.dict.i3c.resp.isSome

/-- GETSTATUS (R444). PRESUMED: the two bytes of the I3C standard, the pending interrupt in bits [3:0] of the second
and the other fields 0 (log 83). -/
def execGetstatus (s : State) : Out := s.ccc [0, ones 5 s.ibiPayload]

/-- ENEC: bit 0 enables in-band interrupts; lines already asserted raise none. Other bits have no effect. -/
def execEnec (events : Nat) (s : State) : Out :=
  .next (s.when (s.powered && bit events 0 && !s.dict.i3c.enint)
    (s.modI3c fun c => { c with enint := true, ibi := false, lines := s.irqLines }))

/-- DISEC. -/
def execDisec (events : Nat) (s : State) : Out :=
  .next (s.when (s.powered && bit events 0) (s.modI3c fun c => { c with enint := false, ibi := false }))

/-- R444: an interrupt is due: a response has become ready, or a line has become asserted. -/
def State.ibiDue (s : State) : Bool :=
  s.dict.i3c.enint && (s.dict.i3c.ibi || decide (s.irqLines &&& (15 - s.dict.i3c.lines % 16) ≠ 0))

/-- IN_BAND_INTERRUPT: raised, and raised again where arbitration is lost. -/
def execInBandInterrupt (won : Bool) (s : State) : Out :=
  .next (s.when (s.powered && s.ibiDue)
    (s.modI3c fun c =>
      if won then { c with ibi := false, payload := s.ibiPayload, lines := s.irqLines }
      else { c with ibi := true }))

/-! ## The register window (R445, R446, R528, R529) -/

def mbxPath (m : Nat) : Path := if m = 0 then .mbx0 else .mbx1

/-- The request frame of a mailbox (R437). -/
def Mailbox.frame (x : Mailbox) : Req :=
  { op := x.req.getD 0 0, sess := x.req.getD 1 0, idx := fieldAt x.req 2 2, sub := x.req.getD 4 0
    flags := x.req.getD 5 0, off := fieldAt x.req 6 2, data := slice x.req 9 (x.req.getD 8 0) }

/-- GO: BUSY sets, DONE clears, and the frame goes to the engine. It is ignored while BUSY is set. -/
def State.go (s : State) (m : Nat) : State :=
  let x := s.dict.mbx.getD m {}
  if x.busy || !s.powered then s
  else (s.modMbx m fun x => { x with busy := true, done := false }).request (mbxPath m) x.frame

def execMbxGo (m : Nat) (s : State) : Out := within s 2 m (s.go m)

/-- The registers of a mailbox (R445). -/
inductive MbxReg where
  | ctrl | stat | req (o : Nat) | rsp (o : Nat)
deriving DecidableEq, Repr

/-- The register at a byte offset of a mailbox. -/
def mbxReg (o : Nat) : Option MbxReg :=
  if o = 0 then some .ctrl
  else if o = 4 then some .stat
  else if 0x40 ≤ o ∧ o < 0xC0 then some (.req (o - 0x40))
  else if 0xC0 ≤ o ∧ o < 0x140 then some (.rsp (o - 0xC0))
  else none

def State.hregDone (s : State) (data : Nat) (err : Bool) : State :=
  { s with clk := { s.clk with hregData := data, hregErr := err } }

/-- A read. `MBX_CTRL` is written only: what a read of it returns is open (log 5). -/
def State.hregRead (s : State) (m : Nat) (g : MbxReg) : State :=
  let x := s.dict.mbx.getD m {}
  match g with
  | .ctrl => let f := s.takeFree; f.2.hregDone (f.1 % 2 ^ 32) false
  | .stat => s.hregDone (2 * b2n x.busy + b2n x.done + 256 * x.rspLen) false
  | .req o => s.hregDone (fieldAt x.req o 4) false
  | .rsp o => s.hregDone (fieldAt x.rsp o 4) false

/-- A write with good parity. -/
def State.hregWrite (s : State) (m : Nat) (g : MbxReg) (v : Nat) : State :=
  let s := s.hregDone s.clk.hregData false
  match g with
  | .ctrl => if bit v 0 then s.go m else s
  | .req o =>
    if (s.dict.mbx.getD m {}).busy then s else s.modMbx m fun x => { x with req := patch x.req o (leBytes 4 v) }
  | .stat | .rsp _ => s

/-- R528: even parity of the four bytes of a word. -/
def wordParity (v par : Nat) : Bool :=
  (List.range 4).all fun i => evenParity 9 (byteOf v i + 256 * b2n (bit par i))

/-- REGISTER_PORT_ACCESS (R529): `addr` is the byte offset in the window of 1 KiB; its bits [1:0] are not part of it.
A parity error comes before an offset outside the registers. -/
def execRegisterPortAccess (wr : Bool) (addr wdata wpar : Nat) (s : State) : Out :=
  .next (s.when s.powered (
    let o := addr % 1024 / 4 * 4
    if wr && !wordParity wdata wpar then s.parityError.hregDone s.clk.hregData true
    else match mbxReg (o % 512) with
      | none => s.hregDone (if wr then s.clk.hregData else 0) true
      | some g => if wr then s.hregWrite (o / 512) g (wdata % 2 ^ 32) else s.hregRead (o / 512) g))

/-! ## The dictionary ring (R447, R448) -/

/-- The record at the head of channel 2's holding register is executed. -/
def State.execRecord (s : State) (b : List Byte) : State :=
  let done (st ab : Nat) : State := { s with dict := { s.dict with ring := (st, ab) } }
  if crc32c (b.take 58) ≠ fieldAt b 60 4 then done 3 0
  else if b.getD 2 0 = 0 then done 1 0
  else if b.getD 2 0 ≠ opWrite then done 2 abortAccess
  else if 48 < b.getD 7 0 then done 2 abortLength
  else s.request .ring
    { op := opWrite, sess := noSession, idx := fieldAt b 4 2, sub := b.getD 6 0, flags := b.getD 3 0
      off := fieldAt b 8 2, data := slice b 10 (b.getD 7 0) }

/-- A record is there, and the status of the one before has been written. -/
def State.ringReady (s : State) : Bool :=
  (s.dmaCh 2).moves && decide (64 ≤ (s.dmaCh 2).hold.length) && !s.busyTx 2 (· == .ringWr)

/-- RING_RECORD (R448): executed, then bytes 58 and 59 are written back. -/
def State.ringRecord (s : State) : State :=
  if !s.ringReady then s
  else
    let c := s.dmaCh 2
    let s := s.modDmaCh 2 fun c => { c with hold := c.hold.drop 64, pos := c.pos + 64, burst := c.burst - 64 }
    let s := s.execRecord (c.hold.take 64)
    (s.memIssue { ch := 2, kind := .ringWr, addr := c.src + c.pos + 58, len := 2
                  data := [s.dict.ring.1, s.dict.ring.2] }).waitPace 2

def execRingRecord (s : State) : Out := .next (s.when s.cfg.hasDma s.ringRecord)

/-! ## REFCLK and the clock checks (R526, R527, R544) -/

/-- REFCLK_LOST: once for each loss. -/
def execRefclkLost (s : State) : Out :=
  .next (s.when (s.powered && !s.clk.refLost)
    (({ s with clk := { s.clk with refLost := true } } : State).count Obj.refclk_lost_count 32))

/-- REFCLK_REGAINED. -/
def execRefclkRegained (s : State) : Out :=
  .next (s.when (s.powered && s.clk.refLost)
    ({ s with clk := { s.clk with refLost := false } }.modBlk fun b => { b with refUntil := 0 }))

/-- CLOCK_CHECK (R544): the islands found outside ±0.1%, and HMEM_CLK as measured, in MHz. -/
def execClockCheck (faulty : List Nat) (hmemMhz : Nat) (s : State) : Out :=
  .next (s.when s.powered { s with clk := { s.clk with
    bad := (Config.regions s.cfg).filter fun r => s.clk.bad.contains r || faulty.contains r
    hmem := min 1100 hmemMhz } })

/-! ## The test access port (R540 to R543) -/

def idcodeValue : Nat := 0x30F3D157

/-- Test-Logic-Reset: IDCODE is selected and TESTCTRL is cleared. PRESUMED: that a reset of the port selects IDCODE
(log 84). -/
def State.tapReset (s : State) : State :=
  { s with clk := { s.clk with tap := .idcode, ctrl := 0, shift := idcodeValue } }

/-- TRST_N_LOW. -/
def execTrstNLow (s : State) : Out := .next (s.when s.powered s.tapReset)

/-- TEST_LOGIC_RESET. -/
def execTestLogicReset (s : State) : Out := .next (s.when s.powered s.tapReset)

/-- R541: BYPASS selects one bit, which captures 0. PRESUMED: the captured level (log 84). -/
def State.selectBypass (s : State) : State := { s with clk := { s.clk with tap := .bypass, shift := 0 } }

/-- The level of TEST_MODE; low clears TESTCTRL, and EXTEST acts as BYPASS from then on (R541, R543). -/
def State.setTestMode (s : State) (v : Bool) : State :=
  if v then { s with clk := { s.clk with testMode := true } }
  else
    let s : State := if s.clk.tap = .extest then s.selectBypass else s
    { s with clk := { s.clk with testMode := false, ctrl := 0 } }

/-- TEST_MODE_FALL. -/
def execTestModeFall (s : State) : Out := .next (s.when s.powered (s.setTestMode false))

/-- BYPASS. -/
def execBypass (s : State) : Out := .next (s.when s.powered s.selectBypass)

/-- IDCODE. -/
def execIdcode (s : State) : Out :=
  .next (s.when s.powered { s with clk := { s.clk with tap := .idcode, shift := idcodeValue } })

/-- R542: cells of the boundary register. -/
def boundaryCells : Nat := 1742

/-- What cell `i` captures: the level that the block drives, or the level at the pin. -/
def State.boundaryCell (s : State) (pins i : Nat) : Bool :=
  if i < 1120 then (s.str i).pulse.isSome
  else if i < 1260 then (s.course (i - 1120)).en
  else if i < 1400 then (s.course (i - 1260)).damp
  else match i with
    | 1732 => s.blk.pwrGood
    | 1733 => !s.blk.tripN
    | 1734 => !s.serviceOut
    | 1735 => !bit s.irqLines 0
    | 1736 => !bit s.irqLines 1
    | 1737 => !bit s.irqLines 2
    | 1738 => !bit s.irqLines 3
    | _ => bit pins i

def State.boundary (s : State) (pins : Nat) : Nat :=
  (List.range boundaryCells).foldr (fun i a => b2n (s.boundaryCell pins i) + 2 * a) 0

/-- SAMPLE_PRELOAD: the boundary register captures the pins and takes the values shifted in. -/
def execSamplePreload (pins shiftIn : Nat) (s : State) : Out :=
  .next (s.when s.powered { s with clk := { s.clk with
    tap := .sample, shift := s.boundary pins, bound := shiftIn % 2 ^ boundaryCells } })

/-- EXTEST: in effect with TEST_MODE high and the block in RESET; otherwise it acts as BYPASS. -/
def execExtest (testMode : Bool) (s : State) : Out :=
  .next (s.when s.powered (
    let s := s.setTestMode testMode
    if testMode && s.blk.st == .reset then { s with clk := { s.clk with tap := .extest, shift := s.clk.bound } }
    else s.selectBypass))

/-- TESTCTRL: 16 bits are shifted in; bit 0 is held while TEST_MODE is high, bits [15:1] read 0 (R543). -/
def execTestctrl (bitsIn : Nat) (testMode : Bool) (s : State) : Out :=
  .next (s.when s.powered (
    let s := s.setTestMode testMode
    { s with clk := { s.clk with tap := .testctrl, shift := s.clk.ctrl, ctrl := if testMode then bitsIn % 2 else 0 } }))

end Sys2Proof.Machine
end

