-- ==== Sys2Proof/Machine/Dispatch.lean ====
section
/-! DEFINITION. One arm for each command: its meaning, on everything but the queue of waiting commands. -/

namespace Sys2Proof.Machine

def exec (i : Instr) (s : State) : Host.Outcome State Fault Refusal :=
  match i with
  | .suppliesGood => Sys2Proof.Machine.execSuppliesGood s
  | .suppliesLost => Sys2Proof.Machine.execSuppliesLost s
  | .resetNLow logs => Sys2Proof.Machine.execResetNLow s logs
  | .resetExit riseAt => Sys2Proof.Machine.execResetExit riseAt s
  | .selftestComplete memFail twinFail refs => Sys2Proof.Machine.execSelftestComplete memFail twinFail refs s
  | .fuseloadComplete image => Sys2Proof.Machine.execFuseloadComplete image s
  | .courseDiscovery c res ident => Sys2Proof.Machine.execCourseDiscovery c res ident s
  | .pmbusRetry c res ident => Sys2Proof.Machine.execPmbusRetry c res ident s
  | .discoverEnd vinOk => Sys2Proof.Machine.execDiscoverEnd vinOk s
  | .railRampStart => Sys2Proof.Machine.execRailRampStart s
  | .rampReferenceStart rail => Sys2Proof.Machine.execRampReferenceStart rail s
  | .positionJoin rail p => Sys2Proof.Machine.execPositionJoin rail p s
  | .railPowerGood rail => Sys2Proof.Machine.execRailPowerGood rail s
  | .railFailed rail => Sys2Proof.Machine.execRailFailed rail s
  | .blockCmdShutdown p sess => Sys2Proof.Machine.execBlockCmdShutdown p sess s
  | .blockCmdStart p sess => Sys2Proof.Machine.execBlockCmdStart p sess s
  | .rampDownStart => Sys2Proof.Machine.execRampDownStart s
  | .railRampDownEnd rail => Sys2Proof.Machine.execRailRampDownEnd rail s
  | .vinOkLoss => Sys2Proof.Machine.execVinOkLoss s
  | .vinRestart => Sys2Proof.Machine.execVinRestart s
  | .regionCycle r samples => Sys2Proof.Machine.execRegionCycle r samples s
  | .fireFallingEdge n => Sys2Proof.Machine.execFireFallingEdge n s
  | .fixedRateFire r => Sys2Proof.Machine.execFixedRateFire r s
  | .vminSourceChange r => Sys2Proof.Machine.execVminSourceChange r s
  | .strumDisagreeWindow => Sys2Proof.Machine.execStrumDisagreeWindow s
  | .twinOvDisagreement r => Sys2Proof.Machine.execTwinOvDisagreement r s
  | .twinParityReload r t => Sys2Proof.Machine.execTwinParityReload r t s
  | .strumRoundDue r => Sys2Proof.Machine.execStrumRoundDue r s
  | .lockoutEnd r => Sys2Proof.Machine.execLockoutEnd r s
  | .spreadStrobe r froms => Sys2Proof.Machine.execSpreadStrobe r froms s
  | .strumReport r => Sys2Proof.Machine.execStrumReport r s
  | .damper r => Sys2Proof.Machine.execDamper r s
  | .shedArrival n => Sys2Proof.Machine.execShedArrival n s
  | .scoreboardChangeArrival n => Sys2Proof.Machine.execScoreboardChangeArrival n s
  | .pickupValidityArrival r => Sys2Proof.Machine.execPickupValidityArrival r s
  | .bandChangeArrival r => Sys2Proof.Machine.execBandChangeArrival r s
  | .preparationTime id => Sys2Proof.Machine.execPreparationTime id s
  | .preStrumStart r => Sys2Proof.Machine.execPreStrumStart r s
  | .preStrumEnd r => Sys2Proof.Machine.execPreStrumEnd r s
  | .bumpHoldEnd id => Sys2Proof.Machine.execBumpHoldEnd id s
  | .wakeReqRise r => Sys2Proof.Machine.execWakeReqRise r s
  | .wakeGrant => Sys2Proof.Machine.execWakeGrant s
  | .wakeTimeout => Sys2Proof.Machine.execWakeTimeout s
  | .rejoinAck r => Sys2Proof.Machine.execRejoinAck r s
  | .wakeReqFall r => Sys2Proof.Machine.execWakeReqFall r s
  | .crsStatFrame c word codingOk => Sys2Proof.Machine.execCrsStatFrame c word codingOk s
  | .laneTimeout c => Sys2Proof.Machine.execLaneTimeout c s
  | .laneFltDamper c => Sys2Proof.Machine.execLaneFltDamper c s
  | .laneVminDamper c => Sys2Proof.Machine.execLaneVminDamper c s
  | .crsFltNFall c => Sys2Proof.Machine.execCrsFltNFall c s
  | .crsFltNRise c => Sys2Proof.Machine.execCrsFltNRise c s
  | .followUp c statusWord iout => Sys2Proof.Machine.execFollowUp c statusWord s iout
  | .courseRecordCopy c first second ident => Sys2Proof.Machine.execCourseRecordCopy c first second s ident
  | .smbusAlert seg addr => Sys2Proof.Machine.execSmbusAlert seg addr s
  | .controlPeriod => Sys2Proof.Machine.execControlPeriod s
  | .engineOutputs => Sys2Proof.Machine.execEngineOutputs s
  | .outputsArrival => Sys2Proof.Machine.execOutputsArrival s
  | .swapSample => Sys2Proof.Machine.execSwapSample s
  | .bankCopyEnd => Sys2Proof.Machine.execBankCopyEnd s
  | .bankSwap p sess mask => Sys2Proof.Machine.execBankSwap p sess mask s
  | .shadowWrite p sess ch sub value => Sys2Proof.Machine.execShadowWrite p sess ch sub value s
  | .chFlagsClear p sess ch mask => Sys2Proof.Machine.execChFlagsClear p sess ch mask s
  | .bankParityError ch t => Sys2Proof.Machine.execBankParityError ch t s
  | .trimPwmPeriod high low => Sys2Proof.Machine.execTrimPwmPeriod high low s
  | .trimInputLost => Sys2Proof.Machine.execTrimInputLost s
  | .trimHoldExpiry => Sys2Proof.Machine.execTrimHoldExpiry s
  | .fretStepStart r => Sys2Proof.Machine.execFretStepStart r s
  | .fretCmdReqRaise r => Sys2Proof.Machine.execFretCmdReqRaise r s
  | .fretCmdAckRise r => Sys2Proof.Machine.execFretCmdAckRise r s
  | .fretCmdAckFall r => Sys2Proof.Machine.execFretCmdAckFall r s
  | .fretAckLate r => Sys2Proof.Machine.execFretAckLate r s
  | .recoveryHoldExpiry rail => Sys2Proof.Machine.execRecoveryHoldExpiry rail s
  | .matchedEnableWrite p sess v => Sys2Proof.Machine.execMatchedEnableWrite p sess v s
  | .millisecondBoundary => Sys2Proof.Machine.execMillisecondBoundary s
  | .frameReady => Sys2Proof.Machine.execFrameReady s
  | .capStep => Sys2Proof.Machine.execCapStep s
  | .capoDelivery => Sys2Proof.Machine.execCapoDelivery s
  | .thermalDecision => Sys2Proof.Machine.execThermalDecision s
  | .recoveryStep => Sys2Proof.Machine.execRecoveryStep s
  | .capIrqClear p sess mask => Sys2Proof.Machine.execCapIrqClear p sess mask s
  | .hint word par => Sys2Proof.Machine.execHint word par s
  | .hintRetire id => Sys2Proof.Machine.execHintRetire id s
  | .hintIrqClear p sess mask => Sys2Proof.Machine.execHintIrqClear p sess mask s
  | .hintEntriesMaxRead p sess => Sys2Proof.Machine.execHintEntriesMaxRead p sess s
  | .scoreboardEntryParity id => Sys2Proof.Machine.execScoreboardEntryParity id s
  | .staticTableParity => Sys2Proof.Machine.execStaticTableParity s
  | .staticTableReloaded image => Sys2Proof.Machine.execStaticTableReloaded image s
  | .activityFrame r data par => Sys2Proof.Machine.execActivityFrame r data par s
  | .livePredictions => Sys2Proof.Machine.execLivePredictions s
  | .forwardRefresh => Sys2Proof.Machine.execForwardRefresh s
  | .droopObservation id => Sys2Proof.Machine.execDroopObservation id s
  | .learnerStep badCounters => Sys2Proof.Machine.execLearnerStep s badCounters
  | .passCommit k => Sys2Proof.Machine.execPassCommit k s
  | .passDiscard k parityIn => Sys2Proof.Machine.execPassDiscard k parityIn s
  | .cellParityError t => Sys2Proof.Machine.execCellParityError t s
  | .groupEtaWrite p sess g v => Sys2Proof.Machine.execGroupEtaWrite p sess g v s
  | .groupFrozenWrite p sess g v => Sys2Proof.Machine.execGroupFrozenWrite p sess g v s
  | .slotApply p sess slot => Sys2Proof.Machine.execSlotApply p sess slot s
  | .slotBuildEnd slot => Sys2Proof.Machine.execSlotBuildEnd slot s
  | .shardHalt p sess k => Sys2Proof.Machine.execShardHalt p sess k s
  | .shardResume p sess k => Sys2Proof.Machine.execShardResume p sess k s
  | .shardExport p sess k => Sys2Proof.Machine.execShardExport p sess k s
  | .shardImport p sess k => Sys2Proof.Machine.execShardImport p sess k s
  | .learnCellWrite p sess rec_ => Sys2Proof.Machine.execLearnCellWrite p sess rec_ s
  | .learnIrqClear p sess mask => Sys2Proof.Machine.execLearnIrqClear p sess mask s
  | .scanReading r value parityOk => Sys2Proof.Machine.execScanReading r value parityOk s
  | .calibrationSlot q value => Sys2Proof.Machine.execCalibrationSlot q value s
  | .confirmationRead q value parityOk => Sys2Proof.Machine.execConfirmationRead q value parityOk s
  | .restartTimerExpiry => Sys2Proof.Machine.execRestartTimerExpiry s
  | .diodeClear p sess mask => Sys2Proof.Machine.execDiodeClear p sess mask s
  | .diodeForceWrite p sess mask => Sys2Proof.Machine.execDiodeForceWrite p sess mask s
  | .thermalIrqClear p sess mask => Sys2Proof.Machine.execThermalIrqClear p sess mask s
  | .pickupClear p sess r mask => Sys2Proof.Machine.execPickupClear p sess r mask s
  | .pickupForceWrite p sess r mask => Sys2Proof.Machine.execPickupForceWrite p sess r mask s
  | .conversionResult n nv parityOk storeOk => Sys2Proof.Machine.execConversionResult n nv parityOk s storeOk
  | .slopeTestEnd n => Sys2Proof.Machine.execSlopeTestEnd n s
  | .fireStrobe n => Sys2Proof.Machine.execFireStrobe n s
  | .fireWaitTimeout n => Sys2Proof.Machine.execFireWaitTimeout n s
  | .conversionTimeout n => Sys2Proof.Machine.execConversionTimeout n s
  | .syncArmSingle p sess => Sys2Proof.Machine.execSyncArmSingle p sess s
  | .syncArmSweeps p sess => Sys2Proof.Machine.execSyncArmSweeps p sess s
  | .syncCancel p sess => Sys2Proof.Machine.execSyncCancel p sess s
  | .syncTrigger => Sys2Proof.Machine.execSyncTrigger s
  | .convUrgent p sess n v => Sys2Proof.Machine.execConvUrgent p sess n v s
  | .urgentRequest n => Sys2Proof.Machine.execUrgentRequest n s
  | .convTableWrite p sess n t data => Sys2Proof.Machine.execConvTableWrite p sess n t data s
  | .boardAnalogConversion x res => Sys2Proof.Machine.execBoardAnalogConversion x res s
  | .energyQuarter vs => Sys2Proof.Machine.execEnergyQuarter vs s
  | .scoreboardParityError n islandCopy => Sys2Proof.Machine.execScoreboardParityError n s islandCopy
  | .parityReturnTimer n => Sys2Proof.Machine.execParityReturnTimer n s
  | .stringCmdMute p sess n => Sys2Proof.Machine.execStringCmdMute p sess n s
  | .stringCmdReturn p sess n => Sys2Proof.Machine.execStringCmdReturn p sess n s
  | .stringCmdSetBlind p sess n => Sys2Proof.Machine.execStringCmdSetBlind p sess n s
  | .stringCmdClearBlind p sess n => Sys2Proof.Machine.execStringCmdClearBlind p sess n s
  | .serviceClear p sess mask => Sys2Proof.Machine.execServiceClear p sess mask s
  | .open_ p sess => Sys2Proof.Machine.execOpen p sess s
  | .close p sess => Sys2Proof.Machine.execClose p sess s
  | .read p sess idx sub off => Sys2Proof.Machine.execRead p sess idx sub off s
  | .write p sess idx sub flags off data => Sys2Proof.Machine.execWrite p sess idx sub flags off data s
  | .registerWrite p sess idx sub v => Sys2Proof.Machine.execRegisterWrite p sess idx sub v s
  | .sessionExpiry slot => Sys2Proof.Machine.execSessionExpiry slot s
  | .i3cPrivateRead => Sys2Proof.Machine.execI3cPrivateRead s
  | .i3cFrameDiscard => Sys2Proof.Machine.execI3cFrameDiscard s
  | .entdaa addr => Sys2Proof.Machine.execEntdaa addr s
  | .setdasa static addr => Sys2Proof.Machine.execSetdasa static addr s
  | .rstdaa => Sys2Proof.Machine.execRstdaa s
  | .getpid => Sys2Proof.Machine.execGetpid s
  | .getbcr => Sys2Proof.Machine.execGetbcr s
  | .getdcr => Sys2Proof.Machine.execGetdcr s
  | .getstatus => Sys2Proof.Machine.execGetstatus s
  | .enec events => Sys2Proof.Machine.execEnec events s
  | .disec events => Sys2Proof.Machine.execDisec events s
  | .inBandInterrupt won => Sys2Proof.Machine.execInBandInterrupt won s
  | .mbxGo m => Sys2Proof.Machine.execMbxGo m s
  | .ringRecord => Sys2Proof.Machine.execRingRecord s
  | .commit p sess mask => Sys2Proof.Machine.execCommit p sess mask s
  | .commitDiscard p sess mask => Sys2Proof.Machine.execCommitDiscard p sess mask s
  | .commitGroupTaken g => Sys2Proof.Machine.execCommitGroupTaken g s
  | .keeperChallenge p sess => Sys2Proof.Machine.execKeeperChallenge p sess s
  | .keeperResponse p sess resp => Sys2Proof.Machine.execKeeperResponse p sess resp s
  | .challengeLapse slot => Sys2Proof.Machine.execChallengeLapse slot s
  | .keeperLockoutEnd => Sys2Proof.Machine.execKeeperLockoutEnd s
  | .keeperDrop p sess => Sys2Proof.Machine.execKeeperDrop p sess s
  | .sessionEvict p sess slot => Sys2Proof.Machine.execSessionEvict p sess slot s
  | .dmaStart p sess ch => Sys2Proof.Machine.execDmaStart p sess ch s
  | .dmaAbort p sess ch => Sys2Proof.Machine.execDmaAbort p sess ch s
  | .dmaKick p sess ch => Sys2Proof.Machine.execDmaKick p sess ch s
  | .descriptorFetch ch => Sys2Proof.Machine.execDescriptorFetch ch s
  | .dmaBurst ch holdOk => Sys2Proof.Machine.execDmaBurst ch s holdOk
  | .memoryWriteResponse id err => Sys2Proof.Machine.execMemoryWriteResponse id err s
  | .memoryReadBeat id data parityOk last err => Sys2Proof.Machine.execMemoryReadBeat id data parityOk last err s
  | .descriptorComplete ch => Sys2Proof.Machine.execDescriptorComplete ch s
  | .ownPoll ch => Sys2Proof.Machine.execOwnPoll ch s
  | .paceTimeout ch => Sys2Proof.Machine.execPaceTimeout ch s
  | .memoryTimeout id => Sys2Proof.Machine.execMemoryTimeout id s
  | .dmaIrqClear p sess ch mask => Sys2Proof.Machine.execDmaIrqClear p sess ch mask s
  | .stEnable p sess => Sys2Proof.Machine.execStEnable p sess s
  | .stDisable p sess => Sys2Proof.Machine.execStDisable p sess s
  | .stSweepEnd => Sys2Proof.Machine.execStSweepEnd s
  | .stEntryFetched n => Sys2Proof.Machine.execStEntryFetched n s
  | .stWritebackDue n => Sys2Proof.Machine.execStWritebackDue n s
  | .stFlush p sess => Sys2Proof.Machine.execStFlush p sess s
  | .stHostFieldsWrite p sess fields => Sys2Proof.Machine.execStHostFieldsWrite p sess fields s
  | .stCacheParity n => Sys2Proof.Machine.execStCacheParity n s
  | .recordFormed => Sys2Proof.Machine.execRecordFormed s
  | .trigSnapCountWrite p sess t v => Sys2Proof.Machine.execTrigSnapCountWrite p sess t v s
  | .faultFreeze p sess => Sys2Proof.Machine.execFaultFreeze p sess s
  | .faultUnfreeze p sess => Sys2Proof.Machine.execFaultUnfreeze p sess s
  | .freezeExpired => Sys2Proof.Machine.execFreezeExpired s
  | .faultClear p sess => Sys2Proof.Machine.execFaultClear p sess s
  | .traceClear p sess => Sys2Proof.Machine.execTraceClear p sess s
  | .recQueueMaxRead p sess => Sys2Proof.Machine.execRecQueueMaxRead p sess s
  | .refclkLost => Sys2Proof.Machine.execRefclkLost s
  | .refclkRegained => Sys2Proof.Machine.execRefclkRegained s
  | .clockCheck faulty hmemMhz => Sys2Proof.Machine.execClockCheck faulty hmemMhz s
  | .registerPortAccess wr addr wdata wpar => Sys2Proof.Machine.execRegisterPortAccess wr addr wdata wpar s
  | .trstNLow => Sys2Proof.Machine.execTrstNLow s
  | .testModeFall => Sys2Proof.Machine.execTestModeFall s
  | .bypass => Sys2Proof.Machine.execBypass s
  | .idcode => Sys2Proof.Machine.execIdcode s
  | .samplePreload pins shiftIn => Sys2Proof.Machine.execSamplePreload pins shiftIn s
  | .extest testMode => Sys2Proof.Machine.execExtest testMode s
  | .testctrl bitsIn testMode => Sys2Proof.Machine.execTestctrl bitsIn testMode s
  | .twinReloadComplete r t => Sys2Proof.Machine.execTwinReloadComplete r t s
  | .hourWindow => Sys2Proof.Machine.execHourWindow s
  | .fullSpeedStart => Sys2Proof.Machine.execFullSpeedStart s
  | .testLogicReset => Sys2Proof.Machine.execTestLogicReset s

end Sys2Proof.Machine
end

