-- ==== Sys2Proof/Machine/Step.lean ====
section
/-! DEFINITION. One step: the command at the front of the queue, or, on an empty queue, one nanosecond of block time. -/

namespace Sys2Proof.Machine

/-- One nanosecond in which nothing else happens (R546). Block time stands still while the block is OFF. DESIGN CHOICE
(log 2). -/
def State.tick (s : State) : State :=
  if s.blk.st = .off then s else ({ s with now := (s.now + 1) % 2 ^ 64 } : State).noteLines

/-- One step. -/
def step (s : State) : Host.Outcome State Fault Refusal :=
  match s.pending with
  | [] => .next s.tick
  | c :: q => exec c { s with pending := q }

/-- The state with the command that a table word spells put at the front of the queue; no word spells one. -/
def State.withFetchWord (s : State) (nbits w : Nat) : State :=
  match decodeTableWord nbits w with
  | some c => { s with pending := c :: s.pending }
  | none => s

end Sys2Proof.Machine
end

