-- ==== Sys2Proof/WellFormed.lean ====
section
/-! DEFINITION. Well-formed commands: every index lies within the range that the manual gives it in the maximum
configuration (R12 to R24, R434, R463, R503, R530), and every byte, code and frame has its width. A command whose index
names no unit is an event that cannot be, and changes nothing; widths are what the ports carry. -/

namespace Sys2Proof

/-- A list of bytes (R427). -/
def bytesOk (l : List Byte) : Bool := l.all (decide <| · < 256)

/-- The dictionary session byte. -/
def sessOk (n : Nat) : Bool := decide (n < 256)

/-- A learner cell or droop entry that exists. -/
def CellTarget.wf : CellTarget → Bool
  | .cell r c => decide (r < 76) && decide (c < 32)
  | .droop c q => decide (c < 32) && decide (q < 3)

/-- A parity target that exists. -/
def ParityTarget.wf : ParityTarget → Bool
  | .share s => decide (s < 1120)
  | .bank | .kff | .cons => true

/-- R356: one converter's check; a code is of 12 bits, and sixteen are summed. -/
def RefCheck.wf (k : RefCheck) : Bool := decide (k.conv < 71) && decide (k.fused < 4096) && decide (k.sum ≤ 16 * 4095)

/-- R499, R513: sequence numbers are of 32 bits. -/
def LogCheck.wf (k : LogCheck) : Bool := k.torn.all (decide <| · < 2 ^ 32)

def Instr.wf : Instr → Bool
  | .suppliesGood | .suppliesLost => true
  | .resetNLow l => l.all LogCheck.wf
  | .resetExit riseAt => decide (riseAt < 2 ^ 64)
  | .selftestComplete _ _ l => l.all RefCheck.wf
  | .fuseloadComplete b => bytesOk b && decide (b.length = 6944)
  | .courseDiscovery c _ b | .pmbusRetry c _ b => decide (c < 140) && bytesOk b && decide (b.length ≤ 32)
  | .discoverEnd _ | .railRampStart | .rampDownStart | .vinOkLoss | .vinRestart => true
  | .rampReferenceStart q | .railPowerGood q | .railFailed q | .railRampDownEnd q => decide (q < 3)
  | .positionJoin q p => decide (q < 3) && decide (p < 16)
  | .blockCmdShutdown _ b | .blockCmdStart _ b => sessOk b
  | .regionCycle r l => decide (r < 76) && l.all (decide <| ·.code < 256)
  | .fireFallingEdge s | .shedArrival s | .scoreboardChangeArrival s => decide (s < 1120)
  | .fixedRateFire r | .vminSourceChange r | .twinOvDisagreement r | .twinParityReload r _ | .strumRoundDue r
  | .lockoutEnd r | .strumReport r | .damper r | .pickupValidityArrival r | .bandChangeArrival r | .preStrumStart r
  | .preStrumEnd r | .wakeReqRise r | .rejoinAck r | .wakeReqFall r => decide (r < 76)
  | .spreadStrobe r l => decide (r < 76) && l.all (decide <| · < 76)
  | .strumDisagreeWindow | .wakeGrant | .wakeTimeout => true
  | .preparationTime _ | .bumpHoldEnd _ => true
  | .crsStatFrame c w _ => decide (c < 140) && decide (w < 2 ^ 32)
  | .laneTimeout c | .laneFltDamper c | .laneVminDamper c | .crsFltNFall c | .crsFltNRise c => decide (c < 140)
  | .followUp c w l => decide (c < 140) && decide (w < 65536) && l.all fun p => decide (p.1 < 8) && decide (p.2 < 256)
  | .courseRecordCopy c a b i => decide (c < 140) && bytesOk a && bytesOk b && bytesOk i && decide (a.length = 128)
      && decide (b.length = 128) && decide (i.length ≤ 32)
  | .smbusAlert k a => decide (k < 10) && a.all (decide <| · < 128)
  | .controlPeriod | .engineOutputs | .outputsArrival | .swapSample | .bankCopyEnd => true
  | .bankSwap _ b m => sessOk b && decide (m < 2 ^ 80)
  | .shadowWrite _ b ch sub _ => sessOk b && decide (ch < 79) && decide (sub < 256)
  | .chFlagsClear _ b ch m => sessOk b && decide (ch < 79) && decide (m < 256)
  | .bankParityError ch t => decide (ch < 79) && t.wf
  | .trimPwmPeriod _ _ | .trimInputLost | .trimHoldExpiry => true
  | .fretStepStart r | .fretCmdReqRaise r | .fretCmdAckRise r | .fretCmdAckFall r | .fretAckLate r => decide (r < 76)
  | .recoveryHoldExpiry q => decide (q < 3)
  | .matchedEnableWrite _ b v => sessOk b && decide (v < 256)
  | .millisecondBoundary | .frameReady | .capStep | .capoDelivery | .thermalDecision | .recoveryStep => true
  | .capIrqClear _ b m | .hintIrqClear _ b m | .learnIrqClear _ b m | .thermalIrqClear _ b m
  | .commit _ b m | .commitDiscard _ b m => sessOk b && decide (m < 256)
  | .hint w p => decide (w < 2 ^ 128) && decide (p < 65536)
  | .hintRetire _ | .scoreboardEntryParity _ | .droopObservation _ => true
  | .hintEntriesMaxRead _ b | .recQueueMaxRead _ b | .keeperChallenge _ b | .keeperDrop _ b => sessOk b
  | .staticTableParity => true
  | .staticTableReloaded b => bytesOk b && decide (b.length = 6944)
  | .activityFrame r d p => decide (r < 128) && decide (d < 2 ^ 128) && decide (p < 65536)
  | .livePredictions | .forwardRefresh => true
  | .learnerStep l => l.all (decide <| · < 8)
  | .passCommit k => decide (k < 8)
  | .passDiscard k x => decide (k < 8) && x.all fun y => decide (y.1 < 76) && decide (y.2 < 32)
  | .cellParityError t => t.wf
  | .groupEtaWrite _ b g _ => sessOk b && decide (g < 64)
  | .groupFrozenWrite _ b g v => sessOk b && decide (g < 64) && decide (v < 256)
  | .slotApply _ b k => sessOk b && decide (k < 11)
  | .slotBuildEnd k => decide (k < 8)
  | .shardHalt _ b k | .shardResume _ b k | .shardExport _ b k | .shardImport _ b k => sessOk b && decide (k < 8)
  | .learnCellWrite _ b l => sessOk b && bytesOk l && decide (l.length = 192)
  | .scanReading r _ _ => decide (r < 76)
  | .calibrationSlot q _ | .confirmationRead q _ _ => decide (q < 4)
  | .restartTimerExpiry => true
  | .diodeClear _ b m | .diodeForceWrite _ b m => sessOk b && decide (m < 2 ^ 80)
  | .pickupClear _ b r m | .pickupForceWrite _ b r m => sessOk b && decide (r < 76) && decide (m < 65536)
  | .conversionResult n _ _ _ => decide (n < 70)
  | .slopeTestEnd s => decide (s < 1120)
  | .fireStrobe n | .fireWaitTimeout n | .conversionTimeout n | .urgentRequest n => decide (n < 70)
  | .syncArmSingle _ b | .syncArmSweeps _ b | .syncCancel _ b => sessOk b
  | .syncTrigger => true
  | .convUrgent _ b n v => sessOk b && decide (n < 70) && decide (v < 2 ^ 32)
  | .convTableWrite _ b n _ l => sessOk b && decide (n < 70) && bytesOk l
  | .boardAnalogConversion _ _ => true
  | .energyQuarter _ => true
  | .scoreboardParityError s _ | .parityReturnTimer s => decide (s < 1120)
  | .stringCmdMute _ b s | .stringCmdReturn _ b s | .stringCmdSetBlind _ b s | .stringCmdClearBlind _ b s =>
      sessOk b && decide (s < 1120)
  | .serviceClear _ b m => sessOk b && decide (m < 2 ^ 32)
  | .open_ _ b | .close _ b => sessOk b
  | .read _ b i j o => sessOk b && decide (i < 65536) && decide (j < 256) && decide (o < 65536)
  | .write _ b i j f o l => sessOk b && decide (i < 65536) && decide (j < 256) && decide (f < 256)
      && decide (o < 65536) && bytesOk l && decide (l.length ≤ 64)
  | .registerWrite _ b i j _ => sessOk b && decide (i < 65536) && decide (j < 256)
  | .sessionExpiry k | .challengeLapse k => decide (k < 11)
  | .i3cPrivateRead | .i3cFrameDiscard | .rstdaa | .getpid | .getbcr | .getdcr | .getstatus => true
  | .entdaa a => decide (a < 128)
  | .setdasa a d => decide (a < 128) && decide (d < 128)
  | .enec e | .disec e => decide (e < 256)
  | .inBandInterrupt _ => true
  | .mbxGo m => decide (m < 2)
  | .ringRecord | .keeperLockoutEnd => true
  | .commitGroupTaken g => decide (1 ≤ g) && decide (g < 8)
  | .keeperResponse _ b l => sessOk b && bytesOk l && decide (l.length = 8)
  | .sessionEvict _ b k => sessOk b && decide (k < 256)
  | .dmaStart _ b ch | .dmaAbort _ b ch | .dmaKick _ b ch => sessOk b && decide (ch < 8)
  | .descriptorFetch ch | .dmaBurst ch _ | .descriptorComplete ch | .ownPoll ch | .paceTimeout ch => decide (ch < 8)
  | .memoryWriteResponse i _ | .memoryTimeout i => decide (i < 64)
  | .memoryReadBeat i l _ _ _ => decide (i < 64) && bytesOk l && decide (l.length = 16)
  | .dmaIrqClear _ b ch m => sessOk b && decide (ch < 8) && decide (m < 256)
  | .stEnable _ b | .stDisable _ b | .stFlush _ b => sessOk b
  | .stSweepEnd => true
  | .stEntryFetched s | .stWritebackDue s | .stCacheParity s => decide (s < 1120)
  | .stHostFieldsWrite _ b l => sessOk b && bytesOk l && decide (l.length = 21)
  | .recordFormed | .freezeExpired => true
  | .trigSnapCountWrite _ b t v => sessOk b && decide (t < 64) && decide (v < 256)
  | .faultFreeze _ b | .faultUnfreeze _ b | .faultClear _ b | .traceClear _ b => sessOk b
  | .refclkLost | .refclkRegained => true
  | .clockCheck l m => l.all (decide <| · < 76) && decide (m < 65536)
  | .registerPortAccess _ a d p => decide (a < 1024) && decide (d < 2 ^ 32) && decide (p < 16)
  | .trstNLow | .testModeFall | .bypass | .idcode | .hourWindow | .fullSpeedStart | .testLogicReset => true
  | .samplePreload p b => decide (p < 2 ^ 1742) && decide (b < 2 ^ 1742)
  | .extest _ => true
  | .testctrl b _ => decide (b < 65536)
  | .twinReloadComplete r _ => decide (r < 76)

end Sys2Proof
end

