-- ==== Sys2Proof/Safety.lean ====
section
/-! DEFINITION. What a sound state is, and what a command leaves alone. A sound state has the tables of units in the
sizes that the manual gives them, the register file and the staged values in their one form, a legal configuration, and
every set-point inside its rail's range (R17). The parts of a state name what a frame statement is about. -/

namespace Sys2Proof.Machine

/-- R5, R9, R461: a configuration that an integration can have. -/
def Config.legal (c : Config) : Bool :=
  decide (c.variant < 3) && decide (16 ≤ c.nVcore) && decide (c.nVcore ≤ 64) && c.nVcore % 4 == 0
    && decide (8 ≤ c.nStr) && decide (c.nStr ≤ 16) && decide (0x08 ≤ c.staticAddr) && decide (c.staticAddr ≤ 0x77)

/-- Rails, regions, strings, courses, channels and converters of R1, R163 and R353. -/
structure State.Units (s : State) : Prop where
  rails : s.rails.length = 3
  regions : s.regions.length = 76
  strings : s.strings.length = 1120
  courses : s.courses.length = 140
  chans : s.chans.length = 79
  convs : s.convs.length = 70

/-- R17: a commanded value of rail `q` lies in the rail's regulation range; 0 stands for none commanded yet. -/
def spRange (q v : Nat) : Prop := v = 0 ∨ mvUnits (railVmin q) ≤ v ∧ v ≤ mvUnits (railVmax q)

/-- R17 for the set-points computed and delivered. -/
def State.RailsOk (s : State) : Prop :=
  ∀ q, q < 3 → spRange q (s.rail q).spCalc ∧ spRange q (s.rail q).spOut

structure State.Sound (s : State) : Prop where
  legal : Config.legal s.cfg = true
  units : s.Units
  time : s.now < 2 ^ 64
  regs : rfWf s.regs = true
  staged : rfWf s.dict.staged = true
  rails : s.RailsOk

/-- R399: the pairs of block states between which a transition exists. -/
def stateGraph : List (BState × BState) :=
  let powered : List BState :=
    [.reset, .selftest, .fuseload, .discover, .ramp, .run, .service, .cooldown, .shutdown, .halted]
  [(.off, .reset), (.reset, .selftest), (.selftest, .fuseload), (.fuseload, .discover), (.discover, .ramp),
   (.discover, .shutdown), (.ramp, .run), (.ramp, .service), (.run, .service), (.service, .run), (.ramp, .shutdown),
   (.run, .shutdown), (.service, .shutdown), (.cooldown, .discover), (.shutdown, .discover)]
    ++ powered.map (fun b => (b, .off)) ++ powered.map (fun b => (b, .reset))
    ++ [BState.fuseload, .discover, .ramp, .run, .service, .shutdown].map (fun b => (b, .cooldown))
    ++ [BState.fuseload, .discover, .ramp, .run, .service, .cooldown, .shutdown].map (fun b => (b, .halted))

/-- A request on path `p` with session byte `b` is served, in slot `k` (R401, R431 to R436): the engine serves, no read
of the path waits, the slot is open under that byte, and no BLOB write is under way in it (R441). -/
structure State.Serves (s : State) (p : Path) (b k : Nat) : Prop where
  byte : b < 256
  serves : s.blk.st.serves = true
  idle : s.pathBusy p = false
  slot : s.slotOf p b = some k
  fresh : (s.session k).wbuf = none

/-- What every completed request adds to its own effect (R435, R438, R461): its session's idle time starts again, the
request is counted, the response becomes ready on its path, and the interrupt lines are noted. -/
def State.answered (s : State) (p : Path) (b op status len : Nat) (data : List Byte := []) : State :=
  ((s.complete p { op, sess := b }).deliver p { op, sess := b, status, objLen := len, data }).noteLines

/-- The parts of a state. `st` is the block state alone, `blk` all that `State.blk` holds. -/
inductive Part where
  | cfg | now | blk | st | rails | regions | strings | courses | chans | eng | used | cap | telem | tune | hints | learn
  | therm | convs | cg | dict | dma | recd | clk | regs | freeK | pending
deriving DecidableEq, Repr

/-- A part is the same in two states. -/
def State.same (s t : State) : Part → Prop
  | .cfg => t.cfg = s.cfg
  | .now => t.now = s.now
  | .blk => t.blk = s.blk
  | .st => t.blk.st = s.blk.st
  | .rails => t.rails = s.rails
  | .regions => t.regions = s.regions
  | .strings => t.strings = s.strings
  | .courses => t.courses = s.courses
  | .chans => t.chans = s.chans
  | .eng => t.eng = s.eng
  | .used => t.used = s.used
  | .cap => t.cap = s.cap
  | .telem => t.telem = s.telem
  | .tune => t.tune = s.tune
  | .hints => t.hints = s.hints
  | .learn => t.learn = s.learn
  | .therm => t.therm = s.therm
  | .convs => t.convs = s.convs
  | .cg => t.cg = s.cg
  | .dict => t.dict = s.dict
  | .dma => t.dma = s.dma
  | .recd => t.recd = s.recd
  | .clk => t.clk = s.clk
  | .regs => t.regs = s.regs
  | .freeK => t.freeK = s.freeK
  | .pending => t.pending = s.pending

/-- From `s` to `t` at most the parts listed have changed. -/
def State.Frame (l : List Part) (s t : State) : Prop := ∀ p, p ∉ l → s.same t p

end Sys2Proof.Machine
end

