-- ==== Sys2Proof/Certificates/Slice0/Obligations.lean ====
section
/-! DEFINITION. The statements for the provers. `s.Serves p b k` says that a request with session byte `b` on path `p` is
served in slot `k`; `State.answered` adds what every completed request does; `State.Frame l s t` says that at most the
parts in `l` differ. -/

open Sys2Proof Sys2Proof.Machine

/-- A step takes the command at the front of the queue and answers what `exec` answers for it, with the rest of the
queue still waiting. -/
def Obligations.StepRunsFrontCommand : Prop :=
  ∀ (c : Instr) (q : List Instr) (s : State), step { s with pending := c :: q } = exec c { s with pending := q }

/-- R396, R397, R399, R546, R14 with log 1: reset is entry into RESET after a power-on, at block time 0, with nothing
waiting. No string fires, every course is disabled and undamped, the outputs to the board are at their reset values,
the logs are empty, and the state is sound. -/
def Obligations.ResetStateIsSound : Prop :=
  State.reset.Sound ∧ State.reset.blk.st = .reset ∧ State.reset.now = 0 ∧ State.reset.pending = [] ∧
  State.reset.blk.resetCause = 0 ∧ State.reset.blk.resetCount = 0 ∧
  (∀ i, (State.reset.str i).pulse = none) ∧
  (∀ c, (State.reset.course c).en = false ∧ (State.reset.course c).damp = false) ∧
  State.reset.blk.pwrGood = false ∧ State.reset.blk.tripN = false ∧ State.reset.irqLines = 0 ∧
  State.reset.recd.fault = [] ∧ State.reset.recd.trace = [] ∧ State.reset.recd.queue = [] ∧
  (∀ q, q < 3 → (State.reset.rail q).spOut = 0)

/-- R546: block time counts nanoseconds and wraps after 2^64. The model's choice (log 2): a step on an empty queue lets
one nanosecond pass, in which nothing else changes but the interrupt lines noted by the I3C target; time stands
still in OFF. Over a period with no command the steps count its nanoseconds. -/
def Obligations.EmptyQueueAdvancesTime : Prop :=
  (∀ s : State, s.pending = [] → s.blk.st = .off → step s = .next s) ∧
  (∀ s : State, s.pending = [] → s.blk.st ≠ .off → ∃ t, step s = .next t ∧ t.now = (s.now + 1) % 2 ^ 64 ∧
    State.Frame [.now, .dict] s t ∧
    t.dict = { s.dict with i3c := { s.dict.i3c with lines := s.dict.i3c.lines &&& s.irqLines } }) ∧
  (∀ (n : Nat) (s t : State), s.pending = [] → s.blk.st ≠ .off → Host.Core.run Sys2Proof.core n s = .next t →
    t.now % 2 ^ 64 = (s.now + n) % 2 ^ 64 ∧ t.blk = s.blk ∧ t.pending = [])

/-- Ordinary operands never end a run: every command has a next state in every state, whatever its operands; none faults
and none is refused. A command changes neither the queue of waiting commands nor the configuration, and keeps the
number of units. -/
def Obligations.EveryCommandAnswersAndKeepsTheQueue : Prop :=
  (∀ (c : Instr) (s : State), ∃ t, exec c s = .next t) ∧
  (∀ (c : Instr) (s t : State), exec c s = .next t →
      t.pending = s.pending ∧ t.cfg = s.cfg ∧ (s.Units → t.Units) ∧ (rfWf s.regs = true → rfWf t.regs = true))

/-- Every step keeps a state sound: the tables have their sizes, the registers their form, block time its width, and
every set-point computed or delivered for a rail lies in the rail's regulation range or is 0 (R17). -/
def Obligations.EveryStepKeepsTheStateSound : Prop :=
  ∀ s t : State, s.Sound → step s = .next t → t.Sound

/-- R399: the block changes state only along the transitions of the table, whatever the command. -/
def Obligations.BlockStateFollowsTheTransitions : Prop :=
  ∀ (c : Instr) (s t : State), exec c s = .next t →
    t.blk.st = s.blk.st ∨ (s.blk.st, t.blk.st) ∈ stateGraph

/-- R500, R503: a trigger that fires advances the count of its type and changes no other register but `rec_lost`. With
route 0 it does nothing more. Otherwise it is lost and counted where the queue holds 2,048 entries, and joins the
queue with its type, detail and source where it does not; the queue keeps its order by cycle, then type, then
source. -/
def Obligations.TriggersJoinTheQueue : Prop :=
  ∀ (s : State) (ty d : Nat) (x : Source), rfWf s.regs = true → ty < 64 → d < 256 →
    State.Frame [.recd, .regs] s (s.fire ty d x) ∧
    (s.fire ty d x).get (Obj.trig_count ty) = (s.get (Obj.trig_count ty) + 1) % 2 ^ 32 ∧
    (∀ g : Reg, g.addr ≠ (Obj.trig_count ty).addr → g.addr ≠ Obj.rec_lost.addr → (s.fire ty d x).get g = s.get g) ∧
    (s.routeOf ty = 0 → (s.fire ty d x).recd = s.recd ∧ (s.fire ty d x).get Obj.rec_lost = s.get Obj.rec_lost) ∧
    (s.routeOf ty ≠ 0 → 2048 ≤ s.recd.queue.length → (s.fire ty d x).recd = s.recd ∧
      (s.fire ty d x).get Obj.rec_lost = min (s.get Obj.rec_lost + 1) (2 ^ 32 - 1)) ∧
    (s.routeOf ty ≠ 0 → s.recd.queue.length < 2048 →
      (s.fire ty d x).get Obj.rec_lost = s.get Obj.rec_lost ∧
      (s.fire ty d x).recd.queueMax = max s.recd.queueMax (s.recd.queue.length + 1) ∧
      ∃ a b t, s.recd.queue = a ++ b ∧ (s.fire ty d x).recd.queue = a ++ t :: b ∧ t.ty = ty ∧ t.detail = d ∧
        t.src = x ∧ t.route = s.routeOf ty ∧ t.part = none ∧ t.cyc = s.now / 4 ∧
        ((∀ y ∈ s.recd.queue, y.part = none) →
        (s.recd.queue.Pairwise fun y z => y.cyc < z.cyc ∨ y.cyc = z.cyc ∧
          (y.ty < z.ty ∨ y.ty = z.ty ∧ y.src.word ≤ z.src.word)) →
        (s.fire ty d x).recd.queue.Pairwise fun y z => y.cyc < z.cyc ∨ y.cyc = z.cyc ∧
          (y.ty < z.ty ∨ y.ty = z.ty ∧ y.src.word ≤ z.src.word)))

/-- R394 to R397, R546: SUPPLIES_GOOD takes OFF to RESET with every unit at its reset values and block time 0;
SUPPLIES_LOST loses everything; RESET_N low starts RESET and block time again, keeps both logs, their sequence
counters and the port's test state, counts the reset and counts each queued trigger and held record as lost; a
sequence counter whose parity fails is counted and rebuilt as one above the highest number among its log's records
whose CRC checks. R396, R399, R400: RESET_EXIT in RESET, once RESET_N has been high for 30 ns, the supplies good for
10 µs and REFCLK running for 1,000 cycles, records RESET with its cause and enters SELFTEST. SELFTEST_COMPLETE
stores the result bits, fails a converter whose reference mean differs from its fused value by more than
`ref_tolerance`, records a result other than 0, sets the reasons and enters FUSELOAD. -/
def Obligations.SuppliesResetAndSelftest : Prop :=
  (∀ s : State,
      (s.blk.st = .off → exec .suppliesGood s =
        .next { State.initial s.cfg with freeK := s.freeK, pending := s.pending }) ∧
      (∃ t, exec .suppliesLost s = .next t ∧ t.blk.st = .off ∧ t.now = 0 ∧ t.regs = [] ∧
        t.regions = (State.initial s.cfg).regions ∧ t.strings = (State.initial s.cfg).strings ∧
        t.recd = (State.initial s.cfg).recd ∧ t.dict = {} ∧ t.dma = {} ∧ t.pending = s.pending) ∧
      (s.blk.st ≠ .off → ∀ logs, ∃ t, exec (.resetNLow logs) s = .next t ∧ t.blk.st = .reset ∧ t.now = 0 ∧
        t.blk.holdUntil = s.blk.holdUntil - s.now ∧ t.blk.refUntil = s.blk.refUntil - s.now ∧ t.blk.resetCause = 1 ∧
        t.blk.resetCount = (s.blk.resetCount + 1) % 2 ^ 32 ∧
        t.getN Obj.rec_lost =
          min (2 ^ 32 - 1) (s.getN Obj.rec_lost + (s.recd.queue.length + s.recd.hold.length)) ∧
        t.recd.queue = [] ∧ t.recd.hold = [] ∧ t.recd.freeze = none ∧ t.recd.fault = s.recd.fault ∧
        t.recd.trace = s.recd.trace ∧ t.recd.overflow = 0 ∧ t.blk.parityHour = logs.length ∧
        (logs = [] → t.recd.nextF = s.recd.nextF ∧ t.recd.nextT = s.recd.nextT) ∧
        (∀ l n, logs = [⟨false, l⟩] → (∀ x ∈ s.recd.fault, x.seq ∉ l → x.seq ≤ n) →
          (∃ x ∈ s.recd.fault, x.seq ∉ l ∧ x.seq = n) →
          t.recd.nextF = (n + 1) % 2 ^ 32 ∧ t.recd.nextT = s.recd.nextT) ∧
        t.clk.tap = s.clk.tap ∧ t.clk.testMode = s.clk.testMode ∧
        (∀ g : Reg, g.addr ≠ Obj.rec_lost.addr → g.addr ≠ Obj.parity_error_count.addr → t.get g = g.dflt) ∧
        t.regions = (State.initial s.cfg).regions ∧ t.strings = (State.initial s.cfg).strings ∧
        t.courses = (State.initial s.cfg).courses ∧ t.dma = {} ∧ t.cfg = s.cfg ∧ t.pending = s.pending)) ∧
  (∀ s : State,
      (∀ v, s.blk.st = .reset → s.clk.refLost = false → max s.blk.holdUntil s.blk.refUntil ≤ s.now → v + 30 ≤ s.now →
        s.clk.tap ≠ .extest →
        exec (.resetExit v) s =
          .next (((s.modBlk fun b => { b with riseAt := v }).fire 1 s.blk.resetCause).enter .selftest)) ∧
      (∀ v, s.blk.st = .reset → s.clk.refLost = false → max s.blk.holdUntil s.blk.refUntil ≤ s.now → v + 30 ≤ s.now →
        s.clk.tap = .extest →
        exec (.resetExit v) s = .next
          ((({ s with clk := { s.clk with tap := .bypass } } : State).modBlk fun b => { b with riseAt := v }).fire 1
            s.blk.resetCause |>.enter .selftest)) ∧
      (∀ v, (s.blk.st ≠ .reset ∨ s.clk.refLost = true ∨ s.now < s.blk.holdUntil ∨ s.now < s.blk.refUntil ∨
        s.now < v + 30) →
        exec (.resetExit v) s = .next s) ∧
      (s.blk.st = .selftest → exec (.selftestComplete false false []) s =
        .next ((s.set Obj.selftest_result 0).enter .fuseload)) ∧
      (∀ k : RefCheck, s.blk.st = .selftest → Config.popConv s.cfg k.conv = true → (s.conv k.conv).failed = false →
        (((k.sum : Int) - (16 * k.fused : Nat)).natAbs ≤ 16 * s.getN Obj.ref_tolerance →
          exec (.selftestComplete false false [k]) s = .next ((s.set Obj.selftest_result 0).enter .fuseload)) ∧
        (16 * s.getN Obj.ref_tolerance < ((k.sum : Int) - (16 * k.fused : Nat)).natAbs →
          exec (.selftestComplete false false [k]) s =
            .next (((((s.set Obj.selftest_result 4).fire 3 4).modConv k.conv fun c => { c with failed := true }).fire 36 0
              (srcConv k.conv)).enter .fuseload))) ∧
      (∀ k : RefCheck, s.blk.st = .selftest → k.conv = 70 → s.cg.baFailed = false →
        16 * s.getN Obj.ref_tolerance < ((k.sum : Int) - (16 * k.fused : Nat)).natAbs →
        exec (.selftestComplete false false [k]) s =
          .next ((({ (s.set Obj.selftest_result 4).fire 3 4 with cg := { s.cg with baFailed := true } } : State).fire 36 0
            (srcConv 70)).enter .fuseload)) ∧
      (s.blk.st = .selftest → exec (.selftestComplete true true []) s =
        .next (((((s.set Obj.selftest_result 3).fire 3 3).setReason 6).setReason 5).enter .fuseload)))

/-- R206, R401, R538: FUSELOAD_COMPLETE takes from the image the key, the class table, the fused shut-down level and,
where the CRC of the tuning part holds, the tuning tables made rising; a wrong CRC takes the fallback table. The
block enters DISCOVER with every course that has not been found absent to be discovered. -/
def Obligations.FuseImageIsLoaded : Prop :=
  ∀ (s : State) (b : List Byte), s.blk.st = .fuseload →
    ∃ t, exec (.fuseloadComplete b) s = .next t ∧ t.blk.st = .discover ∧
      t.dict.key = slice b 0x1B00 32 ∧
      t.therm.shutdown = clampI 880 1000 (signedAt b 6 2) ∧
      t.hints.cur = (List.range 2432).map (fun k => imgU16 b (0x780 + 2 * k)) ∧
      t.tune.grade = min 15 (b.getD 1 0) ∧
      (fieldAt b 0x11C 4 = crc32c (slice b 0x10 0x10C) →
        t.tune.chip = rising ((List.range 16).map fun f => clampN 400 760 (imgU16 b (0x10 + 2 * f))) 0 ∧
        t.tune.matched = rising ((List.range 16).map fun f => clampN 400 760 (imgU16 b (0x30 + 2 * f))) 0 ∧
        t.tune.source = 0) ∧
      (fieldAt b 0x11C 4 ≠ crc32c (slice b 0x10 0x10C) →
        t.tune.chip = (List.range 16).map (560 + 10 * ·) ∧ t.tune.source = 1) ∧
      t.courses = s.courses.map (fun c =>
        { c with done := c.absent, outcome := if c.absent then 2 else 0, fail := none })

/-- R402, R403, R455: COURSE_DISCOVERY and PMBUS_RETRY. The courses of a segment are discovered in ascending order. A
success ends a course's discovery with outcome 1 and its identity, after MFR_ID, STATUS_WORD and OPERATION = 0x80. A
failed attempt is noted and repeated after 100 µs; the second NACK in a row gives outcome 2, which mutes the
course's strings with cause 5, the second clock stretch outcome 3 and the third wrong PEC outcome 4, both a course
fault; each of the three is recorded. R405, R406, R408, R423, R373, R183, R341: DISCOVER_END enters RAMP once every
course has an outcome and VIN_OK holds, with the order and the length of the ramps latched, full speed ordered, the
throttle's n at 0 and every share integrator and trim at 0; a shut-down that is pending enters SHUTDOWN in its
place; without VIN_OK the block stays. -/
def Obligations.DiscoveryOutcomesAndEnd : Prop :=
  (∀ (s : State) (c : Nat) (l : List Byte), s.blk.st = .discover → Config.popCourse s.cfg c = true → c < 140 →
      (s.course c).done = false →
      let found := s.modCourse c fun x =>
        { x with done := true, outcome := 1, fail := none, present := true, absent := false
                 ident := l.take 9, copyDue := true
                 sent := [.mfrId, .statusWord, .operation 0x80].map (courseAddr c, ·) }
      let ended (outcome : Nat) : State := (s.modCourse c fun x =>
        { x with done := true, outcome := outcome, fail := none, present := outcome != 2, absent := outcome == 2
                 ident := [], copyDue := outcome != 2
                 sent := (if outcome = 2 then [.mfrId] else [.mfrId, .statusWord, .operation 0x80]).map
                   (courseAddr c, ·) }).fire 5 outcome (srcCourse c)
      ((∃ k ∈ Config.courses s.cfg, segmentOf k = segmentOf c ∧ k < c ∧ (s.course k).done = false) →
        (s.course c).fail = none → ∀ res, exec (.courseDiscovery c res l) s = .next s) ∧
      ((∀ k ∈ Config.courses s.cfg, segmentOf k = segmentOf c → k < c → (s.course k).done = true) →
        (s.course c).fail = none →
        exec (.courseDiscovery c .ok l) s = .next found ∧
        ∀ res, res ≠ .ok → exec (.courseDiscovery c res l) s =
          .next (s.modCourse c fun x => { x with fail := some (res, 1, s.now) })) ∧
      (∀ k n t, (s.course c).fail = some (k, n, t) → t + 100000 ≤ s.now →
        exec (.pmbusRetry c .ok l) s = .next found ∧
        (k = .noAck → 1 ≤ n → exec (.pmbusRetry c .noAck l) s =
          .next (overAll (ended 2) (Config.courseStrings s.cfg c) fun s i => s.mute i 5)) ∧
        (k = .clockLow → 1 ≤ n → exec (.pmbusRetry c .clockLow l) s =
          .next (((ended 3).countSat (Obj.course_fault_count c) 16).countSat (Obj.course_faults_hour c) 8)) ∧
        (k = .badPec → n = 1 → exec (.pmbusRetry c .badPec l) s =
          .next (s.modCourse c fun x => { x with fail := some (.badPec, 2, s.now) })) ∧
        (k = .badPec → 2 ≤ n → exec (.pmbusRetry c .badPec l) s =
          .next (((ended 4).countSat (Obj.course_fault_count c) 16).countSat (Obj.course_faults_hour c) 8)))) ∧
  (∀ s : State, s.blk.st = .discover → (∀ c ∈ Config.courses s.cfg, (s.course c).done = true) →
      (s.blk.shutPending = false → exec (.discoverEnd false) s = .next s) ∧
      (s.blk.shutPending = true → ∀ v, ∃ t, exec (.discoverEnd v) s = .next t ∧ t.blk.st = .shutdown ∧
        t.blk.shutCause = 1 ∧ t.blk.downLeft = []) ∧
      (s.blk.shutPending = false → ∃ t, exec (.discoverEnd true) s = .next t ∧ t.blk.st = .ramp ∧
        t.blk.rampOrder = rampOrderOf (s.getN Obj.ramp_order) ∧ t.blk.rampTime = s.getN Obj.ramp_time ∧
          t.blk.rampIdx = 0 ∧
        t.blk.fullAt = some (s.now + 4000) ∧ t.therm.n = 0 ∧
        (∀ x ∈ t.rails, x.st = .off ∧ x.vRamp = 0 ∧ x.joined = [] ∧ x.needOut = 0) ∧
        (∀ x ∈ t.regions, x.sup.limit = 15 ∧ x.fret.fret = 0) ∧
        (∀ x ∈ t.strings, x.shI = 0 ∧ x.trim = 0 ∧ x.trimOut = 0) ∧
        (∀ x ∈ t.chans, x.c = 0) ∧
        State.Frame [.blk, .st, .rails, .chans, .strings, .regions, .therm, .eng, .cg, .recd, .regs] s t))

/-- R406 to R411, R131: the ramp of the rail whose turn it is. RAIL_RAMP_START with fewer than half of the rail's
strings on found courses gives NOT_STARTED, recorded, and the next rail's turn; otherwise CRS_EN rises on its
present courses and its regions are no longer halted. RAMP_REFERENCE_START, 10 µs later, starts the reference at V0
with lane supervision. POSITION_JOIN adds a rotation position once its time has come. R411, R412, R424: the end of a
rail's ramp. RAIL_POWER_GOOD, once 100 µs have passed since the ramp's end and every region has held the window for
as long, makes the rail GOOD with its time; RAIL_FAILED, past `pg_deadline`, makes it FAILED with CRS_EN low and its
regions halted, and records it; the next rail's turn comes. With the last rail good and no service reason set, the
block enters RUN and PWR_GOOD rises. -/
def Obligations.RailRampsStartAndEnd : Prop :=
  (∀ (s : State) (q : Nat), q < 3 → s.blk.st = .ramp →
      (s.turnRail = some q → (s.rail q).st = .off →
        let strs := (Config.allStrings s.cfg).filter fun i => railOf (regionOf i) == q
        let here := strs.filter fun i =>
          (s.course (courseOf i)).outcome == 1 || (s.course (courseOf i)).outcome == 3 ||
            (s.course (courseOf i)).outcome == 4
        (2 * here.length < strs.length → s.blk.rampIdx + 1 < 3 → exec .railRampStart s =
          .next (((s.modRail q fun x => { x with st := .notStarted }).fire 6 3 (srcRail q)).modBlk fun b =>
            { b with rampIdx := b.rampIdx + 1 })) ∧
        (strs.length ≤ 2 * here.length → exec .railRampStart s = .next
          (overAll ((overAll s (Config.railCourses s.cfg q) fun s c =>
                s.modCourse c fun x => { x with en := x.present }).modRail q fun x =>
              { x with st := .ramping, enAt := some s.now, refAt := none, joined := [] })
            (Config.railRegs s.cfg q) fun s r => s.modRegion r fun x =>
              { x with
                strum := { x.strum with halt := false, ep := none, lockUntil := none, downRef := none }
                loop := { x.loop with
                  vref := 0, refFrom := 0, refTo := 0, refBase := 0, rampV := 0, rampFrom := 0, pgSince := none
                  fixAt := none } }))) ∧
      (∀ u, (s.rail q).st = .ramping → (s.rail q).refAt = none → (s.rail q).enAt = some u → u + 10000 ≤ s.now →
        exec (.rampReferenceStart q) s = .next
          (overAll ((s.modRail q fun x => { x with refAt := some s.now, v0 := s.v0Of q, vRamp := 0 }).set
              (Obj.rail_ramp_v0 q) (s.v0Of q : Nat))
            (Config.railCourses s.cfg q) fun s c => s.modCourse c fun y =>
              if y.en then
                { y with
                  sup := true, lost := false, ref := none, prevNew := none, rejRun := 0, okRun := 0, okAt := s.now }
              else y)) ∧
      (∀ u p, (s.rail q).st = .ramping → (s.rail q).refAt = some u → p < (if q = 0 then 16 else 8) →
        u + joinTime q s.blk.rampTime p ≤ s.now → p ∉ (s.rail q).joined →
        exec (.positionJoin q p) s = .next (s.modRail q fun x => { x with joined := x.joined ++ [p] }))) ∧
  (∀ (s : State) (q : Nat), q < 3 → s.blk.st = .ramp → s.turnRail = some q → (s.rail q).st = .ramping →
      (s.railHeld q = true →
        let good := (s.modRail q fun x => { x with st := .good }).set (Obj.rail_pg_time q) s.now
        (s.blk.rampIdx + 1 < 3 → exec (.railPowerGood q) s =
          .next (good.modBlk fun b => { b with rampIdx := b.rampIdx + 1 })) ∧
        (s.Units → rfWf s.regs = true → s.blk.rampIdx = 2 → (∀ p < 3, p ≠ q → (s.rail p).st = .good) →
          s.getN Obj.service_reasons = 0 →
          ∃ t, exec (.railPowerGood q) s = .next t ∧ t.blk.st = .run ∧ t.blk.since = s.now ∧ t.blk.pwrGood = true ∧
            t.getN (Obj.rail_pg_time q) = s.now)) ∧
      (∀ u, (s.rail q).refAt = some u → u + 1000 * (s.blk.rampTime + s.getN Obj.pg_deadline) ≤ s.now →
        s.blk.rampIdx + 1 < 3 → exec (.railFailed q) s = .next
          (((((overAll (overAll s (Config.railCourses s.cfg q) fun s c =>
                  s.modCourse c fun x => { x with en := false, sup := false })
                (Config.railRegs s.cfg q) State.haltRegion).modRail q fun x =>
                  { x with st := .failed, refAt := none, enAt := none, joined := [] }).fire 6 4 (srcRail q)).modBlk
              fun b => { b with rampIdx := b.rampIdx + 1 }))))

/-- R417, R418, R421: shut-down and restart. The ramp-down of the first rail begins once every fret is 0 or
`shutdown_fret_wait` has run out; it ends when the reference has reached `rail_vmin` in every region: the rail's
CRS_EN fall, it is OFF and the next rail's ramp-down begins. VIN_OK_LOSS in RAMP, RUN and SERVICE lets every CRS_EN
fall, leaves no rail ramping or good, and enters SHUTDOWN with cause 2 and no ramp-down to make; in SHUTDOWN it
halts every region at once, lets every CRS_EN fall, counts and records the loss; VIN_RESTART, once
`vin_restart_delay` has passed since the loss, counts the restart and enters DISCOVER, where every REGION_HOLD is
low. -/
def Obligations.ShutDownAndRestart : Prop :=
  ∀ (s : State) (q : Nat), q < 3 →
    let downs (t : State) (p : Nat) : State :=
      overAll (t.modRail p fun x => { x with st := .down, downAt := some t.now }) (Config.railRegs t.cfg p) fun u r =>
        u.modStrum r fun v => { v with downRef := some (u.region r).loop.vref }
    (∀ l, s.blk.st = .shutdown → s.blk.downLeft = q :: l → s.blk.downBegun = false →
      ((∀ r ∈ Config.regions s.cfg, (s.region r).fret.fret = 0) ∨
        s.blk.since + 1000 * s.getN Obj.shutdown_fret_wait ≤ s.now) →
      exec .rampDownStart s = .next (downs (s.modBlk fun b => { b with downBegun := true }) q)) ∧
    (∀ l u, s.blk.st = .shutdown → s.blk.downLeft = q :: l → s.blk.downBegun = true → (s.rail q).downAt = some u →
      (∀ r ∈ Config.railRegs s.cfg q,
        downRefAt ((s.region r).strum.downRef.getD 0) q (s.now - u) ≤ mvUnits (railVmin q)) →
      let off := (overAll ((overAll (overAll s (Config.railCourses s.cfg q) fun s c =>
            s.modCourse c fun x => { x with en := false, sup := false })
          (Config.railRegs s.cfg q) State.haltRegion).modRail q fun x =>
            { x with st := .off, downAt := none, enAt := none, refAt := none, joined := [] })
        (Config.railRegs s.cfg q) fun s r => s.modStrum r fun v => { v with downRef := none }).modBlk fun b =>
          { b with downLeft := l }
      (l = [] → exec (.railRampDownEnd q) s = .next off) ∧
      (∀ p m, l = p :: m → exec (.railRampDownEnd q) s = .next (downs off p))) ∧
    (s.blk.st = .shutdown → (s.blk.downLeft = [] ∨ s.blk.downBegun = true) → exec .rampDownStart s = .next s) ∧
    (s.blk.st ≠ .shutdown → exec .rampDownStart s = .next s ∧ exec (.railRampDownEnd q) s = .next s) ∧
    ((s.blk.st = .ramp ∨ s.blk.st = .run ∨ s.blk.st = .service) →
      ∃ t, exec .vinOkLoss s = .next t ∧ t.blk.st = .shutdown ∧ t.blk.since = s.now ∧
      t.blk.shutCause = 2 ∧ t.blk.vinLostAt = s.now ∧ (s.blk.st ≠ .ramp → t.blk.pwrGood = false) ∧ t.blk.downLeft = [] ∧
      (∀ x ∈ t.courses, x.en = false ∧ x.sup = false) ∧
      (∀ x ∈ t.rails, x.st = .off ∨ x.st = .failed ∨ x.st = .notStarted) ∧ t.cfg = s.cfg ∧ t.now = s.now ∧
      t.clk = s.clk ∧ t.dict = s.dict ∧ t.tune = s.tune) ∧
    ((∀ b, b ∈ [BState.ramp, .run, .service, .shutdown] → s.blk.st ≠ b) → exec .vinOkLoss s = .next s) ∧
    ((s.blk.st ≠ .shutdown ∨ s.blk.shutCause ≠ 2 ∨ s.blk.shutPending = true) → exec .vinRestart s = .next s) ∧
    (s.now < s.blk.vinLostAt + s.getN Obj.vin_restart_delay * 1000000 → exec .vinRestart s = .next s) ∧
    (s.blk.st = .shutdown → exec .vinOkLoss s =
      .next ((((overAll s (Config.regions s.cfg) State.haltRegion).allEnLow.railsOff).count Obj.vin_loss_count 32
        |>.fire 7 0).modBlk fun b =>
          { b with shutCause := 2, vinLostAt := s.now, downLeft := [], downBegun := true })) ∧
    (s.blk.st = .shutdown → s.blk.shutCause = 2 → s.blk.shutPending = false →
      s.blk.vinLostAt + s.getN Obj.vin_restart_delay * 1000000 ≤ s.now → rfWf s.regs = true →
      ∃ t, exec .vinRestart s = .next t ∧ t.blk.st = .discover ∧ t.blk.since = s.now ∧
        t.get Obj.vin_restart_count = (s.get Obj.vin_restart_count + 1) % 2 ^ 32 ∧
        t.blk.fullSpeed = false ∧ t.blk.fullAt = none ∧ (∀ x ∈ t.convs, x.queue = [] ∧ x.coming = []) ∧
        (∀ r, (t.region r).sup.regHold = false) ∧
        t.courses = s.courses.map fun c =>
          { c with done := c.absent, outcome := if c.absent then 2 else 0, fail := none })

/-- R416: what `block_cmd` does, written in a keeper session, in every state in which the engine serves. -/
def Obligations.BlockCommands : Prop :=
  ∀ (s : State) (p : Path) (b k : Nat), s.Serves p b k → (s.session k).keeper = true →
    (s.blk.st = .ramp ∨ s.blk.st = .run ∨ s.blk.st = .service →
      exec (.blockCmdShutdown p b) s =
        .next (((s.modBlk fun x =>
          { x with shutPending := true, shutCause := 1, downLeft := s.downList, downBegun := false }).enter
            .shutdown).answered p b opWrite 0 1)) ∧
    (s.blk.st = .discover ∨ s.blk.st = .cooldown →
      exec (.blockCmdShutdown p b) s =
        .next ((s.modBlk fun x => { x with shutPending := true }).answered p b opWrite 0 1)) ∧
    (s.blk.st = .shutdown ∨ s.blk.st = .halted →
      exec (.blockCmdShutdown p b) s = .next ((s.fire 15 1).answered p b opWrite abortAccess 0)) ∧
    (s.blk.st = .shutdown → (∀ c ∈ s.courses, c.en = false) →
      exec (.blockCmdStart p b) s =
        .next (((s.modBlk fun x => { x with shutPending := false, downLeft := [], downBegun := false }).startDiscover).answered
          p b opWrite 0 1)) ∧
    (s.blk.st ≠ .shutdown ∨ (∃ c ∈ s.courses, c.en = true) →
      exec (.blockCmdStart p b) s = .next ((s.fire 15 1).answered p b opWrite abortAccess 0))

/-- R48, R50, R55, R59, R60, R388: a region-island cycle of a populated region. Every pickup takes its sample,
calibrated; the reference moves one cycle; the value of the source in use becomes vmin. Without a value only the
strobes that have come are judged. With one, the reports, the twins, the release, the own triggers and the strobes
see it in that order, and unless firing is halted, a strum is busy or the region fires open-loop the fire decision
follows. -/
def Obligations.RegionCycleInOrder : Prop :=
  ∀ (s : State) (r : Nat) (l : List Sample), Config.popRegion s.cfg r = true → r < s.regions.length →
    s.blk.st.scans = true → (s.rail (railOf r)).downAt = none →
    let u := s.cycleInputs r l
    (∀ p < (s.region r).pk.length,
      let k := (s.region r).pk.getD p {}
      (∀ c, l[p]? = some ⟨c, true⟩ → c < 256 →
        ((u.region r).pk.getD p {}).v = calibrate k.o k.g c ∧ ((u.region r).pk.getD p {}).clean = true ∧
        ((u.region r).pk.getD p {}).cnt = k.cnt + 1) ∧
      (∀ c, l[p]? = some ⟨c, false⟩ →
        ((u.region r).pk.getD p {}).clean = false ∧ ((u.region r).pk.getD p {}).par = k.par + 1 ∧
        ((u.region r).pk.getD p {}).sum = k.sum)) ∧
    (u.region r).loop.vref = (s.region r).loop.refFrom +
      truncZero (((s.region r).loop.refTo - (s.region r).loop.refFrom) * (min 500 ((s.region r).loop.refK + 1) : Nat)) 500 ∧
    ((s.region r).loop.src = .own →
      (u.region r).loop.hasV = (cleanValues (u.region r).pk).min?.isSome ∧
      ∀ v, (cleanValues (u.region r).pk).min? = some v → (u.region r).loop.vmin = v) ∧
    ((u.region r).loop.hasV = false → exec (.regionCycle r l) s = .next (u.cycleStrobes r)) ∧
    ((u.region r).loop.hasV = true →
      let v := (u.region r).loop.vmin
      let w := (((((u.cycleReports r v).cyclePowerGood r v).cycleFeed r v).cycleRelease r v).cycleTwins r).cycleStrobes r
      ((w.halted r || w.strumBusy r || w.openLoop r) = true → exec (.regionCycle r l) s = .next w) ∧
      ((w.halted r || w.strumBusy r || w.openLoop r) = false → exec (.regionCycle r l) s = .next (w.fireDecision r v)))

/-- R60 to R65, R76: the fire decision of a region at a minimum `v`. Below the reference, with `fire_space_min` past and
a string in rotation whose last pulse has been off for `toff_min`, that string fires: its edge is 1 ns later at the
pin and falls after its on-time, and no other string changes. At or above the reference nothing fires. -/
def Obligations.FireDecisionIssuesOnePulse : Prop :=
  ∀ (s : State) (r v : Nat), r < s.regions.length → s.strings.length = 1120 →
    let l := (s.region r).loop
    (l.vref ≤ (v : Int) + l.yac s.used.g1.window → s.fireDecision r v = s) ∧
    (∀ p, (v : Int) + l.yac s.used.g1.window < l.vref →
      (∀ t, l.lastFire = some t → t + s.getN Obj.fire_space_min ≤ s.now) → s.rotFrom r l.ptr = some p →
      stringAt r p < 1120 →
      (∀ q, (s.str (stringAt r p)).offEnd = some q → q + s.used.g1.toff ≤ 4 * s.now) →
      (s.region r).pre.run = none →
      let i := stringAt r p
      ((s.fireDecision r v).str i).pulse = some ⟨4 * (s.now + 1), 4 * (s.now + 1) + s.onTime r i 20, .ordinary⟩ ∧
      (∀ j, j ≠ i → (s.fireDecision r v).str j = s.str j) ∧
      ((s.fireDecision r v).region r).loop.lastFire = some s.now)

/-- R54, R56 to R59, R62, R74, R104, R125: what reaches a region island between its cycles. A pulse falls at the end of
its on-time; the source called for is taken, its change recorded, and the reference moves by the borrow guard; a
string's state, a shed, a band and the validity of pickups arrive. Where a string leaves rotation its strobe of a
conversion leaves with it, and the pointer moves on to the next string in rotation. -/
def Obligations.IslandArrivals : Prop :=
  ∀ (s : State) (r i : Nat), Config.popRegion s.cfg r = true → Config.popString s.cfg i = true →
    ((s.str i).pulse = none → exec (.fireFallingEdge i) s = .next s) ∧
    (∀ rise fall, fall ≤ 4 * s.now + 3 → (s.str i).pulse = some ⟨rise, fall, .ordinary⟩ →
      exec (.fireFallingEdge i) s = .next (s.modStr i fun x => { x with pulse := none, offQ := some fall })) ∧
    (∀ rise fall, fall ≤ 4 * s.now + 3 → (s.str i).pulse = some ⟨rise, fall, .strum⟩ →
      exec (.fireFallingEdge i) s = .next ((s.modStr i fun x => { x with pulse := none, offQ := some fall }).modStrum
        (regionOf i) fun u => { u with lastFall := max u.lastFall fall })) ∧
    (s.blk.st.scans = true → s.sourceDue r ≠ (s.region r).loop.src →
      let guard (l : Loop) : Int :=
        l.refBase + (if l.src = .borrowed then 8 * (s.getN Obj.pick_borrow_guard : Int) else 0)
      let u := (s.modRegion r fun x =>
          { x with
            loop := { x.loop with src := s.sourceDue r, fixAt := none, fixRem := 0 }
            rep := { x.rep with srcChange := true, fixed := x.rep.fixed || s.sourceDue r == .fixedRate } }).modLoop r
        fun l => if guard l = l.refTo then l else { l with refFrom := l.vref, refTo := guard l, refK := 0, rampFrom := l.rampV }
      (s.sourceDue r = .own → exec (.vminSourceChange r) s = .next (u.fire 22 0 (srcRegion r))) ∧
      (s.sourceDue r = .borrowed → exec (.vminSourceChange r) s = .next (u.fire 22 1 (srcRegion r))) ∧
      (s.sourceDue r = .fixedRate → exec (.vminSourceChange r) s =
        .next ((u.modSup r fun x => { x with faultNow := true }).fire 22 2 (srcRegion r)))) ∧
    (let u := if ((s.str i).isl.rotates && !(s.str i).st.rotates) = true then s.strobeLeaves i else s
      let v := u.modStr i fun x => { x with isl := x.st, islRho := x.eighths, islBlind := x.blind, islBad := false }
      let w := v.modLoop (regionOf i) fun l => { l with ptr := (v.rotFrom (regionOf i) l.ptr).getD l.ptr }
      ((s.str i).st ≠ .shed ∨ (s.str i).isl = .shed → exec (.scoreboardChangeArrival i) s = .next w) ∧
      ((s.str i).st = .shed → (s.str i).isl ≠ .shed →
        exec (.scoreboardChangeArrival i) s = .next (s.modStr i fun x => { x with islBad := false })) ∧
      ((s.str i).st = .shed → s.strumBusy (regionOf i) = false → (s.region (regionOf i)).strum.report ≠ some s.now →
        exec (.shedArrival i) s = .next w)) ∧
    ((s.str i).st ≠ .shed → exec (.shedArrival i) s = .next s) ∧
    ((s.str i).st = .shed → s.strumBusy (regionOf i) = true →
      exec (.shedArrival i) s = .next (s.strTo i (if (s.str i).blind then .blind else .active))) ∧
    exec (.bandChangeArrival r) s = .next (s.modLoop r fun l => { l with band := (s.diode r).band }) ∧
    exec (.pickupValidityArrival r) s =
      .next (s.modRegion r fun x => { x with pk := x.pk.map fun k => { k with isl := k.cause == 0 } })

/-- R85, R86, R92: the twins' own events. A 1 s window sets the strum disagreements of every region to 0; an
over-voltage count that reached 40 alone and was not followed by the other within 8 cycles is counted once in the
upper half of `region_twin_disagree`, recorded with detail 1 and gives the TWIN reason; a parity error reloads a
twin, whose copy then is the set in use; a lockout that has run out ends. R57, R62, R90 to R94, R111: pulses beyond
the ordinary decision. A region on the fixed rate fires the next string in rotation at even intervals whose
remainder is carried. A further strum round fires every eligible string while both twins trigger; an episode ends
when neither does. Strobes of spreading rail neighbours wait for the region's cycle; there they together start one
spread round when the region is below its reference, not busy, locked out, in release or on the fixed rate, and are
otherwise counted as refused, each of them. -/
def Obligations.TwinEventsAndFurtherPulses : Prop :=
  (∀ (s : State) (r : Nat), Config.popRegion s.cfg r = true →
      exec .strumDisagreeWindow s =
        .next { s with regions := s.regions.map fun x => { x with strum := { x.strum with window := 0 } } } ∧
      (∀ t, (s.region r).strum.ovWait = some (t, 0) →
        exec (.twinOvDisagreement r) s =
          let n := s.getN (Obj.region_twin_disagree r)
          .next ((((s.set (Obj.region_twin_disagree r) (min 65535 (n / 65536 + 1) * 65536 + n % 65536 : Nat)).modStrum r
            fun u => { u with ovWait := none }).fire 12 1 (srcRegion r)).noteReason 5)) ∧
      exec (.twinParityReload r .a) s =
        .next (((s.count Obj.parity_error_count 32).modBlk fun b => { b with parityHour := b.parityHour + 1 }).modStrum r
          fun u => { u with a := { u.a with loading := some s.now } }) ∧
      exec (.twinParityReload r .b) s =
        .next (((s.count Obj.parity_error_count 32).modBlk fun b => { b with parityHour := b.parityHour + 1 }).modStrum r
          fun u => { u with b := { u.b with loading := some s.now } }) ∧
      (∀ t, (s.region r).strum.a.loading = some t → r < s.regions.length → ∃ v,
        exec (.twinReloadComplete r .a) s = .next v ∧
        (v.region r).strum.a = { (s.region r).strum.a with loading := none, g := s.used.g4 } ∧
        (v.region r).strum.b = (s.region r).strum.b ∧ (∀ q, q ≠ r → v.region q = s.region q) ∧
        State.Frame [.regions] s v) ∧
      (∀ t, (s.region r).strum.b.loading = some t → r < s.regions.length → ∃ v,
        exec (.twinReloadComplete r .b) s = .next v ∧
        (v.region r).strum.b = { (s.region r).strum.b with loading := none, g := s.used.g4 } ∧
        (v.region r).strum.a = (s.region r).strum.a ∧ (∀ q, q ≠ r → v.region q = s.region q) ∧
        State.Frame [.regions] s v) ∧
      (∀ t, (s.region r).strum.lockUntil = some t →
        (t ≤ s.now → exec (.lockoutEnd r) s = .next (s.modStrum r fun u => { u with lockUntil := none })) ∧
        (s.now < t → exec (.lockoutEnd r) s = .next s))) ∧
  (∀ (s : State) (r : Nat), Config.popRegion s.cfg r = true → s.halted r = false →
      let x := s.region r
      (∀ p q, s.openLoop r = false → x.loop.src = .fixedRate → x.loop.fixAt = some q → q ≤ 4 * s.now →
        s.spaceMet r = true → s.strumBusy r = false → s.rotFrom r x.loop.ptr = some p →
          (s.str (stringAt r p)).pulse = none →
        let total := s.used.g1.tsw + x.loop.fixRem
        exec (.fixedRateFire r) s = .next ((s.fireOrdinary r p none).modLoop r fun l =>
          { l with fixAt := some (q + 4 * (total / (4 * s.nRot r))), fixRem := total % (4 * s.nRot r) })) ∧
      (∀ e, x.strum.ep = some e → s.roundDue r = true → x.loop.hasV = true →
        (x.strum.a.triggers x.loop.vref = true → x.strum.b.triggers x.loop.vref = true →
          exec (.strumRoundDue r) s = .next
            ((overAll s (s.eligible r) fun u i => u.issue r i (u.onTime r i (s.getN Obj.strum_mult)) .strum).modStrum r
              (fun u => { u with lockUntil := some (s.now + 201), lastFall := max u.lastFall (4 * (s.now + 1)) }) |>.modStrum r
              fun u => { u with
                ep := if e.round + 1 < s.getN Obj.strum_max then some { e with round := e.round + 1 } else none })) ∧
        (x.strum.a.triggers x.loop.vref = false → x.strum.b.triggers x.loop.vref = false →
          exec (.strumRoundDue r) s = .next (s.modStrum r fun u => { u with ep := none }))) ∧
      (∀ l, s.blk.st = .ramp → exec (.spreadStrobe r l) s = .next s) ∧
      (∀ l, s.blk.st ≠ .ramp → ∃ t, exec (.spreadStrobe r l) s = .next t ∧
        t = s.modStrum r (fun u => { u with strobes := u.strobes ++ s.strobes r l }) ∧
        ∀ n, n ∈ s.strobes r l ↔ n ∈ Config.neighbours s.cfg r ∧ n ∈ l ∧ n ∉ x.strum.strobes ∧
          ∃ at_, (s.region n).strum.spreadAt = some at_ ∧ at_ ≤ s.now ∧ s.now ≤ at_ + 2) ∧
      (x.strum.strobes = [] → s.cycleStrobes r = s) ∧
      (x.strum.strobes ≠ [] →
        let t := s.modStrum r fun u => { u with strobes := [] }
        let may := x.loop.hasV = true ∧ (x.loop.vmin : Int) < x.loop.vref ∧ s.strumBusy r = false ∧ s.locked r = false ∧
          x.strum.release = false ∧ x.loop.src ≠ .fixedRate
        (¬ may → s.cycleStrobes r = t.countSat (Obj.region_spread_refused r) 16 x.strum.strobes.length) ∧
        (may →
          let u := ((t.cancelPre r false).strumRound r .spread).strumRejoin r
          s.cycleStrobes r = (u.count (Obj.region_spread_count r) 32).modRegion r fun x =>
            { x with
              strum := { x.strum with ep := none, report := some u.now }
              rep := { x.rep with spread := true } })))

/-- R94, R98, R99, R107, R389: STRUM_REPORT restarts the region's shed hold and stores the block time of the decision.
DAMPER, with both over-voltage counts of a region at 40 and no fixed-rate source, halts the block: every CRS_EN
falls, the rail's courses are damped and the safety interrupt is asserted. A rail that is damped already is left as
it is. -/
def Obligations.StrumReportAndDamper : Prop :=
  ∀ (s : State) (r : Nat), Config.popRegion s.cfg r = true →
    (∀ t, (s.region r).strum.report = some t → (s.rail (railOf r)).recov = 0 →
      exec (.strumReport r) s = .next ((s.modRegion r fun x =>
        { x with strum := { x.strum with report := none }, sup := { x.sup with hold := 0 } }).set
          (Obj.region_last_strum r) t)) ∧
    (40 ≤ (s.region r).strum.a.ov → 40 ≤ (s.region r).strum.b.ov → (s.region r).loop.src ≠ .fixedRate →
      s.blk.st.scans = true →
      (s.get (Obj.rail_damped (railOf r)) = 1 → exec (.damper r) s = .next s) ∧
      (s.get (Obj.rail_damped (railOf r)) ≠ 1 → s.courses.length = 140 → ∃ t, exec (.damper r) s = .next t ∧
        t.blk.st = .halted ∧ t.blk.irqSafety = true ∧ (∀ x ∈ t.courses, x.en = false ∧ x.sup = false) ∧
        (∀ c ∈ Config.railCourses s.cfg (railOf r), c < 140 → (t.course c).damp = true) ∧
        State.Frame [.blk, .st, .rails, .regions, .strings, .courses, .eng, .cap, .hints, .learn, .therm, .convs, .cg, .dma,
          .recd, .regs] s t)) ∧
    ((s.region r).strum.a.ov < 40 ∨ (s.region r).strum.b.ov < 40 → exec (.damper r) s = .next s)

/-- R109, R110: the earliest armed start of a region begins a pre-strum of `pre_fires` pulses once its time has come and
none runs, which the report of the period notes, or is dropped once `pre_window` has passed; a pre-strum ends when
its window has. R112 to R117, R535: wake permits. A request waits from its rise; one that rises under a grant is a
breach of code 2, one that falls before its grant a breach of code 1. In RUN and SERVICE the next grantable region
in rotating order is granted, or, timed out, the one that has waited longest with a pre-strum armed; the grant line
rises when the region has taken the rejoin of its SHED strings, from then the armed start of a timed-out grant
counts its delay, and the line falls with the request. -/
def Obligations.PreStrumsAndWakePermits : Prop :=
  (∀ (s : State) (r t h d : Nat) (g : Option Nat) (st : List (Nat × Option Nat)) (rd : List Nat),
      Config.popRegion s.cfg r = true → r < s.regions.length →
      ((s.region r).pre = { starts := (t, g) :: st, ready := d :: rd, run := none } → t ≤ s.now →
        (s.now < t + s.getN Obj.pre_window → exec (.preStrumStart r) s =
          .next (s.modRegion r fun x => { x with
            pre := { starts := st, ready := rd, run := some (t, s.getN Obj.pre_fires) }, rep := { x.rep with pre := true } })) ∧
        (t + s.getN Obj.pre_window ≤ s.now → exec (.preStrumStart r) s =
          .next (s.modPre r fun _ => { starts := st, ready := rd, run := none }))) ∧
      ((s.region r).pre.run = some (t, h) →
        (t + s.getN Obj.pre_window ≤ s.now → exec (.preStrumEnd r) s =
          .next (s.modPre r fun p => { p with run := none })) ∧
        (s.now < t + s.getN Obj.pre_window → exec (.preStrumEnd r) s = .next s))) ∧
  (∀ (s : State) (r : Nat), Config.popRegion s.cfg r = true → s.runs = true →
      let w := (s.region r).wake
      (w.req = false → w.gnt = true →
        exec (.wakeReqRise r) s = .next (((s.modWake r fun w => { w with req := true }).count Obj.port_breach_count 32).set
          Obj.port_breach_last 2)) ∧
      (w.req = false → w.gnt = false → (s.region r).sup.regHold = false → exec (.wakeReqRise r) s =
        .next (s.modWake r fun w =>
          { w with req := true, since := some s.now, waited := 0, granted := none, reqAt := s.now, prov := none })) ∧
      (w.req = false → w.gnt = false → (s.region r).sup.regHold = true → exec (.wakeReqRise r) s =
        .next (((s.modWake r fun w => { w with
          req := true, since := some s.now, waited := 0, granted := none, reqAt := s.now, prov := none }).countSat
          Obj.wake_hold_requests 16).fire 24 1 (srcRegion r))) ∧
      (w.req = true → ∀ t, w.since = some t → exec (.wakeReqFall r) s =
        .next (((s.modWake r fun w =>
            { w with req := false, gnt := false, since := none, granted := none, waited := 0 }).count
          Obj.port_breach_count 32).set Obj.port_breach_last 1)) ∧
      (w.req = true → w.since = none → exec (.wakeReqFall r) s =
        .next (s.modWake r fun w =>
          { w with req := false, gnt := false, since := none, granted := none, waited := 0 })) ∧
      (s.grantedNow = false → (∀ q ∈ Config.regions s.cfg, s.timedOut q = false) →
        ((List.range 76).map fun k => (s.lastGranted + 1 + k) % 76).find? (fun q =>
          Config.popRegion s.cfg q && (s.region q).wake.pending && s.spaced q && s.neighboursAllow q) = some r →
        exec .wakeGrant s = .next (((((s.modWake r fun w =>
            { w with granted := some s.now, lastGrant := some s.now, prov := none }).rejoinAll r).modSup r fun u =>
          { u with distNow := true })).count Obj.wake_grant_count 32)) ∧
      (s.grantedNow = false →
        s.longestWait ((Config.regions s.cfg).filter fun q => s.timedOut q && s.spaced q) = some r →
        exec .wakeTimeout s =
          let v := (((s.modWake r fun w =>
              { w with granted := some s.now, lastGrant := some s.now, prov := none }).rejoinAll r).modSup r fun u =>
            { u with distNow := true }).count Obj.wake_grant_count 32
          let at_ := s.now + 64 + s.getN Obj.wake_ungate_delay
          .next ((((v.modWake r fun w => { w with prov := some at_ }).armPre r at_ s.now none).count
            Obj.wake_timeout_count 32).fire 24 0 (srcRegion r))) ∧
      (∀ t, w.granted = some t → w.gnt = false →
        let u := overAll s ((Config.regionStrings s.cfg r).filter fun i => (s.str i).isl == .shed) State.islandTakes
        let v := (u.set (Obj.region_wake_wait r) (min 65535 (s.now - w.reqAt) : Nat)).modWake r fun w =>
          { w with gnt := true, since := none, lastRise := some s.now, prov := none }
        (∀ at_, w.prov = some at_ → (at_, none) ∈ (s.region r).pre.starts → exec (.rejoinAck r) s =
          .next ((v.modPre r fun p => p.drop (at_, none)).armPre r (s.now + s.getN Obj.wake_ungate_delay) s.now none)) ∧
        (w.prov = none → exec (.rejoinAck r) s = .next v)))

/-- R124, R126, R127: muting. A string that is not MUTED goes to MUTED with its cause and loses its test and open
counter; a MUTED one keeps its cause unless the new one has a higher priority; no other string changes. A parity
error in a scoreboard entry leaves the string MUTED with the cause that its inputs give, no blind flag and no hiccup
history; one in the region's copy only makes the region pass the string over until it has fetched the entry again.
The return timer of a parity mute asks for the return after 1 ms. -/
def Obligations.MutingRules : Prop :=
  ∀ (s : State) (i : Nat), Config.popString s.cfg i = true → i < s.strings.length →
    (∀ cause, (s.str i).st ≠ .muted →
      let y := (s.mute i cause).str i
      y.st = .muted ∧ y.cause = cause ∧ y.test = none ∧ y.openCtr = 0 ∧ y.rampAt = none ∧ y.retPending = false ∧
        y.pulse = (s.str i).pulse ∧ y.blind = (s.str i).blind ∧ ∀ j, j ≠ i → (s.mute i cause).str j = s.str j) ∧
    (∀ cause, (s.str i).st = .muted → causePriority (s.str i).cause ≤ causePriority cause → s.mute i cause = s) ∧
    (∀ cause, (s.str i).st = .muted → causePriority cause < causePriority (s.str i).cause →
      (s.mute i cause).str i = { s.str i with cause := cause, retPending := false, parAt := none }) ∧
    (∃ t, exec (.scoreboardParityError i false) s = .next t ∧ (t.str i).st = .muted ∧
      (t.str i).cause = s.parityError.rebuildCause i ∧ (t.str i).blind = false ∧ (t.str i).openCtr = 0 ∧
      (t.str i).hicHist = [] ∧ t.blk.parityHour = s.blk.parityHour + 1 ∧ ∀ j, j ≠ i → t.str j = s.str j) ∧
    exec (.scoreboardParityError i true) s = .next (((s.count Obj.parity_error_count 32).modBlk fun b =>
      { b with parityHour := b.parityHour + 1 }).modStr i fun x => { x with islBad := true }) ∧
    (∀ u, (s.str i).parAt = some u → (s.str i).st = .muted → (s.str i).cause = 6 → u + 1000000 ≤ s.now →
      exec (.parityReturnTimer i) s = .next (s.modStr i fun y => { y with parAt := none, retPending := true }))

/-- R126, R150, R153: the string commands. MUTE mutes with cause HOST (1). RETURN lets a muted string return, where its
cause and its course allow it; a cause other than HOST needs a keeper session; one of a string that is not muted
ends with ACCESS and is recorded. SET_BLIND and CLEAR_BLIND set and clear the blind flag, with the state where the
string is ACTIVE or BLIND, and end with ACCESS where the flag is so already. -/
def Obligations.StringCommands : Prop :=
  ∀ (s : State) (p : Path) (b k i : Nat), s.Serves p b k → Config.popString s.cfg i = true →
    exec (.stringCmdMute p b i) s = .next ((s.mute i 1).answered p b opWrite 0 1) ∧
    ((s.str i).st = .muted → ((s.str i).cause = 1 ∨ (s.session k).keeper = true) → (s.str i).cause ≠ 5 →
      (s.str i).cause ≠ 7 → s.runs = true → s.returnOk i = true →
      exec (.stringCmdReturn p b i) s =
        .next ((s.modStr i fun y => { y with retPending := true }).answered p b opWrite 0 1)) ∧
    ((s.str i).st = .muted → (s.str i).cause ≠ 1 → (s.session k).keeper = false →
      exec (.stringCmdReturn p b i) s = .next (s.answered p b opWrite abortKeeper 0)) ∧
    ((s.str i).st ≠ .muted →
      exec (.stringCmdReturn p b i) s = .next ((s.fire 15 0 (srcString i)).answered p b opWrite abortAccess 0)) ∧
    ((s.str i).blind = false → (s.str i).st = .active →
      exec (.stringCmdSetBlind p b i) s = .next ((s.makeBlind i 6).answered p b opWrite 0 1)) ∧
    ((s.str i).blind = false → (s.str i).st ≠ .active →
      exec (.stringCmdSetBlind p b i) s = .next ((s.flagBlind i 6).answered p b opWrite 0 1)) ∧
    ((s.str i).blind = true →
      exec (.stringCmdSetBlind p b i) s = .next (s.answered p b opWrite abortAccess 0)) ∧
    ((s.str i).blind = true → (s.str i).st = .blind →
      exec (.stringCmdClearBlind p b i) s =
        .next ((s.strTo i .active fun y => { y with shI := 0, shMet := 0, blind := false, blindCause := 0 }).answered
          p b opWrite 0 1)) ∧
    ((s.str i).blind = true → (s.str i).st ≠ .blind →
      exec (.stringCmdClearBlind p b i) s =
        .next ((s.modStr i fun y => { y with blind := false, blindCause := 0 }).answered p b opWrite 0 1)) ∧
    ((s.str i).blind = false →
      exec (.stringCmdClearBlind p b i) s = .next (s.answered p b opWrite abortAccess 0))

/-- R130, R131, R522: status frames and lane supervision. A lane that is not supervised is not decoded. A rejected frame
is counted and exempts the next from the count; the fourth in a row loses the lane, as 6 µs without a good frame do.
An accepted frame without news is taken whole; a hiccup bit of an ACTIVE string with hiccups to spare takes it to
HICCUP and asks for a follow-up. On a lost lane with CRS_FLT_N low for 300 µs the damper acts. The period of a
lane's loss counts as one with a sense fault. -/
def Obligations.LanesAndFrames : Prop :=
  ∀ (s : State) (c w : Nat) (ok : Bool), Config.popCourse s.cfg c = true → c < s.courses.length → w < 2 ^ 32 →
    let x := s.course c
    let lost (t : State) : State :=
      ((((((({ t with cap := { t.cap with senseNow := true } } : State).modCourse c fun x =>
        { x with lost := true, okRun := 0 })).fire 17 0 (srcCourse c)).followCause c).noteReason
        9).modSup (regionOfCourse c) fun u => { u with faultNow := true })
    (x.sup = false → exec (.crsStatFrame c w ok) s = .next s) ∧
    (x.sup = true → x.accepts w ok = false →
      let t := (s.countSat (Obj.course_lane_errors c) 16).modCourse c fun x =>
        { x with ref := none, rejRun := x.rejRun + 1, okRun := 0 }
      (x.rejRun < 3 → exec (.crsStatFrame c w ok) s = .next t) ∧
      (x.rejRun = 3 → x.lost = false → exec (.crsStatFrame c w ok) s = .next (lost t))) ∧
    (x.sup = true → x.accepts w ok = true → x.lost = false → bit w 11 = false →
      (bit w 9 = false ∨ x.prevNew ≠ some false) →
      let t := s.modCourse c fun y =>
        { y with frame := w, ref := some (bits w 7 4), okAt := s.now, rejRun := 0, okRun := y.okRun + 1
                 prevNew := some (bit w 9) }
      ((∀ n < 8, bit w (20 + n) = false) → exec (.crsStatFrame c w ok) s = .next t) ∧
      (∀ n < 8, (∀ m < 8, bit w (20 + m) = decide (m = n)) → Config.popString s.cfg (8 * c + n) = true →
        (s.str (8 * c + n)).st = .active → (s.str (8 * c + n)).hicHist = [] → 2 ≤ s.getN Obj.hiccup_max →
        exec (.crsStatFrame c w ok) s =
          .next (((t.modStr (8 * c + n) fun y => { y with hicHist := [s.now] }).toHiccup (8 * c + n)).followCause c))) ∧
    (x.sup = true → x.okAt + 6000 ≤ s.now → x.lost = false → exec (.laneTimeout c) s = .next (lost s)) ∧
    (x.lost = true → x.flt = true → x.fltAt + 300000 ≤ s.now →
      exec (.laneFltDamper c) s = .next (s.damper (railOfCourse c) 2 (srcCourse c))) ∧
    (x.lost = true → x.flt = true → ∀ u, (s.region (regionOfCourse c)).loop.lowSince = some u →
      u + 10000 ≤ s.now → x.fltAt + 10000 ≤ s.now →
      exec (.laneVminDamper c) s = .next (s.damper (railOfCourse c) 2 (srcCourse c)))

/-- R131, R132, R404, R457, R497, R498, R154: course faults. CRS_FLT_N low and an alert ask for a follow-up; on a lost
lane its rise returns the course's HICCUP strings. A waiting follow-up reads STATUS_WORD and, for each string
concerned, STATUS_IOUT on its page, counts one course fault and is recorded; the copy of the fault record, an
acknowledgement where its acknowledged bit read 0, and CLEAR_FAULTS end it: it keeps 128 bytes with their state and
is queued in three parts, for the fault log only if that bit read 0. An alert answered with the address of a
populated course asks for its follow-up, any other answer is recorded. Each hour window starts with no parity errors
and no course faults. -/
def Obligations.CourseFaultsAndFollowUps : Prop :=
  ∀ (s : State) (c : Nat), Config.popCourse s.cfg c = true →
    let x := s.course c
    let ask (t : State) : State := t.modCourse c fun x =>
      { x with follow := match x.follow with
        | .idle => .waiting
        | .waiting => .waiting
        | .running _ => .running true }
    (s.blk.st.active = true → exec (.crsFltNFall c) s =
      .next (ask (s.modCourse c fun x => { x with flt := true, fltAt := s.now }))) ∧
    (x.lost = false → exec (.crsFltNRise c) s = .next (s.modCourse c fun x => { x with flt := false })) ∧
    (x.lost = true → exec (.crsFltNRise c) s =
      .next (overAll (s.modCourse c fun x => { x with flt := false })
        ((Config.courseStrings s.cfg c).filter fun i => (s.str i).st == .hiccup) fun s i =>
          s.strTo i .returning fun y => { y with rampAt := if s.runs then some (s.eng.period + 1) else none, rampCmd := false })) ∧
    (∀ w iout, x.follow = .waiting → s.blk.st.serves = true → w < 65536 → exec (.followUp c w iout) s =
      .next ((((s.modCourse c fun x =>
          { x with follow := .running false, status := w, iout := iout
                   sent := (PmbusTxn.statusWord :: iout.flatMap fun p => [.page p.1, .statusIout]).map
                     (0x50 + c % 14, ·) }).countSat
        (Obj.course_fault_count c) 16).countSat (Obj.course_faults_hour c) 8).fire 18 (w % 256) (srcCourse c))) ∧
    (∀ w iout, x.follow ≠ .waiting → exec (.followUp c w iout) s = .next s) ∧
    (∀ b d e, x.follow = .running false → s.blk.st.serves = true → recordGood b = true → bit (b.getD 1 0) 1 = false →
      exec (.courseRecordCopy c b d e) s =
        let t := ((s.modCourse c fun x =>
          { x with record := slice b 0 128, recState := 1, recTmon := s.tmonOf c, follow := .idle
                   sent := x.sent ++ (([0, 1, 2, 3].flatMap fun i => [PmbusTxn.recordSelect i, .recordData]) ++
                     [PmbusTxn.recordAck, PmbusTxn.clearFaults]).map (0x50 + c % 14, ·) }).count (Obj.course_record_copies c)
            32).count (Obj.trig_count 19) 32
        .next (t.enqueue { ty := 19, detail := 0, src := srcCourse c, part := some 0
                           words := some ((List.range 32).map fun k => fieldAt b (4 * k) 4), route := t.routeOf 19 })) ∧
    (∀ k, k < 10 → s.blk.st.active = true →
      exec (.smbusAlert k none) s = .next (s.fire 20 0 (srcSegment k)) ∧
      ∀ a,
        ((Config.courses s.cfg).find? (fun d => segmentOf d == k && 0x50 + d % 14 == a) = some c →
          exec (.smbusAlert k (some a)) s = .next (ask s)) ∧
        ((∀ d ∈ Config.courses s.cfg, segmentOf d = k → 0x50 + d % 14 ≠ a) →
          exec (.smbusAlert k (some a)) s = .next (s.fire 20 0 (srcSegment k)))) ∧
    exec .hourWindow s = .next (overAll (s.modBlk fun b => { b with parityHour := 0 }) (List.range 140) fun s c =>
      s.set (Obj.course_faults_hour c) 0)

/-- R42, R163, R164, R280, R533, R376, R17: while the engine runs, CONTROL_PERIOD is cycle 0 of a period. It notes the
number and the instant of the period, takes the committed groups, the reports, VIN and the activity frames, then
makes the supervisor's latch, tags the period that ended, and pulses ACT_TICK 2 to 4 HMEM_CLK cycles later; the
engine goes on running, so it computes the outputs of the period and adds the power sums, in that order. VIN_SNS of
the period is the mean of its conversions, the sums start again, and set-points that lie in their rails' ranges stay
there. Block time, courses, telemetry, tuning, clocks and waiting commands stay as they are. -/
def Obligations.ControlPeriodComputes : Prop :=
  ∀ s : State,
    (s.engineOn = false → exec .controlPeriod s = .next s) ∧
    (s.engineOn = true →
      let a := s.beginPeriod
      let v := overAll a.latch (Config.regions s.cfg) (State.takeTag · s.eng.zeroAt s.now)
      let w0 : State := { v with
        hints := { v.hints with
          past := [], asking := v.hints.asking.filter v.asks
          entries := v.hints.entries.map fun h => { h with joined := [] } }
        eng := { v.eng with ticks := v.eng.ticks + 1 }
        learn := { v.learn with dueRun := v.learn.perRun, perRun := v.learn.msRun } }
      let w := w0.pulseTick
      let u := w.compute.powerPeriod
      let f := clampN 200 1000 s.clk.hmem
      ∃ t, exec .controlPeriod s = .next t ∧ t = { u with eng := { u.eng with computed := true } } ∧
        a.eng.period = s.eng.period + 1 ∧ a.eng.zeroAt = s.now ∧ a.eng.stall = true ∧
        a.cg = { s.cg with vinSns := s.vinMean, vinSum := 0, vinCnt := 0 } ∧
        t.engineOn = true ∧ t.eng.period = s.eng.period + 1 ∧ t.eng.zeroAt = s.now ∧ t.eng.computed = true ∧
        t.eng.stall = true ∧ s.now + 2000 / f ≤ t.eng.tickAt ∧ t.eng.tickAt ≤ s.now + 4000 / f ∧
        t.hints.past = [] ∧ (s.RailsOk → t.RailsOk) ∧
        State.Frame [.blk, .st, .rails, .regions, .strings, .chans, .eng, .used, .cap, .hints, .learn, .therm, .convs, .cg,
          .dict, .dma, .recd, .regs, .freeK] s t)

/-- R163, R165, R59, R68, R81, R102: the outputs of a period. ENGINE_OUTPUTS writes set-points, needed frets,
references, on-time bases, channel figures and trims together at cycle 400. OUTPUTS_ARRIVAL brings the trims, the
committed G1 and G4 sets and the on-time base to the islands; with no doubt entered or left, every region's
interpolation starts anew from the value reached. -/
def Obligations.OutputsAreWrittenAndArrive : Prop :=
  ∀ s : State,
    (s.engineOn = true → s.eng.computed = true → exec .engineOutputs s = .next { s with
      eng := { s.eng with computed := false, written := true }
      chans := s.chans.map fun c => { c with kffOut := c.kff, cOut := c.c, offOut := c.off }
      rails := s.rails.map fun x => { x with spOut := x.spCalc, needOut := x.needCalc, settled := x.settledCalc }
      regions := s.regions.map fun x =>
        { x with sup := { x.sup with vrPrev := x.sup.vrOut, vrOut := x.sup.vrCalc, tbOut := x.sup.tbCalc } }
      strings := s.strings.map fun x => { x with trimOut := x.trimCalc } }) ∧
    (s.engineOn = false ∨ s.eng.computed = false → exec .engineOutputs s = .next s) ∧
    (s.eng.written = true → s.regions.length = 76 → ∃ t, exec .outputsArrival s = .next t ∧
      t.strings = s.strings.map (fun x => { x with trim := x.trimOut }) ∧ t.used.g1 = s.used.g1e ∧
      t.used.g4 = s.used.g4e ∧ t.eng = { s.eng with written := false } ∧
      (∀ r ∈ Config.regions s.cfg, (t.region r).loop.tonBase = (s.region r).sup.tbOut ∧
        (t.region r).loop.refBase = (s.region r).sup.vrOut ∧ (t.region r).loop.refFrom = (s.region r).loop.vref ∧
        (t.region r).loop.refK = 0) ∧
      State.Frame [.strings, .used, .eng, .regions, .chans, .convs, .recd, .regs] s t) ∧
    (s.eng.written = false → exec .outputsArrival s = .next s)

/-- R186 to R190, R196 to R198, R169: banks and the trim input. SWAP_SAMPLE samples the requests and stalls shadow
writes; BANK_COPY_END ends the stall and lands the stalled writes. A parity error of a bank that is not computing
puts the default coefficients in the active bank, sets its flag and holds the outputs; one in an integrator clears
it. A usable PWM period gives the raw trim; a loss is recorded once, and holds for `trim_hold` before the value
decays. -/
def Obligations.BanksAndTrimInput : Prop :=
  ∀ s : State, s.engineOn = true →
    exec .swapSample s = .next { s with
      eng := { s.eng with stall := true }
      chans := s.chans.map fun c => { c with sampled := c.sampled || c.req, req := false } } ∧
    exec .bankCopyEnd s = .next { s with
      eng := { s.eng with stall := false }
      chans := s.chans.map fun c =>
        let d := if c.copying then
            (if c.actB then { c with bankA := c.bankB } else { c with bankB := c.bankA })
          else c
        c.stalled.foldl Chan.land { d with copying := false, stalled := [] } } ∧
    (∀ ch, Config.popChan s.cfg ch = true → ch < 76 → s.eng.computed = false →
      exec (.bankParityError ch .bank) s =
        .next ((((s.count Obj.parity_error_count 32).modBlk fun b => { b with parityHour := b.parityHour + 1 }).modChan ch
            fun c =>
              let d := if c.actB then { c with bankB := regionBank } else { c with bankA := regionBank }
              { d with flags := c.flags ||| 16, live := c.live ||| 16 }).modChan ch (fun c => { c with hold := true })
          |>.fire 26 0 (srcChan ch))) ∧
    (∀ i, Config.popString s.cfg i = true → exec (.bankParityError (regionOf i) (.share i)) s =
      .next ((((s.count Obj.parity_error_count 32).modBlk fun b => { b with parityHour := b.parityHour + 1 }).modStr i
        fun x => { x with shI := 0, shMet := 0 }).fire 26 1 (srcChan (regionOf i)))) ∧
    (∀ h l, s.used.g6.mode = 1 → 250 ≤ h + l → h + l ≤ 31250 → 5 ≤ h → 5 ≤ l → s.eng.lost = false →
      exec (.trimPwmPeriod h l) s = .next { s with
        eng := { s.eng with
          raw := roundUp (1016 * h : Nat) (h + l) - 512, usable := true, decay := false, pwmTicks := h + l
          pwmAt := s.now } }) ∧
    (∀ h l, s.used.g6.mode = 1 → (h + l < 250 ∨ 31250 < h + l ∨ h < 5 ∨ l < 5) →
      exec (.trimPwmPeriod h l) s = .next s) ∧
    (s.used.g6.mode = 1 → 0 < s.eng.pwmTicks → s.eng.pwmAt + 16 * s.eng.pwmTicks ≤ s.now → s.eng.lost = false →
      exec .trimInputLost s = .next (({ s with
        eng := { s.eng with lost := true, lostAt := s.now, decay := false } } : State).fire 27 0)) ∧
    (s.eng.lost = true → s.eng.lostAt + 1000000 * s.getN Obj.trim_hold ≤ s.now →
      exec .trimHoldExpiry s = .next { s with eng := { s.eng with decay := true } })

/-- R187: in each period the trim value moves toward its target by at most 1.000 mV (values are in µV) and delivers the
remainder where that is smaller. A change of mode or of G6 does not step it. -/
def Obligations.TrimMovesAtMostOneMillivolt : Prop :=
  ∀ s : State, (s.used.g6.mode = 0 ∨ s.eng.lost = false) →
    (let d := s.trimTarget - s.eng.val
     let m := s.trimPeriod.eng.val - s.eng.val
     (-1000 ≤ d ∧ d ≤ 1000 → m = d) ∧ (1000 < d → m = 1000) ∧ (d < -1000 → m = -1000)) ∧
    (∀ g, (s.takeGroup g).eng.val = s.eng.val)

/-- R196, R197, R223: BANK_SWAP asks for the swap of the populated channels in its mask; SHADOW_WRITE puts a coefficient
into the shadow bank, clamped to the range of its place, and a shift clamped to 0 to 31, or lets it wait while
writes stall; MATCHED_ENABLE_WRITE enables matched operation where the tuning part has a usable model. R357 to R359,
R365, R369: the dictionary commands of the converters. SYNC_ARM arms a capture of one sweep or of `sync_sweeps`;
SYNC_CANCEL disarms it, and ends it at the present sweep where one runs; CONV_URGENT sends an urgent request on its
way, where its input exists and its mode fits; CONV_TABLE_WRITE stages a sequence table or its length. -/
def Obligations.EngineAndConverterWrites : Prop :=
  (∀ (s : State) (p : Path) (b k : Nat), s.Serves p b k →
      (∀ m, m < 2 ^ 80 → exec (.bankSwap p b m) s =
        .next (State.answered
          { s with
            chans := s.chans.zipIdx.map fun q =>
              if bit m q.2 && Config.popChan s.cfg q.2 then { q.1 with req := true } else q.1 } p b opWrite 0 10)) ∧
      (∀ ch sub (v : Int), Config.popChan s.cfg ch = true → 1 ≤ sub → sub ≤ 24 → -2 ^ 31 ≤ v → v < 2 ^ 31 →
        exec (.shadowWrite p b ch sub v) s =
          .next ((s.modChan ch fun c =>
            if s.engineOn && s.eng.stall then
              { c with stalled := c.stalled ++ [(sub, clampI (coefRange ch (sub - 1)).1 (coefRange ch (sub - 1)).2 v)] }
            else c.land (sub, clampI (coefRange ch (sub - 1)).1 (coefRange ch (sub - 1)).2 v)).answered p b opWrite 0 4)) ∧
      (∀ ch sub v, Config.popChan s.cfg ch = true → 0x21 ≤ sub → sub ≤ 0x38 → v < 256 →
        exec (.shadowWrite p b ch sub (v : Nat)) s =
          .next ((s.modChan ch fun c =>
            if s.engineOn && s.eng.stall then { c with stalled := c.stalled ++ [(sub, clampI 0 31 v)] }
            else c.land (sub, clampI 0 31 v)).answered p b opWrite 0 1)) ∧
      (∀ v, (s.session k).keeper = true → v < 256 →
        exec (.matchedEnableWrite p b v) s =
          .next ((s.set Obj.matched_enable (if v ≥ 1 ∧ s.matchedPossible then 1 else 0)).answered p b opWrite 0 1))) ∧
  (∀ (s : State) (p : Path) (b k : Nat), s.Serves p b k →
      exec (.syncArmSingle p b) s =
        .next (State.answered { s with cg := { s.cg with arm := 1, left := 1, trigs := [] } } p b opWrite 0 1) ∧
      exec (.syncArmSweeps p b) s =
        .next (State.answered { s with cg := { s.cg with arm := 2, left := s.getN Obj.sync_sweeps, trigs := [] } } p b opWrite 0 1) ∧
      (s.cg.running = false → exec (.syncCancel p b) s =
        .next (State.answered { s with cg := { s.cg with arm := 0, left := 0, trigs := [] } } p b opWrite 0 1)) ∧
      (s.cg.running = true → exec (.syncCancel p b) s =
        .next (State.answered ({ s with cg := { s.cg with left := 1 } } : State).captureStep p b opWrite 0 1)) ∧
      (∀ n v, Config.popConv s.cfg n = true → v < 2 ^ 32 → Config.connected s.cfg n (min 19 (v % 32)) = true →
        v / 65536 % 4 ≠ 3 → ((v / 65536 % 4 = 1 ∨ v / 65536 % 4 = 2) → v % 32 < 16) →
        exec (.convUrgent p b n v) s =
          .next ((s.askUrgent n { input := min 19 (v % 32), ts := clampN 4 64 (v / 128 % 128), gain := v / 16384 % 4
                                  mode := v / 65536 % 4 }).answered p b opWrite 0 4)) ∧
      (∀ n l, Config.popConv s.cfg n = true → l.length = 32 → (∀ x ∈ l, x < 256) →
        exec (.convTableWrite p b n .a l) s =
          .next ((s.modConv n fun c =>
            { c with sa := (List.range 16).map fun k => entryClamp (fieldAt l (2 * k) 2) }).answered p b opWrite 0 32) ∧
        exec (.convTableWrite p b n .b l) s =
          .next ((s.modConv n fun c =>
            { c with sb := (List.range 16).map fun k => entryClamp (fieldAt l (2 * k) 2) }).answered p b opWrite 0 32)) ∧
      (∀ n v, Config.popConv s.cfg n = true → v < 256 →
        exec (.convTableWrite p b n .aLen [v]) s =
          .next ((s.modConv n fun c => { c with saLen := clampN 1 16 v }).answered p b opWrite 0 1) ∧
        exec (.convTableWrite p b n .bLen [v]) s =
          .next ((s.modConv n fun c => { c with sbLen := clampN 1 16 v }).answered p b opWrite 0 1)))

/-- R202 to R204, R212 to R216, R222, R535: a fret moves one step at a time. A raising step waits for two settled
periods before its request rises, a lowering one raises it at once; the fret changes when the acknowledge rises and
the step ends when it falls, which is counted. An acknowledge without a request is breach 3, one that falls in the
supervisor cycle of its rise breach 4; one that is late is counted and recorded once. -/
def Obligations.FretStepsAndHandshake : Prop :=
  ∀ (s : State) (r : Nat), Config.popRegion s.cfg r = true → r < s.regions.length → s.runs = true →
    let f := (s.region r).fret
    (f.step = .idle → f.req = false → f.ack = false →
      (f.fret < s.fretTarget r → exec (.fretStepStart r) s =
        .next (s.modFret r fun f => { f with step := .upWait, settled := 0, val := f.fret + 1 })) ∧
      (s.fretTarget r < f.fret → exec (.fretStepStart r) s =
        .next (s.modFret r fun f =>
          { f with step := .down, val := f.fret - 1, req := true, reqAt := s.now, late := false })) ∧
      (s.fretTarget r = f.fret → exec (.fretStepStart r) s = .next s)) ∧
    (f.step = .upWait → f.fret < s.fretTarget r → 2 ≤ f.settled → exec (.fretCmdReqRaise r) s =
      .next (s.modFret r fun f => { f with step := .up, req := true, reqAt := s.now, late := false })) ∧
    (f.step = .upWait → f.fret < s.fretTarget r → f.settled < 2 → exec (.fretCmdReqRaise r) s = .next s) ∧
    (f.req = true → f.overtaken = false → exec (.fretCmdAckRise r) s =
      .next ((s.modFret r fun f => { f with ack := true, ackAt := s.now, req := false, fret := f.val }).modSup r fun u =>
        { u with distNow := true })) ∧
    (f.req = false → f.ack = false → exec (.fretCmdAckRise r) s =
      .next ((s.count Obj.port_breach_count 32).set Obj.port_breach_last 3)) ∧
    (f.ack = true → f.overtaken = false → f.ackAt / 4 ≠ s.now / 4 → exec (.fretCmdAckFall r) s =
      .next ((s.count (Obj.region_fret_changes r) 32).modFret r fun f => { fret := f.fret, val := f.fret })) ∧
    (f.ack = true → f.overtaken = false → f.ackAt / 4 = s.now / 4 → exec (.fretCmdAckFall r) s =
      .next ((((s.count Obj.port_breach_count 32).set Obj.port_breach_last 4).count (Obj.region_fret_changes r)
        32).modFret r fun f => { fret := f.fret, val := f.fret })) ∧
    (f.req = true → f.late = false → f.reqAt + s.getN Obj.fret_ack_timeout ≤ s.now → exec (.fretAckLate r) s =
      .next (((s.modFret r fun f => { f with late := true }).count Obj.fret_ack_late 32).fire 28 f.val (srcRegion r))) ∧
    (∀ q t, q < 3 → (s.rail q).recHold = some t →
      (t ≤ s.now → exec (.recoveryHoldExpiry q) s = .next (s.modRail q fun x => { x with recHold := none })) ∧
      (s.now < t → exec (.recoveryHoldExpiry q) s = .next s))

/-- R246, R248: the allocation. Whatever it starts from, each region's fret stays at most its f_max, and the allocation
it ends with is the one it began with or has a power within the budget. -/
def Obligations.AllocationStaysInBudget : Prop :=
  ∀ (s : State) (cs : List Cand) (budget : Int) (n : Nat) (a : List Nat), a.length = cs.length →
    (∀ p ∈ cs.zip a, p.2 ≤ p.1.fmax) →
    let b := (s.allocLoop cs budget n a).1
    b.length = cs.length ∧ (∀ p ∈ cs.zip b, p.2 ≤ p.1.fmax) ∧ (b = a ∨ (s.allocPower cs b : Int) ≤ budget)

/-- R242, R244, R247, R251, R391: CAP_STEP in RUN and SERVICE takes G3 unless it was committed in the same cycle, sets
P_lim from its `cap_w` with the throttle's share taken off, and allots capos for the next delivery; elsewhere only
the sums of a step start again. CAPO_DELIVERY gives every region the capo allotted, never more than f_max as it now
stands, on one cycle; f_max lies under the region's ceiling, its request, the fret that fits its rail and the
region's fret limit. -/
def Obligations.CapStepAndDelivery : Prop :=
  ∀ s : State,
    (s.runs = true →
      let g3 : G3 := if s.sameCycle 3 then s.used.g3 else ⟨s.getN Obj.cap_w, s.getN Obj.thermal_step⟩
      ∃ t, exec .capStep s = .next t ∧
      t.cap.pLim = g3.cap * (1000 - s.therm.n * g3.step) ∧ t.cap.next.isSome = true ∧
      t.cap.stepSeen = true ∧ t.cap.nStep = 0 ∧ (∀ x ∈ t.rails, x.pStep = 0) ∧ t.used.g3 = g3 ∧
      State.Frame [.used, .rails, .regions, .cap, .dict, .regs] s t) ∧
    (s.runs = false → exec .capStep s = .next { s with
      rails := s.rails.map fun x => { x with pStep := 0 }
      regions := s.regions.map fun x => { x with sup := { x.sup with iStep := 0, nStep := 0, actSum := 0 } }
      cap := { s.cap with estStep := 0, nomStep := 0, nStep := 0, senseStep := false } }) ∧
    (∀ l, s.runs = true → s.cap.next = some l → rfWf s.regs = true → ∃ t, exec .capoDelivery s = .next t ∧
      t.cap.next = none ∧
      (∀ r ∈ Config.regions s.cfg, t.getN (Obj.region_capo r) = min (l.getD r 0) (s.fmaxNow r)) ∧
      State.Frame [.regions, .cap, .regs] s t) ∧
    (∀ r, s.fmaxNow r ≤ (s.region r).sup.ceiling ∧ s.fmaxNow r ≤ s.getN (Obj.region_fret_request r) ∧
      s.fmaxNow r ≤ s.getN (Obj.rail_fret_fit (railOf r)) ∧ s.fmaxNow r ≤ (s.region r).sup.limit) ∧
    ((s.cap.next = none ∨ s.runs = false) → exec .capoDelivery s = .next s)

/-- R223, R231, R232, R237, R252: MILLISECOND_BOUNDARY takes its stages in order: figures, matched operation, then in
RUN and SERVICE the disagreement check and the power floor, then the frame; the sums of a millisecond start again.
Delivered power is the mean of the millisecond's sums, delivered energy grows by its µJ with the remainder carried. -/
def Obligations.MillisecondInOrder : Prop :=
  ∀ s : State, s.blk.st.active = true →
    (∃ t, exec .millisecondBoundary s = .next t ∧ t.cap.nMs = 0 ∧ (∀ x ∈ t.rails, x.pMs = 0) ∧
      t.cap.estMs = 0 ∧ t.cap.nomMs = 0 ∧ (∀ x ∈ t.regions, x.sup.capoSeen = false ∧ x.sup.faultNow = false) ∧
      t.learn.stepPending = (s.learn.msRun && s.cfg.hasLearner) ∧
      State.Frame [.rails, .regions, .used, .cap, .telem, .learn, .dict, .recd, .regs] s t) ∧
    (∀ u, u = s.msFigures.msMatched →
      (u.runs = true → exec .millisecondBoundary s = .next u.msDisagree.msFloor.frameBoundary.msClear) ∧
      (u.runs = false → exec .millisecondBoundary s = .next u.frameBoundary.msClear)) ∧
    (rfWf s.regs = true →
      s.msFigures.getN Obj.power_delivered = meanMw (sumI (s.rails.map (·.pMs))) s.cap.nMs ∧
      s.msFigures.get Obj.energy_delivered = (s.get Obj.energy_delivered +
        (((sumI (s.rails.map (·.pMs)) / 640).toNat + s.cap.remDel) / 1000 : Nat)) % 2 ^ 64 ∧
      s.msFigures.cap.remDel = ((sumI (s.rails.map (·.pMs)) / 640).toNat + s.cap.remDel) % 1000) ∧
    (s.telem.done = none → exec .frameReady s = .next s) ∧
    (∀ f u, s.telem.done = some f →
      u = State.orBits { s with telem := { s.telem with done := none, latest := f, lastSeq := fieldAt f 0 4 } }
        Obj.cap_irq_status 4 →
      (s.cfg.hasDma = false → exec .frameReady s = .next u) ∧
      (s.cfg.hasDma = true → s.telem.offered = none → exec .frameReady s = .next (u.offer f)))

/-- R262 to R265, R268, R272: a hint at the port. It is stored as the last one; one with a parity error, too close to
the one before, of length 0 or naming no populated region is counted as invalid; a valid one outside RUN and SERVICE
is discarded and counted; in them entries whose end has come are retired first, one that is late is counted and
entered, and one whose preparation time is still to come is entered with its pre-strums armed. -/
def Obligations.HintsAreTaken : Prop :=
  ∀ (s : State) (w par : Nat), w < 2 ^ 128 → s.blk.st.active = true →
    let h := hintEntryOf w s.now s.hints.nextId
    let seen : State := { s with hints := { s.hints with last := w, lastAt := some s.now } }
    (hintParityOk w par = false →
      exec (.hint w par) s = .next ((seen.parityError.count Obj.hint_invalid 32).orBits Obj.hint_irq_status 4)) ∧
    (hintParityOk w par = true → ((s.named h.mask = [] ∨ bits w 110 95 = 0) ∨
        ∃ t, s.hints.lastAt = some t ∧ s.now < t + 4) →
      exec (.hint w par) s = .next ((seen.count Obj.hint_invalid 32).orBits Obj.hint_irq_status 4)) ∧
    (hintParityOk w par = true → s.named h.mask ≠ [] → bits w 110 95 ≠ 0 →
      (∀ t, s.hints.lastAt = some t → t + 4 ≤ s.now) →
      (s.runs = false → exec (.hint w par) s = .next (seen.count Obj.hint_discarded_state 32)) ∧
      (s.runs = true →
        let v := if h.late = true then seen.count Obj.hint_late 32 else seen
        let u := overAll v (v.hints.entries.filter fun e => decide (e.stop ≤ v.now)) State.retireHint
        u.hints.entries.length < 16383 →
          let e := ({ u with hints := { u.hints with
            entries := insertHint h u.hints.entries, nextId := u.hints.nextId + 1
            max := Nat.max u.hints.max (u.hints.entries.length + 1) } } : State).count Obj.hint_accepted 32
          (h.late = true → exec (.hint w par) s = .next e) ∧
          (h.late = false →
            let a := overAll e (e.named h.mask) fun x r => x.armPre r h.start (h.start - x.hintLead h) (some h.id)
            (e.prepDue h = false → exec (.hint w par) s = .next a) ∧
            (e.prepDue h = true → exec (.hint w par) s = .next (a.prepare h)))))

/-- R106, R269, R273, R276: the life of a held hint. At its preparation time the SHED strings of its regions rejoin and
it asks its rails; its request ends `hint_bump_hold` after its start, also after it has retired; past its stop it
retires; a parity error in its entry removes it with its armed pre-strums and counts toward the hour's parity
errors. A parity error in the static class table marks the table for its reload, which takes the values of the
image. R292: a hint that is not late, not mixed and not merged is observed once its window has passed, and once
only; the observation of a rail moves the learned droop an eighth of the way to the observation, a droop of at most
32 units below the bump, and its count advances up to 255; it changes nothing else. -/
def Obligations.HintsLiveRetireAndAreObserved : Prop :=
  (∀ (s : State) (id : Nat) (h : HintEntry),
      (s.hintOf id = some h →
        (s.prepDue h = true → exec (.preparationTime id) s =
          let u := overAll s (s.named h.mask) State.rejoinAll
          .next (({ u with regions := u.regions.map fun x => { x with pre := { x.pre with
            ready := (x.pre.starts.zip x.pre.ready).map fun p => if p.1.2 = some h.id then min p.2 u.now else p.2 } } } :
              State).modHint h.id fun e => { e with prepped := true })) ∧
        (h.late = false → h.start + 10 * s.getN Obj.hint_bump_hold ≤ s.now →
          exec (.bumpHoldEnd id) s = .next (({ s with hints := { s.hints with
            asking := s.hints.asking.filter fun e => e.id != id } } : State).modHint id fun e => { e with bumpOff := true })) ∧
        (s.now < h.stop → exec (.hintRetire id) s = .next s) ∧
        (h.stop ≤ s.now → s.hints.full = false → ∃ t, exec (.hintRetire id) s = .next t ∧
          t.hints.entries = s.hints.entries.filter (fun e => e.id != id) ∧ t.hints.past = s.hints.past ++ [h] ∧
          t.hints.asking = s.hints.asking ++ (if h.late = false ∧ h.prepped = true ∧ h.bumpOff = false ∧
            s.now < h.start + 10 * s.getN Obj.hint_bump_hold then [h] else []) ∧
          State.Frame [.hints] s t) ∧
        (s.hints.full = false → ∃ t, exec (.scoreboardEntryParity id) s = .next t ∧
          t.hints.entries = s.hints.entries.filter (fun e => e.id != h.id) ∧
          t.hints.past = s.hints.past ++ [{ h with stop := min h.stop s.now }] ∧
          (∀ x ∈ t.regions, ∀ p ∈ x.pre.starts, p.2 ≠ some h.id) ∧
          State.Frame [.blk, .hints, .regions, .recd, .regs] s t ∧
          t.blk = { s.blk with parityHour := s.blk.parityHour + 1 })) ∧
      (s.blk.st.scans = true → ∃ t, exec .staticTableParity s = .next t ∧ t.hints = { s.hints with reload := true } ∧
        t.blk = { s.blk with parityHour := s.blk.parityHour + 1 } ∧ State.Frame [.blk, .hints, .recd, .regs] s t) ∧
      (s.hints.reload = true → ∀ b, exec (.staticTableReloaded b) s = .next { s with
        hints := { s.hints with
          cur := (List.range 2432).map fun k => imgU16 b (0x780 + 2 * k)
          droop := (List.range 96).map fun k => min 32 (b.getD (0x1A80 + k) 0)
          lead := (List.range 32).map fun k => clampN 5 200 (b.getD (0x1AE0 + k) 0)
          reload := false } })) ∧
  (∀ (s : State) (id : Nat) (h : HintEntry), s.hintOf id = some h →
      ((h.late = true ∨ h.mixed = true ∨ h.merges ≠ 0 ∨ h.observed = true ∨ s.cfg.hasLearner = false ∨
          s.now < h.start + s.getN Obj.droop_window) → exec (.droopObservation id) s = .next s) ∧
      (h.late = false → h.mixed = false → h.merges = 0 → h.observed = false → s.cfg.hasLearner = true →
        h.start + s.getN Obj.droop_window ≤ s.now →
        (∃ t, exec (.droopObservation id) s = .next t ∧ State.Frame [.learn, .hints] s t ∧
          ∀ e ∈ t.hints.entries, e.id = id → e.observed = true)) ∧
      (∀ (q : Nat) (low o : Int) (d : Nat × Nat), o = clampI 0 32 (((s.rail q).bump / 65536 - low) / 8) →
        d = tabGet (0, 0) s.learn.droop (3 * h.cls + q) →
        tabGet (0, 0) (s.observeRail h.cls q low).learn.droop (3 * h.cls + q) =
          ((d.1 + roundEven (8 * o - d.1) 8).toNat, min 255 (d.2 + 1)) ∧
        State.Frame [.learn] s (s.observeRail h.cls q low)))

/-- R279, R280, R283, R284, R286, R287, R288, R289: activity frames and predictions. A frame in time with good parity is
taken for its region; the last one of an interval decides; one that is late, of an unpopulated region or with failed
parity is counted where there is a learner, and one with failed parity leaves its region none. For a period with a
tag and a frame, the cell's watchdog, mean features, observation count and confidence follow from the measured
current and the clamped prediction, and the region's tag is reported; without a frame the tag reads 0xFF and nothing
else changes. A forward refresh brings every prediction between its floor and its ceiling. -/
def Obligations.PredictionsFollowActivity : Prop :=
  (∀ (s : State) (r data par : Nat), r < 128 → s.blk.st.active = true →
    (Config.popRegion s.cfg r = false → s.cfg.hasLearner = true →
      exec (.activityFrame r data par) s = .next (s.count Obj.learn_act_missing 32)) ∧
    (Config.popRegion s.cfg r = true → s.engineOn = true → s.now ≤ s.eng.tickAt + 300 →
      ((∀ n, n < 16 → (ones 8 (byteOf data n) + b2n (bit par n)) % 2 = 0) → exec (.activityFrame r data par) s =
        .next (s.modSup r fun u => { u with frame := some ((List.range 16).map (byteOf data)), frameBad := false })) ∧
      ((∃ n, n < 16 ∧ (ones 8 (byteOf data n) + b2n (bit par n)) % 2 = 1) → s.cfg.hasLearner = true →
        exec (.activityFrame r data par) s =
          .next ((s.count Obj.learn_act_missing 32).modSup r fun u => { u with frame := none, frameBad := true })))) ∧
  (∀ s : State, s.cfg.hasLearner = true →
    exec .livePredictions s = .next (overAll s (Config.regions s.cfg) State.liveRegion) ∧
    (∀ r c, r < s.regions.length → (s.region r).sup.tagDue = some c →
      ((s.region r).sup.frame = none →
        s.liveRegion r = s.modSup r fun u => { u with tag := 0xFF, tagDue := none }) ∧
      (∀ x y, (s.region r).sup.frame = some x → y = s.cell r c → ∃ v, v = (s.liveRegion r).cell r c ∧
        v.xbar = List.zipWith meanStep y.xbar x ∧ v.n = min 65535 (y.n + 1) ∧
        v.a = watchdogStep y.a (((s.region r).sup.iReg : Int) - s.clampPred r c (y.raw x)).natAbs (s.getN Obj.conf_shift) ∧
        v.conf = (if v.a > s.getN Obj.conf_limit * 65536 then false
          else if 4 * v.a ≤ 3 * (s.getN Obj.conf_limit * 65536) ∧ s.getN Obj.conf_min_obs ≤ v.n then true else y.conf) ∧
        v.w = y.w ∧ v.b = y.b ∧ v.e = y.e ∧ v.master = y.master ∧
        ((s.liveRegion r).region r).sup.tag = c ∧ ((s.liveRegion r).region r).sup.tagDue = none))) ∧
  (∀ s : State, s.cfg.hasLearner = true → s.blk.st.active = true →
    ∃ t, exec .forwardRefresh s = .next t ∧ State.Frame [.learn] s t ∧
      t.learn.fwd = ((Config.regions s.cfg).flatMap fun r => (List.range 32).map fun c =>
        (cellKey r c, (s.clampPred r c (s.cell r c).forward).toNat)))

/-- R291, R297, R302, R303, R310, R312, R315, R316: learner steps and passes. A step start hands the accumulators of its
millisecond to the pass and clears the others, latches every group with its rate only where it was written since the
last one, and lets built slots serve. A pass whose end has come commits between 800 ns and 1 µs after a cycle 0,
where no export runs: every cell of the shadow copy becomes the committed one, no other cell changes, and the
counter advances up to 16,777,215. A discarded pass leaves counter and cells, ends with code 9; the cell with the
parity error takes its reset values. A slot that has been built is ready. -/
def Obligations.LearnerStepsAndPasses : Prop :=
  (∀ (s : State) (bad : List Nat), s.cfg.hasLearner = true → s.learn.stepPending = true → s.engineOn = true →
    s.eng.zeroAt + 900 ≤ s.now → s.learn.latch.length = 64 → ∃ t, exec (.learnerStep bad) s = .next t ∧
      t.learn.accOld = s.learn.acc ∧ t.learn.acc = [] ∧
      t.learn.stepPending = false ∧
      t.learn.slots = s.learn.slots.map (fun x => { x with serve := x.ready.getD x.serve, ready := none }) ∧
      ∀ g, g < 64 → t.latched g =
        { eta := if s.get (Obj.group_eta_written g) = 1 then s.get (Obj.group_eta g) else (s.latched g).eta
          decay := s.get (Obj.group_decay g), slot := s.getN (Obj.group_rule g)
          frozen := s.get (Obj.group_frozen g) == 1 }) ∧
  (∀ (s : State) (k : Nat), k < 8 → s.learn.shards.length = 8 → (s.shard k).running = true →
    ((s.shard k).doneAt ≤ s.now → (s.shard k).xfer ≠ 1 → s.eng.zeroAt + 800 ≤ s.now → s.now < s.eng.zeroAt + 1000 →
      ((s.shard k).shadow.map (·.1)).Nodup →
      ∃ t, exec (.passCommit k) s = .next t ∧ (t.shard k).running = false ∧ (t.shard k).outcome = 0 ∧
        (t.shard k).counter = min 16777215 ((s.shard k).counter + 1) ∧ (t.shard k).shadow = [] ∧
        (∀ p ∈ (s.shard k).shadow, t.cell (p.1 / 32) (p.1 % 32) = (s.cell (p.1 / 32) (p.1 % 32)).commit p.2) ∧
        (∀ r c, c < 32 → cellKey r c ∉ (s.shard k).shadow.map (·.1) → t.cell r c = s.cell r c)) ∧
    ((s.now < (s.shard k).doneAt ∨ (s.shard k).xfer = 1 ∨ s.now < s.eng.zeroAt + 800 ∨ s.eng.zeroAt + 1000 ≤ s.now) →
      exec (.passCommit k) s = .next s) ∧
    (s.cfg.hasLearner = true →
      (∃ t, exec (.passDiscard k none) s = .next t ∧ (t.shard k).running = false ∧ (t.shard k).outcome = 9 ∧
        (t.shard k).shadow = [] ∧ (t.shard k).counter = (s.shard k).counter ∧ t.learn.cells = s.learn.cells) ∧
      (∀ r c, Config.popRegion s.cfg r = true → c < 32 →
        ∃ t, exec (.passDiscard k (some (r, c))) s = .next t ∧ (t.shard k).running = false ∧
          (t.shard k).outcome = 9 ∧ t.learn.cells = tabPut s.learn.cells (cellKey r c) {}))) ∧
  (∀ (s : State), s.cfg.hasLearner = true →
    (∀ r c, Config.popRegion s.cfg r = true → c < 32 → ∃ t, exec (.cellParityError (.cell r c)) s = .next t ∧
      t.learn.cells = tabPut s.learn.cells (cellKey r c) {} ∧ t.cell r c = {} ∧
      t.blk.parityHour = s.blk.parityHour + 1) ∧
    (∀ c q, c < 32 → q < 3 → ∃ t, exec (.cellParityError (.droop c q)) s = .next t ∧
      t.learn = { s.learn with droop := tabPut s.learn.droop (3 * c + q) (0, 0) } ∧
      State.Frame [.blk, .learn, .recd, .regs] s t)) ∧
  (∀ (s : State) (k n : Nat) (x : SlotSet), k < 8 → (s.slot k).build = some (x, n) →
    exec (.slotBuildEnd k) s = .next (s.modSlot k fun y => { y with build := none, ready := some x }))

/-- R303, R305, R310, R316, R320: the settings of the learner. GROUP_ETA_WRITE sets a group's rate, clamped to 0 to
32767, and notes that it was written; GROUP_FROZEN_WRITE sets its freeze; SLOT_APPLY begins to build the staged set
of a native slot, which takes 40 µs; SHARD_HALT halts a shard and stops its pass with code 7; SHARD_RESUME lets it
go on, but not while its import runs. R318, R321: SHARD_EXPORT and SHARD_IMPORT begin a transfer of a shard from its
first cell; an import needs the shard halted. R319, R320, R321, R322: a write of `learn_cell` takes a whole cell
record for the cell that it names: with the learner present and the shard halted, a record with a good CRC of a
populated region of that shard and a class below 32, none of whose groups is frozen, replaces the cell, and no other
cell changes. A record with a bad CRC is refused with TYPE_LENGTH and leaves the learner as it was. -/
def Obligations.LearnerWritesAndTransfers : Prop :=
  (∀ (s : State) (p : Path) (b k : Nat), s.Serves p b k → s.cfg.hasLearner = true →
      (∀ g (v : Int), g < 64 → -32768 ≤ v → v < 32768 →
        exec (.groupEtaWrite p b g v) s =
          .next (((s.set (Obj.group_eta g) (clampI 0 32767 v)).set (Obj.group_eta_written g) 1).answered p b opWrite 0 2)) ∧
      (∀ g v, g < 64 → v < 256 →
        exec (.groupFrozenWrite p b g v) s =
          .next ((s.set (Obj.group_frozen g) (clampI 0 1 v)).answered p b opWrite 0 1)) ∧
      (∀ j, j < 8 →
        exec (.slotApply p b j) s =
          .next ((s.modSlot j fun x => { x with build := some (s.stagedSlot j, s.now + 40000) }).answered p b opWrite 0 1) ∧
        exec (.shardHalt p b j) s =
          .next (((s.set (Obj.shard_halt j) 1).stopPass j 7).answered p b opWrite 0 1) ∧
        ((s.shard j).xfer ≠ 2 →
          exec (.shardResume p b j) s = .next ((s.set (Obj.shard_halt j) 0).answered p b opWrite 0 1)) ∧
        ((s.shard j).xfer = 2 →
          exec (.shardResume p b j) s = .next (s.answered p b opWrite abortAccess 0)))) ∧
  (∀ (s : State) (p : Path) (b k j : Nat), s.Serves p b k → s.cfg.hasLearner = true → j < 8 →
      (exec (.shardExport p b j) s =
        .next (State.answered
          { s with
            learn := { s.learn with
              lastXfer := j
              shards := s.learn.shards.modify j fun x =>
                { x with
                  xfer := 1, pos := 0, buf := [], refusedAll := false, xferSteps := s.getN Obj.learn_global_steps } } }
          p b opWrite 0 1)) ∧
      (s.get (Obj.shard_halt j) = 1 → exec (.shardImport p b j) s =
        .next (State.answered
          { s with
            learn := { s.learn with
              lastXfer := j
              shards := s.learn.shards.modify j fun x =>
                { x with
                  xfer := 2, pos := 0, buf := [], refusedAll := false, xferSteps := s.getN Obj.learn_global_steps } } }
          p b opWrite 0 1)) ∧
      (s.get (Obj.shard_halt j) = 0 → exec (.shardImport p b j) s = .next (s.answered p b opWrite abortAccess 0))) ∧
  (∀ (s : State) (p : Path) (b k r c : Nat) (l : List Byte), s.Serves p b k → s.cfg.hasLearner = true →
      l.length = 192 → (∀ x ∈ l, x < 256) → Config.popRegion s.cfg s.cellSel.1 = true → 
      s.get (Obj.shard_halt (shardOf s.cellSel.1)) ≠ 0 →
      (fieldAt l 188 4 = crc32c (slice l 0 188) → r = fieldAt l 0 1 → c = fieldAt l 1 1 →
        Config.popRegion s.cfg r = true →
        shardOf r = shardOf s.cellSel.1 → c < 32 → s.get (Obj.group_frozen (s.groupW c)) ≠ 1 →
        s.get (Obj.group_frozen (s.groupB c)) ≠ 1 →
        ∃ t, exec (.learnCellWrite p b l) s = .next t ∧ t.dict.status = 0 ∧ t.cell r c = cellOfRecord l ∧
          t.learn.cells = tabPut s.learn.cells (cellKey r c) (cellOfRecord l) ∧
            State.Frame [.learn, .dict, .regs] s t) ∧
      (fieldAt l 188 4 ≠ crc32c (slice l 0 188) →
        ∃ t, exec (.learnCellWrite p b l) s = .next t ∧ t.dict.status = abortLength ∧ t.learn = s.learn ∧
          State.Frame [.dict, .regs] s t))

/-- R329, R330, R331, R332, R343: what a reading, a calibration slot and a confirmation read do. A reading is the result
with its fused trim. A valid diode becomes suspect with the first cause that holds, RANGE before any other; a
suspect one stays so; one in probation becomes valid with its last passing reading. A reading above shut-down starts
a confirmation unless it came with a parity error. A calibration slot that the front end leaves out measures
nothing; the second failed calibration in a row fails the front end and makes every diode it serves suspect. The
first confirmation read is held; after the second the front end turns to the diode that waits next. -/
def Obligations.DiodeReadingsAreJudged : Prop :=
  ∀ s : State, s.blk.st.scans = true → s.therm.diodes.length = 76 →
    (∀ r v p, Config.popRegion s.cfg r = true → ∀ w, w = v + (s.diode r).trim →
      ∃ t, exec (.scanReading r v p) s = .next t ∧ (t.diode r).reading = w ∧ (t.diode r).has = true ∧
        ((s.diode r).cause = 0 → (t.diode r).cause = s.diodeCause r w p) ∧
        ((s.diode r).cause = 0 → (w < -320 ∨ 1200 < w ∨ p = false) → (t.diode r).cause = 1) ∧
        ((s.diode r).cause ≠ 0 → (s.diode r).cause ≠ 7 → (t.diode r).cause = (s.diode r).cause) ∧
        ((s.diode r).cause = 7 → s.diodeCause r w p = 0 → (s.diode r).prob ≤ 1 → (t.diode r).cause = 0) ∧
        ((s.diode r).cause = 7 → s.diodeCause r w p = 0 → 1 < (s.diode r).prob →
          (t.diode r).cause = 7 ∧ (t.diode r).prob = (s.diode r).prob - 1) ∧
        ((p = false ∨ w ≤ s.therm.shutdown) → t.therm.fronts = s.therm.fronts) ∧
        (p = true → s.therm.shutdown < w →
          t.therm.fronts = s.therm.fronts.modify (frontOf r) fun f => f.confirm (frontOf r) s.now r) ∧
        State.Frame [.blk, .used, .therm, .dict, .recd, .regs] s t) ∧
    (∀ q v, q < 4 → s.now ≤ (s.front q).skip → exec (.calibrationSlot q v) s = .next s) ∧
    (∀ q v, q < 4 → s.therm.fronts.length = 4 → (s.front q).failed = false → (s.front q).skip < s.now →
      ((v - (s.front q).ref).natAbs ≤ 24 →
        exec (.calibrationSlot q v) s = .next (s.modFront q fun f => { f with calBad := 0 })) ∧
      (24 < (v - (s.front q).ref).natAbs → (s.front q).calBad = 0 →
        exec (.calibrationSlot q v) s = .next (s.modFront q fun f => { f with calBad := 1 })) ∧
      (24 < (v - (s.front q).ref).natAbs → (s.front q).calBad ≠ 0 →
        ∃ t, exec (.calibrationSlot q v) s = .next t ∧ (t.front q).failed = true ∧
          (∀ r, r < 76 → (t.diode r).cause =
            if Config.popRegion s.cfg r = true ∧ frontOf r = q then 4 else (s.diode r).cause))) ∧
    (∀ q v p d, q < 4 → (s.front q).conf = some (d, []) → exec (.confirmationRead q v p) s =
      .next (s.modFront q fun f =>
        { f with conf := some (d, [p && decide (v + (s.diode d).trim > s.therm.shutdown)]) })) ∧
    (∀ q v p d b, q < 4 → (s.front q).conf = some (d, [b]) →
      (b = false ∨ p = false ∨ v + (s.diode d).trim ≤ s.therm.shutdown) →
      exec (.confirmationRead q v p) s = .next (s.modFront q fun f => f.nextConf q s.now))

/-- R342, R345, R346, R348, R349: the trip. It is decided at the end of the second confirmation read, when both exceed
shut-down and another diode corroborates, unless the trip is disabled under test. It lets every CRS_EN fall and
leaves CRS_DAMP, asserts THERM_TRIP_N and IRQ_N[0], keeps the last three trip times, and enters COOLDOWN, or HALTED
when it falls within an hour of the second trip before it; the restart timer counts from then where its condition
already holds. In COOLDOWN a trip is recorded alone. After 1 s of its condition the restart releases THERM_TRIP_N
and enters DISCOVER. -/
def Obligations.TripAndRestart : Prop :=
  ∀ (s u : State) (q d : Nat) (v : Int), q < 4 → s.blk.st.scans = true → (s.front q).conf = some (d, [true]) →
    v + (s.diode d).trim > s.therm.shutdown → u = (s.modFront q fun f => f.nextConf q s.now) →
    (u.tripDisabled = true ∨ u.corroborated d = false → exec (.confirmationRead q v true) s = .next u) ∧
    (u.tripDisabled = false → u.corroborated d = true →
      (s.blk.st = .cooldown → exec (.confirmationRead q v true) s = .next (u.fire 9 2 (srcRegion d))) ∧
      (s.blk.st ≠ .cooldown → s.blk.st ≠ .halted → rfWf s.regs = true →
        ∃ t, exec (.confirmationRead q v true) s = .next t ∧
          t.blk.st = (match s.therm.trips[1]? with
            | some x => if s.now - x ≤ 3600000000000 then .halted else .cooldown
            | none => .cooldown) ∧
          t.blk.since = s.now ∧ t.blk.tripN = true ∧ t.blk.irqSafety = true ∧
          (∀ x ∈ t.courses, x.en = false ∧ x.sup = false) ∧
          t.courses.map (·.damp) = s.courses.map (·.damp) ∧
          t.therm.trips = (s.now :: s.therm.trips).take 3 ∧
          t.therm.coolAt = if t.blk.st = .cooldown ∧ t.cooled = true then some s.now else none)) ∧
    (s.blk.st = .cooldown → ∀ x, s.therm.coolAt = some x →
      (s.now < x + 1000000000 → exec .restartTimerExpiry s = .next s) ∧
      (x + 1000000000 ≤ s.now → ∃ t, exec .restartTimerExpiry s = .next t ∧ t.blk.st = .discover ∧
        t.blk.tripN = false ∧ t.blk.irqSafety = false ∧ t.therm.coolAt = none ∧ t.blk.since = s.now ∧
        t.courses = s.courses.map fun c =>
          { c with done := c.absent, outcome := if c.absent then 2 else 0, fail := none }))

/-- R222, R339, R340, R341: throttle and recovery. With a hot region a decision makes a throttle step: n rises unless
the steps already reach 100%, the capo limit of every hot region becomes one less than the smaller of itself and the
fret, every other limit holds, and margin recovery starts again; without one only the thermal group is taken. A
recovery step lowers n and raises every limit below 15, once 2 ms have been cool. Outside RUN and SERVICE neither
happens. -/
def Obligations.ThrottleAndRecovery : Prop :=
  ∀ s : State, s.regions.length = 76 →
    (s.runs = false → exec .thermalDecision s = .next s ∧ exec .recoveryStep s = .next s) ∧
    (s.runs = true →
      let thr : Int := if s.sameCycle 2 then s.used.g2t.thr else s.get Obj.throttle_level
      ((∀ r, Config.popRegion s.cfg r = true → (s.diode r).hasTemp = true → (s.diode r).temp < thr) →
        exec .thermalDecision s = .next s.takeThrottle) ∧
      (∀ r, Config.popRegion s.cfg r = true → (s.diode r).hasTemp = true → thr ≤ (s.diode r).temp →
        ∃ t, exec .thermalDecision s = .next t ∧
          t.therm.n = (if 1000 ≤ s.therm.n * s.used.g3.step then s.therm.n else s.therm.n + 1) ∧
          (∀ x, Config.popRegion s.cfg x = true → (t.region x).sup.limit =
            if (s.diode x).hasTemp = true ∧ thr ≤ (s.diode x).temp then
              min (s.region x).sup.limit (s.region x).fret.fret - 1
            else (s.region x).sup.limit) ∧
          (∀ x ∈ t.rails, x.recov = 0) ∧ State.Frame [.used, .therm, .regions, .rails, .recd, .regs] s t) ∧
      (s.therm.notCool + 2000000 ≤ s.now → exec .recoveryStep s = .next { s with
        therm := { s.therm with n := s.therm.n - 1 }
        regions := s.regions.map fun x => { x with sup := { x.sup with limit := min 15 (x.sup.limit + 1) } } }) ∧
      (s.now < s.therm.notCool + 2000000 → exec .recoveryStep s = .next s))

/-- R137, R362, R363, R365, R369, R371, R372, R373, R374: what holds a conversion and what starts, ends or refuses one.
An entry is held in the first ordinary pulse that rises its sampling time after its arming, `fire_sample_pos` of the
way through it and `fire_sample_adj` later, an urgent conversion at the edge it asks for, or by the end of its wait,
which flags it TIMED. A conversion without a result 128 island cycles after its hold fails its converter. The slope
test ends after 8 pairs. An urgent request stops the conversion in progress, waits behind an earlier one, or is
refused when 8 wait or in low power. Full speed begins 4 µs after its order. A trigger, `sync_delay` after an engine
cycle 0 or an edge of `sync_string`, starts the sweep of an armed capture on every populated converter; one during a
sweep is counted alone, and away from such an instant there is none. -/
def Obligations.ConversionsAreScheduled : Prop :=
  (∀ (s : State) (n : Nat), Config.popConv s.cfg n = true →
    (∀ i p, s.strobeString n = some i → (s.conv n).held = none →
      ((s.conv n).urgent = none → (s.str i).last = some p → p.kind = .ordinary →
        (s.conv n).armedAt * 32 + (s.conv n).ts * 125 ≤ p.riseQ * 8 →
        let q := (p.riseQ + roundUp ((p.fallQ - p.riseQ) * s.getN Obj.fire_sample_pos : Nat) 256 +
          s.get Obj.fire_sample_adj).toNat
        (q < 4 * (s.now + 1) → exec (.fireStrobe n) s = .next (s.modConv n fun c => { c with held := some q })) ∧
        (4 * (s.now + 1) ≤ q → exec (.fireStrobe n) s = .next s)) ∧
      ((s.conv n).urgent = none → (s.str i).last = some p →
        (p.kind ≠ .ordinary ∨ p.riseQ * 8 < (s.conv n).armedAt * 32 + (s.conv n).ts * 125) →
        exec (.fireStrobe n) s = .next s) ∧
      (∀ u, (s.conv n).urgent = some u → (s.str i).last = some p →
        (u.mode = 1 → (s.conv n).armedAt * 32 + (s.conv n).ts * 125 ≤ p.riseQ * 8 → p.riseQ < 4 * (s.now + 1) →
          exec (.fireStrobe n) s = .next (s.modConv n fun c => { c with held := some p.riseQ })) ∧
        (u.mode = 2 → ∀ q, (s.str i).offEnd = some q → (s.conv n).armedAt * 32 + (s.conv n).ts * 125 ≤ q * 8 →
          q < 4 * (s.now + 1) → exec (.fireStrobe n) s = .next (s.modConv n fun c => { c with held := some q }))) ∧
      (s.getN Obj.fire_wait * 1000 ≤ (s.now - (s.conv n).armedAt) * 256 → exec (.fireWaitTimeout n) s =
        .next (s.modConv n fun c => { c with held := some (4 * s.now), timed := true })) ∧
      ((s.now - (s.conv n).armedAt) * 256 < s.getN Obj.fire_wait * 1000 → exec (.fireWaitTimeout n) s = .next s)) ∧
    (∀ t, (s.conv n).held = some t → s.convRuns = true →
      (t * 8 + 128 * 125 ≤ s.now * 32 → (s.conv n).failed = false → exec (.conversionTimeout n) s =
        .next ((s.modConv n fun c => { c with failed := true }).fire 36 0 (srcConv n))) ∧
      (s.now * 32 < t * 8 + 128 * 125 → exec (.conversionTimeout n) s = .next s)) ∧
    (∀ u l, (s.conv n).coming = u :: l →
      let a := s.modConv n fun c => { c with coming := l }
      (s.convFull = false → exec (.urgentRequest n) s = .next (a.count Obj.urgent_refused 32)) ∧
      (s.convFull = true → (s.conv n).urgent = none → exec (.urgentRequest n) s = .next (a.modConv n fun c =>
        { c with urgent := some u, armedAt := s.now, held := none, timed := false, unarmed := false })) ∧
      (s.convFull = true → (s.conv n).urgent ≠ none → (s.conv n).queue.length < 8 → exec (.urgentRequest n) s =
        .next (a.modConv n fun c => { c with queue := c.queue ++ [u] })) ∧
      (s.convFull = true → (s.conv n).urgent ≠ none → 8 ≤ (s.conv n).queue.length → u.owner = none →
        exec (.urgentRequest n) s = .next (a.count Obj.urgent_refused 32)))) ∧
  (∀ (s : State) (i : Nat) (t : SenseTest), Config.popString s.cfg i = true → (s.str i).test = some t →
    t.slope = none → 16 ≤ t.pairs → exec (.slopeTestEnd i) s = .next (s.modStr i fun x => { x with test := some { t with
      slope := some (decide (8 * s.getN Obj.slope_min * t.dI ≤ t.rise * 100 * t.dL)) } })) ∧
  (∀ (s : State) (t : Nat), s.blk.fullAt = some t → s.blk.st.full = true →
    (s.now < t → exec .fullSpeedStart s = .next s) ∧
    (t ≤ s.now → ∃ u, exec .fullSpeedStart s = .next u ∧ u.convFull = true ∧ u.blk.fullAt = none ∧
      u.convs = s.convs.map (fun c => { c with toA := true }) ∧ State.Frame [.blk, .convs] s u)) ∧
  (∀ s : State, s.convFull = true → s.cg.arm ≠ 0 →
    (s.triggerDue = false → exec .syncTrigger s = .next s) ∧
    (s.triggerDue = true ↔ if s.getN Obj.sync_source = 0 then
        s.engineOn = true ∧ ((s.now + 66000 - s.getN Obj.sync_delay) % 1000 ≤ 4 ∨
          996 ≤ (s.now + 66000 - s.getN Obj.sync_delay) % 1000)
      else ∃ q ∈ s.cg.trigs, q ≤ 4 * s.now + 16 ∧ 4 * s.now ≤ q + 16) ∧
    (s.triggerDue = true → s.cg.running = true → exec .syncTrigger s = .next (s.count Obj.sync_missed 32).useTriggers) ∧
    (s.triggerDue = true → s.cg.running = false → s.convs.length = 70 → ∃ t, exec .syncTrigger s = .next t ∧
      t.cg.running = true ∧
      t.cg.trigAt = s.now ∧ t.cg.words = List.replicate 1120 0 ∧ (∀ n, Config.popConv s.cfg n = true →
        (t.conv n).sync = true ∧ (t.conv n).late = (s.conv n).urgent.isSome) ∧ State.Frame [.cg, .convs] s t))

/-- R355, R360, R364, R369, R374, R376, R377, R378: what results do. An input voltage gives the code that the fused
trims correct. A result of a FIRE-mode entry is written to its place in `conv_result_a` and becomes the string's
latest corrected current, added to the sum of its period; one of a host's urgent request goes to
`conv_urgent_result` with bit 12; a failed converter delivers code 0 with bit 15; an entry that waits for its strobe
has no result. VIN conversions of the board-analog converter add up over the control period, its reference fails it
at the second deviation in a row. A quarter's charge and energy are added with their remainders carried, at most at
full scale of either sign, which flags the frame. -/
def Obligations.ConversionResults : Prop :=
  (∀ (s : State) (n : Nat) (nv : Int), Config.popConv s.cfg n = true → s.convs.length = 70 → s.convFull = true →
    (∀ i, s.strobeString n = some i → (s.conv n).held = none →
      exec (.conversionResult n nv true true) s = .next s) ∧
    ((s.conv n).urgent = none → (s.conv n).sync = false → (s.conv n).inB = false → (s.conv n).held.isSome = true →
      (s.conv n).timed = false → (s.conv n).failed = false → ∀ i, i = 16 * n + entryInput (s.conv n).entry →
      entryInput (s.conv n).entry < 16 → i < s.strings.length → (s.course (courseOf i)).lost = false →
      ∃ t, exec (.conversionResult n nv true true) s = .next t ∧
        (t.conv n).resA = (s.conv n).resA.set (s.conv n).idx ((s.conv n).codeOf nv + 16384 * b2n (s.conv n).resampled) ∧
        (t.str i).conv = (s.str i).currentOf ((s.conv n).codeOf nv) (entryGain (s.conv n).entry) ∧
        (t.str i).sum = (s.str i).sum + (t.str i).conv ∧ (t.str i).cnt = (s.str i).cnt + 1 ∧
        State.Frame [.strings, .convs, .regs] s t) ∧
    (∀ u, (s.conv n).urgent = some u → u.owner = none → u.mode = 0 → (s.conv n).timed = false →
      ∃ t, exec (.conversionResult n nv true true) s = .next t ∧ (t.conv n).urgRes =
        (if (s.conv n).failed then 0 else (s.conv n).codeOf nv) + 4096 + 32768 * b2n (s.conv n).failed ∧
        State.Frame [.convs, .regs] s t)) ∧
  (∀ (s : State) (nv : Int), s.convFull = true → s.cg.baFailed = false →
    ∀ code : BaInput → Nat, (∀ i, code i = codeOf (baAtt i) 1 s.cg.baOff s.cg.baGain nv) →
    (s.engineOn = true → exec (.boardAnalogConversion .vin (some (nv, true))) s =
      .next { s with cg := { s.cg with
        baPar := 0, vinSum := s.cg.vinSum + vinOfCode (code .vin) 1, vinCnt := s.cg.vinCnt + 1
        vinLast := vinOfCode (code .vin) 1 } }) ∧
    (code .trim = 0 ∨ code .trim = 4095 → exec (.boardAnalogConversion .trim (some (nv, true))) s = .next { s with
        cg := { s.cg with baPar := 0, trimCode := code .trim }, eng := { s.eng with baBad := s.eng.baBad + 1 } }) ∧
    (s.cg.baBad = 1 → s.getN Obj.ref_tolerance < ((code .ref : Nat) - (s.cg.baRef : Int)).natAbs →
      exec (.boardAnalogConversion .ref (some (nv, true))) s = .next (State.fire { s with
        cg := { s.cg with baPar := 0, refCode := code .ref, baFailed := true } } 36 0 (srcConv 70)))) ∧
  (∀ (s : State) (vs : Int), s.cfg.hasIin = true → s.convRuns = true → rfWf s.regs = true →
    ∀ v q, v = clampI (-20000000) 20000000 vs → q = v * 10000 + s.cap.chargeRem →
    ∃ t, exec (.energyQuarter vs) s = .next t ∧
      t.cap.chargeRem = q % s.getN Obj.iin_shunt ∧ t.cap.inPc = s.cap.inPc + q / s.getN Obj.iin_shunt ∧
      t.cap.inFj = s.cap.inFj + q / s.getN Obj.iin_shunt * s.cg.vinLast ∧
      t.cap.overRange = (s.cap.overRange || v != vs) ∧ State.Frame [.cap, .regs] s t)

/-- R155, R258, R295, R326, R352, R493: a write to a clear register in a session that is served takes each status bit
written 1 out of its status word, and answers with status 0. `service_clear` needs a keeper session. -/
def Obligations.IrqAndReasonClears : Prop :=
  ∀ (s : State) (p : Path) (b k m : Nat), s.Serves p b k → m < 256 →
    exec (.capIrqClear p b m) s = .next ((s.clrBits Obj.cap_irq_status (m % 32)).answered p b opWrite 0 1) ∧
    exec (.hintIrqClear p b m) s = .next ((s.clrBits Obj.hint_irq_status (m % 8)).answered p b opWrite 0 1) ∧
    exec (.thermalIrqClear p b m) s = .next ((s.clrBits Obj.thermal_irq_status (m % 8)).answered p b opWrite 0 1) ∧
    (s.cfg.hasLearner = true →
      exec (.learnIrqClear p b m) s = .next ((s.clrBits Obj.learn_irq_status (m % 8)).answered p b opWrite 0 1)) ∧
    (∀ ch, s.cfg.hasDma = true → ch < 8 →
      exec (.dmaIrqClear p b ch m) s =
        .next ((s.modDmaCh ch fun c => { c with irq := c.irq &&& (7 - m % 8) }).answered p b opWrite 0 1)) ∧
    (∀ w, (s.session k).keeper = true → w < 2 ^ 32 →
      exec (.serviceClear p b w) s = .next ((s.clrBits Obj.service_reasons (w % 1024)).answered p b opWrite 0 4))

/-- R53, R169, R334: CH_FLAGS_CLEAR takes the flags written 1 out of a channel's sticky flags; PICKUP_CLEAR sends the
declared pickups written 1 into probation, those forced apart; PICKUP_FORCE_WRITE forces the region's pickups out
(cause 5), and a pickup no longer forced enters probation; DIODE_CLEAR and DIODE_FORCE_WRITE do the same for diodes. -/
def Obligations.ChannelPickupAndDiodeWrites : Prop :=
  ∀ (s : State) (p : Path) (b k : Nat), s.Serves p b k →
    (∀ ch m, Config.popChan s.cfg ch = true → m < 256 →
      exec (.chFlagsClear p b ch m) s =
        .next ((s.modChan ch fun c => { c with flags := c.flags &&& (31 - m % 32) }).answered p b opWrite 0 1)) ∧
    (∀ r m, Config.popRegion s.cfg r = true → m < 65536 →
      exec (.pickupClear p b r m) s =
        .next ((s.pickChange r fun q x =>
          if bit (m % 512) q && !bit (s.getN (Obj.region_pickup_force r)) q && x.cause != 0 && x.cause != 7
          then x.probation else x).answered p b opWrite 0 2) ∧
      ∀ f, f = m % (if r < 64 then 512 else 16) → exec (.pickupForceWrite p b r m) s =
        .next (((s.set (Obj.region_pickup_force r) (f : Nat)).pickChange r fun q x =>
          if bit f q then { x with cause := 5 }
          else if bit (s.getN (Obj.region_pickup_force r)) q then x.probation else x).answered p b opWrite 0 2)) ∧
    (∀ m, m < 2 ^ 80 →
      exec (.diodeClear p b m) s =
        .next ((overAll s ((Config.regions s.cfg).filter fun r => bit (m % 2 ^ 76) r) fun s r =>
          if (s.diode r).cause != 0 && (s.diode r).cause != 7 && !bit (s.getN Obj.diode_force) r
            && !(s.front (frontOf r)).failed then s.probateDiode r else s).answered p b opWrite 0 10) ∧
      exec (.diodeForceWrite p b m) s =
        .next ((overAll (s.set Obj.diode_force (m % 2 ^ 76 : Nat)) (Config.regions s.cfg) fun t r =>
          if bit (m % 2 ^ 76) r && !bit (s.getN Obj.diode_force) r then
            if (t.diode r).cause = 0 ∨ (t.diode r).cause = 7 then t.declareDiode r 5 else t
          else if !bit (m % 2 ^ 76) r && bit (s.getN Obj.diode_force) r && !(t.front (frontOf r)).failed then
            t.probateDiode r
          else t).restartTimer.answered p b opWrite 0 10))

/-- R434: 11 slots, 0 to 7 for I3C, 8 and 9 for the register window, 10 for the ring. An identifier is one byte: its low
four bits are the slot, its high four bits the slot's generation, which advances by 1 modulo 16 at each open. -/
def Obligations.SessionIdentifiersNameSlotAndGeneration : Prop :=
  State.reset.dict.sessions.length = 11 ∧ pathSlots .i3c = [0, 1, 2, 3, 4, 5, 6, 7] ∧ pathSlots .mbx0 = [8, 9] ∧
  pathSlots .mbx1 = [8, 9] ∧ pathSlots .ring = [10] ∧
  (∀ (s : State) (k : Nat), k < s.dict.sessions.length →
    ((s.openSlot k).session k).gen = ((s.session k).gen + 1) % 16 ∧ ((s.openSlot k).session k).isOpen = true) ∧
  (∀ (s : State) (p : Path) (b k : Nat), p ≠ .ring → s.slotOf p b = some k →
    b % 16 = k ∧ b / 16 = (s.session k).gen) ∧
  (∀ (s : State) (p : Path) (k : Nat), s.blk.st.serves = true → p ≠ .ring → s.pathBusy p = false →
    k < s.dict.sessions.length → ((pathSlots p).find? fun j => !(s.session j).isOpen) = some k →
    ∃ t b, exec (.open_ p noSession) s = .next t ∧ b < 256 ∧ b % 16 = k ∧ b / 16 = ((s.session k).gen + 1) % 16 ∧
      t.slotOf p b = some k)

/-- R434, R435, R461: OPEN with session byte 0xFF opens the lowest free slot of its path under the next generation, and
its response names the new session; with no free slot it ends with BUSY, counted. CLOSE frees the slot of the
session that it names; SESSION_EXPIRY frees a slot below 10 that has been idle for the limit, counted;
SESSION_EVICT, in a keeper session, frees the slot it names. R452, R453: a read of `keeper_challenge` gives eight
fresh bytes of the noise source, which stay in force in their session; a response that is right for them makes the
session a keeper session and ends the run of failures; any other spends the challenge; KEEPER_DROP gives the right
back; a challenge lapses after its time, and a lockout ends at its. -/
def Obligations.SessionAndKeeperCommands : Prop :=
  (∀ (s : State),
      (∀ (p : Path) (k : Nat), s.blk.st.serves = true → p ≠ .ring → s.pathBusy p = false →
        ((pathSlots p).find? fun j => !(s.session j).isOpen) = some k →
        exec (.open_ p noSession) s =
          .next ((((s.modSession k fun x => { gen := (x.gen + 1) % 16, isOpen := true, last := s.now }).count
            Obj.request_count 32).deliver p
              { op := opOpen, sess := 16 * ((s.openSlot k).session k).gen + k, status := 0 }).noteLines)) ∧
      (∀ (p : Path) (b : Nat), s.blk.st.serves = true → p ≠ .ring → s.pathBusy p = false → b < 256 →
        ((pathSlots p).find? fun j => !(s.session j).isOpen) = none →
        exec (.open_ p b) s = .next ((s.count Obj.session_busy_count 32).answered p b opOpen abortBusy 0)) ∧
      (∀ (p : Path) (b k : Nat), s.Serves p b k → p ≠ .ring →
        exec (.close p b) s = .next ((s.modSession k fun x => { gen := x.gen }).answered p b opClose 0 0)) ∧
      (∀ k, k < 10 → (s.session k).isOpen = true → (s.session k).last + idleLimit ≤ s.now →
        exec (.sessionExpiry k) s =
          .next ((s.modSession k fun x => { gen := x.gen }).count Obj.session_expired_count 32)) ∧
      (∀ (p : Path) (b k j : Nat), s.Serves p b k → (s.session k).keeper = true → j ≤ 9 →
        exec (.sessionEvict p b j) s = .next ((s.modSession j fun x => { gen := x.gen }).answered p b opWrite 0 1))) ∧
  (∀ (s : State),
      (∀ (p : Path) (b k : Nat), s.Serves p b k → p ≠ .ring → b ≠ noSession → s.dict.lockUntil = none →
        exec (.keeperChallenge p b) s =
          .next ((({ s with dict := { s.dict with noiseK := s.dict.noiseK + 1 } } : State).modSession k fun x =>
            { x with
              chal := some (leBytes 8 (Config.noise s.dict.noiseK).toNat, s.now)
              snap := some (addrOf 0x9000 1, leBytes 8 (Config.noise s.dict.noiseK).toNat) }).answered p b opRead 0 8
                (leBytes 8 (Config.noise s.dict.noiseK).toNat))) ∧
      (∀ (p : Path) (b k t : Nat) (c l : List Byte), s.Serves p b k → l.length = 8 → (∀ x ∈ l, x < 256) →
        s.dict.lockUntil = none → (s.session k).chal = some (c, t) → s.now < t + challengeLife →
        l = keeperDigest c s.dict.key →
        exec (.keeperResponse p b l) s =
          .next (((({ s with
            dict := { s.dict with
              failures := 0
              sessions := s.dict.sessions.modify k fun x => { x with chal := none, keeper := true } } } : State).count
                Obj.keeper_grants 32).fire 39 0 (srcSession k)).answered p b opWrite 0 8)) ∧
      (∀ (p : Path) (b k : Nat) (l : List Byte), s.Serves p b k → l.length = 8 → (∀ x ∈ l, x < 256) →
        s.dict.lockUntil = none → s.challengeOf k = none →
        exec (.keeperResponse p b l) s =
          .next (((s.modSession k fun x => { x with chal := none }).keeperFails k).answered p b opWrite abortAccess 0)) ∧
      (∀ (p : Path) (b k : Nat), s.Serves p b k →
        exec (.keeperDrop p b) s = .next ((s.modSession k fun x => { x with keeper := false }).answered p b opWrite 0 1)) ∧
      (∀ k t (c : List Byte), k < 11 → (s.session k).chal = some (c, t) → t + challengeLife ≤ s.now →
        exec (.challengeLapse k) s = .next (s.modSession k fun x => { x with chal := none })) ∧
      (∀ t, s.dict.lockUntil = some t → t ≤ s.now →
        exec .keeperLockoutEnd s = .next { s with dict := { s.dict with lockUntil := none, failures := 0 } }))

/-- R431, R436, R437, R441, R449: what any READ and any WRITE of a number comes to, on an object that the checks admit.
A READ returns the object's bytes; a WRITE of a group's member is staged; any other WRITE brings the value into the
object's range and has the object's own effect; a value of the wrong length changes nothing and ends with LENGTH.
The register-write command does the same with the bytes that encode its value. R295, R516: a read of
`hint_entries_max` or `rec_queue_max` in a session returns the largest count since the last such read, and the count
starts again from the present one. -/
def Obligations.ReadsAndWritesOfNumbers : Prop :=
  (∀ (s : State) (p : Path) (b k idx sub : Nat) (o : Obj'), s.Serves p b k → idx < 65536 → sub < 256 →
      (p ≠ .ring → b ≠ noSession → s.lookup false false idx sub = .ok o → o.ty.isBlob = false →
        exec (.read p b idx sub 0) s =
          .next ((s.readEffect o).answered p b opRead 0 o.ty.length (s.objBytes (some k) o))) ∧
      (∀ l, s.lookup true (s.session k).keeper idx sub = .ok o → o.ty.isBlob = false → (∀ x ∈ l, x < 256) →
        (l.length = o.ty.length → o.grp ≠ 0 →
          exec (.write p b idx sub 1 0 l) s =
            .next ((s.stage o (o.ty.decode l)).answered p b opWrite 0 o.ty.length)) ∧
        (∀ w, l.length = o.ty.length → o.grp = 0 → o.rng.apply (o.ty.decode l) = some w →
          exec (.write p b idx sub 1 0 l) s =
            .next ((s.writeValue p k o w l).2.answered p b opWrite (s.writeValue p k o w l).1
              (if (s.writeValue p k o w l).1 = 0 then o.ty.length else 0))) ∧
        (l.length ≠ o.ty.length →
          exec (.write p b idx sub 1 0 l) s = .next (s.answered p b opWrite abortLength 0))) ∧
      (∀ v l, s.lookup true (s.session k).keeper idx sub = .ok o → o.ty.isBlob = false → l = o.ty.encode v →
        (o.grp ≠ 0 → exec (.registerWrite p b idx sub v) s =
          .next ((s.stage o (o.ty.decode l)).answered p b opWrite 0 o.ty.length)) ∧
        (∀ w, o.grp = 0 → o.rng.apply (o.ty.decode l) = some w → exec (.registerWrite p b idx sub v) s =
          .next ((s.writeValue p k o w l).2.answered p b opWrite (s.writeValue p k o w l).1
            (if (s.writeValue p k o w l).1 = 0 then o.ty.length else 0))))) ∧
  (∀ (s : State) (p : Path) (b k : Nat), s.Serves p b k → p ≠ .ring → b ≠ noSession →
      (exec (.hintEntriesMaxRead p b) s =
        .next (State.answered { s with hints := { s.hints with max := s.hints.entries.length } } p b opRead 0 2
          (leBytes 2 (min s.hints.max 16384)))) ∧
      (exec (.recQueueMaxRead p b) s =
        .next (State.answered { s with recd := { s.recd with queueMax := s.recd.queue.length } } p b opRead 0 2
          (leBytes 2 (min s.recd.queueMax 2048)))))

/-- R390, R449, R450: COMMIT commits the groups that its mask names, one after another, and COMMIT_DISCARD gives up
their staged sets; a group's consumer takes the committed set whole, one committed in its present cycle only at the
next instant. A group that is not pending is left as it is by a commit; a committed one is not pending any more and
its members are no longer staged. -/
def Obligations.CommitCommands : Prop :=
  ∀ (s : State),
    (∀ (p : Path) (b k m : Nat), s.Serves p b k → m < 256 →
      exec (.commit p b m) s = .next ((s.commitMask (m &&& 254)).answered p b opWrite 0 1) ∧
      exec (.commitDiscard p b m) s = .next ((s.discardMask (m &&& 254)).answered p b opWrite 0 1)) ∧
    (∀ g, 1 ≤ g → g ≤ 5 → s.sameCycle g = true → exec (.commitGroupTaken g) s = .next s) ∧
    (s.sameCycle 1 = false → exec (.commitGroupTaken 1) s =
      .next { s with used := { s.used with
        g1e := ⟨s.getN Obj.tsw_target, s.getN Obj.toff_min, s.getN Obj.ton_min, s.getN Obj.ton_max⟩ } }) ∧
    (s.sameCycle 3 = false → exec (.commitGroupTaken 3) s =
      .next { s with used := { s.used with g3 := ⟨s.getN Obj.cap_w, s.getN Obj.thermal_step⟩ } }) ∧
    (s.sameCycle 5 = false → exec (.commitGroupTaken 5) s =
      .next { s with used := { s.used with
        g5 := ⟨s.getN Obj.shed_level, s.getN Obj.shed_min, s.getN Obj.rejoin_level⟩ } }) ∧
    (∀ g, bit s.dict.pending g = false → s.commitGroup g = s) ∧
    (∀ g, 1 ≤ g → g < 8 → rfWf s.dict.staged = true → bit s.dict.pending g = true →
      bit (s.commitGroup g).dict.pending g = false ∧
      ∀ m ∈ groupMembersOf g, rfGet (s.commitGroup g).dict.staged m.addr = none)

/-- R479, R493: DMA_START begins at the first descriptor of a resting channel, channel 2 with the ring's session;
DMA_ABORT stops a channel that does not rest; DMA_KICK reads the descriptor again while the channel waits for OWN. A
START of a busy channel and an ABORT of a resting one end with ACCESS. The statement is about the channels that have
these commands, all but channel 1. -/
def Obligations.DmaCommands : Prop :=
  ∀ (s : State) (p : Path) (b k ch : Nat), s.Serves p b k → s.cfg.hasDma = true → ch < 8 → ch ≠ 1 →
    ((s.dmaCh ch).st.rests = true → ch ≠ 2 →
      exec (.dmaStart p b ch) s =
        .next (((s.modDmaCh ch fun c => { st := .fetching, status := c.status, irq := c.irq }).fetchDesc ch
          (s.getN (Obj.dma_desc_addr ch))).answered p b opWrite 0 1)) ∧
    ((s.dmaCh ch).st.rests = true → ch = 2 →
      exec (.dmaStart p b ch) s =
        .next ((((s.modDmaCh 2 fun c => { st := .fetching, status := c.status, irq := c.irq }).openSlot 10).fetchDesc 2
          (s.getN (Obj.dma_desc_addr 2))).answered p b opWrite 0 1)) ∧
    ((s.dmaCh ch).st.rests = false →
      exec (.dmaStart p b ch) s = .next (s.answered p b opWrite abortAccess 0)) ∧
    ((s.dmaCh ch).st.rests = true →
      exec (.dmaAbort p b ch) s = .next (s.answered p b opWrite abortAccess 0)) ∧
    ((s.dmaCh ch).st = .waitOwn →
      exec (.dmaAbort p b ch) s =
        .next (((s.modDmaCh ch fun c => { c with status := statusWord codeAborted c.residue }).dmaAborted ch).answered
          p b opWrite 0 1) ∧
      exec (.dmaKick p b ch) s = .next ((s.fetchDesc ch (s.dmaCh ch).cur).answered p b opWrite 0 1)) ∧
    ((s.dmaCh ch).st = .completing →
      exec (.dmaAbort p b ch) s =
        .next ((s.modDmaCh ch fun c => { c with abort := true }).answered p b opWrite 0 1)) ∧
    ((s.dmaCh ch).st = .fetching ∨ (s.dmaCh ch).st = .transferring ∨ (s.dmaCh ch).st = .waitReq →
      exec (.dmaAbort p b ch) s =
        .next ((s.modDmaCh ch fun c => { c with st := .aborting }).answered p b opWrite 0 1)) ∧
    ((s.dmaCh ch).st ≠ .waitOwn → exec (.dmaKick p b ch) s = .next (s.answered p b opWrite 0 1))

/-- R471, R473, R474, R476, R477, R478: a descriptor from its fetch to its end. A fetched descriptor without OWN makes
the channel wait; one that is not valid, names itself or comes past the chain limit has its status written with the
code; a valid one executes, waiting first where it needs an event that is not there. An OWN wait ends in a new
fetch, a wait for an event that lasts too long in TIMEOUT with the residue. A burst from an internal source moves at
most 64 bytes on and never past the source's end; a holding register that fails its parity ends the descriptor with
PARITY. A descriptor that may complete has its status written as DONE. -/
def Obligations.DescriptorsRun : Prop :=
  ∀ (s : State) (ch : Nat) (c : DmaCh), s.cfg.hasDma = true → ch < 8 → s.dma.ch.length = 8 → c = s.dmaCh ch →
    (c.fresh = true → c.st = .fetching →
      (c.own = false → ∃ t, exec (.descriptorFetch ch) s = .next t ∧ (t.dmaCh ch).st = .waitOwn ∧
        (t.dmaCh ch).waitAt = s.now ∧ (t.dmaCh ch).run = 0 ∧ State.Frame [.dma] s t) ∧
      (c.own = true → c.valid ch = false → ∃ t, exec (.descriptorFetch ch) s = .next t ∧
        (t.dmaCh ch).code = codeDescFault ∧ (t.dmaCh ch).status = statusWord codeDescFault c.len) ∧
      (c.own = true → c.valid ch = true → c.last = false → c.next = c.cur →
        ∃ t, exec (.descriptorFetch ch) s = .next t ∧ (t.dmaCh ch).code = codeLoopSelf) ∧
      (c.own = true → c.valid ch = true → c.last = true ∨ c.next ≠ c.cur →
        (c.mustWait = false → s.getN (Obj.dma_chain_limit ch) ≤ c.run →
          ∃ t, exec (.descriptorFetch ch) s = .next t ∧ (t.dmaCh ch).code = codeLoopLimit) ∧
        (c.mustWait = true ∨ c.run < s.getN (Obj.dma_chain_limit ch) →
          ∃ t, exec (.descriptorFetch ch) s = .next t ∧ (t.dmaCh ch).pos = 0 ∧ (t.dmaCh ch).conf = 0 ∧
            (t.dmaCh ch).st = (if c.mustWait then .waitReq else .transferring) ∧ State.Frame [.dma] s t))) ∧
    (c.st = .waitOwn → c.waitAt + s.getN (Obj.dma_own_poll ch) * 1000 ≤ s.now →
      exec (.ownPoll ch) s = .next (s.fetchDesc ch c.cur)) ∧
    (c.st = .waitOwn → s.now < c.waitAt + s.getN (Obj.dma_own_poll ch) * 1000 → exec (.ownPoll ch) s = .next s) ∧
    (c.st = .waitReq → c.events = 0 → c.code = 0 → 0 < s.getN (Obj.dma_pace_timeout ch) →
      c.waitAt + s.getN (Obj.dma_pace_timeout ch) * 1000000 ≤ s.now →
      ∃ t, exec (.paceTimeout ch) s = .next t ∧ (t.dmaCh ch).code = codeTimeout ∧ (t.dmaCh ch).st = .completing ∧
        (t.dmaCh ch).conf = c.conf ∧ State.Frame [.dma] s t) ∧
    (c.dir = 1 → 0 < c.burst → s.dmaReady ch = true → s.mayIssue ch = true →
      ∀ n, s.sourceLength ch (c.src + c.pos) = some n → c.src + c.pos < n →
        ∃ t, exec (.dmaBurst ch true) s = .next t ∧
          (t.dmaCh ch).pos = c.pos + min (min c.burst 64) (n - (c.src + c.pos)) ∧
          (t.dmaCh ch).burst = c.burst - min (min c.burst 64) (n - (c.src + c.pos))) ∧
    (s.dmaReady ch = false ∨ s.mayIssue ch = false → exec (.dmaBurst ch true) s = .next s) ∧
    (c.moves = true → c.hold ≠ [] → c.code = 0 →
      ∃ t, exec (.dmaBurst ch false) s = .next t ∧ (t.dmaCh ch).code = codeParity ∧ (t.dmaCh ch).st = .completing ∧
        t.blk.parityHour = s.blk.parityHour + 1) ∧
    (s.canComplete ch = false → exec (.descriptorComplete ch) s = .next s) ∧
    (s.canComplete ch = true → c.code = 0 → c.st ≠ .aborting →
      ∃ t, exec (.descriptorComplete ch) s = .next t ∧ (t.dmaCh ch).st = .completing ∧
        (t.dmaCh ch).code = codeDone ∧ (t.dmaCh ch).status = statusWord codeDone c.residue)

/-- R473, R478, R531, R535: responses on the memory port. A response or beat whose ID has no transaction of its kind
outstanding is a breach of code 5. A good response to a status write lets word 0 be written with OWN cleared; one to
that write completes the descriptor; an error response to a data write ends the descriptor with DST_FAULT. The beats
of a read add up; the last one, where the number is right, hands a descriptor to its channel or turns an error into
a halt with DESC_FAULT, a parity error into PARITY. A read that draws no response in time ends with SRC_FAULT. -/
def Obligations.MemoryResponses : Prop :=
  ∀ (s : State) (id : Nat), s.cfg.hasDma = true → id < 64 →
    (s.txnOf id = none → (∀ e, exec (.memoryWriteResponse id e) s = .next (s.breach 5)) ∧
      (∀ d p l e, exec (.memoryReadBeat id d p l e) s = .next (s.breach 5)) ∧
      exec (.memoryTimeout id) s = .next s) ∧
    (∀ x, s.txnOf id = some x →
      (x.kind.write = false → ∀ e, exec (.memoryWriteResponse id e) s = .next (s.breach 5)) ∧
      (x.kind.write = true → ∀ d p l e, exec (.memoryReadBeat id d p l e) s = .next (s.breach 5)) ∧
      (x.kind = .status → exec (.memoryWriteResponse id false) s =
        .next (((s.dropTxn x.id).writeOwn x.ch).issueWaiting)) ∧
      (x.kind = .own → exec (.memoryWriteResponse id false) s =
        .next (((s.dropTxn x.id).descDone x.ch).issueWaiting)) ∧
      (x.kind = .dataWr → exec (.memoryWriteResponse id true) s =
        .next (((s.modTxn x.id fun t => { t with answered := true, err := true }).dataFault x.ch
          codeDstFault).issueWaiting)) ∧
      (x.kind.write = false → ∀ d e, exec (.memoryReadBeat id d true false e) s = .next (s.modTxn id fun _ =>
        { x with data := x.data ++ slice d 0 16, beats := x.beats + 1, err := x.err || e })) ∧
      (x.kind = .desc → x.parity = false → x.err = false → x.beats + 1 = x.beatsDue →
        (∀ d, exec (.memoryReadBeat id d true true false) s = .next (((s.dropTxn x.id).modDmaCh x.ch fun c =>
          { c with words := wordsOf (slice (x.data ++ slice d 0 16) (x.addr % 16) x.len), fresh := true }).issueWaiting)) ∧
        (∀ d, exec (.memoryReadBeat id d true true true) s =
          .next (((s.dropTxn x.id).haltNow x.ch codeDescFault).issueWaiting)) ∧
        (∀ d, exec (.memoryReadBeat id d false true false) s =
          .next (((s.parityError.dropTxn x.id).haltNow x.ch codeParity).issueWaiting))) ∧
      (s.now < x.issuedAt + s.getN (Obj.dma_mem_timeout x.ch) * 1000 → exec (.memoryTimeout id) s = .next s) ∧
      (x.kind = .dataRd → x.issuedAt + s.getN (Obj.dma_mem_timeout x.ch) * 1000 ≤ s.now →
        exec (.memoryTimeout id) s = .next (((s.dropTxn x.id).dataFault x.ch codeSrcFault).issueWaiting)))

/-- R486, R489, R490, R492: ST_ENABLE starts the sweep of every populated string with an empty cache; ST_DISABLE writes
the changed copies out and turns the table off; ST_FLUSH begins a flush; ST_HOST_FIELDS_WRITE changes the host's
fields of the selected entry, at once in a cached or a refused one, else once it has been fetched. -/
def Obligations.StringTableCommands : Prop :=
  ∀ (s : State) (p : Path) (b k : Nat), s.Serves p b k → s.cfg.hasDma = true →
    (s.get Obj.st_enable = 0 →
      exec (.stEnable p b) s =
        .next (((((s.set Obj.st_enable 1).modTab fun t =>
          { t with st := 1, sweeping := true, sweep := Config.allStrings s.cfg, cache := [] }).modDmaCh 1 fun c =>
            { c with st := .idle }).stFetch ((Config.allStrings s.cfg).headD 0)).answered p b opWrite 0 1)) ∧
    (s.get Obj.st_enable = 1 →
      exec (.stEnable p b) s = .next (s.answered p b opWrite 0 1) ∧
      exec (.stDisable p b) s =
        .next ((let t := ((overAll s (s.dma.tab.cache.filter fun e => e.dirty.isSome) State.stWrite).set
            Obj.st_enable 0).modTab fun t =>
              { t with st := 0, sweeping := false, sweep := [], flush := [], queue := [], cache := [] }
          overAll t (t.dma.tab.reads.map (·.s) ++ t.dma.tab.hostWr.map (·.1)) State.stFetch).answered p b opWrite 0 1)) ∧
    exec (.stFlush p b) s = .next (s.stStartFlush.answered p b opWrite 0 1) ∧
    (∀ l, l.length = 21 → (∀ x ∈ l, x < 256) → Config.popString s.cfg (s.getN Obj.st_sel) = true →
      ((s.str (s.getN Obj.st_sel)).refused = true →
        exec (.stHostFieldsWrite p b l) s =
          .next ((s.hostEntry { s := s.getN Obj.st_sel, bytes := entryFresh (s.getN Obj.st_sel) } l).answered
            p b opWrite 0 21)) ∧
      (∀ e, (s.str (s.getN Obj.st_sel)).refused = false → s.dma.tab.find (s.getN Obj.st_sel) = some e →
        exec (.stHostFieldsWrite p b l) s =
          .next (((s.hostEntry e l).count Obj.st_cache_hits 32).answered p b opWrite 0 21)) ∧
      ((s.str (s.getN Obj.st_sel)).refused = false → s.dma.tab.find (s.getN Obj.st_sel) = none →
        exec (.stHostFieldsWrite p b l) s =
          .next ((((s.modTab fun t => { t with hostWr := t.hostWr ++ [(s.getN Obj.st_sel, l)] }).count
            Obj.st_cache_misses 32).stFetch (s.getN Obj.st_sel)).answered p b opWrite 0 21))) ∧
    (∀ l, l.length = 21 → (∀ x ∈ l, x < 256) → Config.popString s.cfg (s.getN Obj.st_sel) = false →
      exec (.stHostFieldsWrite p b l) s = .next (s.answered p b opWrite abortAbsent 0))

/-- R486, R487, R488, R491: entries of the string table. A fetched entry whose CRC, string or layout is wrong is
refused: its string keeps its correction and the cache keeps what it held. An accepted one is installed, where the
table is on and the string has none yet, and is held in the cache with its reserved fields at 0. A dirty entry is
written back `st_wb_delay` after its first change; an entry with a parity error leaves the cache and is fetched
again; a sweep that has taken its last entry turns the table on and sets bit 0. -/
def Obligations.StringTableEntries : Prop :=
  (∀ (s : State) (i : Nat) (b : List Byte), Config.popString s.cfg i = true → i < s.strings.length →
    (∀ x, s.entryRead i = some x → exec (.stEntryFetched i) s = .next ((s.entryFetched i x).answerReads i x)) ∧
    (s.entryRead i = none → exec (.stEntryFetched i) s = .next s) ∧
    (entryGood i b = false → (s.entryTaken i b).str i = { s.str i with refused := true } ∧
      (s.entryTaken i b).dma = s.dma) ∧
    (entryGood i b = true → s.dma.tab.st ≠ 0 → (s.str i).installed = false →
      (s.entryTaken i b).str i = (s.str i).install b ∧
      (s.entryTaken i b).dma.tab.find i = some { s := i, bytes := entryClean b }) ∧
    (∀ e, s.dma.tab.find i = some e →
      (∀ t, e.dirty = some t → s.stOn = true →
        (t + s.getN Obj.st_wb_delay * 1000000 ≤ s.now → exec (.stWritebackDue i) s = .next (s.stWrite e)) ∧
        (s.now < t + s.getN Obj.st_wb_delay * 1000000 → exec (.stWritebackDue i) s = .next s)) ∧
      ∃ u, u = (s.modTab fun t => { t with cache := t.cache.filter fun e => e.s != i }) ∧
        exec (.stCacheParity i) s =
          .next (((u.parityError.count Obj.st_parity_refetch 32).fire 38 1 (srcString i)).stFetch i))) ∧
  (∀ s : State, s.dma.tab.sweeping = true → s.dma.tab.sweep = [] → s.dma.tab.st = 1 → exec .stSweepEnd s =
    .next ((s.modTab fun t => { t with sweeping := false, st := 2 }).modDmaCh 1 fun c => { c with irq := c.irq ||| 1 })) ∧
  (∀ s : State, (s.dma.tab.sweeping = false ∨ s.dma.tab.sweep ≠ []) → exec .stSweepEnd s = .next s)

/-- R499, R500, R505, R508, R511: RECORD_FORMED forms the record of the trigger that is first in the queue. A trigger
routed to the fault log takes the log's next number and is stored last, is held back while the log is frozen, and is
counted as overflow where the log is full; one routed to the trace log takes its next number at its position.
Nothing is formed from an empty queue. -/
def Obligations.RecordsAreFormed : Prop :=
  ∀ s : State, s.blk.st.active = true →
    (s.recd.queue = [] → exec .recordFormed s = .next s) ∧
    (∀ t q, s.recd.queue = t :: q → t.part = none →
      (t.route = 1 → ∃ u x, exec .recordFormed s = .next u ∧ u.recd.queue = q ∧ u.recd.latest = some x ∧
        x.seq = s.recd.nextF ∧ x.source = t.src.word ∧ x.trigger = 256 * t.detail + t.ty % 64 ∧
        u.recd.nextF = (s.recd.nextF + 1) % 2 ^ 32 ∧ u.recd.trace = s.recd.trace ∧
        (s.recd.freeze = none → s.recd.fault.length < 1024 → u.recd.fault = s.recd.fault ++ [x]) ∧
        (s.recd.freeze = none → 1024 ≤ s.recd.fault.length →
          u.recd.fault = s.recd.fault ∧ u.recd.overflow = min (2 ^ 32 - 1) (s.recd.overflow + 1)) ∧
        (s.recd.freeze ≠ none → s.recd.hold.length < 32 →
          u.recd.fault = s.recd.fault ∧ u.recd.hold = s.recd.hold ++ [x])) ∧
      (t.route = 2 → ∃ u x, exec .recordFormed s = .next u ∧ u.recd.queue = q ∧ x.seq = s.recd.nextT ∧
        x.source = t.src.word ∧ u.recd.trace = tabPut s.recd.trace (s.recd.nextT % 4096) x ∧
        u.recd.nextT = (s.recd.nextT + 1) % 2 ^ 32 ∧ u.recd.fault = s.recd.fault ∧ u.recd.nextF = s.recd.nextF))

/-- R501, R502, R512, R518: a snapshot count takes the list of that many entries into use; FAULT_FREEZE holds the fault
log from now on and FAULT_UNFREEZE ends the hold, as its expiry does with an event; FAULT_CLEAR and TRACE_CLEAR
empty their log in a keeper session, and a record of the clear becomes the first one in it. -/
def Obligations.RecorderWrites : Prop :=
  ∀ (s : State) (p : Path) (b k : Nat), s.Serves p b k →
    (∀ t v, t < 64 → v < 256 →
      exec (.trigSnapCountWrite p b t v) s =
        .next (({ s.set (Obj.trig_snap_count t) (min 12 v : Nat) with
          recd := { s.recd with
            snaps := s.recd.snaps.set t ((List.range (min 12 v)).map fun j => s.getN (Obj.trig_snap t j)) } } :
              State).answered p b opWrite 0 1)) ∧
    exec (.faultFreeze p b) s =
      .next (State.answered { s with recd := { s.recd with freeze := some s.now } } p b opWrite 0 1) ∧
    exec (.faultUnfreeze p b) s = .next (s.endFreeze.answered p b opWrite 0 1) ∧
    (∀ t, s.recd.freeze = some t → t + freezeTime ≤ s.now →
      exec .freezeExpired s = .next (s.endFreeze.fire 41 0)) ∧
    ((s.session k).keeper = true → s.recd.freeze = none → (s.dmaCh 0).st = .idle →
      exec (.faultClear p b) s =
        .next (((({ s with recd := { s.recd with
            fault := [], hold := [], overflow := 0, holdOver := 0, first := s.recd.nextF } } : State).count
          (Obj.trig_count 0) 32).formRecord (clearedTrig 0 k s.recd.fault.length s.recd.overflow (pathWord p) 1)).answered
            p b opWrite 0 1)) ∧
    (s.cfg.hasTrace = true → (s.session k).keeper = true → (s.dmaCh 5).st = .idle →
      exec (.traceClear p b) s =
        .next (((({ s with recd := { s.recd with trace := [] } } : State).count
          (Obj.trig_count 0) 32).formRecord (clearedTrig 1 k s.recd.trace.length 0 (pathWord p) 2)).answered
            p b opWrite 0 1)) ∧
    ((s.session k).keeper = false →
      exec (.faultClear p b) s = .next (s.answered p b opWrite abortKeeper 0))

/-- R442, R443, R444: the I3C target while it is powered. A private read returns the ready response, which stays, or a
NACK. A write that is not a whole frame leaves a response of status TYPE_LENGTH, whose repeated bytes are open (log
5). ENTDAA sets the dynamic address, SETDASA too where the static address is the block's; RSTDAA takes it away and
closes slots 0 to 7. The byte order of GETPID and the format of GETSTATUS are the model's (log 83). In-band
interrupts are enabled by ENEC, where lines already asserted raise none, and disabled by DISEC; one that is due
carries its payload, and is due again where it loses arbitration. -/
def Obligations.TargetCommands : Prop :=
  ∀ s : State, s.blk.st ≠ .off →
    exec .i3cPrivateRead s = .next (s.modI3c fun c => { c with out := c.resp }) ∧
    (s.pathBusy .i3c = false → ∃ t x y, exec .i3cFrameDiscard s = .next t ∧ x < 256 ∧ y < 256 ∧
      t.dict.i3c.resp = some (Resp.bytes { op := x, sess := y, status := abortLength }) ∧
      t.dict.sessions = s.dict.sessions ∧ State.Frame [.dict, .freeK] s t) ∧
    (∀ a, a < 128 → exec (.entdaa a) s = .next (s.modI3c fun c => { c with dyn := a }) ∧
      exec (.setdasa s.cfg.staticAddr a) s = .next (s.modI3c fun c => { c with dyn := a }) ∧
      ∀ n, n ≠ s.cfg.staticAddr → exec (.setdasa n a) s = .next s) ∧
    (∃ t, exec .rstdaa s = .next t ∧ t.dict.i3c = { s.dict.i3c with dyn := 0 } ∧
      (∀ k, k < 8 → (t.session k).isOpen = false) ∧ (∀ k, 8 ≤ k → t.session k = s.session k) ∧
      State.Frame [.dict] s t) ∧
    exec .getpid s = .next (s.modI3c fun c => { c with out := some (leBytes 6
      (s.dict.i3c.maker % 2 ^ 15 * 2 ^ 33 + 0x0F3D * 2 ^ 16 + s.dict.i3c.inst % 16 * 2 ^ 12)).reverse }) ∧
    exec .getbcr s = .next (s.modI3c fun c => { c with out := some [0x06] }) ∧
    exec .getdcr s = .next (s.modI3c fun c => { c with out := some [0x00] }) ∧
    exec .getstatus s = .next (s.modI3c fun c => { c with out := some [0, ones 5 s.ibiPayload] }) ∧
    (∀ e, e % 2 = 1 →
      (s.dict.i3c.enint = false → exec (.enec e) s =
        .next (s.modI3c fun c => { c with enint := true, ibi := false, lines := s.irqLines })) ∧
      exec (.disec e) s = .next (s.modI3c fun c => { c with enint := false, ibi := false })) ∧
    (s.dict.i3c.enint = true → (s.dict.i3c.ibi = true ∨ s.irqLines &&& (15 - s.dict.i3c.lines % 16) ≠ 0) →
      exec (.inBandInterrupt true) s = .next (s.modI3c fun c =>
        { c with ibi := false, payload := s.ibiPayload, lines := s.irqLines }) ∧
      exec (.inBandInterrupt false) s = .next (s.modI3c fun c => { c with ibi := true })) ∧
    (∀ w, s.dict.i3c.enint = false → exec (.inBandInterrupt w) s = .next s)

/-- R401, R437, R445, R446, R528, R529: GO sets BUSY, clears DONE and hands the frame in the request buffer to the
engine, and is ignored while BUSY is set; before DISCOVER the response is there at once, with status BUSY. A read
through the register port returns MBX_STAT or a word of a buffer; a write to the request buffer is taken while BUSY
is clear. A write with a parity error or an offset outside the registers ends with HREG_ERR and has no other effect,
but a parity error is counted. -/
def Obligations.MailboxesAndRegisterPort : Prop :=
  ∀ (s : State) (m : Nat) (x : Mailbox), s.blk.st ≠ .off → m < 2 → s.dict.mbx[m]? = some x →
    (x.busy = true → exec (.mbxGo m) s = .next s) ∧
    (x.busy = false → exec (.mbxGo m) s =
      .next ((s.modMbx m fun x => { x with busy := true, done := false }).request (mbxPath m)
        { op := x.req.getD 0 0, sess := x.req.getD 1 0, idx := fieldAt x.req 2 2, sub := x.req.getD 4 0
          flags := x.req.getD 5 0, off := fieldAt x.req 6 2, data := slice x.req 9 (x.req.getD 8 0) })) ∧
    (x.busy = false → s.pathBusy (mbxPath m) = false → s.blk.st.serves = false →
      ∃ t y, exec (.mbxGo m) s = .next t ∧ State.Frame [.dict, .regs] s t ∧
        t.regs = (if x.req.getD 0 0 % 256 = opOpen then (s.count Obj.session_busy_count 32).regs else s.regs) ∧
          t.dict.mbx[m]? = some y ∧ y.busy = false ∧
        y.done = true ∧ y.req = x.req ∧ y.rspLen = 6 ∧
        y.rsp = patch x.rsp 0 [x.req.getD 0 0 % 256, x.req.getD 1 0 % 256, abortBusy, 0, 0, 0]) ∧
    (∀ a, a < 512 → a % 4 = 0 → ∀ w p,
      (a = 0 → ∃ v k, v < 2 ^ 32 ∧ exec (.registerPortAccess false (512 * m + a) w p) s =
        .next { s with clk := { s.clk with hregData := v, hregErr := false }, freeK := k }) ∧
      (a = 4 ∨ 0xC0 ≤ a ∧ a < 0x140 → wordParity w p = true →
        exec (.registerPortAccess true (512 * m + a) w p) s = .next { s with clk := { s.clk with hregErr := false } }) ∧
      (a = 4 → exec (.registerPortAccess false (512 * m + a) w p) s = .next { s with clk := { s.clk with
        hregData := 2 * b2n x.busy + b2n x.done + 256 * x.rspLen, hregErr := false } }) ∧
      (0x40 ≤ a → a < 0xC0 → exec (.registerPortAccess false (512 * m + a) w p) s = .next { s with clk :=
        { s.clk with hregData := fieldAt x.req (a - 0x40) 4, hregErr := false } }) ∧
      (0xC0 ≤ a → a < 0x140 → exec (.registerPortAccess false (512 * m + a) w p) s = .next { s with clk :=
        { s.clk with hregData := fieldAt x.rsp (a - 0xC0) 4, hregErr := false } }) ∧
      ((4 < a ∧ a < 0x40) ∨ 0x140 ≤ a →
        exec (.registerPortAccess false (512 * m + a) w p) s =
          .next { s with clk := { s.clk with hregData := 0, hregErr := true } } ∧
        (wordParity w p = true → exec (.registerPortAccess true (512 * m + a) w p) s =
          .next { s with clk := { s.clk with hregErr := true } })) ∧
      (wordParity w p = false → exec (.registerPortAccess true (512 * m + a) w p) s =
        .next { s.parityError with clk := { s.clk with hregErr := true } }) ∧
      (wordParity w p = true → w < 2 ^ 32 → 0x40 ≤ a → a < 0xC0 →
        ∀ u : State, u = { s with clk := { s.clk with hregErr := false } } →
          (x.busy = false → exec (.registerPortAccess true (512 * m + a) w p) s =
            .next (u.modMbx m fun x => { x with req := patch x.req (a - 0x40) (leBytes 4 w) })) ∧
          (x.busy = true → exec (.registerPortAccess true (512 * m + a) w p) s = .next u)) ∧
      (wordParity w p = true → w < 2 ^ 32 → a = 0 →
        ∀ u : State, u = { s with clk := { s.clk with hregErr := false } } →
          (w % 2 = 0 → exec (.registerPortAccess true (512 * m + a) w p) s = .next u) ∧
          (w % 2 = 1 → exec (.registerPortAccess true (512 * m + a) w p) s = exec (.mbxGo m) u)))

/-- R447, R448: RING_RECORD takes the record at the head of channel 2's holding register and writes bytes 58 and 59
back: 3 and 0 where its CRC fails, 1 and 0 for a no-operation record, 2 and the code where it aborts. A write record
is served as a request of slot 10. R526, R544: REFCLK_LOST counts a loss once and REFCLK_REGAINED ends it;
CLOCK_CHECK marks the islands found outside the range. R541 to R543: TRST_N and Test-Logic-Reset select IDCODE (log
84) and clear TESTCTRL; BYPASS, IDCODE, SAMPLE/PRELOAD and TESTCTRL select their registers; EXTEST is in effect in
RESET with TEST_MODE high and acts as BYPASS otherwise; bit 0 of TESTCTRL is held while TEST_MODE is high. -/
def Obligations.RingClocksAndTestPort : Prop :=
  (∀ (s : State) (b : List Byte) (u : State), s.cfg.hasDma = true →
    b = (s.dmaCh 2).hold.take 64 →
    u = (s.modDmaCh 2 fun c => { c with hold := c.hold.drop 64, pos := c.pos + 64, burst := c.burst - 64 }) →
    (s.ringReady = false → exec .ringRecord s = .next s) ∧
    (s.ringReady = true → ∃ v, exec .ringRecord s = .next ((v.memIssue
        { ch := 2, kind := .ringWr, addr := (s.dmaCh 2).src + (s.dmaCh 2).pos + 58, len := 2
          data := [v.dict.ring.1, v.dict.ring.2] }).waitPace 2) ∧
      (crc32c (b.take 58) ≠ fieldAt b 60 4 → v = { u with dict := { u.dict with ring := (3, 0) } }) ∧
      (crc32c (b.take 58) = fieldAt b 60 4 →
        (b.getD 2 0 = 0 → v = { u with dict := { u.dict with ring := (1, 0) } }) ∧
        (b.getD 2 0 ≠ 0 → b.getD 2 0 ≠ opWrite → v = { u with dict := { u.dict with ring := (2, abortAccess) } }) ∧
        (b.getD 2 0 = opWrite → b.getD 7 0 ≤ 48 → v = u.request .ring
          { op := opWrite, sess := noSession, idx := fieldAt b 4 2, sub := b.getD 6 0, flags := b.getD 3 0
            off := fieldAt b 8 2, data := slice b 10 (b.getD 7 0) })))) ∧
  (∀ s : State, s.blk.st ≠ .off →
    (s.clk.refLost = false → exec .refclkLost s =
      .next (({ s with clk := { s.clk with refLost := true } } : State).count Obj.refclk_lost_count 32)) ∧
    (s.clk.refLost = true → exec .refclkLost s = .next s) ∧
    (s.clk.refLost = true → exec .refclkRegained s = .next
      (({ s with clk := { s.clk with refLost := false } } : State).modBlk fun b => { b with refUntil := 0 })) ∧
    (s.clk.refLost = false → exec .refclkRegained s = .next s) ∧
    (∀ l m, ∃ t, exec (.clockCheck l m) s = .next t ∧ State.Frame [.clk] s t ∧ t.clk.hmem = min 1100 m ∧
      ∀ r, r ∈ t.clk.bad ↔ r ∈ Config.regions s.cfg ∧ (r ∈ s.clk.bad ∨ r ∈ l)) ∧
    exec .trstNLow s = .next { s with clk := { s.clk with tap := .idcode, ctrl := 0, shift := 0x30F3D157 } } ∧
    exec .testLogicReset s = .next { s with clk := { s.clk with tap := .idcode, ctrl := 0, shift := 0x30F3D157 } } ∧
    exec .bypass s = .next { s with clk := { s.clk with tap := .bypass, shift := 0 } } ∧
    exec .idcode s = .next { s with clk := { s.clk with tap := .idcode, shift := 0x30F3D157 } } ∧
    (∀ p b, b < 2 ^ 1742 → exec (.samplePreload p b) s =
      .next { s with clk := { s.clk with tap := .sample, shift := s.boundary p, bound := b } }) ∧
    (s.blk.st = .reset → exec (.extest true) s = .next { s with clk := { s.clk with
      testMode := true, tap := .extest, shift := s.clk.bound } }) ∧
    (s.blk.st ≠ .reset → exec (.extest true) s = .next { s with clk := { s.clk with
      testMode := true, tap := .bypass, shift := 0 } }) ∧
    exec (.extest false) s = .next { s with clk := { s.clk with
      testMode := false, ctrl := 0, tap := .bypass, shift := 0 } } ∧
    (∀ b, exec (.testctrl b true) s = .next { s with clk := { s.clk with
      testMode := true, tap := .testctrl, shift := s.clk.ctrl, ctrl := b % 2 } }) ∧
    (∀ b, ∃ t, exec (.testctrl b false) s = .next t ∧ State.Frame [.clk] s t ∧ t.clk.ctrl = 0 ∧ t.clk.tap = .testctrl) ∧
    (∃ t, exec .testModeFall s = .next t ∧ State.Frame [.clk] s t ∧ t.clk.ctrl = 0 ∧ t.clk.testMode = false ∧
      t.clk.tap ≠ .extest))

/-- R543: bit 0 of TESTCTRL is the trip-disable bit of R342, in effect only while TEST_MODE is high; bits 15 to 1 read
0. TRST_N, Test-Logic-Reset and TEST_MODE low clear the register. -/
def Obligations.TestctrlDisablesTheTrip : Prop :=
  ∀ (s : State) (b : Nat), s.blk.st ≠ .off →
    (∃ t, exec (.testctrl b true) s = .next t ∧ t.clk.ctrl = b % 2 ∧ t.tripDisabled = decide (b % 2 = 1)) ∧
    (∃ t, exec (.testctrl b false) s = .next t ∧ t.clk.ctrl = 0 ∧ t.tripDisabled = false) ∧
    (∀ m, ∃ t, exec (.testctrl b m) s = .next t ∧ t.clk.tap = .testctrl ∧
      (s.clk.ctrl < 2 → s.clk.testMode = true → m = true → t.clk.shift = s.clk.ctrl ∧ t.clk.shift < 2)) ∧
    (∀ c, c = .trstNLow ∨ c = .testLogicReset ∨ c = .testModeFall →
      ∃ t, exec c s = .next t ∧ t.clk.ctrl = 0 ∧ t.tripDisabled = false)
end

