-- ==== Sys2Proof/Laws/State.lean ====
section
/-! SUPPORT. What each update of the state leaves alone, one lemma for each field and for each accessor, and what the
updated unit then reads. -/

set_option linter.all false

namespace Sys2Proof.Machine

variable (s : State)

/-! ## Fields that an update leaves alone -/

@[simp] theorem State.set_cfg (g : Reg) (v : Int) : (s.set g v).cfg = s.cfg := rfl
@[simp] theorem State.set_now (g : Reg) (v : Int) : (s.set g v).now = s.now := rfl
@[simp] theorem State.set_blk (g : Reg) (v : Int) : (s.set g v).blk = s.blk := rfl
@[simp] theorem State.set_rails (g : Reg) (v : Int) : (s.set g v).rails = s.rails := rfl
@[simp] theorem State.set_regions (g : Reg) (v : Int) : (s.set g v).regions = s.regions := rfl
@[simp] theorem State.set_strings (g : Reg) (v : Int) : (s.set g v).strings = s.strings := rfl
@[simp] theorem State.set_courses (g : Reg) (v : Int) : (s.set g v).courses = s.courses := rfl
@[simp] theorem State.set_chans (g : Reg) (v : Int) : (s.set g v).chans = s.chans := rfl
@[simp] theorem State.set_eng (g : Reg) (v : Int) : (s.set g v).eng = s.eng := rfl
@[simp] theorem State.set_used (g : Reg) (v : Int) : (s.set g v).used = s.used := rfl
@[simp] theorem State.set_cap (g : Reg) (v : Int) : (s.set g v).cap = s.cap := rfl
@[simp] theorem State.set_telem (g : Reg) (v : Int) : (s.set g v).telem = s.telem := rfl
@[simp] theorem State.set_tune (g : Reg) (v : Int) : (s.set g v).tune = s.tune := rfl
@[simp] theorem State.set_hints (g : Reg) (v : Int) : (s.set g v).hints = s.hints := rfl
@[simp] theorem State.set_learn (g : Reg) (v : Int) : (s.set g v).learn = s.learn := rfl
@[simp] theorem State.set_therm (g : Reg) (v : Int) : (s.set g v).therm = s.therm := rfl
@[simp] theorem State.set_convs (g : Reg) (v : Int) : (s.set g v).convs = s.convs := rfl
@[simp] theorem State.set_cg (g : Reg) (v : Int) : (s.set g v).cg = s.cg := rfl
@[simp] theorem State.set_dict (g : Reg) (v : Int) : (s.set g v).dict = s.dict := rfl
@[simp] theorem State.set_dma (g : Reg) (v : Int) : (s.set g v).dma = s.dma := rfl
@[simp] theorem State.set_recd (g : Reg) (v : Int) : (s.set g v).recd = s.recd := rfl
@[simp] theorem State.set_clk (g : Reg) (v : Int) : (s.set g v).clk = s.clk := rfl
@[simp] theorem State.set_freeK (g : Reg) (v : Int) : (s.set g v).freeK = s.freeK := rfl
@[simp] theorem State.set_pending (g : Reg) (v : Int) : (s.set g v).pending = s.pending := rfl

@[simp] theorem State.modBlk_cfg (f : Block → Block) : (s.modBlk f).cfg = s.cfg := rfl
@[simp] theorem State.modBlk_now (f : Block → Block) : (s.modBlk f).now = s.now := rfl
@[simp] theorem State.modBlk_rails (f : Block → Block) : (s.modBlk f).rails = s.rails := rfl
@[simp] theorem State.modBlk_regions (f : Block → Block) : (s.modBlk f).regions = s.regions := rfl
@[simp] theorem State.modBlk_strings (f : Block → Block) : (s.modBlk f).strings = s.strings := rfl
@[simp] theorem State.modBlk_courses (f : Block → Block) : (s.modBlk f).courses = s.courses := rfl
@[simp] theorem State.modBlk_chans (f : Block → Block) : (s.modBlk f).chans = s.chans := rfl
@[simp] theorem State.modBlk_eng (f : Block → Block) : (s.modBlk f).eng = s.eng := rfl
@[simp] theorem State.modBlk_used (f : Block → Block) : (s.modBlk f).used = s.used := rfl
@[simp] theorem State.modBlk_cap (f : Block → Block) : (s.modBlk f).cap = s.cap := rfl
@[simp] theorem State.modBlk_telem (f : Block → Block) : (s.modBlk f).telem = s.telem := rfl
@[simp] theorem State.modBlk_tune (f : Block → Block) : (s.modBlk f).tune = s.tune := rfl
@[simp] theorem State.modBlk_hints (f : Block → Block) : (s.modBlk f).hints = s.hints := rfl
@[simp] theorem State.modBlk_learn (f : Block → Block) : (s.modBlk f).learn = s.learn := rfl
@[simp] theorem State.modBlk_therm (f : Block → Block) : (s.modBlk f).therm = s.therm := rfl
@[simp] theorem State.modBlk_convs (f : Block → Block) : (s.modBlk f).convs = s.convs := rfl
@[simp] theorem State.modBlk_cg (f : Block → Block) : (s.modBlk f).cg = s.cg := rfl
@[simp] theorem State.modBlk_dict (f : Block → Block) : (s.modBlk f).dict = s.dict := rfl
@[simp] theorem State.modBlk_dma (f : Block → Block) : (s.modBlk f).dma = s.dma := rfl
@[simp] theorem State.modBlk_recd (f : Block → Block) : (s.modBlk f).recd = s.recd := rfl
@[simp] theorem State.modBlk_clk (f : Block → Block) : (s.modBlk f).clk = s.clk := rfl
@[simp] theorem State.modBlk_regs (f : Block → Block) : (s.modBlk f).regs = s.regs := rfl
@[simp] theorem State.modBlk_freeK (f : Block → Block) : (s.modBlk f).freeK = s.freeK := rfl
@[simp] theorem State.modBlk_pending (f : Block → Block) : (s.modBlk f).pending = s.pending := rfl

@[simp] theorem State.modRegion_cfg (r : Nat) (f : Region → Region) : (s.modRegion r f).cfg = s.cfg := rfl
@[simp] theorem State.modRegion_now (r : Nat) (f : Region → Region) : (s.modRegion r f).now = s.now := rfl
@[simp] theorem State.modRegion_blk (r : Nat) (f : Region → Region) : (s.modRegion r f).blk = s.blk := rfl
@[simp] theorem State.modRegion_rails (r : Nat) (f : Region → Region) : (s.modRegion r f).rails = s.rails := rfl
@[simp] theorem State.modRegion_strings (r : Nat) (f : Region → Region) : (s.modRegion r f).strings = s.strings := rfl
@[simp] theorem State.modRegion_courses (r : Nat) (f : Region → Region) : (s.modRegion r f).courses = s.courses := rfl
@[simp] theorem State.modRegion_chans (r : Nat) (f : Region → Region) : (s.modRegion r f).chans = s.chans := rfl
@[simp] theorem State.modRegion_eng (r : Nat) (f : Region → Region) : (s.modRegion r f).eng = s.eng := rfl
@[simp] theorem State.modRegion_used (r : Nat) (f : Region → Region) : (s.modRegion r f).used = s.used := rfl
@[simp] theorem State.modRegion_cap (r : Nat) (f : Region → Region) : (s.modRegion r f).cap = s.cap := rfl
@[simp] theorem State.modRegion_telem (r : Nat) (f : Region → Region) : (s.modRegion r f).telem = s.telem := rfl
@[simp] theorem State.modRegion_tune (r : Nat) (f : Region → Region) : (s.modRegion r f).tune = s.tune := rfl
@[simp] theorem State.modRegion_hints (r : Nat) (f : Region → Region) : (s.modRegion r f).hints = s.hints := rfl
@[simp] theorem State.modRegion_learn (r : Nat) (f : Region → Region) : (s.modRegion r f).learn = s.learn := rfl
@[simp] theorem State.modRegion_therm (r : Nat) (f : Region → Region) : (s.modRegion r f).therm = s.therm := rfl
@[simp] theorem State.modRegion_convs (r : Nat) (f : Region → Region) : (s.modRegion r f).convs = s.convs := rfl
@[simp] theorem State.modRegion_cg (r : Nat) (f : Region → Region) : (s.modRegion r f).cg = s.cg := rfl
@[simp] theorem State.modRegion_dict (r : Nat) (f : Region → Region) : (s.modRegion r f).dict = s.dict := rfl
@[simp] theorem State.modRegion_dma (r : Nat) (f : Region → Region) : (s.modRegion r f).dma = s.dma := rfl
@[simp] theorem State.modRegion_recd (r : Nat) (f : Region → Region) : (s.modRegion r f).recd = s.recd := rfl
@[simp] theorem State.modRegion_clk (r : Nat) (f : Region → Region) : (s.modRegion r f).clk = s.clk := rfl
@[simp] theorem State.modRegion_regs (r : Nat) (f : Region → Region) : (s.modRegion r f).regs = s.regs := rfl
@[simp] theorem State.modRegion_freeK (r : Nat) (f : Region → Region) : (s.modRegion r f).freeK = s.freeK := rfl
@[simp] theorem State.modRegion_pending (r : Nat) (f : Region → Region) : (s.modRegion r f).pending = s.pending := rfl

@[simp] theorem State.modStr_cfg (i : Nat) (f : Str → Str) : (s.modStr i f).cfg = s.cfg := rfl
@[simp] theorem State.modStr_now (i : Nat) (f : Str → Str) : (s.modStr i f).now = s.now := rfl
@[simp] theorem State.modStr_blk (i : Nat) (f : Str → Str) : (s.modStr i f).blk = s.blk := rfl
@[simp] theorem State.modStr_rails (i : Nat) (f : Str → Str) : (s.modStr i f).rails = s.rails := rfl
@[simp] theorem State.modStr_regions (i : Nat) (f : Str → Str) : (s.modStr i f).regions = s.regions := rfl
@[simp] theorem State.modStr_courses (i : Nat) (f : Str → Str) : (s.modStr i f).courses = s.courses := rfl
@[simp] theorem State.modStr_chans (i : Nat) (f : Str → Str) : (s.modStr i f).chans = s.chans := rfl
@[simp] theorem State.modStr_eng (i : Nat) (f : Str → Str) : (s.modStr i f).eng = s.eng := rfl
@[simp] theorem State.modStr_used (i : Nat) (f : Str → Str) : (s.modStr i f).used = s.used := rfl
@[simp] theorem State.modStr_cap (i : Nat) (f : Str → Str) : (s.modStr i f).cap = s.cap := rfl
@[simp] theorem State.modStr_telem (i : Nat) (f : Str → Str) : (s.modStr i f).telem = s.telem := rfl
@[simp] theorem State.modStr_tune (i : Nat) (f : Str → Str) : (s.modStr i f).tune = s.tune := rfl
@[simp] theorem State.modStr_hints (i : Nat) (f : Str → Str) : (s.modStr i f).hints = s.hints := rfl
@[simp] theorem State.modStr_learn (i : Nat) (f : Str → Str) : (s.modStr i f).learn = s.learn := rfl
@[simp] theorem State.modStr_therm (i : Nat) (f : Str → Str) : (s.modStr i f).therm = s.therm := rfl
@[simp] theorem State.modStr_convs (i : Nat) (f : Str → Str) : (s.modStr i f).convs = s.convs := rfl
@[simp] theorem State.modStr_cg (i : Nat) (f : Str → Str) : (s.modStr i f).cg = s.cg := rfl
@[simp] theorem State.modStr_dict (i : Nat) (f : Str → Str) : (s.modStr i f).dict = s.dict := rfl
@[simp] theorem State.modStr_dma (i : Nat) (f : Str → Str) : (s.modStr i f).dma = s.dma := rfl
@[simp] theorem State.modStr_recd (i : Nat) (f : Str → Str) : (s.modStr i f).recd = s.recd := rfl
@[simp] theorem State.modStr_clk (i : Nat) (f : Str → Str) : (s.modStr i f).clk = s.clk := rfl
@[simp] theorem State.modStr_regs (i : Nat) (f : Str → Str) : (s.modStr i f).regs = s.regs := rfl
@[simp] theorem State.modStr_freeK (i : Nat) (f : Str → Str) : (s.modStr i f).freeK = s.freeK := rfl
@[simp] theorem State.modStr_pending (i : Nat) (f : Str → Str) : (s.modStr i f).pending = s.pending := rfl

@[simp] theorem State.modCourse_cfg (c : Nat) (f : Course → Course) : (s.modCourse c f).cfg = s.cfg := rfl
@[simp] theorem State.modCourse_now (c : Nat) (f : Course → Course) : (s.modCourse c f).now = s.now := rfl
@[simp] theorem State.modCourse_blk (c : Nat) (f : Course → Course) : (s.modCourse c f).blk = s.blk := rfl
@[simp] theorem State.modCourse_rails (c : Nat) (f : Course → Course) : (s.modCourse c f).rails = s.rails := rfl
@[simp] theorem State.modCourse_regions (c : Nat) (f : Course → Course) : (s.modCourse c f).regions = s.regions := rfl
@[simp] theorem State.modCourse_strings (c : Nat) (f : Course → Course) : (s.modCourse c f).strings = s.strings := rfl
@[simp] theorem State.modCourse_chans (c : Nat) (f : Course → Course) : (s.modCourse c f).chans = s.chans := rfl
@[simp] theorem State.modCourse_eng (c : Nat) (f : Course → Course) : (s.modCourse c f).eng = s.eng := rfl
@[simp] theorem State.modCourse_used (c : Nat) (f : Course → Course) : (s.modCourse c f).used = s.used := rfl
@[simp] theorem State.modCourse_cap (c : Nat) (f : Course → Course) : (s.modCourse c f).cap = s.cap := rfl
@[simp] theorem State.modCourse_telem (c : Nat) (f : Course → Course) : (s.modCourse c f).telem = s.telem := rfl
@[simp] theorem State.modCourse_tune (c : Nat) (f : Course → Course) : (s.modCourse c f).tune = s.tune := rfl
@[simp] theorem State.modCourse_hints (c : Nat) (f : Course → Course) : (s.modCourse c f).hints = s.hints := rfl
@[simp] theorem State.modCourse_learn (c : Nat) (f : Course → Course) : (s.modCourse c f).learn = s.learn := rfl
@[simp] theorem State.modCourse_therm (c : Nat) (f : Course → Course) : (s.modCourse c f).therm = s.therm := rfl
@[simp] theorem State.modCourse_convs (c : Nat) (f : Course → Course) : (s.modCourse c f).convs = s.convs := rfl
@[simp] theorem State.modCourse_cg (c : Nat) (f : Course → Course) : (s.modCourse c f).cg = s.cg := rfl
@[simp] theorem State.modCourse_dict (c : Nat) (f : Course → Course) : (s.modCourse c f).dict = s.dict := rfl
@[simp] theorem State.modCourse_dma (c : Nat) (f : Course → Course) : (s.modCourse c f).dma = s.dma := rfl
@[simp] theorem State.modCourse_recd (c : Nat) (f : Course → Course) : (s.modCourse c f).recd = s.recd := rfl
@[simp] theorem State.modCourse_clk (c : Nat) (f : Course → Course) : (s.modCourse c f).clk = s.clk := rfl
@[simp] theorem State.modCourse_regs (c : Nat) (f : Course → Course) : (s.modCourse c f).regs = s.regs := rfl
@[simp] theorem State.modCourse_freeK (c : Nat) (f : Course → Course) : (s.modCourse c f).freeK = s.freeK := rfl
@[simp] theorem State.modCourse_pending (c : Nat) (f : Course → Course) : (s.modCourse c f).pending = s.pending := rfl

@[simp] theorem State.modChan_cfg (c : Nat) (f : Chan → Chan) : (s.modChan c f).cfg = s.cfg := rfl
@[simp] theorem State.modChan_now (c : Nat) (f : Chan → Chan) : (s.modChan c f).now = s.now := rfl
@[simp] theorem State.modChan_blk (c : Nat) (f : Chan → Chan) : (s.modChan c f).blk = s.blk := rfl
@[simp] theorem State.modChan_rails (c : Nat) (f : Chan → Chan) : (s.modChan c f).rails = s.rails := rfl
@[simp] theorem State.modChan_regions (c : Nat) (f : Chan → Chan) : (s.modChan c f).regions = s.regions := rfl
@[simp] theorem State.modChan_strings (c : Nat) (f : Chan → Chan) : (s.modChan c f).strings = s.strings := rfl
@[simp] theorem State.modChan_courses (c : Nat) (f : Chan → Chan) : (s.modChan c f).courses = s.courses := rfl
@[simp] theorem State.modChan_eng (c : Nat) (f : Chan → Chan) : (s.modChan c f).eng = s.eng := rfl
@[simp] theorem State.modChan_used (c : Nat) (f : Chan → Chan) : (s.modChan c f).used = s.used := rfl
@[simp] theorem State.modChan_cap (c : Nat) (f : Chan → Chan) : (s.modChan c f).cap = s.cap := rfl
@[simp] theorem State.modChan_telem (c : Nat) (f : Chan → Chan) : (s.modChan c f).telem = s.telem := rfl
@[simp] theorem State.modChan_tune (c : Nat) (f : Chan → Chan) : (s.modChan c f).tune = s.tune := rfl
@[simp] theorem State.modChan_hints (c : Nat) (f : Chan → Chan) : (s.modChan c f).hints = s.hints := rfl
@[simp] theorem State.modChan_learn (c : Nat) (f : Chan → Chan) : (s.modChan c f).learn = s.learn := rfl
@[simp] theorem State.modChan_therm (c : Nat) (f : Chan → Chan) : (s.modChan c f).therm = s.therm := rfl
@[simp] theorem State.modChan_convs (c : Nat) (f : Chan → Chan) : (s.modChan c f).convs = s.convs := rfl
@[simp] theorem State.modChan_cg (c : Nat) (f : Chan → Chan) : (s.modChan c f).cg = s.cg := rfl
@[simp] theorem State.modChan_dict (c : Nat) (f : Chan → Chan) : (s.modChan c f).dict = s.dict := rfl
@[simp] theorem State.modChan_dma (c : Nat) (f : Chan → Chan) : (s.modChan c f).dma = s.dma := rfl
@[simp] theorem State.modChan_recd (c : Nat) (f : Chan → Chan) : (s.modChan c f).recd = s.recd := rfl
@[simp] theorem State.modChan_clk (c : Nat) (f : Chan → Chan) : (s.modChan c f).clk = s.clk := rfl
@[simp] theorem State.modChan_regs (c : Nat) (f : Chan → Chan) : (s.modChan c f).regs = s.regs := rfl
@[simp] theorem State.modChan_freeK (c : Nat) (f : Chan → Chan) : (s.modChan c f).freeK = s.freeK := rfl
@[simp] theorem State.modChan_pending (c : Nat) (f : Chan → Chan) : (s.modChan c f).pending = s.pending := rfl

@[simp] theorem State.modRail_cfg (q : Nat) (f : Rail → Rail) : (s.modRail q f).cfg = s.cfg := rfl
@[simp] theorem State.modRail_now (q : Nat) (f : Rail → Rail) : (s.modRail q f).now = s.now := rfl
@[simp] theorem State.modRail_blk (q : Nat) (f : Rail → Rail) : (s.modRail q f).blk = s.blk := rfl
@[simp] theorem State.modRail_regions (q : Nat) (f : Rail → Rail) : (s.modRail q f).regions = s.regions := rfl
@[simp] theorem State.modRail_strings (q : Nat) (f : Rail → Rail) : (s.modRail q f).strings = s.strings := rfl
@[simp] theorem State.modRail_courses (q : Nat) (f : Rail → Rail) : (s.modRail q f).courses = s.courses := rfl
@[simp] theorem State.modRail_chans (q : Nat) (f : Rail → Rail) : (s.modRail q f).chans = s.chans := rfl
@[simp] theorem State.modRail_eng (q : Nat) (f : Rail → Rail) : (s.modRail q f).eng = s.eng := rfl
@[simp] theorem State.modRail_used (q : Nat) (f : Rail → Rail) : (s.modRail q f).used = s.used := rfl
@[simp] theorem State.modRail_cap (q : Nat) (f : Rail → Rail) : (s.modRail q f).cap = s.cap := rfl
@[simp] theorem State.modRail_telem (q : Nat) (f : Rail → Rail) : (s.modRail q f).telem = s.telem := rfl
@[simp] theorem State.modRail_tune (q : Nat) (f : Rail → Rail) : (s.modRail q f).tune = s.tune := rfl
@[simp] theorem State.modRail_hints (q : Nat) (f : Rail → Rail) : (s.modRail q f).hints = s.hints := rfl
@[simp] theorem State.modRail_learn (q : Nat) (f : Rail → Rail) : (s.modRail q f).learn = s.learn := rfl
@[simp] theorem State.modRail_therm (q : Nat) (f : Rail → Rail) : (s.modRail q f).therm = s.therm := rfl
@[simp] theorem State.modRail_convs (q : Nat) (f : Rail → Rail) : (s.modRail q f).convs = s.convs := rfl
@[simp] theorem State.modRail_cg (q : Nat) (f : Rail → Rail) : (s.modRail q f).cg = s.cg := rfl
@[simp] theorem State.modRail_dict (q : Nat) (f : Rail → Rail) : (s.modRail q f).dict = s.dict := rfl
@[simp] theorem State.modRail_dma (q : Nat) (f : Rail → Rail) : (s.modRail q f).dma = s.dma := rfl
@[simp] theorem State.modRail_recd (q : Nat) (f : Rail → Rail) : (s.modRail q f).recd = s.recd := rfl
@[simp] theorem State.modRail_clk (q : Nat) (f : Rail → Rail) : (s.modRail q f).clk = s.clk := rfl
@[simp] theorem State.modRail_regs (q : Nat) (f : Rail → Rail) : (s.modRail q f).regs = s.regs := rfl
@[simp] theorem State.modRail_freeK (q : Nat) (f : Rail → Rail) : (s.modRail q f).freeK = s.freeK := rfl
@[simp] theorem State.modRail_pending (q : Nat) (f : Rail → Rail) : (s.modRail q f).pending = s.pending := rfl

@[simp] theorem State.modConv_cfg (n : Nat) (f : Conv → Conv) : (s.modConv n f).cfg = s.cfg := rfl
@[simp] theorem State.modConv_now (n : Nat) (f : Conv → Conv) : (s.modConv n f).now = s.now := rfl
@[simp] theorem State.modConv_blk (n : Nat) (f : Conv → Conv) : (s.modConv n f).blk = s.blk := rfl
@[simp] theorem State.modConv_rails (n : Nat) (f : Conv → Conv) : (s.modConv n f).rails = s.rails := rfl
@[simp] theorem State.modConv_regions (n : Nat) (f : Conv → Conv) : (s.modConv n f).regions = s.regions := rfl
@[simp] theorem State.modConv_strings (n : Nat) (f : Conv → Conv) : (s.modConv n f).strings = s.strings := rfl
@[simp] theorem State.modConv_courses (n : Nat) (f : Conv → Conv) : (s.modConv n f).courses = s.courses := rfl
@[simp] theorem State.modConv_chans (n : Nat) (f : Conv → Conv) : (s.modConv n f).chans = s.chans := rfl
@[simp] theorem State.modConv_eng (n : Nat) (f : Conv → Conv) : (s.modConv n f).eng = s.eng := rfl
@[simp] theorem State.modConv_used (n : Nat) (f : Conv → Conv) : (s.modConv n f).used = s.used := rfl
@[simp] theorem State.modConv_cap (n : Nat) (f : Conv → Conv) : (s.modConv n f).cap = s.cap := rfl
@[simp] theorem State.modConv_telem (n : Nat) (f : Conv → Conv) : (s.modConv n f).telem = s.telem := rfl
@[simp] theorem State.modConv_tune (n : Nat) (f : Conv → Conv) : (s.modConv n f).tune = s.tune := rfl
@[simp] theorem State.modConv_hints (n : Nat) (f : Conv → Conv) : (s.modConv n f).hints = s.hints := rfl
@[simp] theorem State.modConv_learn (n : Nat) (f : Conv → Conv) : (s.modConv n f).learn = s.learn := rfl
@[simp] theorem State.modConv_therm (n : Nat) (f : Conv → Conv) : (s.modConv n f).therm = s.therm := rfl
@[simp] theorem State.modConv_cg (n : Nat) (f : Conv → Conv) : (s.modConv n f).cg = s.cg := rfl
@[simp] theorem State.modConv_dict (n : Nat) (f : Conv → Conv) : (s.modConv n f).dict = s.dict := rfl
@[simp] theorem State.modConv_dma (n : Nat) (f : Conv → Conv) : (s.modConv n f).dma = s.dma := rfl
@[simp] theorem State.modConv_recd (n : Nat) (f : Conv → Conv) : (s.modConv n f).recd = s.recd := rfl
@[simp] theorem State.modConv_clk (n : Nat) (f : Conv → Conv) : (s.modConv n f).clk = s.clk := rfl
@[simp] theorem State.modConv_regs (n : Nat) (f : Conv → Conv) : (s.modConv n f).regs = s.regs := rfl
@[simp] theorem State.modConv_freeK (n : Nat) (f : Conv → Conv) : (s.modConv n f).freeK = s.freeK := rfl
@[simp] theorem State.modConv_pending (n : Nat) (f : Conv → Conv) : (s.modConv n f).pending = s.pending := rfl

@[simp] theorem State.modDiode_cfg (r : Nat) (f : Diode → Diode) : (s.modDiode r f).cfg = s.cfg := rfl
@[simp] theorem State.modDiode_now (r : Nat) (f : Diode → Diode) : (s.modDiode r f).now = s.now := rfl
@[simp] theorem State.modDiode_blk (r : Nat) (f : Diode → Diode) : (s.modDiode r f).blk = s.blk := rfl
@[simp] theorem State.modDiode_rails (r : Nat) (f : Diode → Diode) : (s.modDiode r f).rails = s.rails := rfl
@[simp] theorem State.modDiode_regions (r : Nat) (f : Diode → Diode) : (s.modDiode r f).regions = s.regions := rfl
@[simp] theorem State.modDiode_strings (r : Nat) (f : Diode → Diode) : (s.modDiode r f).strings = s.strings := rfl
@[simp] theorem State.modDiode_courses (r : Nat) (f : Diode → Diode) : (s.modDiode r f).courses = s.courses := rfl
@[simp] theorem State.modDiode_chans (r : Nat) (f : Diode → Diode) : (s.modDiode r f).chans = s.chans := rfl
@[simp] theorem State.modDiode_eng (r : Nat) (f : Diode → Diode) : (s.modDiode r f).eng = s.eng := rfl
@[simp] theorem State.modDiode_used (r : Nat) (f : Diode → Diode) : (s.modDiode r f).used = s.used := rfl
@[simp] theorem State.modDiode_cap (r : Nat) (f : Diode → Diode) : (s.modDiode r f).cap = s.cap := rfl
@[simp] theorem State.modDiode_telem (r : Nat) (f : Diode → Diode) : (s.modDiode r f).telem = s.telem := rfl
@[simp] theorem State.modDiode_tune (r : Nat) (f : Diode → Diode) : (s.modDiode r f).tune = s.tune := rfl
@[simp] theorem State.modDiode_hints (r : Nat) (f : Diode → Diode) : (s.modDiode r f).hints = s.hints := rfl
@[simp] theorem State.modDiode_learn (r : Nat) (f : Diode → Diode) : (s.modDiode r f).learn = s.learn := rfl
@[simp] theorem State.modDiode_convs (r : Nat) (f : Diode → Diode) : (s.modDiode r f).convs = s.convs := rfl
@[simp] theorem State.modDiode_cg (r : Nat) (f : Diode → Diode) : (s.modDiode r f).cg = s.cg := rfl
@[simp] theorem State.modDiode_dict (r : Nat) (f : Diode → Diode) : (s.modDiode r f).dict = s.dict := rfl
@[simp] theorem State.modDiode_dma (r : Nat) (f : Diode → Diode) : (s.modDiode r f).dma = s.dma := rfl
@[simp] theorem State.modDiode_recd (r : Nat) (f : Diode → Diode) : (s.modDiode r f).recd = s.recd := rfl
@[simp] theorem State.modDiode_clk (r : Nat) (f : Diode → Diode) : (s.modDiode r f).clk = s.clk := rfl
@[simp] theorem State.modDiode_regs (r : Nat) (f : Diode → Diode) : (s.modDiode r f).regs = s.regs := rfl
@[simp] theorem State.modDiode_freeK (r : Nat) (f : Diode → Diode) : (s.modDiode r f).freeK = s.freeK := rfl
@[simp] theorem State.modDiode_pending (r : Nat) (f : Diode → Diode) : (s.modDiode r f).pending = s.pending := rfl

@[simp] theorem State.modFront_cfg (q : Nat) (f : Front → Front) : (s.modFront q f).cfg = s.cfg := rfl
@[simp] theorem State.modFront_now (q : Nat) (f : Front → Front) : (s.modFront q f).now = s.now := rfl
@[simp] theorem State.modFront_blk (q : Nat) (f : Front → Front) : (s.modFront q f).blk = s.blk := rfl
@[simp] theorem State.modFront_rails (q : Nat) (f : Front → Front) : (s.modFront q f).rails = s.rails := rfl
@[simp] theorem State.modFront_regions (q : Nat) (f : Front → Front) : (s.modFront q f).regions = s.regions := rfl
@[simp] theorem State.modFront_strings (q : Nat) (f : Front → Front) : (s.modFront q f).strings = s.strings := rfl
@[simp] theorem State.modFront_courses (q : Nat) (f : Front → Front) : (s.modFront q f).courses = s.courses := rfl
@[simp] theorem State.modFront_chans (q : Nat) (f : Front → Front) : (s.modFront q f).chans = s.chans := rfl
@[simp] theorem State.modFront_eng (q : Nat) (f : Front → Front) : (s.modFront q f).eng = s.eng := rfl
@[simp] theorem State.modFront_used (q : Nat) (f : Front → Front) : (s.modFront q f).used = s.used := rfl
@[simp] theorem State.modFront_cap (q : Nat) (f : Front → Front) : (s.modFront q f).cap = s.cap := rfl
@[simp] theorem State.modFront_telem (q : Nat) (f : Front → Front) : (s.modFront q f).telem = s.telem := rfl
@[simp] theorem State.modFront_tune (q : Nat) (f : Front → Front) : (s.modFront q f).tune = s.tune := rfl
@[simp] theorem State.modFront_hints (q : Nat) (f : Front → Front) : (s.modFront q f).hints = s.hints := rfl
@[simp] theorem State.modFront_learn (q : Nat) (f : Front → Front) : (s.modFront q f).learn = s.learn := rfl
@[simp] theorem State.modFront_convs (q : Nat) (f : Front → Front) : (s.modFront q f).convs = s.convs := rfl
@[simp] theorem State.modFront_cg (q : Nat) (f : Front → Front) : (s.modFront q f).cg = s.cg := rfl
@[simp] theorem State.modFront_dict (q : Nat) (f : Front → Front) : (s.modFront q f).dict = s.dict := rfl
@[simp] theorem State.modFront_dma (q : Nat) (f : Front → Front) : (s.modFront q f).dma = s.dma := rfl
@[simp] theorem State.modFront_recd (q : Nat) (f : Front → Front) : (s.modFront q f).recd = s.recd := rfl
@[simp] theorem State.modFront_clk (q : Nat) (f : Front → Front) : (s.modFront q f).clk = s.clk := rfl
@[simp] theorem State.modFront_regs (q : Nat) (f : Front → Front) : (s.modFront q f).regs = s.regs := rfl
@[simp] theorem State.modFront_freeK (q : Nat) (f : Front → Front) : (s.modFront q f).freeK = s.freeK := rfl
@[simp] theorem State.modFront_pending (q : Nat) (f : Front → Front) : (s.modFront q f).pending = s.pending := rfl

@[simp] theorem State.modShard_cfg (k : Nat) (f : Shard → Shard) : (s.modShard k f).cfg = s.cfg := rfl
@[simp] theorem State.modShard_now (k : Nat) (f : Shard → Shard) : (s.modShard k f).now = s.now := rfl
@[simp] theorem State.modShard_blk (k : Nat) (f : Shard → Shard) : (s.modShard k f).blk = s.blk := rfl
@[simp] theorem State.modShard_rails (k : Nat) (f : Shard → Shard) : (s.modShard k f).rails = s.rails := rfl
@[simp] theorem State.modShard_regions (k : Nat) (f : Shard → Shard) : (s.modShard k f).regions = s.regions := rfl
@[simp] theorem State.modShard_strings (k : Nat) (f : Shard → Shard) : (s.modShard k f).strings = s.strings := rfl
@[simp] theorem State.modShard_courses (k : Nat) (f : Shard → Shard) : (s.modShard k f).courses = s.courses := rfl
@[simp] theorem State.modShard_chans (k : Nat) (f : Shard → Shard) : (s.modShard k f).chans = s.chans := rfl
@[simp] theorem State.modShard_eng (k : Nat) (f : Shard → Shard) : (s.modShard k f).eng = s.eng := rfl
@[simp] theorem State.modShard_used (k : Nat) (f : Shard → Shard) : (s.modShard k f).used = s.used := rfl
@[simp] theorem State.modShard_cap (k : Nat) (f : Shard → Shard) : (s.modShard k f).cap = s.cap := rfl
@[simp] theorem State.modShard_telem (k : Nat) (f : Shard → Shard) : (s.modShard k f).telem = s.telem := rfl
@[simp] theorem State.modShard_tune (k : Nat) (f : Shard → Shard) : (s.modShard k f).tune = s.tune := rfl
@[simp] theorem State.modShard_hints (k : Nat) (f : Shard → Shard) : (s.modShard k f).hints = s.hints := rfl
@[simp] theorem State.modShard_therm (k : Nat) (f : Shard → Shard) : (s.modShard k f).therm = s.therm := rfl
@[simp] theorem State.modShard_convs (k : Nat) (f : Shard → Shard) : (s.modShard k f).convs = s.convs := rfl
@[simp] theorem State.modShard_cg (k : Nat) (f : Shard → Shard) : (s.modShard k f).cg = s.cg := rfl
@[simp] theorem State.modShard_dict (k : Nat) (f : Shard → Shard) : (s.modShard k f).dict = s.dict := rfl
@[simp] theorem State.modShard_dma (k : Nat) (f : Shard → Shard) : (s.modShard k f).dma = s.dma := rfl
@[simp] theorem State.modShard_recd (k : Nat) (f : Shard → Shard) : (s.modShard k f).recd = s.recd := rfl
@[simp] theorem State.modShard_clk (k : Nat) (f : Shard → Shard) : (s.modShard k f).clk = s.clk := rfl
@[simp] theorem State.modShard_regs (k : Nat) (f : Shard → Shard) : (s.modShard k f).regs = s.regs := rfl
@[simp] theorem State.modShard_freeK (k : Nat) (f : Shard → Shard) : (s.modShard k f).freeK = s.freeK := rfl
@[simp] theorem State.modShard_pending (k : Nat) (f : Shard → Shard) : (s.modShard k f).pending = s.pending := rfl

@[simp] theorem State.modSlot_cfg (k : Nat) (f : Slot → Slot) : (s.modSlot k f).cfg = s.cfg := rfl
@[simp] theorem State.modSlot_now (k : Nat) (f : Slot → Slot) : (s.modSlot k f).now = s.now := rfl
@[simp] theorem State.modSlot_blk (k : Nat) (f : Slot → Slot) : (s.modSlot k f).blk = s.blk := rfl
@[simp] theorem State.modSlot_rails (k : Nat) (f : Slot → Slot) : (s.modSlot k f).rails = s.rails := rfl
@[simp] theorem State.modSlot_regions (k : Nat) (f : Slot → Slot) : (s.modSlot k f).regions = s.regions := rfl
@[simp] theorem State.modSlot_strings (k : Nat) (f : Slot → Slot) : (s.modSlot k f).strings = s.strings := rfl
@[simp] theorem State.modSlot_courses (k : Nat) (f : Slot → Slot) : (s.modSlot k f).courses = s.courses := rfl
@[simp] theorem State.modSlot_chans (k : Nat) (f : Slot → Slot) : (s.modSlot k f).chans = s.chans := rfl
@[simp] theorem State.modSlot_eng (k : Nat) (f : Slot → Slot) : (s.modSlot k f).eng = s.eng := rfl
@[simp] theorem State.modSlot_used (k : Nat) (f : Slot → Slot) : (s.modSlot k f).used = s.used := rfl
@[simp] theorem State.modSlot_cap (k : Nat) (f : Slot → Slot) : (s.modSlot k f).cap = s.cap := rfl
@[simp] theorem State.modSlot_telem (k : Nat) (f : Slot → Slot) : (s.modSlot k f).telem = s.telem := rfl
@[simp] theorem State.modSlot_tune (k : Nat) (f : Slot → Slot) : (s.modSlot k f).tune = s.tune := rfl
@[simp] theorem State.modSlot_hints (k : Nat) (f : Slot → Slot) : (s.modSlot k f).hints = s.hints := rfl
@[simp] theorem State.modSlot_therm (k : Nat) (f : Slot → Slot) : (s.modSlot k f).therm = s.therm := rfl
@[simp] theorem State.modSlot_convs (k : Nat) (f : Slot → Slot) : (s.modSlot k f).convs = s.convs := rfl
@[simp] theorem State.modSlot_cg (k : Nat) (f : Slot → Slot) : (s.modSlot k f).cg = s.cg := rfl
@[simp] theorem State.modSlot_dict (k : Nat) (f : Slot → Slot) : (s.modSlot k f).dict = s.dict := rfl
@[simp] theorem State.modSlot_dma (k : Nat) (f : Slot → Slot) : (s.modSlot k f).dma = s.dma := rfl
@[simp] theorem State.modSlot_recd (k : Nat) (f : Slot → Slot) : (s.modSlot k f).recd = s.recd := rfl
@[simp] theorem State.modSlot_clk (k : Nat) (f : Slot → Slot) : (s.modSlot k f).clk = s.clk := rfl
@[simp] theorem State.modSlot_regs (k : Nat) (f : Slot → Slot) : (s.modSlot k f).regs = s.regs := rfl
@[simp] theorem State.modSlot_freeK (k : Nat) (f : Slot → Slot) : (s.modSlot k f).freeK = s.freeK := rfl
@[simp] theorem State.modSlot_pending (k : Nat) (f : Slot → Slot) : (s.modSlot k f).pending = s.pending := rfl

@[simp] theorem State.modSession_cfg (k : Nat) (f : Session → Session) : (s.modSession k f).cfg = s.cfg := rfl
@[simp] theorem State.modSession_now (k : Nat) (f : Session → Session) : (s.modSession k f).now = s.now := rfl
@[simp] theorem State.modSession_blk (k : Nat) (f : Session → Session) : (s.modSession k f).blk = s.blk := rfl
@[simp] theorem State.modSession_rails (k : Nat) (f : Session → Session) : (s.modSession k f).rails = s.rails := rfl
@[simp] theorem State.modSession_regions (k : Nat) (f : Session → Session) : (s.modSession k f).regions = s.regions := rfl
@[simp] theorem State.modSession_strings (k : Nat) (f : Session → Session) : (s.modSession k f).strings = s.strings := rfl
@[simp] theorem State.modSession_courses (k : Nat) (f : Session → Session) : (s.modSession k f).courses = s.courses := rfl
@[simp] theorem State.modSession_chans (k : Nat) (f : Session → Session) : (s.modSession k f).chans = s.chans := rfl
@[simp] theorem State.modSession_eng (k : Nat) (f : Session → Session) : (s.modSession k f).eng = s.eng := rfl
@[simp] theorem State.modSession_used (k : Nat) (f : Session → Session) : (s.modSession k f).used = s.used := rfl
@[simp] theorem State.modSession_cap (k : Nat) (f : Session → Session) : (s.modSession k f).cap = s.cap := rfl
@[simp] theorem State.modSession_telem (k : Nat) (f : Session → Session) : (s.modSession k f).telem = s.telem := rfl
@[simp] theorem State.modSession_tune (k : Nat) (f : Session → Session) : (s.modSession k f).tune = s.tune := rfl
@[simp] theorem State.modSession_hints (k : Nat) (f : Session → Session) : (s.modSession k f).hints = s.hints := rfl
@[simp] theorem State.modSession_learn (k : Nat) (f : Session → Session) : (s.modSession k f).learn = s.learn := rfl
@[simp] theorem State.modSession_therm (k : Nat) (f : Session → Session) : (s.modSession k f).therm = s.therm := rfl
@[simp] theorem State.modSession_convs (k : Nat) (f : Session → Session) : (s.modSession k f).convs = s.convs := rfl
@[simp] theorem State.modSession_cg (k : Nat) (f : Session → Session) : (s.modSession k f).cg = s.cg := rfl
@[simp] theorem State.modSession_dma (k : Nat) (f : Session → Session) : (s.modSession k f).dma = s.dma := rfl
@[simp] theorem State.modSession_recd (k : Nat) (f : Session → Session) : (s.modSession k f).recd = s.recd := rfl
@[simp] theorem State.modSession_clk (k : Nat) (f : Session → Session) : (s.modSession k f).clk = s.clk := rfl
@[simp] theorem State.modSession_regs (k : Nat) (f : Session → Session) : (s.modSession k f).regs = s.regs := rfl
@[simp] theorem State.modSession_freeK (k : Nat) (f : Session → Session) : (s.modSession k f).freeK = s.freeK := rfl
@[simp] theorem State.modSession_pending (k : Nat) (f : Session → Session) : (s.modSession k f).pending = s.pending := rfl

@[simp] theorem State.modMbx_cfg (m : Nat) (f : Mailbox → Mailbox) : (s.modMbx m f).cfg = s.cfg := rfl
@[simp] theorem State.modMbx_now (m : Nat) (f : Mailbox → Mailbox) : (s.modMbx m f).now = s.now := rfl
@[simp] theorem State.modMbx_blk (m : Nat) (f : Mailbox → Mailbox) : (s.modMbx m f).blk = s.blk := rfl
@[simp] theorem State.modMbx_rails (m : Nat) (f : Mailbox → Mailbox) : (s.modMbx m f).rails = s.rails := rfl
@[simp] theorem State.modMbx_regions (m : Nat) (f : Mailbox → Mailbox) : (s.modMbx m f).regions = s.regions := rfl
@[simp] theorem State.modMbx_strings (m : Nat) (f : Mailbox → Mailbox) : (s.modMbx m f).strings = s.strings := rfl
@[simp] theorem State.modMbx_courses (m : Nat) (f : Mailbox → Mailbox) : (s.modMbx m f).courses = s.courses := rfl
@[simp] theorem State.modMbx_chans (m : Nat) (f : Mailbox → Mailbox) : (s.modMbx m f).chans = s.chans := rfl
@[simp] theorem State.modMbx_eng (m : Nat) (f : Mailbox → Mailbox) : (s.modMbx m f).eng = s.eng := rfl
@[simp] theorem State.modMbx_used (m : Nat) (f : Mailbox → Mailbox) : (s.modMbx m f).used = s.used := rfl
@[simp] theorem State.modMbx_cap (m : Nat) (f : Mailbox → Mailbox) : (s.modMbx m f).cap = s.cap := rfl
@[simp] theorem State.modMbx_telem (m : Nat) (f : Mailbox → Mailbox) : (s.modMbx m f).telem = s.telem := rfl
@[simp] theorem State.modMbx_tune (m : Nat) (f : Mailbox → Mailbox) : (s.modMbx m f).tune = s.tune := rfl
@[simp] theorem State.modMbx_hints (m : Nat) (f : Mailbox → Mailbox) : (s.modMbx m f).hints = s.hints := rfl
@[simp] theorem State.modMbx_learn (m : Nat) (f : Mailbox → Mailbox) : (s.modMbx m f).learn = s.learn := rfl
@[simp] theorem State.modMbx_therm (m : Nat) (f : Mailbox → Mailbox) : (s.modMbx m f).therm = s.therm := rfl
@[simp] theorem State.modMbx_convs (m : Nat) (f : Mailbox → Mailbox) : (s.modMbx m f).convs = s.convs := rfl
@[simp] theorem State.modMbx_cg (m : Nat) (f : Mailbox → Mailbox) : (s.modMbx m f).cg = s.cg := rfl
@[simp] theorem State.modMbx_dma (m : Nat) (f : Mailbox → Mailbox) : (s.modMbx m f).dma = s.dma := rfl
@[simp] theorem State.modMbx_recd (m : Nat) (f : Mailbox → Mailbox) : (s.modMbx m f).recd = s.recd := rfl
@[simp] theorem State.modMbx_clk (m : Nat) (f : Mailbox → Mailbox) : (s.modMbx m f).clk = s.clk := rfl
@[simp] theorem State.modMbx_regs (m : Nat) (f : Mailbox → Mailbox) : (s.modMbx m f).regs = s.regs := rfl
@[simp] theorem State.modMbx_freeK (m : Nat) (f : Mailbox → Mailbox) : (s.modMbx m f).freeK = s.freeK := rfl
@[simp] theorem State.modMbx_pending (m : Nat) (f : Mailbox → Mailbox) : (s.modMbx m f).pending = s.pending := rfl

@[simp] theorem State.modI3c_cfg (f : I3c → I3c) : (s.modI3c f).cfg = s.cfg := rfl
@[simp] theorem State.modI3c_now (f : I3c → I3c) : (s.modI3c f).now = s.now := rfl
@[simp] theorem State.modI3c_blk (f : I3c → I3c) : (s.modI3c f).blk = s.blk := rfl
@[simp] theorem State.modI3c_rails (f : I3c → I3c) : (s.modI3c f).rails = s.rails := rfl
@[simp] theorem State.modI3c_regions (f : I3c → I3c) : (s.modI3c f).regions = s.regions := rfl
@[simp] theorem State.modI3c_strings (f : I3c → I3c) : (s.modI3c f).strings = s.strings := rfl
@[simp] theorem State.modI3c_courses (f : I3c → I3c) : (s.modI3c f).courses = s.courses := rfl
@[simp] theorem State.modI3c_chans (f : I3c → I3c) : (s.modI3c f).chans = s.chans := rfl
@[simp] theorem State.modI3c_eng (f : I3c → I3c) : (s.modI3c f).eng = s.eng := rfl
@[simp] theorem State.modI3c_used (f : I3c → I3c) : (s.modI3c f).used = s.used := rfl
@[simp] theorem State.modI3c_cap (f : I3c → I3c) : (s.modI3c f).cap = s.cap := rfl
@[simp] theorem State.modI3c_telem (f : I3c → I3c) : (s.modI3c f).telem = s.telem := rfl
@[simp] theorem State.modI3c_tune (f : I3c → I3c) : (s.modI3c f).tune = s.tune := rfl
@[simp] theorem State.modI3c_hints (f : I3c → I3c) : (s.modI3c f).hints = s.hints := rfl
@[simp] theorem State.modI3c_learn (f : I3c → I3c) : (s.modI3c f).learn = s.learn := rfl
@[simp] theorem State.modI3c_therm (f : I3c → I3c) : (s.modI3c f).therm = s.therm := rfl
@[simp] theorem State.modI3c_convs (f : I3c → I3c) : (s.modI3c f).convs = s.convs := rfl
@[simp] theorem State.modI3c_cg (f : I3c → I3c) : (s.modI3c f).cg = s.cg := rfl
@[simp] theorem State.modI3c_dma (f : I3c → I3c) : (s.modI3c f).dma = s.dma := rfl
@[simp] theorem State.modI3c_recd (f : I3c → I3c) : (s.modI3c f).recd = s.recd := rfl
@[simp] theorem State.modI3c_clk (f : I3c → I3c) : (s.modI3c f).clk = s.clk := rfl
@[simp] theorem State.modI3c_regs (f : I3c → I3c) : (s.modI3c f).regs = s.regs := rfl
@[simp] theorem State.modI3c_freeK (f : I3c → I3c) : (s.modI3c f).freeK = s.freeK := rfl
@[simp] theorem State.modI3c_pending (f : I3c → I3c) : (s.modI3c f).pending = s.pending := rfl

@[simp] theorem State.modDmaCh_cfg (k : Nat) (f : DmaCh → DmaCh) : (s.modDmaCh k f).cfg = s.cfg := rfl
@[simp] theorem State.modDmaCh_now (k : Nat) (f : DmaCh → DmaCh) : (s.modDmaCh k f).now = s.now := rfl
@[simp] theorem State.modDmaCh_blk (k : Nat) (f : DmaCh → DmaCh) : (s.modDmaCh k f).blk = s.blk := rfl
@[simp] theorem State.modDmaCh_rails (k : Nat) (f : DmaCh → DmaCh) : (s.modDmaCh k f).rails = s.rails := rfl
@[simp] theorem State.modDmaCh_regions (k : Nat) (f : DmaCh → DmaCh) : (s.modDmaCh k f).regions = s.regions := rfl
@[simp] theorem State.modDmaCh_strings (k : Nat) (f : DmaCh → DmaCh) : (s.modDmaCh k f).strings = s.strings := rfl
@[simp] theorem State.modDmaCh_courses (k : Nat) (f : DmaCh → DmaCh) : (s.modDmaCh k f).courses = s.courses := rfl
@[simp] theorem State.modDmaCh_chans (k : Nat) (f : DmaCh → DmaCh) : (s.modDmaCh k f).chans = s.chans := rfl
@[simp] theorem State.modDmaCh_eng (k : Nat) (f : DmaCh → DmaCh) : (s.modDmaCh k f).eng = s.eng := rfl
@[simp] theorem State.modDmaCh_used (k : Nat) (f : DmaCh → DmaCh) : (s.modDmaCh k f).used = s.used := rfl
@[simp] theorem State.modDmaCh_cap (k : Nat) (f : DmaCh → DmaCh) : (s.modDmaCh k f).cap = s.cap := rfl
@[simp] theorem State.modDmaCh_telem (k : Nat) (f : DmaCh → DmaCh) : (s.modDmaCh k f).telem = s.telem := rfl
@[simp] theorem State.modDmaCh_tune (k : Nat) (f : DmaCh → DmaCh) : (s.modDmaCh k f).tune = s.tune := rfl
@[simp] theorem State.modDmaCh_hints (k : Nat) (f : DmaCh → DmaCh) : (s.modDmaCh k f).hints = s.hints := rfl
@[simp] theorem State.modDmaCh_learn (k : Nat) (f : DmaCh → DmaCh) : (s.modDmaCh k f).learn = s.learn := rfl
@[simp] theorem State.modDmaCh_therm (k : Nat) (f : DmaCh → DmaCh) : (s.modDmaCh k f).therm = s.therm := rfl
@[simp] theorem State.modDmaCh_convs (k : Nat) (f : DmaCh → DmaCh) : (s.modDmaCh k f).convs = s.convs := rfl
@[simp] theorem State.modDmaCh_cg (k : Nat) (f : DmaCh → DmaCh) : (s.modDmaCh k f).cg = s.cg := rfl
@[simp] theorem State.modDmaCh_dict (k : Nat) (f : DmaCh → DmaCh) : (s.modDmaCh k f).dict = s.dict := rfl
@[simp] theorem State.modDmaCh_recd (k : Nat) (f : DmaCh → DmaCh) : (s.modDmaCh k f).recd = s.recd := rfl
@[simp] theorem State.modDmaCh_clk (k : Nat) (f : DmaCh → DmaCh) : (s.modDmaCh k f).clk = s.clk := rfl
@[simp] theorem State.modDmaCh_regs (k : Nat) (f : DmaCh → DmaCh) : (s.modDmaCh k f).regs = s.regs := rfl
@[simp] theorem State.modDmaCh_freeK (k : Nat) (f : DmaCh → DmaCh) : (s.modDmaCh k f).freeK = s.freeK := rfl
@[simp] theorem State.modDmaCh_pending (k : Nat) (f : DmaCh → DmaCh) : (s.modDmaCh k f).pending = s.pending := rfl

@[simp] theorem State.modTab_cfg (f : StrTab → StrTab) : (s.modTab f).cfg = s.cfg := rfl
@[simp] theorem State.modTab_now (f : StrTab → StrTab) : (s.modTab f).now = s.now := rfl
@[simp] theorem State.modTab_blk (f : StrTab → StrTab) : (s.modTab f).blk = s.blk := rfl
@[simp] theorem State.modTab_rails (f : StrTab → StrTab) : (s.modTab f).rails = s.rails := rfl
@[simp] theorem State.modTab_regions (f : StrTab → StrTab) : (s.modTab f).regions = s.regions := rfl
@[simp] theorem State.modTab_strings (f : StrTab → StrTab) : (s.modTab f).strings = s.strings := rfl
@[simp] theorem State.modTab_courses (f : StrTab → StrTab) : (s.modTab f).courses = s.courses := rfl
@[simp] theorem State.modTab_chans (f : StrTab → StrTab) : (s.modTab f).chans = s.chans := rfl
@[simp] theorem State.modTab_eng (f : StrTab → StrTab) : (s.modTab f).eng = s.eng := rfl
@[simp] theorem State.modTab_used (f : StrTab → StrTab) : (s.modTab f).used = s.used := rfl
@[simp] theorem State.modTab_cap (f : StrTab → StrTab) : (s.modTab f).cap = s.cap := rfl
@[simp] theorem State.modTab_telem (f : StrTab → StrTab) : (s.modTab f).telem = s.telem := rfl
@[simp] theorem State.modTab_tune (f : StrTab → StrTab) : (s.modTab f).tune = s.tune := rfl
@[simp] theorem State.modTab_hints (f : StrTab → StrTab) : (s.modTab f).hints = s.hints := rfl
@[simp] theorem State.modTab_learn (f : StrTab → StrTab) : (s.modTab f).learn = s.learn := rfl
@[simp] theorem State.modTab_therm (f : StrTab → StrTab) : (s.modTab f).therm = s.therm := rfl
@[simp] theorem State.modTab_convs (f : StrTab → StrTab) : (s.modTab f).convs = s.convs := rfl
@[simp] theorem State.modTab_cg (f : StrTab → StrTab) : (s.modTab f).cg = s.cg := rfl
@[simp] theorem State.modTab_dict (f : StrTab → StrTab) : (s.modTab f).dict = s.dict := rfl
@[simp] theorem State.modTab_recd (f : StrTab → StrTab) : (s.modTab f).recd = s.recd := rfl
@[simp] theorem State.modTab_clk (f : StrTab → StrTab) : (s.modTab f).clk = s.clk := rfl
@[simp] theorem State.modTab_regs (f : StrTab → StrTab) : (s.modTab f).regs = s.regs := rfl
@[simp] theorem State.modTab_freeK (f : StrTab → StrTab) : (s.modTab f).freeK = s.freeK := rfl
@[simp] theorem State.modTab_pending (f : StrTab → StrTab) : (s.modTab f).pending = s.pending := rfl

/-! ## Units that an update of another kind leaves alone -/

@[simp] theorem State.set_region (g : Reg) (v : Int) (j : Nat) : (s.set g v).region j = s.region j := rfl
@[simp] theorem State.set_str (g : Reg) (v : Int) (j : Nat) : (s.set g v).str j = s.str j := rfl
@[simp] theorem State.set_course (g : Reg) (v : Int) (j : Nat) : (s.set g v).course j = s.course j := rfl
@[simp] theorem State.set_chan (g : Reg) (v : Int) (j : Nat) : (s.set g v).chan j = s.chan j := rfl
@[simp] theorem State.set_rail (g : Reg) (v : Int) (j : Nat) : (s.set g v).rail j = s.rail j := rfl
@[simp] theorem State.set_conv (g : Reg) (v : Int) (j : Nat) : (s.set g v).conv j = s.conv j := rfl
@[simp] theorem State.set_diode (g : Reg) (v : Int) (j : Nat) : (s.set g v).diode j = s.diode j := rfl
@[simp] theorem State.set_front (g : Reg) (v : Int) (j : Nat) : (s.set g v).front j = s.front j := rfl
@[simp] theorem State.set_shard (g : Reg) (v : Int) (j : Nat) : (s.set g v).shard j = s.shard j := rfl
@[simp] theorem State.set_slot (g : Reg) (v : Int) (j : Nat) : (s.set g v).slot j = s.slot j := rfl
@[simp] theorem State.set_session (g : Reg) (v : Int) (j : Nat) : (s.set g v).session j = s.session j := rfl
@[simp] theorem State.set_dmaCh (g : Reg) (v : Int) (j : Nat) : (s.set g v).dmaCh j = s.dmaCh j := rfl

@[simp] theorem State.modBlk_region (f : Block → Block) (j : Nat) : (s.modBlk f).region j = s.region j := rfl
@[simp] theorem State.modBlk_str (f : Block → Block) (j : Nat) : (s.modBlk f).str j = s.str j := rfl
@[simp] theorem State.modBlk_course (f : Block → Block) (j : Nat) : (s.modBlk f).course j = s.course j := rfl
@[simp] theorem State.modBlk_chan (f : Block → Block) (j : Nat) : (s.modBlk f).chan j = s.chan j := rfl
@[simp] theorem State.modBlk_rail (f : Block → Block) (j : Nat) : (s.modBlk f).rail j = s.rail j := rfl
@[simp] theorem State.modBlk_conv (f : Block → Block) (j : Nat) : (s.modBlk f).conv j = s.conv j := rfl
@[simp] theorem State.modBlk_diode (f : Block → Block) (j : Nat) : (s.modBlk f).diode j = s.diode j := rfl
@[simp] theorem State.modBlk_front (f : Block → Block) (j : Nat) : (s.modBlk f).front j = s.front j := rfl
@[simp] theorem State.modBlk_shard (f : Block → Block) (j : Nat) : (s.modBlk f).shard j = s.shard j := rfl
@[simp] theorem State.modBlk_slot (f : Block → Block) (j : Nat) : (s.modBlk f).slot j = s.slot j := rfl
@[simp] theorem State.modBlk_session (f : Block → Block) (j : Nat) : (s.modBlk f).session j = s.session j := rfl
@[simp] theorem State.modBlk_dmaCh (f : Block → Block) (j : Nat) : (s.modBlk f).dmaCh j = s.dmaCh j := rfl
@[simp] theorem State.modBlk_get (f : Block → Block) (g : Reg) : (s.modBlk f).get g = s.get g := rfl
@[simp] theorem State.modBlk_getN (f : Block → Block) (g : Reg) : (s.modBlk f).getN g = s.getN g := rfl

@[simp] theorem State.modRegion_str (r : Nat) (f : Region → Region) (j : Nat) : (s.modRegion r f).str j = s.str j := rfl
@[simp] theorem State.modRegion_course (r : Nat) (f : Region → Region) (j : Nat) : (s.modRegion r f).course j = s.course j := rfl
@[simp] theorem State.modRegion_chan (r : Nat) (f : Region → Region) (j : Nat) : (s.modRegion r f).chan j = s.chan j := rfl
@[simp] theorem State.modRegion_rail (r : Nat) (f : Region → Region) (j : Nat) : (s.modRegion r f).rail j = s.rail j := rfl
@[simp] theorem State.modRegion_conv (r : Nat) (f : Region → Region) (j : Nat) : (s.modRegion r f).conv j = s.conv j := rfl
@[simp] theorem State.modRegion_diode (r : Nat) (f : Region → Region) (j : Nat) : (s.modRegion r f).diode j = s.diode j := rfl
@[simp] theorem State.modRegion_front (r : Nat) (f : Region → Region) (j : Nat) : (s.modRegion r f).front j = s.front j := rfl
@[simp] theorem State.modRegion_shard (r : Nat) (f : Region → Region) (j : Nat) : (s.modRegion r f).shard j = s.shard j := rfl
@[simp] theorem State.modRegion_slot (r : Nat) (f : Region → Region) (j : Nat) : (s.modRegion r f).slot j = s.slot j := rfl
@[simp] theorem State.modRegion_session (r : Nat) (f : Region → Region) (j : Nat) : (s.modRegion r f).session j = s.session j := rfl
@[simp] theorem State.modRegion_dmaCh (r : Nat) (f : Region → Region) (j : Nat) : (s.modRegion r f).dmaCh j = s.dmaCh j := rfl
@[simp] theorem State.modRegion_get (r : Nat) (f : Region → Region) (g : Reg) : (s.modRegion r f).get g = s.get g := rfl
@[simp] theorem State.modRegion_getN (r : Nat) (f : Region → Region) (g : Reg) : (s.modRegion r f).getN g = s.getN g := rfl

@[simp] theorem State.modStr_region (i : Nat) (f : Str → Str) (j : Nat) : (s.modStr i f).region j = s.region j := rfl
@[simp] theorem State.modStr_course (i : Nat) (f : Str → Str) (j : Nat) : (s.modStr i f).course j = s.course j := rfl
@[simp] theorem State.modStr_chan (i : Nat) (f : Str → Str) (j : Nat) : (s.modStr i f).chan j = s.chan j := rfl
@[simp] theorem State.modStr_rail (i : Nat) (f : Str → Str) (j : Nat) : (s.modStr i f).rail j = s.rail j := rfl
@[simp] theorem State.modStr_conv (i : Nat) (f : Str → Str) (j : Nat) : (s.modStr i f).conv j = s.conv j := rfl
@[simp] theorem State.modStr_diode (i : Nat) (f : Str → Str) (j : Nat) : (s.modStr i f).diode j = s.diode j := rfl
@[simp] theorem State.modStr_front (i : Nat) (f : Str → Str) (j : Nat) : (s.modStr i f).front j = s.front j := rfl
@[simp] theorem State.modStr_shard (i : Nat) (f : Str → Str) (j : Nat) : (s.modStr i f).shard j = s.shard j := rfl
@[simp] theorem State.modStr_slot (i : Nat) (f : Str → Str) (j : Nat) : (s.modStr i f).slot j = s.slot j := rfl
@[simp] theorem State.modStr_session (i : Nat) (f : Str → Str) (j : Nat) : (s.modStr i f).session j = s.session j := rfl
@[simp] theorem State.modStr_dmaCh (i : Nat) (f : Str → Str) (j : Nat) : (s.modStr i f).dmaCh j = s.dmaCh j := rfl
@[simp] theorem State.modStr_get (i : Nat) (f : Str → Str) (g : Reg) : (s.modStr i f).get g = s.get g := rfl
@[simp] theorem State.modStr_getN (i : Nat) (f : Str → Str) (g : Reg) : (s.modStr i f).getN g = s.getN g := rfl

@[simp] theorem State.modCourse_region (c : Nat) (f : Course → Course) (j : Nat) : (s.modCourse c f).region j = s.region j := rfl
@[simp] theorem State.modCourse_str (c : Nat) (f : Course → Course) (j : Nat) : (s.modCourse c f).str j = s.str j := rfl
@[simp] theorem State.modCourse_chan (c : Nat) (f : Course → Course) (j : Nat) : (s.modCourse c f).chan j = s.chan j := rfl
@[simp] theorem State.modCourse_rail (c : Nat) (f : Course → Course) (j : Nat) : (s.modCourse c f).rail j = s.rail j := rfl
@[simp] theorem State.modCourse_conv (c : Nat) (f : Course → Course) (j : Nat) : (s.modCourse c f).conv j = s.conv j := rfl
@[simp] theorem State.modCourse_diode (c : Nat) (f : Course → Course) (j : Nat) : (s.modCourse c f).diode j = s.diode j := rfl
@[simp] theorem State.modCourse_front (c : Nat) (f : Course → Course) (j : Nat) : (s.modCourse c f).front j = s.front j := rfl
@[simp] theorem State.modCourse_shard (c : Nat) (f : Course → Course) (j : Nat) : (s.modCourse c f).shard j = s.shard j := rfl
@[simp] theorem State.modCourse_slot (c : Nat) (f : Course → Course) (j : Nat) : (s.modCourse c f).slot j = s.slot j := rfl
@[simp] theorem State.modCourse_session (c : Nat) (f : Course → Course) (j : Nat) : (s.modCourse c f).session j = s.session j := rfl
@[simp] theorem State.modCourse_dmaCh (c : Nat) (f : Course → Course) (j : Nat) : (s.modCourse c f).dmaCh j = s.dmaCh j := rfl
@[simp] theorem State.modCourse_get (c : Nat) (f : Course → Course) (g : Reg) : (s.modCourse c f).get g = s.get g := rfl
@[simp] theorem State.modCourse_getN (c : Nat) (f : Course → Course) (g : Reg) : (s.modCourse c f).getN g = s.getN g := rfl

@[simp] theorem State.modChan_region (c : Nat) (f : Chan → Chan) (j : Nat) : (s.modChan c f).region j = s.region j := rfl
@[simp] theorem State.modChan_str (c : Nat) (f : Chan → Chan) (j : Nat) : (s.modChan c f).str j = s.str j := rfl
@[simp] theorem State.modChan_course (c : Nat) (f : Chan → Chan) (j : Nat) : (s.modChan c f).course j = s.course j := rfl
@[simp] theorem State.modChan_rail (c : Nat) (f : Chan → Chan) (j : Nat) : (s.modChan c f).rail j = s.rail j := rfl
@[simp] theorem State.modChan_conv (c : Nat) (f : Chan → Chan) (j : Nat) : (s.modChan c f).conv j = s.conv j := rfl
@[simp] theorem State.modChan_diode (c : Nat) (f : Chan → Chan) (j : Nat) : (s.modChan c f).diode j = s.diode j := rfl
@[simp] theorem State.modChan_front (c : Nat) (f : Chan → Chan) (j : Nat) : (s.modChan c f).front j = s.front j := rfl
@[simp] theorem State.modChan_shard (c : Nat) (f : Chan → Chan) (j : Nat) : (s.modChan c f).shard j = s.shard j := rfl
@[simp] theorem State.modChan_slot (c : Nat) (f : Chan → Chan) (j : Nat) : (s.modChan c f).slot j = s.slot j := rfl
@[simp] theorem State.modChan_session (c : Nat) (f : Chan → Chan) (j : Nat) : (s.modChan c f).session j = s.session j := rfl
@[simp] theorem State.modChan_dmaCh (c : Nat) (f : Chan → Chan) (j : Nat) : (s.modChan c f).dmaCh j = s.dmaCh j := rfl
@[simp] theorem State.modChan_get (c : Nat) (f : Chan → Chan) (g : Reg) : (s.modChan c f).get g = s.get g := rfl
@[simp] theorem State.modChan_getN (c : Nat) (f : Chan → Chan) (g : Reg) : (s.modChan c f).getN g = s.getN g := rfl

@[simp] theorem State.modRail_region (q : Nat) (f : Rail → Rail) (j : Nat) : (s.modRail q f).region j = s.region j := rfl
@[simp] theorem State.modRail_str (q : Nat) (f : Rail → Rail) (j : Nat) : (s.modRail q f).str j = s.str j := rfl
@[simp] theorem State.modRail_course (q : Nat) (f : Rail → Rail) (j : Nat) : (s.modRail q f).course j = s.course j := rfl
@[simp] theorem State.modRail_chan (q : Nat) (f : Rail → Rail) (j : Nat) : (s.modRail q f).chan j = s.chan j := rfl
@[simp] theorem State.modRail_conv (q : Nat) (f : Rail → Rail) (j : Nat) : (s.modRail q f).conv j = s.conv j := rfl
@[simp] theorem State.modRail_diode (q : Nat) (f : Rail → Rail) (j : Nat) : (s.modRail q f).diode j = s.diode j := rfl
@[simp] theorem State.modRail_front (q : Nat) (f : Rail → Rail) (j : Nat) : (s.modRail q f).front j = s.front j := rfl
@[simp] theorem State.modRail_shard (q : Nat) (f : Rail → Rail) (j : Nat) : (s.modRail q f).shard j = s.shard j := rfl
@[simp] theorem State.modRail_slot (q : Nat) (f : Rail → Rail) (j : Nat) : (s.modRail q f).slot j = s.slot j := rfl
@[simp] theorem State.modRail_session (q : Nat) (f : Rail → Rail) (j : Nat) : (s.modRail q f).session j = s.session j := rfl
@[simp] theorem State.modRail_dmaCh (q : Nat) (f : Rail → Rail) (j : Nat) : (s.modRail q f).dmaCh j = s.dmaCh j := rfl
@[simp] theorem State.modRail_get (q : Nat) (f : Rail → Rail) (g : Reg) : (s.modRail q f).get g = s.get g := rfl
@[simp] theorem State.modRail_getN (q : Nat) (f : Rail → Rail) (g : Reg) : (s.modRail q f).getN g = s.getN g := rfl

@[simp] theorem State.modConv_region (n : Nat) (f : Conv → Conv) (j : Nat) : (s.modConv n f).region j = s.region j := rfl
@[simp] theorem State.modConv_str (n : Nat) (f : Conv → Conv) (j : Nat) : (s.modConv n f).str j = s.str j := rfl
@[simp] theorem State.modConv_course (n : Nat) (f : Conv → Conv) (j : Nat) : (s.modConv n f).course j = s.course j := rfl
@[simp] theorem State.modConv_chan (n : Nat) (f : Conv → Conv) (j : Nat) : (s.modConv n f).chan j = s.chan j := rfl
@[simp] theorem State.modConv_rail (n : Nat) (f : Conv → Conv) (j : Nat) : (s.modConv n f).rail j = s.rail j := rfl
@[simp] theorem State.modConv_diode (n : Nat) (f : Conv → Conv) (j : Nat) : (s.modConv n f).diode j = s.diode j := rfl
@[simp] theorem State.modConv_front (n : Nat) (f : Conv → Conv) (j : Nat) : (s.modConv n f).front j = s.front j := rfl
@[simp] theorem State.modConv_shard (n : Nat) (f : Conv → Conv) (j : Nat) : (s.modConv n f).shard j = s.shard j := rfl
@[simp] theorem State.modConv_slot (n : Nat) (f : Conv → Conv) (j : Nat) : (s.modConv n f).slot j = s.slot j := rfl
@[simp] theorem State.modConv_session (n : Nat) (f : Conv → Conv) (j : Nat) : (s.modConv n f).session j = s.session j := rfl
@[simp] theorem State.modConv_dmaCh (n : Nat) (f : Conv → Conv) (j : Nat) : (s.modConv n f).dmaCh j = s.dmaCh j := rfl
@[simp] theorem State.modConv_get (n : Nat) (f : Conv → Conv) (g : Reg) : (s.modConv n f).get g = s.get g := rfl
@[simp] theorem State.modConv_getN (n : Nat) (f : Conv → Conv) (g : Reg) : (s.modConv n f).getN g = s.getN g := rfl

@[simp] theorem State.modDiode_region (r : Nat) (f : Diode → Diode) (j : Nat) : (s.modDiode r f).region j = s.region j := rfl
@[simp] theorem State.modDiode_str (r : Nat) (f : Diode → Diode) (j : Nat) : (s.modDiode r f).str j = s.str j := rfl
@[simp] theorem State.modDiode_course (r : Nat) (f : Diode → Diode) (j : Nat) : (s.modDiode r f).course j = s.course j := rfl
@[simp] theorem State.modDiode_chan (r : Nat) (f : Diode → Diode) (j : Nat) : (s.modDiode r f).chan j = s.chan j := rfl
@[simp] theorem State.modDiode_rail (r : Nat) (f : Diode → Diode) (j : Nat) : (s.modDiode r f).rail j = s.rail j := rfl
@[simp] theorem State.modDiode_conv (r : Nat) (f : Diode → Diode) (j : Nat) : (s.modDiode r f).conv j = s.conv j := rfl
@[simp] theorem State.modDiode_front (r : Nat) (f : Diode → Diode) (j : Nat) : (s.modDiode r f).front j = s.front j := rfl
@[simp] theorem State.modDiode_shard (r : Nat) (f : Diode → Diode) (j : Nat) : (s.modDiode r f).shard j = s.shard j := rfl
@[simp] theorem State.modDiode_slot (r : Nat) (f : Diode → Diode) (j : Nat) : (s.modDiode r f).slot j = s.slot j := rfl
@[simp] theorem State.modDiode_session (r : Nat) (f : Diode → Diode) (j : Nat) : (s.modDiode r f).session j = s.session j := rfl
@[simp] theorem State.modDiode_dmaCh (r : Nat) (f : Diode → Diode) (j : Nat) : (s.modDiode r f).dmaCh j = s.dmaCh j := rfl
@[simp] theorem State.modDiode_get (r : Nat) (f : Diode → Diode) (g : Reg) : (s.modDiode r f).get g = s.get g := rfl
@[simp] theorem State.modDiode_getN (r : Nat) (f : Diode → Diode) (g : Reg) : (s.modDiode r f).getN g = s.getN g := rfl

@[simp] theorem State.modFront_region (q : Nat) (f : Front → Front) (j : Nat) : (s.modFront q f).region j = s.region j := rfl
@[simp] theorem State.modFront_str (q : Nat) (f : Front → Front) (j : Nat) : (s.modFront q f).str j = s.str j := rfl
@[simp] theorem State.modFront_course (q : Nat) (f : Front → Front) (j : Nat) : (s.modFront q f).course j = s.course j := rfl
@[simp] theorem State.modFront_chan (q : Nat) (f : Front → Front) (j : Nat) : (s.modFront q f).chan j = s.chan j := rfl
@[simp] theorem State.modFront_rail (q : Nat) (f : Front → Front) (j : Nat) : (s.modFront q f).rail j = s.rail j := rfl
@[simp] theorem State.modFront_conv (q : Nat) (f : Front → Front) (j : Nat) : (s.modFront q f).conv j = s.conv j := rfl
@[simp] theorem State.modFront_diode (q : Nat) (f : Front → Front) (j : Nat) : (s.modFront q f).diode j = s.diode j := rfl
@[simp] theorem State.modFront_shard (q : Nat) (f : Front → Front) (j : Nat) : (s.modFront q f).shard j = s.shard j := rfl
@[simp] theorem State.modFront_slot (q : Nat) (f : Front → Front) (j : Nat) : (s.modFront q f).slot j = s.slot j := rfl
@[simp] theorem State.modFront_session (q : Nat) (f : Front → Front) (j : Nat) : (s.modFront q f).session j = s.session j := rfl
@[simp] theorem State.modFront_dmaCh (q : Nat) (f : Front → Front) (j : Nat) : (s.modFront q f).dmaCh j = s.dmaCh j := rfl
@[simp] theorem State.modFront_get (q : Nat) (f : Front → Front) (g : Reg) : (s.modFront q f).get g = s.get g := rfl
@[simp] theorem State.modFront_getN (q : Nat) (f : Front → Front) (g : Reg) : (s.modFront q f).getN g = s.getN g := rfl

@[simp] theorem State.modShard_region (k : Nat) (f : Shard → Shard) (j : Nat) : (s.modShard k f).region j = s.region j := rfl
@[simp] theorem State.modShard_str (k : Nat) (f : Shard → Shard) (j : Nat) : (s.modShard k f).str j = s.str j := rfl
@[simp] theorem State.modShard_course (k : Nat) (f : Shard → Shard) (j : Nat) : (s.modShard k f).course j = s.course j := rfl
@[simp] theorem State.modShard_chan (k : Nat) (f : Shard → Shard) (j : Nat) : (s.modShard k f).chan j = s.chan j := rfl
@[simp] theorem State.modShard_rail (k : Nat) (f : Shard → Shard) (j : Nat) : (s.modShard k f).rail j = s.rail j := rfl
@[simp] theorem State.modShard_conv (k : Nat) (f : Shard → Shard) (j : Nat) : (s.modShard k f).conv j = s.conv j := rfl
@[simp] theorem State.modShard_diode (k : Nat) (f : Shard → Shard) (j : Nat) : (s.modShard k f).diode j = s.diode j := rfl
@[simp] theorem State.modShard_front (k : Nat) (f : Shard → Shard) (j : Nat) : (s.modShard k f).front j = s.front j := rfl
@[simp] theorem State.modShard_slot (k : Nat) (f : Shard → Shard) (j : Nat) : (s.modShard k f).slot j = s.slot j := rfl
@[simp] theorem State.modShard_session (k : Nat) (f : Shard → Shard) (j : Nat) : (s.modShard k f).session j = s.session j := rfl
@[simp] theorem State.modShard_dmaCh (k : Nat) (f : Shard → Shard) (j : Nat) : (s.modShard k f).dmaCh j = s.dmaCh j := rfl
@[simp] theorem State.modShard_get (k : Nat) (f : Shard → Shard) (g : Reg) : (s.modShard k f).get g = s.get g := rfl
@[simp] theorem State.modShard_getN (k : Nat) (f : Shard → Shard) (g : Reg) : (s.modShard k f).getN g = s.getN g := rfl

@[simp] theorem State.modSlot_region (k : Nat) (f : Slot → Slot) (j : Nat) : (s.modSlot k f).region j = s.region j := rfl
@[simp] theorem State.modSlot_str (k : Nat) (f : Slot → Slot) (j : Nat) : (s.modSlot k f).str j = s.str j := rfl
@[simp] theorem State.modSlot_course (k : Nat) (f : Slot → Slot) (j : Nat) : (s.modSlot k f).course j = s.course j := rfl
@[simp] theorem State.modSlot_chan (k : Nat) (f : Slot → Slot) (j : Nat) : (s.modSlot k f).chan j = s.chan j := rfl
@[simp] theorem State.modSlot_rail (k : Nat) (f : Slot → Slot) (j : Nat) : (s.modSlot k f).rail j = s.rail j := rfl
@[simp] theorem State.modSlot_conv (k : Nat) (f : Slot → Slot) (j : Nat) : (s.modSlot k f).conv j = s.conv j := rfl
@[simp] theorem State.modSlot_diode (k : Nat) (f : Slot → Slot) (j : Nat) : (s.modSlot k f).diode j = s.diode j := rfl
@[simp] theorem State.modSlot_front (k : Nat) (f : Slot → Slot) (j : Nat) : (s.modSlot k f).front j = s.front j := rfl
@[simp] theorem State.modSlot_shard (k : Nat) (f : Slot → Slot) (j : Nat) : (s.modSlot k f).shard j = s.shard j := rfl
@[simp] theorem State.modSlot_session (k : Nat) (f : Slot → Slot) (j : Nat) : (s.modSlot k f).session j = s.session j := rfl
@[simp] theorem State.modSlot_dmaCh (k : Nat) (f : Slot → Slot) (j : Nat) : (s.modSlot k f).dmaCh j = s.dmaCh j := rfl
@[simp] theorem State.modSlot_get (k : Nat) (f : Slot → Slot) (g : Reg) : (s.modSlot k f).get g = s.get g := rfl
@[simp] theorem State.modSlot_getN (k : Nat) (f : Slot → Slot) (g : Reg) : (s.modSlot k f).getN g = s.getN g := rfl

@[simp] theorem State.modSession_region (k : Nat) (f : Session → Session) (j : Nat) : (s.modSession k f).region j = s.region j := rfl
@[simp] theorem State.modSession_str (k : Nat) (f : Session → Session) (j : Nat) : (s.modSession k f).str j = s.str j := rfl
@[simp] theorem State.modSession_course (k : Nat) (f : Session → Session) (j : Nat) : (s.modSession k f).course j = s.course j := rfl
@[simp] theorem State.modSession_chan (k : Nat) (f : Session → Session) (j : Nat) : (s.modSession k f).chan j = s.chan j := rfl
@[simp] theorem State.modSession_rail (k : Nat) (f : Session → Session) (j : Nat) : (s.modSession k f).rail j = s.rail j := rfl
@[simp] theorem State.modSession_conv (k : Nat) (f : Session → Session) (j : Nat) : (s.modSession k f).conv j = s.conv j := rfl
@[simp] theorem State.modSession_diode (k : Nat) (f : Session → Session) (j : Nat) : (s.modSession k f).diode j = s.diode j := rfl
@[simp] theorem State.modSession_front (k : Nat) (f : Session → Session) (j : Nat) : (s.modSession k f).front j = s.front j := rfl
@[simp] theorem State.modSession_shard (k : Nat) (f : Session → Session) (j : Nat) : (s.modSession k f).shard j = s.shard j := rfl
@[simp] theorem State.modSession_slot (k : Nat) (f : Session → Session) (j : Nat) : (s.modSession k f).slot j = s.slot j := rfl
@[simp] theorem State.modSession_dmaCh (k : Nat) (f : Session → Session) (j : Nat) : (s.modSession k f).dmaCh j = s.dmaCh j := rfl
@[simp] theorem State.modSession_get (k : Nat) (f : Session → Session) (g : Reg) : (s.modSession k f).get g = s.get g := rfl
@[simp] theorem State.modSession_getN (k : Nat) (f : Session → Session) (g : Reg) : (s.modSession k f).getN g = s.getN g := rfl

@[simp] theorem State.modMbx_region (m : Nat) (f : Mailbox → Mailbox) (j : Nat) : (s.modMbx m f).region j = s.region j := rfl
@[simp] theorem State.modMbx_str (m : Nat) (f : Mailbox → Mailbox) (j : Nat) : (s.modMbx m f).str j = s.str j := rfl
@[simp] theorem State.modMbx_course (m : Nat) (f : Mailbox → Mailbox) (j : Nat) : (s.modMbx m f).course j = s.course j := rfl
@[simp] theorem State.modMbx_chan (m : Nat) (f : Mailbox → Mailbox) (j : Nat) : (s.modMbx m f).chan j = s.chan j := rfl
@[simp] theorem State.modMbx_rail (m : Nat) (f : Mailbox → Mailbox) (j : Nat) : (s.modMbx m f).rail j = s.rail j := rfl
@[simp] theorem State.modMbx_conv (m : Nat) (f : Mailbox → Mailbox) (j : Nat) : (s.modMbx m f).conv j = s.conv j := rfl
@[simp] theorem State.modMbx_diode (m : Nat) (f : Mailbox → Mailbox) (j : Nat) : (s.modMbx m f).diode j = s.diode j := rfl
@[simp] theorem State.modMbx_front (m : Nat) (f : Mailbox → Mailbox) (j : Nat) : (s.modMbx m f).front j = s.front j := rfl
@[simp] theorem State.modMbx_shard (m : Nat) (f : Mailbox → Mailbox) (j : Nat) : (s.modMbx m f).shard j = s.shard j := rfl
@[simp] theorem State.modMbx_slot (m : Nat) (f : Mailbox → Mailbox) (j : Nat) : (s.modMbx m f).slot j = s.slot j := rfl
@[simp] theorem State.modMbx_session (m : Nat) (f : Mailbox → Mailbox) (j : Nat) : (s.modMbx m f).session j = s.session j := rfl
@[simp] theorem State.modMbx_dmaCh (m : Nat) (f : Mailbox → Mailbox) (j : Nat) : (s.modMbx m f).dmaCh j = s.dmaCh j := rfl
@[simp] theorem State.modMbx_get (m : Nat) (f : Mailbox → Mailbox) (g : Reg) : (s.modMbx m f).get g = s.get g := rfl
@[simp] theorem State.modMbx_getN (m : Nat) (f : Mailbox → Mailbox) (g : Reg) : (s.modMbx m f).getN g = s.getN g := rfl

@[simp] theorem State.modI3c_region (f : I3c → I3c) (j : Nat) : (s.modI3c f).region j = s.region j := rfl
@[simp] theorem State.modI3c_str (f : I3c → I3c) (j : Nat) : (s.modI3c f).str j = s.str j := rfl
@[simp] theorem State.modI3c_course (f : I3c → I3c) (j : Nat) : (s.modI3c f).course j = s.course j := rfl
@[simp] theorem State.modI3c_chan (f : I3c → I3c) (j : Nat) : (s.modI3c f).chan j = s.chan j := rfl
@[simp] theorem State.modI3c_rail (f : I3c → I3c) (j : Nat) : (s.modI3c f).rail j = s.rail j := rfl
@[simp] theorem State.modI3c_conv (f : I3c → I3c) (j : Nat) : (s.modI3c f).conv j = s.conv j := rfl
@[simp] theorem State.modI3c_diode (f : I3c → I3c) (j : Nat) : (s.modI3c f).diode j = s.diode j := rfl
@[simp] theorem State.modI3c_front (f : I3c → I3c) (j : Nat) : (s.modI3c f).front j = s.front j := rfl
@[simp] theorem State.modI3c_shard (f : I3c → I3c) (j : Nat) : (s.modI3c f).shard j = s.shard j := rfl
@[simp] theorem State.modI3c_slot (f : I3c → I3c) (j : Nat) : (s.modI3c f).slot j = s.slot j := rfl
@[simp] theorem State.modI3c_session (f : I3c → I3c) (j : Nat) : (s.modI3c f).session j = s.session j := rfl
@[simp] theorem State.modI3c_dmaCh (f : I3c → I3c) (j : Nat) : (s.modI3c f).dmaCh j = s.dmaCh j := rfl
@[simp] theorem State.modI3c_get (f : I3c → I3c) (g : Reg) : (s.modI3c f).get g = s.get g := rfl
@[simp] theorem State.modI3c_getN (f : I3c → I3c) (g : Reg) : (s.modI3c f).getN g = s.getN g := rfl

@[simp] theorem State.modDmaCh_region (k : Nat) (f : DmaCh → DmaCh) (j : Nat) : (s.modDmaCh k f).region j = s.region j := rfl
@[simp] theorem State.modDmaCh_str (k : Nat) (f : DmaCh → DmaCh) (j : Nat) : (s.modDmaCh k f).str j = s.str j := rfl
@[simp] theorem State.modDmaCh_course (k : Nat) (f : DmaCh → DmaCh) (j : Nat) : (s.modDmaCh k f).course j = s.course j := rfl
@[simp] theorem State.modDmaCh_chan (k : Nat) (f : DmaCh → DmaCh) (j : Nat) : (s.modDmaCh k f).chan j = s.chan j := rfl
@[simp] theorem State.modDmaCh_rail (k : Nat) (f : DmaCh → DmaCh) (j : Nat) : (s.modDmaCh k f).rail j = s.rail j := rfl
@[simp] theorem State.modDmaCh_conv (k : Nat) (f : DmaCh → DmaCh) (j : Nat) : (s.modDmaCh k f).conv j = s.conv j := rfl
@[simp] theorem State.modDmaCh_diode (k : Nat) (f : DmaCh → DmaCh) (j : Nat) : (s.modDmaCh k f).diode j = s.diode j := rfl
@[simp] theorem State.modDmaCh_front (k : Nat) (f : DmaCh → DmaCh) (j : Nat) : (s.modDmaCh k f).front j = s.front j := rfl
@[simp] theorem State.modDmaCh_shard (k : Nat) (f : DmaCh → DmaCh) (j : Nat) : (s.modDmaCh k f).shard j = s.shard j := rfl
@[simp] theorem State.modDmaCh_slot (k : Nat) (f : DmaCh → DmaCh) (j : Nat) : (s.modDmaCh k f).slot j = s.slot j := rfl
@[simp] theorem State.modDmaCh_session (k : Nat) (f : DmaCh → DmaCh) (j : Nat) : (s.modDmaCh k f).session j = s.session j := rfl
@[simp] theorem State.modDmaCh_get (k : Nat) (f : DmaCh → DmaCh) (g : Reg) : (s.modDmaCh k f).get g = s.get g := rfl
@[simp] theorem State.modDmaCh_getN (k : Nat) (f : DmaCh → DmaCh) (g : Reg) : (s.modDmaCh k f).getN g = s.getN g := rfl

@[simp] theorem State.modTab_region (f : StrTab → StrTab) (j : Nat) : (s.modTab f).region j = s.region j := rfl
@[simp] theorem State.modTab_str (f : StrTab → StrTab) (j : Nat) : (s.modTab f).str j = s.str j := rfl
@[simp] theorem State.modTab_course (f : StrTab → StrTab) (j : Nat) : (s.modTab f).course j = s.course j := rfl
@[simp] theorem State.modTab_chan (f : StrTab → StrTab) (j : Nat) : (s.modTab f).chan j = s.chan j := rfl
@[simp] theorem State.modTab_rail (f : StrTab → StrTab) (j : Nat) : (s.modTab f).rail j = s.rail j := rfl
@[simp] theorem State.modTab_conv (f : StrTab → StrTab) (j : Nat) : (s.modTab f).conv j = s.conv j := rfl
@[simp] theorem State.modTab_diode (f : StrTab → StrTab) (j : Nat) : (s.modTab f).diode j = s.diode j := rfl
@[simp] theorem State.modTab_front (f : StrTab → StrTab) (j : Nat) : (s.modTab f).front j = s.front j := rfl
@[simp] theorem State.modTab_shard (f : StrTab → StrTab) (j : Nat) : (s.modTab f).shard j = s.shard j := rfl
@[simp] theorem State.modTab_slot (f : StrTab → StrTab) (j : Nat) : (s.modTab f).slot j = s.slot j := rfl
@[simp] theorem State.modTab_session (f : StrTab → StrTab) (j : Nat) : (s.modTab f).session j = s.session j := rfl
@[simp] theorem State.modTab_dmaCh (f : StrTab → StrTab) (j : Nat) : (s.modTab f).dmaCh j = s.dmaCh j := rfl
@[simp] theorem State.modTab_get (f : StrTab → StrTab) (g : Reg) : (s.modTab f).get g = s.get g := rfl
@[simp] theorem State.modTab_getN (f : StrTab → StrTab) (g : Reg) : (s.modTab f).getN g = s.getN g := rfl

/-! ## The unit updated -/

theorem getD_modify_same {α : Type} {l : List α} {i : Nat} (f : α → α) (d : α) (h : i < l.length) :
    (l.modify i f).getD i d = f (l.getD i d) := by
  simp [List.getD_eq_getElem?_getD, List.getElem?_eq_getElem h]

theorem getD_modify_other {α : Type} (l : List α) {i j : Nat} (f : α → α) (d : α) (h : j ≠ i) :
    (l.modify i f).getD j d = l.getD j d := by
  simp [List.getD_eq_getElem?_getD, Ne.symm h]

theorem State.modRegion_region_same {r : Nat} (f : Region → Region) (h : r < s.regions.length) :
    (s.modRegion r f).region r = f (s.region r) := getD_modify_same f _ h
theorem State.modRegion_region_other {r j : Nat} (f : Region → Region) (h : j ≠ r) :
    (s.modRegion r f).region j = s.region j := getD_modify_other _ f _ h

theorem State.modStr_str_same {i : Nat} (f : Str → Str) (h : i < s.strings.length) :
    (s.modStr i f).str i = f (s.str i) := getD_modify_same f _ h
theorem State.modStr_str_other {i j : Nat} (f : Str → Str) (h : j ≠ i) :
    (s.modStr i f).str j = s.str j := getD_modify_other _ f _ h

theorem State.modCourse_course_same {c : Nat} (f : Course → Course) (h : c < s.courses.length) :
    (s.modCourse c f).course c = f (s.course c) := getD_modify_same f _ h
theorem State.modCourse_course_other {c j : Nat} (f : Course → Course) (h : j ≠ c) :
    (s.modCourse c f).course j = s.course j := getD_modify_other _ f _ h

theorem State.modChan_chan_same {c : Nat} (f : Chan → Chan) (h : c < s.chans.length) :
    (s.modChan c f).chan c = f (s.chan c) := getD_modify_same f _ h
theorem State.modChan_chan_other {c j : Nat} (f : Chan → Chan) (h : j ≠ c) :
    (s.modChan c f).chan j = s.chan j := getD_modify_other _ f _ h

theorem State.modRail_rail_same {q : Nat} (f : Rail → Rail) (h : q < s.rails.length) :
    (s.modRail q f).rail q = f (s.rail q) := getD_modify_same f _ h
theorem State.modRail_rail_other {q j : Nat} (f : Rail → Rail) (h : j ≠ q) :
    (s.modRail q f).rail j = s.rail j := getD_modify_other _ f _ h

theorem State.modConv_conv_same {n : Nat} (f : Conv → Conv) (h : n < s.convs.length) :
    (s.modConv n f).conv n = f (s.conv n) := getD_modify_same f _ h
theorem State.modConv_conv_other {n j : Nat} (f : Conv → Conv) (h : j ≠ n) :
    (s.modConv n f).conv j = s.conv j := getD_modify_other _ f _ h

theorem State.modDiode_diode_same {r : Nat} (f : Diode → Diode) (h : r < s.therm.diodes.length) :
    (s.modDiode r f).diode r = f (s.diode r) := getD_modify_same f _ h
theorem State.modDiode_diode_other {r j : Nat} (f : Diode → Diode) (h : j ≠ r) :
    (s.modDiode r f).diode j = s.diode j := getD_modify_other _ f _ h

theorem State.modFront_front_same {q : Nat} (f : Front → Front) (h : q < s.therm.fronts.length) :
    (s.modFront q f).front q = f (s.front q) := getD_modify_same f _ h
theorem State.modFront_front_other {q j : Nat} (f : Front → Front) (h : j ≠ q) :
    (s.modFront q f).front j = s.front j := getD_modify_other _ f _ h

theorem State.modShard_shard_same {k : Nat} (f : Shard → Shard) (h : k < s.learn.shards.length) :
    (s.modShard k f).shard k = f (s.shard k) := getD_modify_same f _ h
theorem State.modShard_shard_other {k j : Nat} (f : Shard → Shard) (h : j ≠ k) :
    (s.modShard k f).shard j = s.shard j := getD_modify_other _ f _ h

theorem State.modSlot_slot_same {k : Nat} (f : Slot → Slot) (h : k < s.learn.slots.length) :
    (s.modSlot k f).slot k = f (s.slot k) := getD_modify_same f _ h
theorem State.modSlot_slot_other {k j : Nat} (f : Slot → Slot) (h : j ≠ k) :
    (s.modSlot k f).slot j = s.slot j := getD_modify_other _ f _ h

theorem State.modSession_session_same {k : Nat} (f : Session → Session) (h : k < s.dict.sessions.length) :
    (s.modSession k f).session k = f (s.session k) := getD_modify_same f _ h
theorem State.modSession_session_other {k j : Nat} (f : Session → Session) (h : j ≠ k) :
    (s.modSession k f).session j = s.session j := getD_modify_other _ f _ h

theorem State.modDmaCh_dmaCh_same {k : Nat} (f : DmaCh → DmaCh) (h : k < s.dma.ch.length) :
    (s.modDmaCh k f).dmaCh k = f (s.dmaCh k) := getD_modify_same f _ h
theorem State.modDmaCh_dmaCh_other {k j : Nat} (f : DmaCh → DmaCh) (h : j ≠ k) :
    (s.modDmaCh k f).dmaCh j = s.dmaCh j := getD_modify_other _ f _ h

/-! ## Updates of the parts of a region are updates of the region -/

@[simp] theorem State.modLoop_eq (r : Nat) (f : Loop → Loop) :
    s.modLoop r f = s.modRegion r fun x => { x with loop := f x.loop } := rfl
@[simp] theorem State.modStrum_eq (r : Nat) (f : Strum → Strum) :
    s.modStrum r f = s.modRegion r fun x => { x with strum := f x.strum } := rfl
@[simp] theorem State.modPre_eq (r : Nat) (f : Pre → Pre) :
    s.modPre r f = s.modRegion r fun x => { x with pre := f x.pre } := rfl
@[simp] theorem State.modWake_eq (r : Nat) (f : Wake → Wake) :
    s.modWake r f = s.modRegion r fun x => { x with wake := f x.wake } := rfl
@[simp] theorem State.modFret_eq (r : Nat) (f : Fret → Fret) :
    s.modFret r f = s.modRegion r fun x => { x with fret := f x.fret } := rfl
@[simp] theorem State.modRep_eq (r : Nat) (f : Report → Report) :
    s.modRep r f = s.modRegion r fun x => { x with rep := f x.rep } := rfl
@[simp] theorem State.modSup_eq (r : Nat) (f : Sup → Sup) :
    s.modSup r f = s.modRegion r fun x => { x with sup := f x.sup } := rfl
@[simp] theorem State.modPickup_eq (r p : Nat) (f : Pickup → Pickup) :
    s.modPickup r p f = s.modRegion r fun x => { x with pk := x.pk.modify p f } := rfl

/-! ## The guard -/

@[simp] theorem State.when_true (t : State) : s.when true t = t := rfl
@[simp] theorem State.when_false (t : State) : s.when false t = s := rfl

@[simp] theorem State.modBlk_blk (f : Block → Block) : (s.modBlk f).blk = f s.blk := rfl
@[simp] theorem State.modI3c_i3c (f : I3c → I3c) : (s.modI3c f).dict.i3c = f s.dict.i3c := rfl
@[simp] theorem State.modTab_tab (f : StrTab → StrTab) : (s.modTab f).dma.tab = f s.dma.tab := rfl

/-! ## The register file -/

theorem rfWf_tail {k : Nat} {v : Int} {m : RegFile} (h : rfWf ((k, v) :: m) = true) : rfWf m = true := by
  cases m with
  | nil => rfl
  | cons p m => simp only [rfWf, Bool.and_eq_true] at h; exact h.2

theorem rfWf_cons {k : Nat} {v : Int} {m : RegFile} :
    rfWf ((k, v) :: m) = true ↔ rfWf m = true ∧ ∀ p ∈ m.head?, k < p.1 := by
  cases m with
  | nil => simp [rfWf]
  | cons p m => simp [rfWf, and_comm]

theorem rfPut_head {m : RegFile} {a : Nat} {x : Int} {k : Nat} (hk : k < a) (h : ∀ p ∈ m.head?, k < p.1) :
    ∀ p ∈ (rfPut m a x).head?, k < p.1 := by
  cases m with
  | nil => simpa [rfPut] using hk
  | cons q m =>
    simp only [rfPut]; split
    · simpa using hk
    · split
      · simpa using hk
      · simpa using h

theorem rfWf_put {m : RegFile} (a : Nat) (x : Int) (h : rfWf m = true) : rfWf (rfPut m a x) = true := by
  induction m with
  | nil => rfl
  | cons p m ih =>
    obtain ⟨k, v⟩ := p
    rw [rfWf_cons] at h
    simp only [rfPut]
    split
    · rename_i hlt; exact rfWf_cons.mpr ⟨rfWf_cons.mpr h, by simpa using hlt⟩
    · split
      · rename_i he; subst he; exact rfWf_cons.mpr h
      · exact rfWf_cons.mpr ⟨ih h.1, rfPut_head (by omega) h.2⟩

theorem rfDel_mem {m : RegFile} {a : Nat} : ∀ p ∈ rfDel m a, p ∈ m := by
  induction m with
  | nil => simp [rfDel]
  | cons q m ih =>
    obtain ⟨k, v⟩ := q
    simp only [rfDel]; split
    · exact fun p hp => List.mem_cons_of_mem _ hp
    · intro p hp
      rcases List.mem_cons.mp hp with rfl | hp
      · exact List.mem_cons_self ..
      · exact List.mem_cons_of_mem _ (ih p hp)

theorem rfWf_lt {k : Nat} {v : Int} {m : RegFile} (h : rfWf ((k, v) :: m) = true) : ∀ p ∈ m, k < p.1 := by
  induction m generalizing k v with
  | nil => simp
  | cons q m ih =>
    rw [rfWf_cons] at h
    intro p hp
    have hq : k < q.1 := h.2 q (by simp)
    rcases List.mem_cons.mp hp with rfl | hp
    · exact hq
    · exact Nat.lt_trans hq (ih (v := q.2) h.1 p hp)

theorem rfWf_del {m : RegFile} (a : Nat) (h : rfWf m = true) : rfWf (rfDel m a) = true := by
  induction m with
  | nil => rfl
  | cons p m ih =>
    obtain ⟨k, v⟩ := p
    simp only [rfDel]; split
    · exact rfWf_tail h
    · refine rfWf_cons.mpr ⟨ih (rfWf_tail h), fun q hq => rfWf_lt h q (rfDel_mem q (List.mem_of_mem_head? hq))⟩

theorem rfGet_put_same (m : RegFile) (a : Nat) (x : Int) : rfGet (rfPut m a x) a = some x := by
  induction m with
  | nil => simp [rfPut, rfGet]
  | cons p m ih =>
    obtain ⟨k, v⟩ := p
    simp only [rfPut]; split
    · simp [rfGet]
    · split
      · simp [rfGet]
      · rename_i h; simp [rfGet, h, ih]

theorem rfGet_put_other {a b : Nat} (m : RegFile) (x : Int) (h : b ≠ a) : rfGet (rfPut m a x) b = rfGet m b := by
  induction m with
  | nil => simp [rfPut, rfGet, h]
  | cons p m ih =>
    obtain ⟨k, v⟩ := p
    simp only [rfPut]; split
    · simp [rfGet, h]
    · split
      · rename_i hk; subst hk; simp [rfGet, h]
      · simp [rfGet, ih]

theorem rfGet_none {m : RegFile} {a : Nat} (h : ∀ p ∈ m, a ≠ p.1) : rfGet m a = none := by
  induction m with
  | nil => rfl
  | cons p m ih =>
    have := h p (by simp)
    simp only [rfGet, this, if_false]; exact ih fun q hq => h q (List.mem_cons_of_mem _ hq)

theorem rfGet_del_same {m : RegFile} (a : Nat) (h : rfWf m = true) : rfGet (rfDel m a) a = none := by
  induction m with
  | nil => rfl
  | cons p m ih =>
    obtain ⟨k, v⟩ := p
    simp only [rfDel]; split
    · rename_i hk; subst hk; exact rfGet_none fun q hq => Nat.ne_of_lt (rfWf_lt h q hq)
    · rename_i hk; simp [rfGet, hk, ih (rfWf_tail h)]

theorem rfGet_del_other {a b : Nat} (m : RegFile) (h : b ≠ a) : rfGet (rfDel m a) b = rfGet m b := by
  induction m with
  | nil => rfl
  | cons p m ih =>
    obtain ⟨k, v⟩ := p
    simp only [rfDel]; split
    · rename_i hk; subst hk; simp [rfGet, h]
    · simp [rfGet, ih]

theorem State.get_set_same {g : Reg} (v : Int) (h : rfWf s.regs = true) : (s.set g v).get g = v := by
  unfold State.get State.set
  split
  · rename_i e; simp [rfGet_del_same _ h, e]
  · simp [rfGet_put_same]

theorem State.get_set_other {g k : Reg} (v : Int) (h : k.addr ≠ g.addr) : (s.set g v).get k = s.get k := by
  unfold State.get State.set
  split
  · simp [rfGet_del_other _ h]
  · simp [rfGet_put_other _ _ h]

theorem State.getN_set_same {g : Reg} (v : Int) (h : rfWf s.regs = true) : (s.set g v).getN g = v.toNat := by
  unfold State.getN; rw [State.get_set_same s v h]

theorem State.getN_set_other {g k : Reg} (v : Int) (h : k.addr ≠ g.addr) : (s.set g v).getN k = s.getN k := by
  unfold State.getN; rw [State.get_set_other s v h]

theorem State.get_count_same {g : Reg} (w k : Nat) (h : rfWf s.regs = true) :
    (s.count g w k).get g = (s.get g + k) % (2 ^ w : Nat) := s.get_set_same _ h

theorem State.get_count_other {g j : Reg} (w k : Nat) (h : j.addr ≠ g.addr) : (s.count g w k).get j = s.get j :=
  s.get_set_other _ h

end Sys2Proof.Machine
end

