-- ==== Sys2Proof/Laws/Dict.lean ====
section
/-! SUPPORT. How a dictionary command reaches its object: which row an index and sub-index find, how a number survives
its bytes, and what a served WRITE or READ of one frame comes to. -/

set_option linter.all false

namespace Sys2Proof.Machine

/-- A unit that exists names its own object. -/
theorem unitObj_of_lt {base n i : Nat} (h : i < n) : unitObj base n i = base + i := if_pos h

/-! ## Finding a row of the object table -/

/-- The row at a base index that holds a sub-index. -/
def rowAt (lo sub : Nat) : Option ObjRow :=
  objTable.find? fun w => w.base == lo && decide (w.sub ≤ sub) && decide (sub < w.sub + w.cnt)

/-- No row overlaps the `n` indices from `lo` on but those with just these indices. -/
def spanAlone (lo n : Nat) : Bool :=
  objTable.all fun w =>
    (w.base == lo && w.n == n) || (w.base != lo && (decide (w.base + w.n ≤ lo) || decide (lo + n ≤ w.base)))

theorem find_holds {lo n sub idx : Nat} (h : spanAlone lo n = true) (h1 : lo ≤ idx) (h2 : idx < lo + n) :
    objTable.find? (fun w => w.holds idx sub) = rowAt lo sub := by
  unfold rowAt
  unfold spanAlone at h
  revert h
  generalize objTable = l
  induction l with
  | nil => intro _; rfl
  | cons w l ih =>
    intro h
    simp only [List.all_cons, Bool.and_eq_true] at h
    simp only [List.find?_cons, ih h.2]
    have : w.holds idx sub = (w.base == lo && decide (w.sub ≤ sub) && decide (sub < w.sub + w.cnt)) := by
      have h := h.1
      simp only [Bool.or_eq_true, Bool.and_eq_true, beq_iff_eq, bne_iff_ne, decide_eq_true_eq] at h
      unfold ObjRow.holds ObjRow.covers
      rcases h with ⟨rfl, rfl⟩ | ⟨h0, h⟩
      · simp [h1, h2]
      · have : (decide (w.base ≤ idx) && decide (idx < w.base + w.n)) = false := by
          simp only [Bool.and_eq_false_iff, decide_eq_false_iff_not]; omega
        simp [this, h0]
    rw [this]

/-- R431: the object of a populated index, in a unit that is present. -/
theorem findObj_row {c : Config} {idx sub lo n : Nat} {w : ObjRow} (hs : spanAlone lo n = true) (hw : rowAt lo sub = some w)
    (h1 : lo ≤ idx) (h2 : idx < lo + n) (hm : idx ≠ mirrorIndex) (h0 : sub ≠ 0) (hu : Config.unpopulated c idx = false)
    (ho : Config.owns c w.own = true) (he : subExists idx sub = true) : findObj c idx sub = .ok (w.obj idx sub) := by
  have hf := find_holds (sub := sub) hs h1 h2
  rw [hw] at hf
  have hwm := List.mem_of_find?_eq_some hf
  have hwh : w.holds idx sub = true := List.find?_some (p := fun v => ObjRow.holds v idx sub) hf
  have hc : w.covers idx = true := by
    unfold ObjRow.holds at hwh
    simp only [Bool.and_eq_true] at hwh
    exact hwh.1.1
  have hmem : w ∈ objTable.filter fun w => w.covers idx := List.mem_filter.mpr ⟨hwm, hc⟩
  have hff : (objTable.filter fun w => w.covers idx).find? (fun w => w.holds idx sub) = some w := by
    rw [List.find?_filter, ← hf]
    congr 1
    funext v
    cases hv : v.holds idx sub
    · simp
    · unfold ObjRow.holds at hv
      simp only [Bool.and_eq_true] at hv
      simp [hv.1.1]
  unfold findObj
  have e1 : (objTable.filter fun w => w.covers idx).isEmpty = false := by
    cases h : objTable.filter fun w => w.covers idx with
    | nil => rw [h] at hmem; cases hmem
    | cons _ _ => rfl
  have e2 : ((objTable.filter fun w => w.covers idx).all fun w => !Config.owns c w.own) = false := by
    rw [Bool.eq_false_iff]
    intro h
    have := List.all_eq_true.mp h w hmem
    simp [ho] at this
  simp only [hu, hm, h0, e1, e2, hff, ho, he, if_false, Bool.false_eq_true, Bool.not_true]

/-! ## Numbers and their bytes (R427) -/

theorem leNat_leBytes (n v : Nat) : leNat (leBytes n v) = v % 256 ^ n := by
  induction n generalizing v with
  | zero => simp [leBytes, leNat, Nat.mod_one]
  | succ n ih =>
    simp only [leBytes, leNat, ih, Nat.mod_mod, Nat.pow_succ, Nat.mul_comm (256 ^ n) 256, Nat.mod_mul]

theorem length_leBytes (n v : Nat) : (leBytes n v).length = n := by
  induction n generalizing v with
  | zero => rfl
  | succ n ih => simp [leBytes, ih]

theorem leBytes_lt (n v : Nat) : ∀ b ∈ leBytes n v, b < 256 := by
  induction n generalizing v with
  | zero => simp [leBytes]
  | succ n ih =>
    intro b hb
    rcases List.mem_cons.mp hb with rfl | hb
    · exact Nat.mod_lt _ (by decide)
    · exact ih _ b hb

theorem decode_encode {t : Ty} {v : Nat} (ht : t.signed = false) (hv : v < 2 ^ (8 * t.length)) :
    t.decode (t.encode v) = v := by
  have h256 : (256 : Nat) ^ t.length = 2 ^ (8 * t.length) := by rw [Nat.pow_mul]
  unfold Ty.decode Ty.encode
  rw [ht, leNat_leBytes, h256]
  simp only [Bool.false_eq_true, if_false, ofSigned]
  have : ((v : Int) % ((2 ^ (8 * t.length) : Nat) : Int)).toNat = v := by
    rw [← Int.natCast_emod, Int.toNat_natCast, Nat.mod_eq_of_lt hv]
  rw [this, Nat.mod_eq_of_lt hv]

theorem decode_encode_signed {t : Ty} {v : Int} (ht : t.signed = true) (h0 : 0 < t.length)
    (hl : -(2 ^ (8 * t.length - 1) : Nat) ≤ v) (hh : v < (2 ^ (8 * t.length - 1) : Nat)) : t.decode (t.encode v) = v := by
  have h256 : (256 : Nat) ^ t.length = 2 ^ (8 * t.length) := by rw [Nat.pow_mul]
  have h2 : 2 ^ (8 * t.length) = 2 * 2 ^ (8 * t.length - 1) := by
    rw [← Nat.pow_succ', Nat.succ_eq_add_one, Nat.sub_add_cancel (by omega)]
  have hlt : ofSigned (8 * t.length) v < 2 ^ (8 * t.length) := by
    unfold ofSigned
    have := Int.emod_lt_of_pos v (b := ((2 ^ (8 * t.length) : Nat) : Int)) (by omega)
    omega
  have hof : (ofSigned (8 * t.length) v : Int) = if v < 0 then v + (2 ^ (8 * t.length) : Nat) else v := by
    unfold ofSigned
    split
    · rw [← Int.add_emod_right, Int.emod_eq_of_lt (by omega) (by omega)]; omega
    · rw [Int.emod_eq_of_lt (by omega) (by omega)]; omega
  unfold Ty.decode Ty.encode
  rw [ht, leNat_leBytes, h256, Nat.mod_eq_of_lt hlt]
  generalize ofSigned (8 * t.length) v = u at *
  simp only [if_true, toSigned]
  split at hof <;> split <;> omega

theorem slice_all (b : List Byte) : slice b 0 b.length = b := by
  unfold slice
  apply List.ext_getElem
  · simp
  · intro i h1 h2
    simp [List.getD_eq_getElem?_getD, List.getElem?_eq_getElem h2]

/-! ## A request of one frame -/

theorem fit_write {sess idx sub : Nat} {b : List Byte} (hb : ∀ x ∈ b, x < 256) (h : sess < 256) (hi : idx < 65536)
    (hs : sub < 256) : ({ op := opWrite, sess, idx, sub, flags := 1, off := 0, data := b } : Req).fit =
      { op := opWrite, sess, idx, sub, flags := 1, off := 0, data := b } := by
  have : b.map (· % 256) = b := by
    conv => rhs; rw [← List.map_id b]
    exact List.map_congr_left fun x hx => Nat.mod_eq_of_lt (hb x hx)
  simp only [Req.fit, this, Nat.mod_eq_of_lt h, Nat.mod_eq_of_lt hi, Nat.mod_eq_of_lt hs]
  rfl

theorem putBytes_one (s : State) (p : Path) (sess idx sub : Nat) (b : List Byte) (h : b.length ≤ pathRoom p) :
    s.putBytes p sess idx sub b = s.request p { op := opWrite, sess, idx, sub, flags := 1, off := 0, data := b } := by
  have hr : 0 < pathRoom p := by cases p <;> decide
  have hn : max 1 (ceilDiv b.length (pathRoom p)) = 1 := by
    have : ceilDiv b.length (pathRoom p) ≤ 1 := by
      unfold ceilDiv
      apply Nat.le_of_lt_succ
      rw [Nat.div_lt_iff_lt_mul hr]; omega
    omega
  unfold State.putBytes
  simp only [hn]
  simp only [overAll, List.range_one, List.foldl_cons, List.foldl_nil, Nat.mul_zero, Nat.sub_zero, Nat.min_eq_right h,
    slice_all, if_true]

theorem complete_eq (s : State) (p : Path) (q : Req) : s.complete p q = s.complete p { op := q.op, sess := q.sess } := rfl

/-- A served request with a response at once. -/
theorem request_served {s u : State} {p : Path} {q : Req} {x : Resp} (hq : q.fit = q) (h : s.blk.st.serves = true)
    (hi : s.pathBusy p = false) (hp : (p == .ring && q.op != opWrite) = false) (hr : s.serve p q = (some x, u)) :
    s.request p q = ((u.complete p q).deliver p x).noteLines := by
  have ho : (s.blk.st == .off) = false := by cases hs : s.blk.st <;> simp_all [BState.serves]
  unfold State.request
  simp [hq, ho, hi, h, hr, hp]

/-- A WRITE of one frame. -/
theorem putBytes_served {s : State} {p : Path} {sess k idx sub : Nat} {o : Obj'} {b : List Byte} (h : s.Serves p sess k)
    (hb : ∀ x ∈ b, x < 256) (hi : idx < 65536) (hs : sub < 256)
    (ho : s.lookup true (s.session k).keeper idx sub = .ok o) (hl : b.length = o.ty.length) (hl' : b.length ≤ 48) :
    s.putBytes p sess idx sub b =
      (s.writeWhole p k o b).2.answered p sess opWrite (s.writeWhole p k o b).1
        (if (s.writeWhole p k o b).1 = 0 then o.ty.length else 0) := by
  have hroom : b.length ≤ pathRoom p := by cases p <;> simp [pathRoom] <;> omega
  rw [putBytes_one _ _ _ _ _ _ hroom]
  have hput : s.modSession k (fun x => { x with wbuf := none }) = s := by
    unfold State.modSession
    have : s.dict.sessions.modify k (fun x => { x with wbuf := none }) = s.dict.sessions := by
      apply List.ext_getElem?
      intro j
      rw [List.getElem?_modify]
      split
      · rename_i e; subst e
        cases hx : s.dict.sessions[k]? with
        | none => rfl
        | some x =>
          have hf := h.fresh
          have hk : s.session k = x := by
            unfold State.session; rw [List.getD_eq_getElem?_getD, hx]; rfl
          rw [hk] at hf
          cases x; simp_all
      · simp
    rw [this]
  have hserve : s.serve p { op := opWrite, sess, idx, sub, flags := 1, off := 0, data := b } =
      (some { op := opWrite, sess, status := (s.writeWhole p k o b).1,
              objLen := if (s.writeWhole p k o b).1 = 0 then o.ty.length else 0 }, (s.writeWhole p k o b).2) := by
    have hbit : bit 1 0 = true := by decide
    unfold State.serve
    simp only [opWrite, opOpen, opClose, opRead, State.serveWrite, h.slot, ho]
    cases hk : o.ty.isBlob
    · simp only [State.writeScalar, hl, hbit]; simp
    · have hg : gather (s.session k).wbuf o.addr o.ty.length 0 true b = .whole b := by
        rw [h.fresh]; unfold gather; simp [hl.symm]; omega
      simp only [State.writeBlob, hbit, hg, hput]; simp
  rw [request_served (fit_write hb h.byte hi hs) h.serves h.idle (by cases p <;> rfl) hserve]
  rfl

/-- R431: the checks that a write of a found object passes. -/
theorem lookup_write {s : State} {keeper : Bool} {idx sub : Nat} {o : Obj'} (hf : findObj s.cfg idx sub = .ok o)
    (hs : s.selectionAbsent o = false) (ha : (o.acc == .ro) = false) (hk : (o.acc == .rwk && !keeper) = false) :
    s.lookup true keeper idx sub = .ok o := by
  unfold State.lookup
  simp only [hf, hs, ha, hk, if_true, Bool.false_eq_true, if_false]

theorem lookup_read {s : State} {keeper : Bool} {idx sub : Nat} {o : Obj'} (hf : findObj s.cfg idx sub = .ok o)
    (hs : s.selectionAbsent o = false) (ha : (o.acc == .wo) = false) : s.lookup false keeper idx sub = .ok o := by
  unfold State.lookup
  simp only [hf, hs, ha, Bool.false_eq_true, if_false]

/-- A WRITE of a number. -/
theorem putNum_served {s : State} {p : Path} {sess k idx sub : Nat} {o : Obj'} {v : Int} (h : s.Serves p sess k)
    (hi : idx < 65536) (hs : sub < 256) (hf : findObj s.cfg idx sub = .ok o) (hsel : s.selectionAbsent o = false)
    (ha : (o.acc == .ro) = false) (hk : (o.acc == .rwk && !(s.session k).keeper) = false) (hl : o.ty.length ≤ 48) :
    s.putNum p sess idx sub v =
      (s.writeWhole p k o (o.ty.encode v)).2.answered p sess opWrite (s.writeWhole p k o (o.ty.encode v)).1
        (if (s.writeWhole p k o (o.ty.encode v)).1 = 0 then o.ty.length else 0) := by
  unfold State.putNum
  simp only [hf]
  have he : (o.ty.encode v).length = o.ty.length := length_leBytes _ _
  exact putBytes_served h (leBytes_lt _ _) hi hs (lookup_write hf hsel ha hk) he (by omega)

/-- A whole value that is not staged and that lies in its range, or is brought into it. -/
theorem writeWhole_value {s : State} {p : Path} {k : Nat} {o : Obj'} {b : List Byte} {w : Int} (hg : o.grp = 0)
    (hr : o.rng.apply (o.ty.decode b) = some w) : s.writeWhole p k o b = s.writeValue p k o w b := by
  unfold State.writeWhole
  simp [hg, hr]

/-- A WRITE of a number and what its object does with it. -/
theorem putNum_does {s u : State} {p : Path} {sess k idx sub st : Nat} {o : Obj'} {v w : Int} (h : s.Serves p sess k)
    (hi : idx < 65536) (hs : sub < 256) (hf : findObj s.cfg idx sub = .ok o) (hsel : s.selectionAbsent o = false)
    (ha : (o.acc == .ro) = false) (hk : (o.acc == .rwk && !(s.session k).keeper) = false) (hl : o.ty.length ≤ 48)
    (hg : o.grp = 0) (hr : o.rng.apply (o.ty.decode (o.ty.encode v)) = some w)
    (hv : s.writeValue p k o w (o.ty.encode v) = (st, u)) :
    s.putNum p sess idx sub v = u.answered p sess opWrite st (if st = 0 then o.ty.length else 0) := by
  rw [putNum_served h hi hs hf hsel ha hk hl, writeWhole_value hg hr, hv]

/-- A WRITE of bytes that one frame holds, and what their object does with them. -/
theorem putBytes_does {s u : State} {p : Path} {sess k idx sub st : Nat} {o : Obj'} {b : List Byte} {w : Int}
    (h : s.Serves p sess k) (hb : ∀ x ∈ b, x < 256) (hi : idx < 65536) (hs : sub < 256)
    (hf : findObj s.cfg idx sub = .ok o) (hsel : s.selectionAbsent o = false) (ha : (o.acc == .ro) = false)
    (hk : (o.acc == .rwk && !(s.session k).keeper) = false) (hl : b.length = o.ty.length) (hl' : b.length ≤ 48)
    (hg : o.grp = 0) (hr : o.rng.apply (o.ty.decode b) = some w) (hv : s.writeValue p k o w b = (st, u)) :
    s.putBytes p sess idx sub b = u.answered p sess opWrite st (if st = 0 then o.ty.length else 0) := by
  rw [putBytes_served h hb hi hs (lookup_write hf hsel ha hk) hl hl', writeWhole_value hg hr, hv]

/-- A READ of a number. -/
theorem getObj_served {s : State} {p : Path} {sess k idx sub : Nat} {o : Obj'} (h : s.Serves p sess k)
    (hp : p ≠ .ring) (hn : sess ≠ noSession) (hi : idx < 65536) (hs : sub < 256) (hf : findObj s.cfg idx sub = .ok o)
    (hsel : s.selectionAbsent o = false) (ha : (o.acc == .wo) = false) (hb : o.ty.isBlob = false) :
    s.getObj p sess idx sub =
      (s.readEffect o).answered p sess opRead 0 o.ty.length (s.objBytes (some k) o) := by
  have hq : ({ op := opRead, sess, idx, sub } : Req).fit = { op := opRead, sess, idx, sub } := by
    simp only [Req.fit, Nat.mod_eq_of_lt h.byte, Nat.mod_eq_of_lt hi, Nat.mod_eq_of_lt hs]; rfl
  have hserve : s.serve p { op := opRead, sess, idx, sub } =
      (some { op := opRead, sess, status := 0, objLen := o.ty.length, data := s.objBytes (some k) o }, s.readEffect o) := by
    unfold State.serve
    simp [opOpen, opClose, opRead, State.serveRead, h.slot, hn, lookup_read hf hsel ha, hb, okRead]
  unfold State.getObj
  rw [request_served hq h.serves h.idle (by cases p <;> simp_all) hserve]
  rfl

end Sys2Proof.Machine
end

