-- ==== Sys2Proof/Laws/Moves.lean ====
section
/-! SUPPORT. How a state may move: from one state to another at most the parts listed change, and whatever changes, the
sizes of the tables, the form of the register file and the ranges of the set-points stay. The lemmas here say how moves
compose and what the smallest updates move; the files `Laws/Moves…` hold one lemma for each operation. -/

set_option linter.all false

namespace Sys2Proof.Machine

/-- What every operation keeps, whatever it changes. -/
structure State.Kept (s t : State) : Prop where
  cfg : t.cfg = s.cfg
  units : s.Units → t.Units
  time : s.now < 2 ^ 64 → t.now < 2 ^ 64
  regs : rfWf s.regs = true → rfWf t.regs = true
  staged : rfWf s.dict.staged = true → rfWf t.dict.staged = true
  sp : s.RailsOk → t.RailsOk

/-- From `s` to `t` only parts of the list change, and what is always kept is kept. -/
structure State.Moves (l : List Part) (s t : State) : Prop where
  frame : State.Frame l s t
  kept : s.Kept t

theorem State.same_refl (s : State) (p : Part) : s.same s p := by cases p <;> rfl

theorem State.same_trans {s t u : State} {p : Part} (h : s.same t p) (k : t.same u p) : s.same u p := by
  cases p <;> exact Eq.trans k h

theorem State.Kept.refl (s : State) : s.Kept s := by constructor <;> first | rfl | exact id

theorem State.Kept.trans {s t u : State} (h : s.Kept t) (k : t.Kept u) : s.Kept u where
  cfg := k.cfg.trans h.cfg
  units := k.units ∘ h.units
  time := k.time ∘ h.time
  regs := k.regs ∘ h.regs
  staged := k.staged ∘ h.staged
  sp := k.sp ∘ h.sp

theorem State.Moves.refl (l : List Part) (s : State) : s.Moves l s := ⟨fun p _ => s.same_refl p, .refl s⟩

/-- A further operation, whose parts are among those listed. -/
theorem State.Moves.step {l m : List Part} {s t u : State} (h : s.Moves l t) (k : t.Moves m u)
    (hm : m.all (fun p => l.contains p) = true) : s.Moves l u :=
  ⟨fun p hp => State.same_trans (h.frame p hp) (k.frame p fun hq => hp
      (List.contains_iff_mem.mp (List.all_eq_true.mp hm p hq))), h.kept.trans k.kept⟩

theorem State.Moves.mono {l m : List Part} {s t : State} (h : s.Moves m t)
    (hm : m.all (fun p => l.contains p) = true) : s.Moves l t := (State.Moves.refl l s).step h hm

/-- An update of fields, found by the configuration it keeps. -/
theorem State.Moves.put {l : List Part} {s t : State} {c n b ra re st co ch e u ca te tu hi le th cv cg di dm rc ck rg f p}
    (h : s.Moves l t) (_hc : c = t.cfg)
    (hf : State.Frame l t ⟨c, n, b, ra, re, st, co, ch, e, u, ca, te, tu, hi, le, th, cv, cg, di, dm, rc, ck, rg, f, p⟩)
    (hk : t.Kept ⟨c, n, b, ra, re, st, co, ch, e, u, ca, te, tu, hi, le, th, cv, cg, di, dm, rc, ck, rg, f, p⟩) :
    s.Moves l ⟨c, n, b, ra, re, st, co, ch, e, u, ca, te, tu, hi, le, th, cv, cg, di, dm, rc, ck, rg, f, p⟩ :=
  ⟨fun p hp => State.same_trans (h.frame p hp) (hf p hp), h.kept.trans hk⟩

theorem State.Moves.ite {l : List Part} {s a b : State} {c : Prop} [Decidable c] (ha : s.Moves l a) (hb : s.Moves l b) :
    s.Moves l (if c then a else b) := by split <;> assumption

theorem State.Moves.ite_snd {l : List Part} {s : State} {α : Type} {a b : α × State} {c : Prop} [Decidable c]
    (ha : s.Moves l a.2) (hb : s.Moves l b.2) : s.Moves l (if c then a else b).2 := by split <;> assumption

theorem State.Moves.ite_fst {l : List Part} {s : State} {α : Type} {a b : State × α} {c : Prop} [Decidable c]
    (ha : s.Moves l a.1) (hb : s.Moves l b.1) : s.Moves l (if c then a else b).1 := by split <;> assumption

theorem State.Moves.when {l : List Part} {s t : State} {b : Bool} (h : s.Moves l t) : s.Moves l (s.when b t) := by
  unfold State.when; split
  · exact h
  · exact .refl l s

theorem State.Moves.whenOf {l : List Part} {s u t : State} {b : Bool} (hu : s.Moves l u) (h : s.Moves l t) :
    s.Moves l (u.when b t) := by
  unfold State.when; split <;> assumption

theorem State.Moves.overAll {l : List Part} {s t : State} {α : Type} {xs : List α} {f : State → α → State}
    (hf : ∀ u x, State.Moves l u (f u x)) (h : s.Moves l t) : s.Moves l (overAll t xs f) := by
  unfold Machine.overAll
  induction xs generalizing t with
  | nil => exact h
  | cons x xs ih => exact ih (h.step (hf t x) (by simp))

/-- A fold whose body moves nothing else. -/
theorem State.Moves.foldl {l : List Part} {s t : State} {α : Type} {xs : List α} {f : State → α → State}
    (hf : ∀ u x, State.Moves l u (f u x)) (h : s.Moves l t) : s.Moves l (xs.foldl f t) := .overAll hf h

/-! ## The smallest updates -/

theorem railsOk_of_eq {s t : State} (h : ∀ q, q < 3 → (t.rail q).spCalc = (s.rail q).spCalc ∧ (t.rail q).spOut = (s.rail q).spOut) :
    s.RailsOk → t.RailsOk := fun k q hq => by rw [(h q hq).1, (h q hq).2]; exact k q hq

theorem rail_map {s : State} {f : Rail → Rail} (hf : ∀ x, (f x).spCalc = x.spCalc ∧ (f x).spOut = x.spOut)
    (q : Nat) :
    ((s.rails.map f).getD q {}).spCalc = (s.rail q).spCalc ∧ ((s.rails.map f).getD q {}).spOut = (s.rail q).spOut := by
  unfold State.rail
  rcases Nat.lt_or_ge q s.rails.length with h | h
  · simp [List.getD_eq_getElem?_getD, List.getElem?_eq_getElem h, hf]
  · simp [List.getD_eq_getElem?_getD, List.getElem?_eq_none h]

theorem rail_modify {s : State} {f : Rail → Rail} (p : Nat) (hf : ∀ x, (f x).spCalc = x.spCalc ∧ (f x).spOut = x.spOut)
    (q : Nat) :
    ((s.rails.modify p f).getD q {}).spCalc = (s.rail q).spCalc ∧
      ((s.rails.modify p f).getD q {}).spOut = (s.rail q).spOut := by
  unfold State.rail
  rcases Nat.lt_or_ge q s.rails.length with h | h
  · simp only [List.getD_eq_getElem?_getD, List.getElem?_modify, List.getElem?_eq_getElem h, Option.getD_some]
    split <;> simp [hf]
  · simp [List.getD_eq_getElem?_getD, List.getElem?_modify, List.getElem?_eq_none h]

/-- The sizes of the tables but for the rails. -/
def State.sizes (s : State) : List Nat :=
  [s.regions.length, s.strings.length, s.courses.length, s.chans.length, s.convs.length]

theorem State.Units.of_sizes {t v : State} (hl : v.sizes = t.sizes) (hx : v.rails.length = t.rails.length) :
    t.Units → v.Units := by
  simp only [State.sizes, List.cons.injEq, and_true] at hl
  rintro ⟨h1, h2, h3, h4, h5, h6⟩
  constructor <;> omega

theorem State.Kept.of {t v : State} (hl : v.sizes = t.sizes) (hc : v.cfg = t.cfg)
    (hr : (v.now, v.regs, v.dict.staged) = (t.now, t.regs, t.dict.staged)) (hx : v.rails = t.rails) : t.Kept v := by
  simp only [Prod.mk.injEq] at hr
  refine ⟨hc, .of_sizes hl (by rw [hx]), by rw [hr.1]; exact id, by rw [hr.2.1]; exact id,
    by rw [hr.2.2]; exact id, ?_⟩
  unfold State.RailsOk State.rail
  rw [hx]; exact id

/-- The rails changed, one by one and not in their set-points. -/
theorem State.Kept.ofRails {t v : State} (f : Rail → Rail) (hl : v.sizes = t.sizes) (hc : v.cfg = t.cfg)
    (hr : (v.now, v.regs, v.dict.staged) = (t.now, t.regs, t.dict.staged))
    (hf : ∀ x, (f x).spCalc = x.spCalc ∧ (f x).spOut = x.spOut) (hx : v.rails = t.rails.map f) : t.Kept v := by
  simp only [Prod.mk.injEq] at hr
  refine ⟨hc, .of_sizes hl (by rw [hx, List.length_map]), by rw [hr.1]; exact id,
    by rw [hr.2.1]; exact id, by rw [hr.2.2]; exact id, railsOk_of_eq fun q _ => ?_⟩
  unfold State.rail at *
  rw [hx]; exact rail_map hf q

theorem State.moves_set (s : State) (g : Reg) (v : Int) : s.Moves [.regs] (s.set g v) := by
  refine ⟨fun p hp => by cases p <;> first | exact absurd (by decide) hp | rfl, ?_⟩
  refine ⟨rfl, .of_sizes rfl rfl, id, fun h => ?_, id, id⟩
  simp only [State.set]; split
  · exact rfWf_del _ h
  · exact rfWf_put _ _ h

theorem State.moves_modRail (s : State) (q : Nat) (f : Rail → Rail)
    (hf : ∀ x, (f x).spCalc = x.spCalc ∧ (f x).spOut = x.spOut) : s.Moves [.rails] (s.modRail q f) := by
  refine ⟨fun p hp => by cases p <;> first | exact absurd (by decide) hp | rfl, ?_⟩
  exact ⟨rfl, .of_sizes rfl (List.length_modify ..), id, id, id, railsOk_of_eq fun p _ => rail_modify q hf p⟩

theorem State.moves_modBlk (s : State) (f : Block → Block) (hf : ∀ b, (f b).st = b.st) :
    s.Moves [.blk] (s.modBlk f) :=
  ⟨fun p hp => by cases p <;> first | exact absurd (by decide) hp | rfl | exact hf _, .of rfl rfl rfl rfl⟩

theorem State.moves_modBlkSt (s : State) (f : Block → Block) : s.Moves [.blk, .st] (s.modBlk f) :=
  ⟨fun p hp => by cases p <;> first | exact absurd (by decide) hp | rfl, .of rfl rfl rfl rfl⟩

theorem rfWf_foldl_del (l : List Reg) (m : RegFile) (h : rfWf m = true) :
    rfWf (l.foldl (fun m r => rfDel m r.addr) m) = true := by
  induction l generalizing m with
  | nil => exact h
  | cons r l ih => exact ih _ (rfWf_del _ h)

/-- Set-points that are each one of the set-points before. -/
theorem railsOk_of_or {s t : State} (h : ∀ q, q < 3 → ((t.rail q).spCalc = (s.rail q).spCalc ∨ (t.rail q).spCalc = (s.rail q).spOut) ∧
    ((t.rail q).spOut = (s.rail q).spCalc ∨ (t.rail q).spOut = (s.rail q).spOut)) : s.RailsOk → t.RailsOk := by
  intro k q hq
  obtain ⟨a, b⟩ := k q hq
  obtain ⟨ha, hb⟩ := h q hq
  exact ⟨by rcases ha with e | e <;> rw [e] <;> assumption, by rcases hb with e | e <;> rw [e] <;> assumption⟩

/-- A state with every unit at its reset values. -/
theorem State.units_initial (c : Config) : (State.initial c).Units := by
  constructor
  · exact List.length_replicate
  · show (List.map _ (List.range 76)).length = 76
    rw [List.length_map, List.length_range]
  · exact List.length_replicate
  · exact List.length_replicate
  · show (List.replicate 76 _ ++ List.replicate 3 _).length = 79
    rw [List.length_append, List.length_replicate, List.length_replicate]
  · exact List.length_replicate

theorem State.railsOk_initial (c : Config) : (State.initial c).RailsOk := by
  intro q _
  have h : ∀ x ∈ (State.initial c).rails, x = {} := fun x hx => List.eq_of_mem_replicate hx
  have : (State.initial c).rail q = {} := by
    unfold State.rail
    rcases Nat.lt_or_ge q (State.initial c).rails.length with hl | hl
    · rw [List.getD_eq_getElem?_getD, List.getElem?_eq_getElem hl]; exact h _ (List.getElem_mem hl)
    · rw [List.getD_eq_getElem?_getD, List.getElem?_eq_none hl]; rfl
  rw [this]; exact ⟨.inl rfl, .inl rfl⟩

/-! ## Updates of one field -/

theorem State.Moves.put_eng {l : List Part} {s t : State} {v : Engine} (h : s.Moves l t) (hl : l.contains .eng = true) :
    s.Moves l { t with eng := v } :=
  h.step (m := [.eng]) ⟨fun p hp => by cases p <;> first | exact absurd (by decide) hp | rfl, .of rfl rfl rfl rfl⟩
    (by simpa using hl)

theorem State.Moves.put_used {l : List Part} {s t : State} {v : InUse} (h : s.Moves l t) (hl : l.contains .used = true) :
    s.Moves l { t with used := v } :=
  h.step (m := [.used]) ⟨fun p hp => by cases p <;> first | exact absurd (by decide) hp | rfl, .of rfl rfl rfl rfl⟩
    (by simpa using hl)

theorem State.Moves.put_cap {l : List Part} {s t : State} {v : Cap} (h : s.Moves l t) (hl : l.contains .cap = true) :
    s.Moves l { t with cap := v } :=
  h.step (m := [.cap]) ⟨fun p hp => by cases p <;> first | exact absurd (by decide) hp | rfl, .of rfl rfl rfl rfl⟩
    (by simpa using hl)

theorem State.Moves.put_telem {l : List Part} {s t : State} {v : Telem} (h : s.Moves l t) (hl : l.contains .telem = true) :
    s.Moves l { t with telem := v } :=
  h.step (m := [.telem]) ⟨fun p hp => by cases p <;> first | exact absurd (by decide) hp | rfl, .of rfl rfl rfl rfl⟩
    (by simpa using hl)

theorem State.Moves.put_tune {l : List Part} {s t : State} {v : Tuning} (h : s.Moves l t) (hl : l.contains .tune = true) :
    s.Moves l { t with tune := v } :=
  h.step (m := [.tune]) ⟨fun p hp => by cases p <;> first | exact absurd (by decide) hp | rfl, .of rfl rfl rfl rfl⟩
    (by simpa using hl)

theorem State.Moves.put_hints {l : List Part} {s t : State} {v : Hints} (h : s.Moves l t) (hl : l.contains .hints = true) :
    s.Moves l { t with hints := v } :=
  h.step (m := [.hints]) ⟨fun p hp => by cases p <;> first | exact absurd (by decide) hp | rfl, .of rfl rfl rfl rfl⟩
    (by simpa using hl)

theorem State.Moves.put_learn {l : List Part} {s t : State} {v : Learner} (h : s.Moves l t) (hl : l.contains .learn = true) :
    s.Moves l { t with learn := v } :=
  h.step (m := [.learn]) ⟨fun p hp => by cases p <;> first | exact absurd (by decide) hp | rfl, .of rfl rfl rfl rfl⟩
    (by simpa using hl)

theorem State.Moves.put_therm {l : List Part} {s t : State} {v : Thermal} (h : s.Moves l t) (hl : l.contains .therm = true) :
    s.Moves l { t with therm := v } :=
  h.step (m := [.therm]) ⟨fun p hp => by cases p <;> first | exact absurd (by decide) hp | rfl, .of rfl rfl rfl rfl⟩
    (by simpa using hl)

theorem State.Moves.put_cg {l : List Part} {s t : State} {v : ConvGlobal} (h : s.Moves l t) (hl : l.contains .cg = true) :
    s.Moves l { t with cg := v } :=
  h.step (m := [.cg]) ⟨fun p hp => by cases p <;> first | exact absurd (by decide) hp | rfl, .of rfl rfl rfl rfl⟩
    (by simpa using hl)

theorem State.Moves.put_dma {l : List Part} {s t : State} {v : Dma} (h : s.Moves l t) (hl : l.contains .dma = true) :
    s.Moves l { t with dma := v } :=
  h.step (m := [.dma]) ⟨fun p hp => by cases p <;> first | exact absurd (by decide) hp | rfl, .of rfl rfl rfl rfl⟩
    (by simpa using hl)

theorem State.Moves.put_recd {l : List Part} {s t : State} {v : Recorder} (h : s.Moves l t) (hl : l.contains .recd = true) :
    s.Moves l { t with recd := v } :=
  h.step (m := [.recd]) ⟨fun p hp => by cases p <;> first | exact absurd (by decide) hp | rfl, .of rfl rfl rfl rfl⟩
    (by simpa using hl)

theorem State.Moves.put_clk {l : List Part} {s t : State} {v : Clocks} (h : s.Moves l t) (hl : l.contains .clk = true) :
    s.Moves l { t with clk := v } :=
  h.step (m := [.clk]) ⟨fun p hp => by cases p <;> first | exact absurd (by decide) hp | rfl, .of rfl rfl rfl rfl⟩
    (by simpa using hl)

theorem State.Moves.put_freeK {l : List Part} {s t : State} {v : Nat} (h : s.Moves l t) (hl : l.contains .freeK = true) :
    s.Moves l { t with freeK := v } :=
  h.step (m := [.freeK]) ⟨fun p hp => by cases p <;> first | exact absurd (by decide) hp | rfl, .of rfl rfl rfl rfl⟩
    (by simpa using hl)

theorem State.Moves.put_pending {l : List Part} {s t : State} {v : List Instr} (h : s.Moves l t) (hl : l.contains .pending = true) :
    s.Moves l { t with pending := v } :=
  h.step (m := [.pending]) ⟨fun p hp => by cases p <;> first | exact absurd (by decide) hp | rfl, .of rfl rfl rfl rfl⟩
    (by simpa using hl)

theorem State.Moves.put_dict {l : List Part} {s t : State} {v : Dict} (h : s.Moves l t) (hl : l.contains .dict = true)
    (hv : v.staged = t.dict.staged) : s.Moves l { t with dict := v } :=
  h.step (m := [.dict]) ⟨fun p hp => by cases p <;> first | exact absurd (by decide) hp | rfl, .of rfl rfl (by rw [hv]) rfl⟩
    (by simpa using hl)

theorem State.Moves.put_blk {l : List Part} {s t : State} {v : Block} (h : s.Moves l t) (hl : l.contains .blk = true)
    (hv : v.st = t.blk.st) : s.Moves l { t with blk := v } :=
  h.step (m := [.blk]) ⟨fun p hp => by cases p <;> first | exact absurd (by decide) hp | rfl | exact hv, .of rfl rfl rfl rfl⟩
    (by simpa using hl)

theorem State.Moves.put_regions {l : List Part} {s t : State} {v : List Region} (h : s.Moves l t)
    (hl : l.contains .regions = true) (hv : v.length = t.regions.length) : s.Moves l { t with regions := v } :=
  h.step (m := [.regions]) ⟨fun p hp => by cases p <;> first | exact absurd (by decide) hp | rfl,
    .of (by simp [State.sizes, hv]) rfl rfl rfl⟩ (by simpa using hl)

theorem State.Moves.put_strings {l : List Part} {s t : State} {v : List Str} (h : s.Moves l t)
    (hl : l.contains .strings = true) (hv : v.length = t.strings.length) : s.Moves l { t with strings := v } :=
  h.step (m := [.strings]) ⟨fun p hp => by cases p <;> first | exact absurd (by decide) hp | rfl,
    .of (by simp [State.sizes, hv]) rfl rfl rfl⟩ (by simpa using hl)

theorem State.Moves.put_courses {l : List Part} {s t : State} {v : List Course} (h : s.Moves l t)
    (hl : l.contains .courses = true) (hv : v.length = t.courses.length) : s.Moves l { t with courses := v } :=
  h.step (m := [.courses]) ⟨fun p hp => by cases p <;> first | exact absurd (by decide) hp | rfl,
    .of (by simp [State.sizes, hv]) rfl rfl rfl⟩ (by simpa using hl)

theorem State.Moves.put_chans {l : List Part} {s t : State} {v : List Chan} (h : s.Moves l t)
    (hl : l.contains .chans = true) (hv : v.length = t.chans.length) : s.Moves l { t with chans := v } :=
  h.step (m := [.chans]) ⟨fun p hp => by cases p <;> first | exact absurd (by decide) hp | rfl,
    .of (by simp [State.sizes, hv]) rfl rfl rfl⟩ (by simpa using hl)

theorem State.Moves.put_convs {l : List Part} {s t : State} {v : List Conv} (h : s.Moves l t)
    (hl : l.contains .convs = true) (hv : v.length = t.convs.length) : s.Moves l { t with convs := v } :=
  h.step (m := [.convs]) ⟨fun p hp => by cases p <;> first | exact absurd (by decide) hp | rfl,
    .of (by simp [State.sizes, hv]) rfl rfl rfl⟩ (by simpa using hl)

theorem State.Moves.put_rails {l : List Part} {s t : State} {f : Rail → Rail} (h : s.Moves l t)
    (hl : l.contains .rails = true) (hf : ∀ x, (f x).spCalc = x.spCalc ∧ (f x).spOut = x.spOut) :
    s.Moves l { t with rails := t.rails.map f } :=
  h.step (m := [.rails]) ⟨fun p hp => by cases p <;> first | exact absurd (by decide) hp | rfl,
    .ofRails f rfl rfl rfl hf rfl⟩ (by simpa using hl)

end Sys2Proof.Machine
end

