-- ==== Sys2Proof/Laws/MovesOps.lean ====
section
/-! SUPPORT. What the named operations over the state and its units move: one lemma for each. -/

namespace Sys2Proof.Machine

theorem State.moves_count (s : State) (g : Reg) (w : Nat) (k : Nat) :
    s.Moves [.regs] (State.count s g w k) := by
  unfold State.count
  repeat' first
    | with_reducible exact State.Moves.refl _ _
    | exact Eq.refl true
    | with_reducible apply State.Moves.step ?_ (State.moves_set ..) ?_
    | with_reducible dsimp only

theorem State.moves_countSat (s : State) (g : Reg) (w : Nat) (k : Nat) :
    s.Moves [.regs] (State.countSat s g w k) := by
  unfold State.countSat
  repeat' first
    | with_reducible exact State.Moves.refl _ _
    | exact Eq.refl true
    | with_reducible apply State.Moves.step ?_ (State.moves_set ..) ?_
    | with_reducible dsimp only

theorem State.moves_orBits (s : State) (g : Reg) (m : Nat) :
    s.Moves [.regs] (State.orBits s g m) := by
  unfold State.orBits
  repeat' first
    | with_reducible exact State.Moves.refl _ _
    | exact Eq.refl true
    | with_reducible apply State.Moves.step ?_ (State.moves_set ..) ?_
    | with_reducible dsimp only

theorem State.moves_clrBits (s : State) (g : Reg) (m : Nat) :
    s.Moves [.regs] (State.clrBits s g m) := by
  unfold State.clrBits
  repeat' first
    | with_reducible exact State.Moves.refl _ _
    | exact Eq.refl true
    | with_reducible apply State.Moves.step ?_ (State.moves_set ..) ?_
    | with_reducible dsimp only

theorem State.moves_modRegion (s : State) (r : Nat) (f : Region → Region) :
    s.Moves [.regions] (State.modRegion s r f) := by
  unfold State.modRegion
  repeat' first
    | with_reducible exact State.Moves.refl _ _
    | exact Eq.refl true
    | with_reducible dsimp only
    | with_reducible apply State.Moves.put_regions
    | exact List.length_map ..
    | exact List.length_modify ..

theorem State.moves_modStr (s : State) (i : Nat) (f : Str → Str) :
    s.Moves [.strings] (State.modStr s i f) := by
  unfold State.modStr
  repeat' first
    | with_reducible exact State.Moves.refl _ _
    | exact Eq.refl true
    | with_reducible dsimp only
    | with_reducible apply State.Moves.put_strings
    | exact List.length_map ..
    | exact List.length_modify ..

theorem State.moves_modCourse (s : State) (c : Nat) (f : Course → Course) :
    s.Moves [.courses] (State.modCourse s c f) := by
  unfold State.modCourse
  repeat' first
    | with_reducible exact State.Moves.refl _ _
    | exact Eq.refl true
    | with_reducible dsimp only
    | with_reducible apply State.Moves.put_courses
    | exact List.length_map ..
    | exact List.length_modify ..

theorem State.moves_modChan (s : State) (c : Nat) (f : Chan → Chan) :
    s.Moves [.chans] (State.modChan s c f) := by
  unfold State.modChan
  repeat' first
    | with_reducible exact State.Moves.refl _ _
    | exact Eq.refl true
    | with_reducible dsimp only
    | with_reducible apply State.Moves.put_chans
    | exact List.length_map ..
    | exact List.length_modify ..

theorem State.moves_modConv (s : State) (n : Nat) (f : Conv → Conv) :
    s.Moves [.convs] (State.modConv s n f) := by
  unfold State.modConv
  repeat' first
    | with_reducible exact State.Moves.refl _ _
    | exact Eq.refl true
    | with_reducible dsimp only
    | with_reducible apply State.Moves.put_convs
    | exact List.length_map ..
    | exact List.length_modify ..

theorem State.moves_modDiode (s : State) (r : Nat) (f : Diode → Diode) :
    s.Moves [.therm] (State.modDiode s r f) := by
  unfold State.modDiode
  repeat' first
    | with_reducible exact State.Moves.refl _ _
    | exact Eq.refl true
    | with_reducible dsimp only
    | with_reducible apply State.Moves.put_therm

theorem State.moves_modFront (s : State) (q : Nat) (f : Front → Front) :
    s.Moves [.therm] (State.modFront s q f) := by
  unfold State.modFront
  repeat' first
    | with_reducible exact State.Moves.refl _ _
    | exact Eq.refl true
    | with_reducible dsimp only
    | with_reducible apply State.Moves.put_therm

theorem State.moves_modShard (s : State) (k : Nat) (f : Shard → Shard) :
    s.Moves [.learn] (State.modShard s k f) := by
  unfold State.modShard
  repeat' first
    | with_reducible exact State.Moves.refl _ _
    | exact Eq.refl true
    | with_reducible dsimp only
    | with_reducible apply State.Moves.put_learn

theorem State.moves_modSlot (s : State) (k : Nat) (f : Slot → Slot) :
    s.Moves [.learn] (State.modSlot s k f) := by
  unfold State.modSlot
  repeat' first
    | with_reducible exact State.Moves.refl _ _
    | exact Eq.refl true
    | with_reducible dsimp only
    | with_reducible apply State.Moves.put_learn

theorem State.moves_modSession (s : State) (k : Nat) (f : Session → Session) :
    s.Moves [.dict] (State.modSession s k f) := by
  unfold State.modSession
  repeat' first
    | with_reducible exact State.Moves.refl _ _
    | exact Eq.refl true
    | with_reducible dsimp only
    | with_reducible apply State.Moves.put_dict

theorem State.moves_modDmaCh (s : State) (k : Nat) (f : DmaCh → DmaCh) :
    s.Moves [.dma] (State.modDmaCh s k f) := by
  unfold State.modDmaCh
  repeat' first
    | with_reducible exact State.Moves.refl _ _
    | exact Eq.refl true
    | with_reducible dsimp only
    | with_reducible apply State.Moves.put_dma

theorem State.moves_modLoop (s : State) (r : Nat) (f : Loop → Loop) :
    s.Moves [.regions] (State.modLoop s r f) := by
  unfold State.modLoop
  repeat' first
    | with_reducible exact State.Moves.refl _ _
    | exact Eq.refl true
    | with_reducible apply State.Moves.step ?_ (State.moves_modRegion ..) ?_
    | with_reducible dsimp only

theorem State.moves_modStrum (s : State) (r : Nat) (f : Strum → Strum) :
    s.Moves [.regions] (State.modStrum s r f) := by
  unfold State.modStrum
  repeat' first
    | with_reducible exact State.Moves.refl _ _
    | exact Eq.refl true
    | with_reducible apply State.Moves.step ?_ (State.moves_modRegion ..) ?_
    | with_reducible dsimp only

theorem State.moves_modPre (s : State) (r : Nat) (f : Pre → Pre) :
    s.Moves [.regions] (State.modPre s r f) := by
  unfold State.modPre
  repeat' first
    | with_reducible exact State.Moves.refl _ _
    | exact Eq.refl true
    | with_reducible apply State.Moves.step ?_ (State.moves_modRegion ..) ?_
    | with_reducible dsimp only

theorem State.moves_modWake (s : State) (r : Nat) (f : Wake → Wake) :
    s.Moves [.regions] (State.modWake s r f) := by
  unfold State.modWake
  repeat' first
    | with_reducible exact State.Moves.refl _ _
    | exact Eq.refl true
    | with_reducible apply State.Moves.step ?_ (State.moves_modRegion ..) ?_
    | with_reducible dsimp only

theorem State.moves_modFret (s : State) (r : Nat) (f : Fret → Fret) :
    s.Moves [.regions] (State.modFret s r f) := by
  unfold State.modFret
  repeat' first
    | with_reducible exact State.Moves.refl _ _
    | exact Eq.refl true
    | with_reducible apply State.Moves.step ?_ (State.moves_modRegion ..) ?_
    | with_reducible dsimp only

theorem State.moves_modRep (s : State) (r : Nat) (f : Report → Report) :
    s.Moves [.regions] (State.modRep s r f) := by
  unfold State.modRep
  repeat' first
    | with_reducible exact State.Moves.refl _ _
    | exact Eq.refl true
    | with_reducible apply State.Moves.step ?_ (State.moves_modRegion ..) ?_
    | with_reducible dsimp only

theorem State.moves_modSup (s : State) (r : Nat) (f : Sup → Sup) :
    s.Moves [.regions] (State.modSup s r f) := by
  unfold State.modSup
  repeat' first
    | with_reducible exact State.Moves.refl _ _
    | exact Eq.refl true
    | with_reducible apply State.Moves.step ?_ (State.moves_modRegion ..) ?_
    | with_reducible dsimp only

theorem State.moves_modPickup (s : State) (r : Nat) (p : Nat) (f : Pickup → Pickup) :
    s.Moves [.regions] (State.modPickup s r p f) := by
  unfold State.modPickup
  repeat' first
    | with_reducible exact State.Moves.refl _ _
    | exact Eq.refl true
    | with_reducible apply State.Moves.step ?_ (State.moves_modRegion ..) ?_
    | with_reducible dsimp only

theorem State.moves_takeFree (s : State) :
    s.Moves [.freeK] (State.takeFree s).2 := by
  unfold State.takeFree
  repeat' first
    | with_reducible exact State.Moves.refl _ _
    | exact Eq.refl true
    | with_reducible dsimp only
    | with_reducible apply State.Moves.put_freeK

theorem State.moves_enqueue (s : State) (t : Trig) :
    s.Moves [.recd, .regs] (State.enqueue s t) := by
  unfold State.enqueue
  repeat' first
    | with_reducible exact State.Moves.refl _ _
    | exact Eq.refl true
    | with_reducible apply State.Moves.ite
    | with_reducible apply State.Moves.step ?_ (State.moves_countSat ..) ?_
    | with_reducible apply State.Moves.ite
    | with_reducible dsimp only
    | with_reducible apply State.Moves.put_recd

theorem State.moves_fire (s : State) (ty : Nat) (detail : Nat) (src : Source) :
    s.Moves [.recd, .regs] (State.fire s ty detail src) := by
  unfold State.fire
  repeat' first
    | with_reducible exact State.Moves.refl _ _
    | exact Eq.refl true
    | with_reducible apply State.Moves.step ?_ (State.moves_enqueue ..) ?_
    | with_reducible apply State.Moves.step ?_ (State.moves_count ..) ?_
    | with_reducible dsimp only

theorem State.moves_parityError (s : State) :
    s.Moves [.blk, .regs] (State.parityError s) := by
  unfold State.parityError
  repeat' first
    | with_reducible exact State.Moves.refl _ _
    | exact Eq.refl true
    | with_reducible apply State.Moves.step ?_ (State.moves_modBlk _ _ ?_) ?_
    | with_reducible apply State.Moves.step ?_ (State.moves_count ..) ?_
    | with_reducible dsimp only
    | exact fun _ => rfl

theorem State.moves_breach (s : State) (code : Nat) :
    s.Moves [.regs] (State.breach s code) := by
  unfold State.breach
  repeat' first
    | with_reducible exact State.Moves.refl _ _
    | exact Eq.refl true
    | with_reducible apply State.Moves.step ?_ (State.moves_set ..) ?_
    | with_reducible apply State.Moves.step ?_ (State.moves_count ..) ?_
    | with_reducible dsimp only

theorem State.moves_setReason (s : State) (b : Nat) :
    s.Moves [.recd, .regs] (State.setReason s b) := by
  unfold State.setReason
  repeat' first
    | with_reducible exact State.Moves.refl _ _
    | exact Eq.refl true
    | with_reducible apply State.Moves.ite
    | with_reducible apply State.Moves.step ?_ (State.moves_fire ..) ?_
    | with_reducible apply State.Moves.step ?_ (State.moves_orBits ..) ?_
    | with_reducible apply State.Moves.ite
    | with_reducible dsimp only

theorem State.moves_noteReason (s : State) (b : Nat) :
    s.Moves [.blk, .recd, .regs] (State.noteReason s b) := by
  unfold State.noteReason
  repeat' first
    | with_reducible exact State.Moves.refl _ _
    | exact Eq.refl true
    | with_reducible apply State.Moves.ite
    | with_reducible apply State.Moves.step ?_ (State.moves_modBlk _ _ ?_) ?_
    | with_reducible apply State.Moves.step ?_ (State.moves_setReason ..) ?_
    | with_reducible apply State.Moves.ite
    | with_reducible dsimp only
    | exact fun _ => rfl

theorem State.moves_takePort (s : State) (ch : Nat) :
    s.Moves [.dma, .regs] (State.takePort s ch) := by
  unfold State.takePort
  repeat' first
    | with_reducible exact State.Moves.refl _ _
    | exact Eq.refl true
    | with_reducible apply State.Moves.ite
    | with_reducible apply State.Moves.step ?_ (State.moves_count ..) ?_
    | with_reducible apply State.Moves.ite
    | with_reducible dsimp only
    | split
    | with_reducible apply State.Moves.put_dma

theorem State.moves_memIssue (s : State) (t : Txn) :
    s.Moves [.dma, .regs] (State.memIssue s t) := by
  unfold State.memIssue
  repeat' first
    | with_reducible exact State.Moves.refl _ _
    | exact Eq.refl true
    | with_reducible apply State.Moves.step ?_ (State.moves_takePort ..) ?_
    | with_reducible dsimp only
    | with_reducible apply State.Moves.put_dma

theorem State.moves_issueWaiting (s : State) :
    s.Moves [.dma] (State.issueWaiting s) := by
  unfold State.issueWaiting
  repeat' first
    | with_reducible exact State.Moves.refl _ _
    | exact Eq.refl true
    | with_reducible dsimp only
    | with_reducible apply State.Moves.put_dma

theorem State.moves_modTab (s : State) (f : StrTab → StrTab) :
    s.Moves [.dma] (State.modTab s f) := by
  unfold State.modTab
  repeat' first
    | with_reducible exact State.Moves.refl _ _
    | exact Eq.refl true
    | with_reducible dsimp only
    | with_reducible apply State.Moves.put_dma

theorem State.moves_stFetch (s : State) (i : Nat) :
    s.Moves [.dma, .regs] (State.stFetch s i) := by
  unfold State.stFetch
  repeat' first
    | with_reducible exact State.Moves.refl _ _
    | exact Eq.refl true
    | with_reducible apply State.Moves.ite
    | with_reducible apply State.Moves.step ?_ (State.moves_memIssue ..) ?_
    | with_reducible apply State.Moves.ite
    | with_reducible dsimp only

theorem State.moves_stUpdate (s : State) (i : Nat) (field : Nat) (value : Nat) :
    s.Moves [.dma, .regs] (State.stUpdate s i field value) := by
  unfold State.stUpdate
  repeat' first
    | with_reducible exact State.Moves.refl _ _
    | exact Eq.refl true
    | with_reducible apply State.Moves.ite
    | with_reducible apply State.Moves.step ?_ (State.moves_count ..) ?_
    | with_reducible apply State.Moves.step ?_ (State.moves_modTab ..) ?_
    | with_reducible apply State.Moves.step ?_ (State.moves_stFetch ..) ?_
    | with_reducible apply State.Moves.ite
    | with_reducible dsimp only
    | split

theorem State.moves_stWrite (s : State) (e : CacheEnt) :
    s.Moves [.dma, .regs] (State.stWrite s e) := by
  unfold State.stWrite
  repeat' first
    | with_reducible exact State.Moves.refl _ _
    | exact Eq.refl true
    | with_reducible apply State.Moves.ite
    | with_reducible apply State.Moves.step ?_ (State.moves_memIssue ..) ?_
    | with_reducible apply State.Moves.step ?_ (State.moves_modTab ..) ?_
    | with_reducible apply State.Moves.ite
    | with_reducible dsimp only

theorem State.moves_stFlushOn (s : State) (l : List Nat) : s.Moves [.dma, .regs] (State.stFlushOn s l) := by
  induction l generalizing s with
  | nil => exact (State.moves_modTab ..).mono rfl
  | cons i l ih =>
    unfold State.stFlushOn
    split
    · exact ih _
    split
    · exact .step (.step (.refl _ _) (State.moves_stWrite ..) rfl) (ih _) rfl
    · exact .step (.step (.refl _ _) (State.moves_modTab ..) rfl) (State.moves_stFetch ..) rfl

theorem State.moves_stFlushEnd (s : State) :
    s.Moves [.dma] (State.stFlushEnd s) := by
  unfold State.stFlushEnd
  repeat' first
    | with_reducible exact State.Moves.refl _ _
    | exact Eq.refl true
    | with_reducible apply State.Moves.ite
    | with_reducible apply State.Moves.step ?_ (State.moves_modTab ..) ?_
    | with_reducible apply State.Moves.ite
    | with_reducible dsimp only

theorem State.moves_stStartFlush (s : State) :
    s.Moves [.dma, .regs] (State.stStartFlush s) := by
  unfold State.stStartFlush
  repeat' first
    | with_reducible exact State.Moves.refl _ _
    | exact Eq.refl true
    | with_reducible apply State.Moves.ite
    | with_reducible apply State.Moves.step ?_ (State.moves_stFlushEnd ..) ?_
    | with_reducible apply State.Moves.step ?_ (State.moves_stFlushOn ..) ?_
    | with_reducible apply State.Moves.step ?_ (State.moves_modTab ..) ?_
    | with_reducible apply State.Moves.ite
    | with_reducible dsimp only

theorem State.moves_mark (s : State) (i : Nat) :
    s.Moves [.regions] (State.mark s i) := by
  unfold State.mark
  repeat' first
    | with_reducible exact State.Moves.refl _ _
    | exact Eq.refl true
    | with_reducible apply State.Moves.step ?_ (State.moves_modSup ..) ?_
    | with_reducible dsimp only

theorem State.moves_senseSeen (s : State) :
    s.Moves [.cap] (State.senseSeen s) := by
  unfold State.senseSeen
  repeat' first
    | with_reducible exact State.Moves.refl _ _
    | exact Eq.refl true
    | with_reducible dsimp only
    | with_reducible apply State.Moves.put_cap

theorem State.moves_strTo (s : State) (i : Nat) (new : StrSt) (f : Str → Str) :
    s.Moves [.regions, .strings, .cap, .recd, .regs] (State.strTo s i new f) := by
  unfold State.strTo
  repeat' first
    | with_reducible exact State.Moves.refl _ _
    | exact Eq.refl true
    | with_reducible apply State.Moves.ite
    | with_reducible apply State.Moves.step ?_ (State.moves_senseSeen ..) ?_
    | with_reducible apply State.Moves.step ?_ (State.moves_modStr ..) ?_
    | with_reducible apply State.Moves.step ?_ (State.moves_fire ..) ?_
    | with_reducible apply State.Moves.step ?_ (State.moves_set ..) ?_
    | with_reducible apply State.Moves.step ?_ (State.moves_mark ..) ?_
    | with_reducible apply State.Moves.ite
    | with_reducible dsimp only

theorem State.moves_mute (s : State) (i : Nat) (cause : Nat) :
    s.Moves [.regions, .strings, .dma, .recd, .regs] (State.mute s i cause) := by
  unfold State.mute
  repeat' first
    | with_reducible exact State.Moves.refl _ _
    | exact Eq.refl true
    | with_reducible apply State.Moves.ite
    | with_reducible apply State.Moves.step ?_ (State.moves_stUpdate ..) ?_
    | with_reducible apply State.Moves.step ?_ (State.moves_fire ..) ?_
    | with_reducible apply State.Moves.step ?_ (State.moves_modStr ..) ?_
    | with_reducible apply State.Moves.step ?_ (State.moves_set ..) ?_
    | with_reducible apply State.Moves.step ?_ (State.moves_countSat ..) ?_
    | with_reducible apply State.Moves.step ?_ (State.moves_mark ..) ?_
    | with_reducible apply State.Moves.step ?_ (State.moves_modSup ..) ?_
    | with_reducible apply State.Moves.ite
    | with_reducible dsimp only

theorem State.moves_flagBlind (s : State) (i : Nat) (cause : Nat) :
    s.Moves [.strings, .dma, .regs] (State.flagBlind s i cause) := by
  unfold State.flagBlind
  repeat' first
    | with_reducible exact State.Moves.refl _ _
    | exact Eq.refl true
    | with_reducible apply State.Moves.step ?_ (State.moves_stUpdate ..) ?_
    | with_reducible apply State.Moves.step ?_ (State.moves_modStr ..) ?_
    | with_reducible dsimp only

theorem State.moves_makeBlind (s : State) (i : Nat) (cause : Nat) :
    s.Moves [.regions, .strings, .cap, .dma, .recd, .regs] (State.makeBlind s i cause) := by
  unfold State.makeBlind
  repeat' first
    | with_reducible exact State.Moves.refl _ _
    | exact Eq.refl true
    | with_reducible apply State.Moves.step ?_ (State.moves_strTo ..) ?_
    | with_reducible apply State.Moves.step ?_ (State.moves_flagBlind ..) ?_
    | with_reducible dsimp only

theorem State.moves_toHiccup (s : State) (i : Nat) :
    s.Moves [.regions, .strings, .cap, .dma, .recd, .regs] (State.toHiccup s i) := by
  unfold State.toHiccup
  repeat' first
    | with_reducible exact State.Moves.refl _ _
    | exact Eq.refl true
    | with_reducible apply State.Moves.step ?_ (State.moves_strTo ..) ?_
    | with_reducible apply State.Moves.step ?_ (State.moves_countSat ..) ?_
    | with_reducible apply State.Moves.step ?_ (State.moves_stUpdate ..) ?_
    | with_reducible dsimp only

theorem State.moves_rejoin (s : State) (i : Nat) :
    s.Moves [.regions, .strings, .cap, .recd, .regs] (State.rejoin s i) := by
  unfold State.rejoin
  repeat' first
    | with_reducible exact State.Moves.refl _ _
    | exact Eq.refl true
    | with_reducible apply State.Moves.ite
    | with_reducible apply State.Moves.step ?_ (State.moves_strTo ..) ?_
    | with_reducible apply State.Moves.ite
    | with_reducible dsimp only

theorem State.moves_rejoinAll (s : State) (r : Nat) :
    s.Moves [.regions, .strings, .cap, .recd, .regs] (State.rejoinAll s r) := by
  unfold State.rejoinAll
  repeat' first
    | with_reducible exact State.Moves.refl _ _
    | exact Eq.refl true
    | with_reducible apply State.Moves.ite
    | with_reducible apply State.Moves.step ?_ (State.moves_modSup ..) ?_
    | with_reducible apply State.Moves.step ?_ (State.moves_rejoin ..) ?_
    | with_reducible apply State.Moves.overAll (fun _ _ => ?_)
    | with_reducible apply State.Moves.ite
    | with_reducible dsimp only

theorem State.moves_learnFault (s : State) (r : Nat) :
    s.Moves [.regions] (State.learnFault s r) := by
  unfold State.learnFault
  repeat' first
    | with_reducible exact State.Moves.refl _ _
    | exact Eq.refl true
    | with_reducible apply State.Moves.step ?_ (State.moves_modSup ..) ?_
    | with_reducible dsimp only

theorem State.moves_setCapo (s : State) (r : Nat) (v : Nat) :
    s.Moves [.regions, .regs] (State.setCapo s r v) := by
  unfold State.setCapo
  repeat' first
    | with_reducible exact State.Moves.refl _ _
    | exact Eq.refl true
    | with_reducible apply State.Moves.ite
    | with_reducible apply State.Moves.step ?_ (State.moves_modSup ..) ?_
    | with_reducible apply State.Moves.step ?_ (State.moves_set ..) ?_
    | with_reducible apply State.Moves.ite
    | with_reducible dsimp only

theorem State.moves_lowerCapo (s : State) (r : Nat) (v : Nat) :
    s.Moves [.regions, .regs] (State.lowerCapo s r v) := by
  unfold State.lowerCapo
  repeat' first
    | with_reducible exact State.Moves.refl _ _
    | exact Eq.refl true
    | with_reducible apply State.Moves.step ?_ (State.moves_setCapo ..) ?_
    | with_reducible dsimp only

theorem State.moves_takeGroup (s : State) (g : Nat) :
    s.Moves [.used, .dict] (State.takeGroup s g) := by
  unfold State.takeGroup
  repeat' first
    | with_reducible exact State.Moves.refl _ _
    | exact Eq.refl true
    | with_reducible apply State.Moves.ite
    | with_reducible apply State.Moves.ite
    | with_reducible dsimp only
    | with_reducible apply State.Moves.put_dict
    | with_reducible apply State.Moves.put_used
    | refine .put ?_ rfl (fun p hp => by cases p <;> first | exact absurd (by decide) hp | rfl)
        (.of (by first | rfl | simp [State.sizes] | (simp only [State.sizes, List.length_map, List.length_modify]; rfl)) rfl rfl rfl)

theorem State.moves_takeThrottle (s : State) :
    s.Moves [.used] (State.takeThrottle s) := by
  unfold State.takeThrottle
  repeat' first
    | with_reducible exact State.Moves.refl _ _
    | exact Eq.refl true
    | with_reducible apply State.Moves.ite
    | with_reducible apply State.Moves.ite
    | with_reducible dsimp only
    | with_reducible apply State.Moves.put_used

theorem State.moves_applyIsland (s : State) :
    s.Moves [.regions, .used] (State.applyIsland s) := by
  unfold State.applyIsland
  repeat' first
    | with_reducible exact State.Moves.refl _ _
    | exact Eq.refl true
    | with_reducible apply State.Moves.ite
    | with_reducible apply State.Moves.ite
    | with_reducible dsimp only
    | with_reducible apply State.Moves.put_used
    | with_reducible apply State.Moves.put_regions
    | exact List.length_map ..
    | exact List.length_modify ..
    | refine .put ?_ rfl (fun p hp => by cases p <;> first | exact absurd (by decide) hp | rfl)
        (.of (by first | rfl | simp [State.sizes] | (simp only [State.sizes, List.length_map, List.length_modify]; rfl)) rfl rfl rfl)

theorem State.moves_courseFault (s : State) (c : Nat) :
    s.Moves [.regs] (State.courseFault s c) := by
  unfold State.courseFault
  repeat' first
    | with_reducible exact State.Moves.refl _ _
    | exact Eq.refl true
    | with_reducible apply State.Moves.step ?_ (State.moves_countSat ..) ?_
    | with_reducible dsimp only

theorem State.moves_followCause (s : State) (c : Nat) :
    s.Moves [.courses] (State.followCause s c) := by
  unfold State.followCause
  repeat' first
    | with_reducible exact State.Moves.refl _ _
    | exact Eq.refl true
    | with_reducible apply State.Moves.step ?_ (State.moves_modCourse ..) ?_
    | with_reducible dsimp only
    | split

theorem State.moves_cutPulse (s : State) (i : Nat) :
    s.Moves [.strings] (State.cutPulse s i) := by
  unfold State.cutPulse
  repeat' first
    | with_reducible exact State.Moves.refl _ _
    | exact Eq.refl true
    | with_reducible apply State.Moves.step ?_ (State.moves_modStr ..) ?_
    | with_reducible dsimp only
    | split

theorem State.moves_haltRegion (s : State) (r : Nat) :
    s.Moves [.regions, .strings] (State.haltRegion s r) := by
  unfold State.haltRegion
  repeat' first
    | with_reducible exact State.Moves.refl _ _
    | exact Eq.refl true
    | with_reducible apply State.Moves.step ?_ (State.moves_modRegion ..) ?_
    | with_reducible apply State.Moves.step ?_ (State.moves_cutPulse ..) ?_
    | with_reducible apply State.Moves.overAll (fun _ _ => ?_)
    | with_reducible dsimp only

theorem State.moves_haltAll (s : State) :
    s.Moves [.regions, .strings] (State.haltAll s) := by
  unfold State.haltAll
  repeat' first
    | with_reducible exact State.Moves.refl _ _
    | exact Eq.refl true
    | with_reducible apply State.Moves.step ?_ (State.moves_haltRegion ..) ?_
    | with_reducible apply State.Moves.overAll (fun _ _ => ?_)
    | with_reducible dsimp only

theorem State.moves_allEnLow (s : State) :
    s.Moves [.courses] (State.allEnLow s) := by
  unfold State.allEnLow
  repeat' first
    | with_reducible exact State.Moves.refl _ _
    | exact Eq.refl true
    | with_reducible dsimp only
    | with_reducible apply State.Moves.put_courses
    | exact List.length_map ..
    | exact List.length_modify ..

theorem State.moves_railsOff (s : State) :
    s.Moves [.rails] (State.railsOff s) := by
  unfold State.railsOff
  repeat' first
    | with_reducible exact State.Moves.refl _ _
    | exact Eq.refl true
    | with_reducible dsimp only
    | split
    | with_reducible apply State.Moves.put_rails
    | exact fun _ => ⟨rfl, rfl⟩

theorem State.moves_resetRecovery (s : State) :
    s.Moves [.rails] (State.resetRecovery s) := by
  unfold State.resetRecovery
  repeat' first
    | with_reducible exact State.Moves.refl _ _
    | exact Eq.refl true
    | with_reducible dsimp only
    | with_reducible apply State.Moves.put_rails
    | exact fun _ => ⟨rfl, rfl⟩

theorem State.moves_stopPass (s : State) (k : Nat) (code : Nat) :
    s.Moves [.learn, .recd, .regs] (State.stopPass s k code) := by
  unfold State.stopPass
  repeat' first
    | with_reducible exact State.Moves.refl _ _
    | exact Eq.refl true
    | with_reducible apply State.Moves.ite
    | with_reducible apply State.Moves.step ?_ (State.moves_modShard ..) ?_
    | with_reducible apply State.Moves.step ?_ (State.moves_count ..) ?_
    | with_reducible apply State.Moves.step ?_ (State.moves_fire ..) ?_
    | with_reducible apply State.Moves.step ?_ (State.moves_orBits ..) ?_
    | with_reducible apply State.Moves.ite
    | with_reducible dsimp only

theorem State.moves_stopAllPasses (s : State) (code : Nat) :
    s.Moves [.learn, .recd, .regs] (State.stopAllPasses s code) := by
  unfold State.stopAllPasses
  repeat' first
    | with_reducible exact State.Moves.refl _ _
    | exact Eq.refl true
    | with_reducible apply State.Moves.step ?_ (State.moves_stopPass ..) ?_
    | with_reducible apply State.Moves.overAll (fun _ _ => ?_)
    | with_reducible dsimp only

theorem State.moves_hintsNotFull (s : State) :
    s.Moves [.hints, .recd, .regs] (State.hintsNotFull s) := by
  unfold State.hintsNotFull
  repeat' first
    | with_reducible exact State.Moves.refl _ _
    | exact Eq.refl true
    | with_reducible apply State.Moves.ite
    | with_reducible apply State.Moves.step ?_ (State.moves_fire ..) ?_
    | with_reducible apply State.Moves.ite
    | with_reducible dsimp only
    | with_reducible apply State.Moves.put_hints

theorem State.moves_emptyHints (s : State) :
    s.Moves [.rails, .regions, .hints, .recd, .regs] (State.emptyHints s) := by
  unfold State.emptyHints
  repeat' first
    | with_reducible exact State.Moves.refl _ _
    | exact Eq.refl true
    | with_reducible apply State.Moves.step ?_ (State.moves_hintsNotFull ..) ?_
    | with_reducible dsimp only
    | with_reducible apply State.Moves.put_hints
    | with_reducible apply State.Moves.put_regions
    | with_reducible apply State.Moves.put_rails
    | exact List.length_map ..
    | exact List.length_modify ..
    | exact fun _ => ⟨rfl, rfl⟩
    | refine .put ?_ rfl (fun p hp => by cases p <;> first | exact absurd (by decide) hp | rfl)
        (.of (by first | rfl | simp [State.sizes] | (simp only [State.sizes, List.length_map, List.length_modify]; rfl)) rfl rfl rfl)
    | refine .put ?_ rfl (fun p hp => by cases p <;> first | exact absurd (by decide) hp | rfl)
        (.ofRails _ (by first | rfl | simp [State.sizes] | (simp only [State.sizes, List.length_map, List.length_modify]; rfl)) rfl rfl (by exact fun _ => ⟨rfl, rfl⟩) rfl)

theorem State.moves_abandonFret (s : State) (r : Nat) :
    s.Moves [.regions] (State.abandonFret s r) := by
  unfold State.abandonFret
  repeat' first
    | with_reducible exact State.Moves.refl _ _
    | exact Eq.refl true
    | with_reducible apply State.Moves.ite
    | with_reducible apply State.Moves.step ?_ (State.moves_modFret ..) ?_
    | with_reducible apply State.Moves.ite
    | with_reducible dsimp only

theorem State.moves_abandonFrets (s : State) :
    s.Moves [.regions] (State.abandonFrets s) := by
  unfold State.abandonFrets
  repeat' first
    | with_reducible exact State.Moves.refl _ _
    | exact Eq.refl true
    | with_reducible apply State.Moves.step ?_ (State.moves_abandonFret ..) ?_
    | with_reducible apply State.Moves.overAll (fun _ _ => ?_)
    | with_reducible dsimp only

theorem State.moves_raiseReq (s : State) (src : Nat) (k : Nat) (f : Nat → Bool) :
    s.Moves [.dma] (State.raiseReq s src k f) := by
  unfold State.raiseReq
  repeat' first
    | with_reducible exact State.Moves.refl _ _
    | exact Eq.refl true
    | with_reducible apply State.Moves.ite
    | with_reducible apply State.Moves.ite
    | with_reducible dsimp only
    | with_reducible apply State.Moves.put_dma
    | exact (List.length_map ..).trans List.length_zipIdx

theorem State.moves_dropReq (s : State) (src : Nat) :
    s.Moves [.dma] (State.dropReq s src) := by
  unfold State.dropReq
  repeat' first
    | with_reducible exact State.Moves.refl _ _
    | exact Eq.refl true
    | with_reducible dsimp only
    | with_reducible apply State.Moves.put_dma

theorem State.moves_askUrgent (s : State) (n : Nat) (u : Urgent) :
    s.Moves [.convs] (State.askUrgent s n u) := by
  unfold State.askUrgent
  repeat' first
    | with_reducible exact State.Moves.refl _ _
    | exact Eq.refl true
    | with_reducible apply State.Moves.step ?_ (State.moves_modConv ..) ?_
    | with_reducible dsimp only

theorem State.moves_clearCapFloor (s : State) :
    s.Moves [.cap, .recd, .regs] (State.clearCapFloor s) := by
  unfold State.clearCapFloor
  repeat' first
    | with_reducible exact State.Moves.refl _ _
    | exact Eq.refl true
    | with_reducible apply State.Moves.ite
    | with_reducible apply State.Moves.step ?_ (State.moves_fire ..) ?_
    | with_reducible apply State.Moves.ite
    | with_reducible dsimp only
    | with_reducible apply State.Moves.put_cap

theorem State.moves_leaveRun (s : State) :
    s.Moves [.blk, .rails, .regions, .strings, .cap, .hints, .learn, .recd, .regs] (State.leaveRun s) := by
  unfold State.leaveRun
  extract_lets a b c
  have h : s.Moves [.blk, .rails, .regions, .strings, .cap, .hints, .learn, .recd, .regs] c := by
    repeat' first
    | with_reducible exact State.Moves.refl _ _
    | exact Eq.refl true
    | with_reducible apply State.Moves.step ?_ (State.moves_modBlk _ _ ?_) ?_
    | with_reducible apply State.Moves.step ?_ (State.moves_set ..) ?_
    | with_reducible apply State.Moves.step ?_ (State.moves_stopAllPasses ..) ?_
    | with_reducible apply State.Moves.step ?_ (State.moves_emptyHints ..) ?_
    | with_reducible apply State.Moves.step ?_ (State.moves_clearCapFloor ..) ?_
    | with_reducible apply State.Moves.overAll (fun _ _ => ?_)
    | exact fun _ => rfl
  clear_value c
  refine .put h rfl (fun p hp => by cases p <;> first | exact absurd (by decide) hp | rfl)
    (.ofRails (fun x : Rail => { x with recov := 0 }) (by simp [State.sizes]) rfl rfl (fun _ => ⟨rfl, rfl⟩) rfl)

theorem State.moves_strobeLeaves (s : State) (i : Nat) :
    s.Moves [.convs] (State.strobeLeaves s i) := by
  unfold State.strobeLeaves
  repeat' first
    | with_reducible exact State.Moves.refl _ _
    | exact Eq.refl true
    | with_reducible apply State.Moves.ite
    | with_reducible apply State.Moves.step ?_ (State.moves_modConv ..) ?_
    | with_reducible apply State.Moves.ite
    | with_reducible dsimp only

theorem State.moves_convLow (s : State) : s.Moves [.blk, .convs, .cg, .regs] (State.convLow s) := by
  unfold State.convLow
  extract_lets n t
  have h : s.Moves [.blk, .convs, .cg, .regs] (t.modBlk fun b => { b with fullAt := none, fullSpeed := false }) :=
    .step (.step (.refl _ _) (State.moves_count ..) rfl) (State.moves_modBlk _ _ fun _ => rfl) rfl
  clear_value t
  refine .put h rfl (fun p hp => by cases p <;> first | exact absurd (by decide) hp | rfl)
    (.of (by simp only [State.sizes, List.length_map]; rfl) rfl rfl rfl)

theorem State.moves_convStart (s : State) :
    s.Moves [.convs] (State.convStart s) := by
  unfold State.convStart
  repeat' first
    | with_reducible exact State.Moves.refl _ _
    | exact Eq.refl true
    | with_reducible apply State.Moves.ite
    | with_reducible apply State.Moves.ite
    | with_reducible dsimp only
    | split
    | with_reducible apply State.Moves.put_convs
    | exact List.length_map ..
    | exact List.length_modify ..
    | exact (List.length_map ..).trans List.length_zipIdx

theorem State.moves_orderFull (s : State) :
    s.Moves [.blk] (State.orderFull s) := by
  unfold State.orderFull
  repeat' first
    | with_reducible exact State.Moves.refl _ _
    | exact Eq.refl true
    | with_reducible apply State.Moves.step ?_ (State.moves_modBlk _ _ ?_) ?_
    | with_reducible dsimp only
    | exact fun _ => rfl

theorem State.moves_freshCap (s : State) :
    s.Moves [.cap] (State.freshCap s) := by
  unfold State.freshCap
  repeat' first
    | with_reducible exact State.Moves.refl _ _
    | exact Eq.refl true
    | with_reducible dsimp only
    | with_reducible apply State.Moves.put_cap

theorem State.moves_enterRamp (s : State) :
    s.Moves [.rails, .regions, .strings, .eng, .therm, .cg] (State.enterRamp s) := by
  unfold State.enterRamp
  repeat' first
    | with_reducible exact State.Moves.refl _ _
    | exact Eq.refl true
    | with_reducible apply State.Moves.ite
    | with_reducible apply State.Moves.ite
    | with_reducible dsimp only
    | with_reducible apply State.Moves.put_cg
    | with_reducible apply State.Moves.put_therm
    | with_reducible apply State.Moves.put_eng
    | with_reducible apply State.Moves.put_strings
    | with_reducible apply State.Moves.put_regions
    | with_reducible apply State.Moves.put_rails
    | exact List.length_map ..
    | exact List.length_modify ..
    | exact fun _ => ⟨rfl, rfl⟩
    | refine .put ?_ rfl (fun p hp => by cases p <;> first | exact absurd (by decide) hp | rfl)
        (.of (by first | rfl | simp [State.sizes] | (simp only [State.sizes, List.length_map, List.length_modify]; rfl)) rfl rfl rfl)
    | refine .put ?_ rfl (fun p hp => by cases p <;> first | exact absurd (by decide) hp | rfl)
        (.ofRails _ (by first | rfl | simp [State.sizes] | (simp only [State.sizes, List.length_map, List.length_modify]; rfl)) rfl rfl (by exact fun _ => ⟨rfl, rfl⟩) rfl)

theorem State.moves_enterDiscover (s : State) :
    s.Moves [.regions] (State.enterDiscover s) := by
  unfold State.enterDiscover
  repeat' first
    | with_reducible exact State.Moves.refl _ _
    | exact Eq.refl true
    | with_reducible apply State.Moves.ite
    | with_reducible apply State.Moves.ite
    | with_reducible dsimp only
    | with_reducible apply State.Moves.put_regions
    | exact List.length_map ..
    | exact List.length_modify ..

theorem State.moves_stopRestart (s : State) :
    s.Moves [.therm] (State.stopRestart s) := by
  unfold State.stopRestart
  repeat' first
    | with_reducible exact State.Moves.refl _ _
    | exact Eq.refl true
    | with_reducible dsimp only
    | with_reducible apply State.Moves.put_therm

theorem State.moves_attached (s : State) (b : BState) :
    s.Moves [.blk, .rails, .regions, .strings, .eng, .cap, .hints, .learn, .therm, .convs, .cg, .dma, .recd, .regs] (State.attached s b) := by
  unfold State.attached
  repeat' first
    | with_reducible exact State.Moves.refl _ _
    | exact Eq.refl true
    | with_reducible apply State.Moves.ite
    | with_reducible apply State.Moves.step ?_ (State.moves_leaveRun ..) ?_
    | with_reducible apply State.Moves.step ?_ (State.moves_convLow ..) ?_
    | with_reducible apply State.Moves.step ?_ (State.moves_convStart ..) ?_
    | with_reducible apply State.Moves.step ?_ (State.moves_orderFull ..) ?_
    | with_reducible apply State.Moves.step ?_ (State.moves_freshCap ..) ?_
    | with_reducible apply State.Moves.step ?_ (State.moves_enterRamp ..) ?_
    | with_reducible apply State.Moves.step ?_ (State.moves_enterDiscover ..) ?_
    | with_reducible apply State.Moves.step ?_ (State.moves_stStartFlush ..) ?_
    | with_reducible apply State.Moves.step ?_ (State.moves_stopRestart ..) ?_
    | with_reducible apply State.Moves.ite
    | with_reducible dsimp only

theorem State.moves_enter (s : State) (b : BState) :
    s.Moves [.blk, .st, .rails, .regions, .strings, .eng, .cap, .hints, .learn, .therm, .convs, .cg, .dma, .recd, .regs] (State.enter s b) := by
  unfold State.enter
  repeat' first
    | with_reducible exact State.Moves.refl _ _
    | exact Eq.refl true
    | with_reducible apply State.Moves.step ?_ (State.moves_fire ..) ?_
    | with_reducible apply State.Moves.step ?_ (State.moves_modBlkSt _ _) ?_
    | with_reducible apply State.Moves.step ?_ (State.moves_attached ..) ?_
    | with_reducible dsimp only
    | exact fun _ => rfl

theorem State.moves_damper (s : State) (q : Nat) (detail : Nat) (src : Source) :
    s.Moves [.blk, .st, .rails, .regions, .strings, .courses, .eng, .cap, .hints, .learn, .therm, .convs, .cg, .dma, .recd, .regs] (State.damper s q detail src) := by
  unfold State.damper
  repeat' first
    | with_reducible exact State.Moves.refl _ _
    | exact Eq.refl true
    | with_reducible apply State.Moves.ite
    | with_reducible apply State.Moves.step ?_ (State.moves_haltAll ..) ?_
    | with_reducible apply State.Moves.step ?_ (State.moves_modCourse ..) ?_
    | with_reducible apply State.Moves.step ?_ (State.moves_allEnLow ..) ?_
    | with_reducible apply State.Moves.step ?_ (State.moves_fire ..) ?_
    | with_reducible apply State.Moves.step ?_ (State.moves_set ..) ?_
    | with_reducible apply State.Moves.step ?_ (State.moves_mute ..) ?_
    | with_reducible apply State.Moves.step ?_ (State.moves_modBlkSt _ _) ?_
    | with_reducible apply State.Moves.step ?_ (State.moves_railsOff ..) ?_
    | with_reducible apply State.Moves.step ?_ (State.moves_resetRecovery ..) ?_
    | with_reducible apply State.Moves.step ?_ (State.moves_enter ..) ?_
    | with_reducible apply State.Moves.overAll (fun _ _ => ?_)
    | with_reducible apply State.Moves.ite
    | with_reducible dsimp only
    | exact fun _ => rfl

end Sys2Proof.Machine
end

