-- ==== Sys2Proof/Laws/MovesLoop.lean ====
section
/-! SUPPORT. What the operations of the string loops, transients and strings move: one lemma for each. -/

namespace Sys2Proof.Machine

theorem State.moves_movePtr (s : State) (r : Nat) :
    s.Moves [.regions] (State.movePtr s r) := by
  unfold State.movePtr
  repeat' first
    | with_reducible exact State.Moves.refl _ _
    | exact Eq.refl true
    | with_reducible apply State.Moves.step ?_ (State.moves_modLoop ..) ?_
    | with_reducible dsimp only

theorem State.moves_noteSync (s : State) (i : Nat) (q : Nat) (kind : PulseKind) :
    s.Moves [.cg] (State.noteSync s i q kind) := by
  unfold State.noteSync
  repeat' first
    | with_reducible exact State.Moves.refl _ _
    | exact Eq.refl true
    | with_reducible apply State.Moves.ite
    | with_reducible apply State.Moves.ite
    | with_reducible dsimp only
    | with_reducible apply State.Moves.put_cg

theorem State.moves_issue (s : State) (r : Nat) (i : Nat) (ton : Nat) (kind : PulseKind) :
    s.Moves [.regions, .strings, .cg] (State.issue s r i ton kind) := by
  unfold State.issue
  repeat' first
    | with_reducible exact State.Moves.refl _ _
    | exact Eq.refl true
    | with_reducible apply State.Moves.step ?_ (State.moves_modStr ..) ?_
    | with_reducible apply State.Moves.step ?_ (State.moves_noteSync ..) ?_
    | with_reducible apply State.Moves.step ?_ (State.moves_modRegion ..) ?_
    | with_reducible dsimp only

theorem State.moves_strumDisagree (s : State) (r : Nat) :
    s.Moves [.blk, .regions, .recd, .regs] (State.strumDisagree s r) := by
  unfold State.strumDisagree
  repeat' first
    | with_reducible exact State.Moves.refl _ _
    | exact Eq.refl true
    | with_reducible apply State.Moves.ite
    | with_reducible apply State.Moves.step ?_ (State.moves_set ..) ?_
    | with_reducible apply State.Moves.step ?_ (State.moves_modStrum ..) ?_
    | with_reducible apply State.Moves.step ?_ (State.moves_fire ..) ?_
    | with_reducible apply State.Moves.step ?_ (State.moves_noteReason ..) ?_
    | with_reducible apply State.Moves.ite
    | with_reducible dsimp only

theorem State.moves_compareTwins (s : State) (r : Nat) (a : Bool) (b : Bool) :
    s.Moves [.regions] (State.compareTwins s r a b) := by
  unfold State.compareTwins
  repeat' first
    | with_reducible exact State.Moves.refl _ _
    | exact Eq.refl true
    | with_reducible apply State.Moves.ite
    | with_reducible apply State.Moves.step ?_ (State.moves_modStrum ..) ?_
    | with_reducible apply State.Moves.ite
    | with_reducible dsimp only

theorem State.moves_disagreeWait (s : State) (r : Nat) (can : Bool) (a : Bool) (b : Bool) :
    s.Moves [.blk, .regions, .recd, .regs] (State.disagreeWait s r can a b) := by
  unfold State.disagreeWait
  repeat' first
    | with_reducible exact State.Moves.refl _ _
    | exact Eq.refl true
    | with_reducible apply State.Moves.ite
    | with_reducible apply State.Moves.step ?_ (State.moves_modStrum ..) ?_
    | with_reducible apply State.Moves.step ?_ (State.moves_strumDisagree ..) ?_
    | with_reducible apply State.Moves.ite
    | with_reducible dsimp only
    | split

theorem State.moves_cancelPre (s : State) (r : Nat) (armed : Bool) :
    s.Moves [.regions, .regs] (State.cancelPre s r armed) := by
  unfold State.cancelPre
  repeat' first
    | with_reducible exact State.Moves.refl _ _
    | exact Eq.refl true
    | with_reducible apply State.Moves.ite
    | with_reducible apply State.Moves.step ?_ (State.moves_countSat ..) ?_
    | with_reducible apply State.Moves.step ?_ (State.moves_modPre ..) ?_
    | with_reducible apply State.Moves.ite
    | with_reducible dsimp only
    | split

theorem State.moves_strumRound (s : State) (r : Nat) (kind : PulseKind) :
    s.Moves [.regions, .strings, .cg] (State.strumRound s r kind) := by
  unfold State.strumRound
  repeat' first
    | with_reducible exact State.Moves.refl _ _
    | exact Eq.refl true
    | with_reducible apply State.Moves.step ?_ (State.moves_issue ..) ?_
    | with_reducible apply State.Moves.step ?_ (State.moves_modStrum ..) ?_
    | with_reducible apply State.Moves.overAll (fun _ _ => ?_)
    | with_reducible dsimp only

theorem State.moves_strumRejoin (s : State) (r : Nat) :
    s.Moves [.regions, .strings, .cap, .recd, .regs] (State.strumRejoin s r) := by
  unfold State.strumRejoin
  repeat' first
    | with_reducible exact State.Moves.refl _ _
    | exact Eq.refl true
    | with_reducible apply State.Moves.step ?_ (State.moves_rejoinAll ..) ?_
    | with_reducible apply State.Moves.step ?_ (State.moves_modStr ..) ?_
    | with_reducible apply State.Moves.overAll (fun _ _ => ?_)
    | with_reducible dsimp only

theorem State.moves_startStrum (s : State) (r : Nat) (own : Bool) :
    s.Moves [.regions, .strings, .cap, .cg, .recd, .regs] (State.startStrum s r own) := by
  unfold State.startStrum
  repeat' first
    | with_reducible exact State.Moves.refl _ _
    | exact Eq.refl true
    | with_reducible apply State.Moves.ite
    | with_reducible apply State.Moves.step ?_ (State.moves_cancelPre ..) ?_
    | with_reducible apply State.Moves.step ?_ (State.moves_strumRound ..) ?_
    | with_reducible apply State.Moves.step ?_ (State.moves_strumRejoin ..) ?_
    | with_reducible apply State.Moves.step ?_ (State.moves_count ..) ?_
    | with_reducible apply State.Moves.step ?_ (State.moves_modRegion ..) ?_
    | with_reducible apply State.Moves.ite
    | with_reducible dsimp only

theorem State.moves_openFire (s : State) (i : Nat) :
    s.Moves [.strings] (State.openFire s i) := by
  unfold State.openFire
  repeat' first
    | with_reducible exact State.Moves.refl _ _
    | exact Eq.refl true
    | with_reducible apply State.Moves.ite
    | with_reducible apply State.Moves.step ?_ (State.moves_modStr ..) ?_
    | with_reducible apply State.Moves.ite
    | with_reducible dsimp only

theorem State.moves_fireOrdinary (s : State) (r : Nat) (p : Nat) (ton : Option Nat) :
    s.Moves [.regions, .strings, .cg] (State.fireOrdinary s r p ton) := by
  unfold State.fireOrdinary
  repeat' first
    | with_reducible exact State.Moves.refl _ _
    | exact Eq.refl true
    | with_reducible apply State.Moves.ite
    | with_reducible apply State.Moves.step ?_ (State.moves_openFire ..) ?_
    | with_reducible apply State.Moves.step ?_ (State.moves_issue ..) ?_
    | with_reducible apply State.Moves.step ?_ (State.moves_modRegion ..) ?_
    | with_reducible apply State.Moves.step ?_ (State.moves_modLoop ..) ?_
    | with_reducible apply State.Moves.ite
    | with_reducible dsimp only

theorem State.moves_fireDecision (s : State) (r : Nat) (v : Nat) :
    s.Moves [.regions, .strings, .cg] (State.fireDecision s r v) := by
  unfold State.fireDecision
  repeat' first
    | with_reducible exact State.Moves.refl _ _
    | exact Eq.refl true
    | with_reducible apply State.Moves.ite
    | with_reducible apply State.Moves.step ?_ (State.moves_fireOrdinary ..) ?_
    | with_reducible apply State.Moves.step ?_ (State.moves_modLoop ..) ?_
    | with_reducible apply State.Moves.ite
    | with_reducible dsimp only
    | split

theorem State.moves_cycleInputs (s : State) (r : Nat) (samples : List Sample) :
    s.Moves [.regions] (State.cycleInputs s r samples) := by
  unfold State.cycleInputs
  repeat' first
    | with_reducible exact State.Moves.refl _ _
    | exact Eq.refl true
    | with_reducible apply State.Moves.ite
    | with_reducible apply State.Moves.step ?_ (State.moves_modRegion ..) ?_
    | with_reducible apply State.Moves.step ?_ (State.moves_modLoop ..) ?_
    | with_reducible apply State.Moves.ite
    | with_reducible dsimp only
    | split

theorem State.moves_cycleReports (s : State) (r : Nat) (v : Nat) :
    s.Moves [.regions] (State.cycleReports s r v) := by
  unfold State.cycleReports
  repeat' first
    | with_reducible exact State.Moves.refl _ _
    | exact Eq.refl true
    | with_reducible apply State.Moves.ite
    | with_reducible apply State.Moves.step ?_ (State.moves_modRegion ..) ?_
    | with_reducible apply State.Moves.ite
    | with_reducible dsimp only
    | split

theorem State.moves_cyclePowerGood (s : State) (r : Nat) (v : Nat) :
    s.Moves [.regions] (State.cyclePowerGood s r v) := by
  unfold State.cyclePowerGood
  repeat' first
    | with_reducible exact State.Moves.refl _ _
    | exact Eq.refl true
    | with_reducible apply State.Moves.ite
    | with_reducible apply State.Moves.step ?_ (State.moves_modLoop ..) ?_
    | with_reducible apply State.Moves.ite
    | with_reducible dsimp only
    | split

theorem State.moves_cycleRelease (s : State) (r : Nat) (v : Nat) :
    s.Moves [.regions, .regs] (State.cycleRelease s r v) := by
  unfold State.cycleRelease
  repeat' first
    | with_reducible exact State.Moves.refl _ _
    | exact Eq.refl true
    | with_reducible apply State.Moves.ite
    | with_reducible apply State.Moves.step ?_ (State.moves_countSat ..) ?_
    | with_reducible apply State.Moves.step ?_ (State.moves_cancelPre ..) ?_
    | with_reducible apply State.Moves.step ?_ (State.moves_modStrum ..) ?_
    | with_reducible apply State.Moves.ite
    | with_reducible dsimp only

theorem State.moves_cycleTwins (s : State) (r : Nat) :
    s.Moves [.blk, .regions, .strings, .cap, .cg, .recd, .regs] (State.cycleTwins s r) := by
  unfold State.cycleTwins
  repeat' first
    | with_reducible exact State.Moves.refl _ _
    | exact Eq.refl true
    | with_reducible apply State.Moves.ite
    | with_reducible apply State.Moves.step ?_ (State.moves_disagreeWait ..) ?_
    | with_reducible apply State.Moves.step ?_ (State.moves_countSat ..) ?_
    | with_reducible apply State.Moves.step ?_ (State.moves_startStrum ..) ?_
    | with_reducible apply State.Moves.step ?_ (State.moves_compareTwins ..) ?_
    | with_reducible apply State.Moves.ite
    | with_reducible dsimp only

theorem State.moves_cycleStrobes (s : State) (r : Nat) :
    s.Moves [.regions, .strings, .cap, .cg, .recd, .regs] (State.cycleStrobes s r) := by
  unfold State.cycleStrobes
  repeat' first
    | with_reducible exact State.Moves.refl _ _
    | exact Eq.refl true
    | with_reducible apply State.Moves.ite
    | with_reducible apply State.Moves.step ?_ (State.moves_modStrum ..) ?_
    | with_reducible apply State.Moves.step ?_ (State.moves_startStrum ..) ?_
    | with_reducible apply State.Moves.step ?_ (State.moves_countSat ..) ?_
    | with_reducible apply State.Moves.ite
    | with_reducible dsimp only

theorem State.moves_cycleFeed (s : State) (r : Nat) (v : Nat) :
    s.Moves [.regions] (State.cycleFeed s r v) := by
  unfold State.cycleFeed
  repeat' first
    | with_reducible exact State.Moves.refl _ _
    | exact Eq.refl true
    | with_reducible apply State.Moves.step ?_ (State.moves_modStrum ..) ?_
    | with_reducible dsimp only

theorem State.moves_regionCycle (s : State) (r : Nat) (samples : List Sample) :
    s.Moves [.blk, .regions, .strings, .cap, .cg, .recd, .regs] (State.regionCycle s r samples) := by
  unfold State.regionCycle
  repeat' first
    | with_reducible exact State.Moves.refl _ _
    | exact Eq.refl true
    | with_reducible apply State.Moves.ite
    | with_reducible apply State.Moves.step ?_ (State.moves_cycleInputs ..) ?_
    | with_reducible apply State.Moves.step ?_ (State.moves_cycleStrobes ..) ?_
    | with_reducible apply State.Moves.step ?_ (State.moves_cycleFeed ..) ?_
    | with_reducible apply State.Moves.step ?_ (State.moves_cyclePowerGood ..) ?_
    | with_reducible apply State.Moves.step ?_ (State.moves_cycleReports ..) ?_
    | with_reducible apply State.Moves.step ?_ (State.moves_cycleTwins ..) ?_
    | with_reducible apply State.Moves.step ?_ (State.moves_cycleRelease ..) ?_
    | with_reducible apply State.Moves.step ?_ (State.moves_fireDecision ..) ?_
    | with_reducible apply State.Moves.ite
    | with_reducible dsimp only
    | split

theorem State.moves_fixedRateFire (s : State) (r : Nat) :
    s.Moves [.regions, .strings, .cg] (State.fixedRateFire s r) := by
  unfold State.fixedRateFire
  repeat' first
    | with_reducible exact State.Moves.refl _ _
    | exact Eq.refl true
    | with_reducible apply State.Moves.ite
    | with_reducible apply State.Moves.step ?_ (State.moves_fireOrdinary ..) ?_
    | with_reducible apply State.Moves.step ?_ (State.moves_modLoop ..) ?_
    | with_reducible apply State.Moves.ite
    | with_reducible dsimp only
    | split

theorem State.moves_sourceChange (s : State) (r : Nat) :
    s.Moves [.regions, .recd, .regs] (State.sourceChange s r) := by
  unfold State.sourceChange
  repeat' first
    | with_reducible exact State.Moves.refl _ _
    | exact Eq.refl true
    | with_reducible apply State.Moves.ite
    | with_reducible apply State.Moves.step ?_ (State.moves_modRegion ..) ?_
    | with_reducible apply State.Moves.step ?_ (State.moves_modLoop ..) ?_
    | with_reducible apply State.Moves.step ?_ (State.moves_learnFault ..) ?_
    | with_reducible apply State.Moves.step ?_ (State.moves_fire ..) ?_
    | with_reducible apply State.Moves.ite
    | with_reducible dsimp only

theorem State.moves_islandTakes (s : State) (i : Nat) :
    s.Moves [.regions, .strings, .convs] (State.islandTakes s i) := by
  unfold State.islandTakes
  repeat' first
    | with_reducible exact State.Moves.refl _ _
    | exact Eq.refl true
    | with_reducible apply State.Moves.ite
    | with_reducible apply State.Moves.step ?_ (State.moves_strobeLeaves ..) ?_
    | with_reducible apply State.Moves.step ?_ (State.moves_movePtr ..) ?_
    | with_reducible apply State.Moves.step ?_ (State.moves_modStr ..) ?_
    | with_reducible apply State.Moves.ite
    | with_reducible dsimp only

theorem State.moves_strumRoundDue (s : State) (r : Nat) :
    s.Moves [.regions, .strings, .cg] (State.strumRoundDue s r) := by
  unfold State.strumRoundDue
  repeat' first
    | with_reducible exact State.Moves.refl _ _
    | exact Eq.refl true
    | with_reducible apply State.Moves.ite
    | with_reducible apply State.Moves.step ?_ (State.moves_compareTwins ..) ?_
    | with_reducible apply State.Moves.step ?_ (State.moves_strumRound ..) ?_
    | with_reducible apply State.Moves.step ?_ (State.moves_modStrum ..) ?_
    | with_reducible apply State.Moves.ite
    | with_reducible dsimp only
    | split

theorem State.moves_spreadStrobe (s : State) (r : Nat) (froms : List Nat) :
    s.Moves [.regions] (State.spreadStrobe s r froms) := by
  unfold State.spreadStrobe
  repeat' first
    | with_reducible exact State.Moves.refl _ _
    | exact Eq.refl true
    | with_reducible apply State.Moves.ite
    | with_reducible apply State.Moves.step ?_ (State.moves_modStrum ..) ?_
    | with_reducible apply State.Moves.ite
    | with_reducible dsimp only

theorem State.moves_strumRecovery (s : State) (r : Nat) :
    s.Moves [.rails, .learn, .regs] (State.strumRecovery s r) := by
  unfold State.strumRecovery
  repeat' first
    | with_reducible exact State.Moves.refl _ _
    | exact Eq.refl true
    | with_reducible apply State.Moves.ite
    | with_reducible apply State.Moves.step ?_ (State.moves_modRail _ _ _ ?_) ?_
    | with_reducible apply State.Moves.step ?_ (State.moves_count ..) ?_
    | with_reducible apply State.Moves.ite
    | with_reducible dsimp only
    | split
    | with_reducible apply State.Moves.put_learn
    | exact fun _ => ⟨rfl, rfl⟩

theorem State.moves_armPre (s : State) (r : Nat) (t : Nat) (rd : Nat) (h : Option Nat) :
    s.Moves [.regions] (State.armPre s r t rd h) := by
  unfold State.armPre
  repeat' first
    | with_reducible exact State.Moves.refl _ _
    | exact Eq.refl true
    | with_reducible apply State.Moves.step ?_ (State.moves_modPre ..) ?_
    | with_reducible dsimp only

theorem State.moves_grant (s : State) (r : Nat) :
    s.Moves [.regions, .strings, .cap, .recd, .regs] (State.grant s r) := by
  unfold State.grant
  repeat' first
    | with_reducible exact State.Moves.refl _ _
    | exact Eq.refl true
    | with_reducible apply State.Moves.step ?_ (State.moves_modWake ..) ?_
    | with_reducible apply State.Moves.step ?_ (State.moves_count ..) ?_
    | with_reducible apply State.Moves.step ?_ (State.moves_modSup ..) ?_
    | with_reducible apply State.Moves.step ?_ (State.moves_rejoinAll ..) ?_
    | with_reducible dsimp only

theorem State.moves_resumeWakes (s : State) :
    s.Moves [.regions] (State.resumeWakes s) := by
  unfold State.resumeWakes
  repeat' first
    | with_reducible exact State.Moves.refl _ _
    | exact Eq.refl true
    | with_reducible dsimp only
    | with_reducible apply State.Moves.put_regions
    | exact List.length_map ..
    | exact List.length_modify ..

theorem State.moves_latchReturn (s : State) (i : Nat) :
    s.Moves [.regions, .strings, .cap, .recd, .regs] (State.latchReturn s i) := by
  unfold State.latchReturn
  repeat' first
    | with_reducible exact State.Moves.refl _ _
    | exact Eq.refl true
    | with_reducible apply State.Moves.ite
    | with_reducible apply State.Moves.step ?_ (State.moves_strTo ..) ?_
    | with_reducible apply State.Moves.step ?_ (State.moves_modStr ..) ?_
    | with_reducible apply State.Moves.ite
    | with_reducible dsimp only

theorem State.moves_latchRamp (s : State) (i : Nat) :
    s.Moves [.regions, .strings, .cap, .recd, .regs] (State.latchRamp s i) := by
  unfold State.latchRamp
  repeat' first
    | with_reducible exact State.Moves.refl _ _
    | exact Eq.refl true
    | with_reducible apply State.Moves.ite
    | with_reducible apply State.Moves.step ?_ (State.moves_strTo ..) ?_
    | with_reducible apply State.Moves.step ?_ (State.moves_modStr ..) ?_
    | with_reducible apply State.Moves.ite
    | with_reducible dsimp only
    | split

theorem State.moves_latchHiccup (s : State) (i : Nat) :
    s.Moves [.regions, .strings, .cap, .recd, .regs] (State.latchHiccup s i) := by
  unfold State.latchHiccup
  repeat' first
    | with_reducible exact State.Moves.refl _ _
    | exact Eq.refl true
    | with_reducible apply State.Moves.ite
    | with_reducible apply State.Moves.step ?_ (State.moves_strTo ..) ?_
    | with_reducible apply State.Moves.ite
    | with_reducible dsimp only

theorem State.moves_latchReturns (s : State) :
    s.Moves [.regions, .strings, .cap, .recd, .regs] (State.latchReturns s) := by
  unfold State.latchReturns
  repeat' first
    | with_reducible exact State.Moves.refl _ _
    | exact Eq.refl true
    | with_reducible apply State.Moves.ite
    | with_reducible apply State.Moves.step ?_ (State.moves_latchHiccup ..) ?_
    | with_reducible apply State.Moves.step ?_ (State.moves_latchReturn ..) ?_
    | with_reducible apply State.Moves.step ?_ (State.moves_latchRamp ..) ?_
    | with_reducible apply State.Moves.overAll (fun _ _ => ?_)
    | with_reducible apply State.Moves.ite
    | with_reducible dsimp only

theorem State.moves_latchRegion (s : State) (r : Nat) :
    s.Moves [.regions] (State.latchRegion s r) := by
  unfold State.latchRegion
  repeat' first
    | with_reducible exact State.Moves.refl _ _
    | exact Eq.refl true
    | with_reducible apply State.Moves.step ?_ (State.moves_modSup ..) ?_
    | with_reducible dsimp only

theorem State.moves_latchLateral (s : State) (r : Nat) :
    s.Moves [.regions] (State.latchLateral s r) := by
  unfold State.latchLateral
  repeat' first
    | with_reducible exact State.Moves.refl _ _
    | exact Eq.refl true
    | with_reducible apply State.Moves.step ?_ (State.moves_modSup ..) ?_
    | with_reducible dsimp only

theorem State.moves_latchMr (s : State) (i : Nat) :
    s.Moves [.strings] (State.latchMr s i) := by
  unfold State.latchMr
  repeat' first
    | with_reducible exact State.Moves.refl _ _
    | exact Eq.refl true
    | with_reducible apply State.Moves.step ?_ (State.moves_modStr ..) ?_
    | with_reducible dsimp only

theorem State.moves_latchOpen (s : State) (i : Nat) :
    s.Moves [.strings] (State.latchOpen s i) := by
  unfold State.latchOpen
  repeat' first
    | with_reducible exact State.Moves.refl _ _
    | exact Eq.refl true
    | with_reducible apply State.Moves.ite
    | with_reducible apply State.Moves.step ?_ (State.moves_modStr ..) ?_
    | with_reducible apply State.Moves.ite
    | with_reducible dsimp only
    | split

theorem State.moves_latchTestStart (s : State) (i : Nat) :
    s.Moves [.regions, .strings] (State.latchTestStart s i) := by
  unfold State.latchTestStart
  repeat' first
    | with_reducible exact State.Moves.refl _ _
    | exact Eq.refl true
    | with_reducible apply State.Moves.ite
    | with_reducible apply State.Moves.step ?_ (State.moves_modStr ..) ?_
    | with_reducible apply State.Moves.step ?_ (State.moves_mark ..) ?_
    | with_reducible apply State.Moves.ite
    | with_reducible dsimp only
    | split

theorem State.moves_latchDisturb (s : State) (r : Nat) :
    s.Moves [.regions] (State.latchDisturb s r) := by
  unfold State.latchDisturb
  repeat' first
    | with_reducible exact State.Moves.refl _ _
    | exact Eq.refl true
    | with_reducible apply State.Moves.step ?_ (State.moves_modSup ..) ?_
    | with_reducible dsimp only

theorem State.moves_latchDecide (s : State) (i : Nat) :
    s.Moves [.regions, .strings, .cap, .dma, .recd, .regs] (State.latchDecide s i) := by
  unfold State.latchDecide
  repeat' first
    | with_reducible exact State.Moves.refl _ _
    | exact Eq.refl true
    | with_reducible apply State.Moves.ite
    | with_reducible apply State.Moves.step ?_ (State.moves_modStr ..) ?_
    | with_reducible apply State.Moves.step ?_ (State.moves_mute ..) ?_
    | with_reducible apply State.Moves.step ?_ (State.moves_makeBlind ..) ?_
    | with_reducible apply State.Moves.step ?_ (State.moves_flagBlind ..) ?_
    | with_reducible apply State.Moves.ite
    | with_reducible dsimp only
    | split

theorem State.moves_latchReturningSense (s : State) (i : Nat) :
    s.Moves [.regions, .strings, .dma, .recd, .regs] (State.latchReturningSense s i) := by
  unfold State.latchReturningSense
  repeat' first
    | with_reducible exact State.Moves.refl _ _
    | exact Eq.refl true
    | with_reducible apply State.Moves.ite
    | with_reducible apply State.Moves.step ?_ (State.moves_mute ..) ?_
    | with_reducible apply State.Moves.ite
    | with_reducible dsimp only

theorem State.moves_latchShareSat (s : State) (i : Nat) :
    s.Moves [.regions, .strings, .cap, .dma, .recd, .regs] (State.latchShareSat s i) := by
  unfold State.latchShareSat
  repeat' first
    | with_reducible exact State.Moves.refl _ _
    | exact Eq.refl true
    | with_reducible apply State.Moves.ite
    | with_reducible apply State.Moves.step ?_ (State.moves_modStr ..) ?_
    | with_reducible apply State.Moves.step ?_ (State.moves_makeBlind ..) ?_
    | with_reducible apply State.Moves.ite
    | with_reducible dsimp only

theorem State.moves_latchTestsRet (s : State) (i : Nat) :
    s.Moves [.regions, .strings, .cap, .dma, .recd, .regs] (State.latchTestsRet s i) := by
  unfold State.latchTestsRet
  repeat' first
    | with_reducible exact State.Moves.refl _ _
    | exact Eq.refl true
    | with_reducible apply State.Moves.ite
    | with_reducible apply State.Moves.step ?_ (State.moves_latchReturningSense ..) ?_
    | with_reducible apply State.Moves.step ?_ (State.moves_latchDecide ..) ?_
    | with_reducible apply State.Moves.step ?_ (State.moves_latchTestStart ..) ?_
    | with_reducible apply State.Moves.step ?_ (State.moves_latchOpen ..) ?_
    | with_reducible apply State.Moves.ite
    | with_reducible dsimp only

theorem State.moves_latchTests (s : State) (i : Nat) :
    s.Moves [.regions, .strings, .cap, .dma, .recd, .regs] (State.latchTests s i) := by
  unfold State.latchTests
  repeat' first
    | with_reducible exact State.Moves.refl _ _
    | exact Eq.refl true
    | with_reducible apply State.Moves.ite
    | with_reducible apply State.Moves.step ?_ (State.moves_latchOpen ..) ?_
    | with_reducible apply State.Moves.step ?_ (State.moves_latchDecide ..) ?_
    | with_reducible apply State.Moves.step ?_ (State.moves_latchTestStart ..) ?_
    | with_reducible apply State.Moves.step ?_ (State.moves_latchShareSat ..) ?_
    | with_reducible apply State.Moves.step ?_ (State.moves_modStr ..) ?_
    | with_reducible apply State.Moves.ite
    | with_reducible dsimp only

theorem State.moves_latchRejoin (s : State) (r : Nat) :
    s.Moves [.regions, .strings, .cap, .recd, .regs] (State.latchRejoin s r) := by
  unfold State.latchRejoin
  repeat' first
    | with_reducible exact State.Moves.refl _ _
    | exact Eq.refl true
    | with_reducible apply State.Moves.ite
    | with_reducible apply State.Moves.step ?_ (State.moves_rejoinAll ..) ?_
    | with_reducible apply State.Moves.step ?_ (State.moves_modSup ..) ?_
    | with_reducible apply State.Moves.step ?_ (State.moves_rejoin ..) ?_
    | with_reducible apply State.Moves.overAll (fun _ _ => ?_)
    | with_reducible apply State.Moves.ite
    | with_reducible dsimp only

theorem State.moves_latchShed (s : State) (r : Nat) :
    s.Moves [.regions, .strings, .cap, .recd, .regs] (State.latchShed s r) := by
  unfold State.latchShed
  repeat' first
    | with_reducible exact State.Moves.refl _ _
    | exact Eq.refl true
    | with_reducible apply State.Moves.ite
    | with_reducible apply State.Moves.step ?_ (State.moves_modSup ..) ?_
    | with_reducible apply State.Moves.step ?_ (State.moves_strTo ..) ?_
    | with_reducible apply State.Moves.ite
    | with_reducible dsimp only
    | split

theorem State.moves_latchRotation (s : State) (r : Nat) :
    s.Moves [.regions, .strings, .cap, .recd, .regs] (State.latchRotation s r) := by
  unfold State.latchRotation
  repeat' first
    | with_reducible exact State.Moves.refl _ _
    | exact Eq.refl true
    | with_reducible apply State.Moves.ite
    | with_reducible apply State.Moves.step ?_ (State.moves_modSup ..) ?_
    | with_reducible apply State.Moves.step ?_ (State.moves_latchRejoin ..) ?_
    | with_reducible apply State.Moves.step ?_ (State.moves_latchShed ..) ?_
    | with_reducible apply State.Moves.ite
    | with_reducible dsimp only

theorem State.moves_latchAssist (s : State) :
    s.Moves [.regions] (State.latchAssist s) := by
  unfold State.latchAssist
  repeat' first
    | with_reducible exact State.Moves.refl _ _
    | exact Eq.refl true
    | with_reducible apply State.Moves.ite
    | with_reducible apply State.Moves.step ?_ (State.moves_modSup ..) ?_
    | with_reducible apply State.Moves.overAll (fun _ _ => ?_)
    | with_reducible apply State.Moves.ite
    | with_reducible dsimp only

theorem State.moves_raiseHold (s : State) (r : Nat) :
    s.Moves [.regions, .recd, .regs] (State.raiseHold s r) := by
  unfold State.raiseHold
  repeat' first
    | with_reducible exact State.Moves.refl _ _
    | exact Eq.refl true
    | with_reducible apply State.Moves.ite
    | with_reducible apply State.Moves.step ?_ (State.moves_modSup ..) ?_
    | with_reducible apply State.Moves.step ?_ (State.moves_fire ..) ?_
    | with_reducible apply State.Moves.step ?_ (State.moves_countSat ..) ?_
    | with_reducible apply State.Moves.ite
    | with_reducible dsimp only

theorem State.moves_latchDerate (s : State) (r : Nat) :
    s.Moves [.regions, .recd, .regs] (State.latchDerate s r) := by
  unfold State.latchDerate
  repeat' first
    | with_reducible exact State.Moves.refl _ _
    | exact Eq.refl true
    | with_reducible apply State.Moves.ite
    | with_reducible apply State.Moves.step ?_ (State.moves_raiseHold ..) ?_
    | with_reducible apply State.Moves.step ?_ (State.moves_modSup ..) ?_
    | with_reducible apply State.Moves.step ?_ (State.moves_lowerCapo ..) ?_
    | with_reducible apply State.Moves.ite
    | with_reducible dsimp only

theorem State.moves_latchService (s : State) :
    s.Moves [.blk, .st, .rails, .regions, .strings, .eng, .cap, .hints, .learn, .therm, .convs, .cg, .dma, .recd, .regs] (State.latchService s) := by
  unfold State.latchService
  repeat' first
    | with_reducible exact State.Moves.refl _ _
    | exact Eq.refl true
    | with_reducible apply State.Moves.ite
    | with_reducible apply State.Moves.step ?_ (State.moves_modBlkSt _ _) ?_
    | with_reducible apply State.Moves.step ?_ (State.moves_setReason ..) ?_
    | with_reducible apply State.Moves.step ?_ (State.moves_enter ..) ?_
    | with_reducible apply State.Moves.overAll (fun _ _ => ?_)
    | with_reducible apply State.Moves.ite
    | with_reducible dsimp only
    | exact fun _ => rfl

theorem State.moves_stringMute (s : State) (i : Nat) :
    s.Moves [.regions, .strings, .dma, .recd, .regs] (State.stringMute s i).2 := by
  unfold State.stringMute
  repeat' first
    | with_reducible exact State.Moves.refl _ _
    | exact Eq.refl true
    | with_reducible apply State.Moves.step ?_ (State.moves_mute ..) ?_
    | with_reducible dsimp only

theorem State.moves_stringReturn (s : State) (i : Nat) (keeper : Bool) :
    s.Moves [.strings, .recd, .regs] (State.stringReturn s i keeper).2 := by
  unfold State.stringReturn
  repeat' first
    | with_reducible exact State.Moves.refl _ _
    | exact Eq.refl true
    | with_reducible apply State.Moves.ite
    | with_reducible apply State.Moves.ite_snd
    | with_reducible apply State.Moves.step ?_ (State.moves_fire ..) ?_
    | with_reducible apply State.Moves.step ?_ (State.moves_modStr ..) ?_
    | with_reducible apply State.Moves.ite
    | with_reducible dsimp only

theorem State.moves_stringSetBlind (s : State) (i : Nat) :
    s.Moves [.regions, .strings, .cap, .dma, .recd, .regs] (State.stringSetBlind s i).2 := by
  unfold State.stringSetBlind
  repeat' first
    | with_reducible exact State.Moves.refl _ _
    | exact Eq.refl true
    | with_reducible apply State.Moves.ite
    | with_reducible apply State.Moves.ite_snd
    | with_reducible apply State.Moves.step ?_ (State.moves_makeBlind ..) ?_
    | with_reducible apply State.Moves.step ?_ (State.moves_flagBlind ..) ?_
    | with_reducible apply State.Moves.ite
    | with_reducible dsimp only

theorem State.moves_stringClearBlind (s : State) (i : Nat) :
    s.Moves [.regions, .strings, .cap, .recd, .regs] (State.stringClearBlind s i).2 := by
  unfold State.stringClearBlind
  repeat' first
    | with_reducible exact State.Moves.refl _ _
    | exact Eq.refl true
    | with_reducible apply State.Moves.ite
    | with_reducible apply State.Moves.ite_snd
    | with_reducible apply State.Moves.step ?_ (State.moves_strTo ..) ?_
    | with_reducible apply State.Moves.step ?_ (State.moves_modStr ..) ?_
    | with_reducible apply State.Moves.ite
    | with_reducible dsimp only

theorem State.moves_rebuildString (s : State) (i : Nat) :
    s.Moves [.regions, .strings, .dma, .recd, .regs] (State.rebuildString s i) := by
  unfold State.rebuildString
  repeat' first
    | with_reducible exact State.Moves.refl _ _
    | exact Eq.refl true
    | with_reducible apply State.Moves.ite
    | with_reducible apply State.Moves.step ?_ (State.moves_mute ..) ?_
    | with_reducible apply State.Moves.step ?_ (State.moves_modStr ..) ?_
    | with_reducible apply State.Moves.ite
    | with_reducible dsimp only
    | split

end Sys2Proof.Machine
end

