-- ==== Sys2Proof/Laws/MovesHealth.lean ====
section
/-! SUPPORT. What the operations on faults, start-up, thermal management and converters move: one lemma for each. -/

namespace Sys2Proof.Machine

theorem State.moves_hiccupReport (s : State) (i : Nat) :
    s.Moves [.regions, .strings, .courses, .cap, .dma, .recd, .regs] (State.hiccupReport s i) := by
  unfold State.hiccupReport
  repeat' first
    | with_reducible exact State.Moves.refl _ _
    | exact Eq.refl true
    | with_reducible apply State.Moves.ite
    | with_reducible apply State.Moves.step ?_ (State.moves_modStr ..) ?_
    | with_reducible apply State.Moves.step ?_ (State.moves_followCause ..) ?_
    | with_reducible apply State.Moves.step ?_ (State.moves_mute ..) ?_
    | with_reducible apply State.Moves.step ?_ (State.moves_countSat ..) ?_
    | with_reducible apply State.Moves.step ?_ (State.moves_toHiccup ..) ?_
    | with_reducible apply State.Moves.ite
    | with_reducible dsimp only

theorem State.moves_hiccupBit (s : State) (c : Nat) (word : Nat) (old : Nat) (n : Nat) :
    s.Moves [.regions, .strings, .courses, .cap, .dma, .recd, .regs] (State.hiccupBit s c word old n) := by
  unfold State.hiccupBit
  repeat' first
    | with_reducible exact State.Moves.refl _ _
    | exact Eq.refl true
    | with_reducible apply State.Moves.ite
    | with_reducible apply State.Moves.step ?_ (State.moves_hiccupReport ..) ?_
    | with_reducible apply State.Moves.step ?_ (State.moves_fire ..) ?_
    | with_reducible apply State.Moves.ite
    | with_reducible dsimp only
    | split

theorem State.moves_laneLost (s : State) (c : Nat) :
    s.Moves [.blk, .regions, .courses, .cap, .recd, .regs] (State.laneLost s c) := by
  unfold State.laneLost
  repeat' first
    | with_reducible exact State.Moves.refl _ _
    | exact Eq.refl true
    | with_reducible apply State.Moves.ite
    | with_reducible apply State.Moves.step ?_ (State.moves_modCourse ..) ?_
    | with_reducible apply State.Moves.step ?_ (State.moves_senseSeen ..) ?_
    | with_reducible apply State.Moves.step ?_ (State.moves_learnFault ..) ?_
    | with_reducible apply State.Moves.step ?_ (State.moves_noteReason ..) ?_
    | with_reducible apply State.Moves.step ?_ (State.moves_followCause ..) ?_
    | with_reducible apply State.Moves.step ?_ (State.moves_fire ..) ?_
    | with_reducible apply State.Moves.ite
    | with_reducible dsimp only

theorem State.moves_rejectFrame (s : State) (c : Nat) :
    s.Moves [.blk, .regions, .courses, .cap, .recd, .regs] (State.rejectFrame s c) := by
  unfold State.rejectFrame
  repeat' first
    | with_reducible exact State.Moves.refl _ _
    | exact Eq.refl true
    | with_reducible apply State.Moves.ite
    | with_reducible apply State.Moves.step ?_ (State.moves_modCourse ..) ?_
    | with_reducible apply State.Moves.step ?_ (State.moves_countSat ..) ?_
    | with_reducible apply State.Moves.step ?_ (State.moves_laneLost ..) ?_
    | with_reducible apply State.Moves.ite
    | with_reducible dsimp only

theorem State.moves_acceptFrame (s : State) (c : Nat) (word : Nat) :
    s.Moves [.blk, .st, .rails, .regions, .strings, .courses, .eng, .cap, .hints, .learn, .therm, .convs, .cg, .dma, .recd, .regs] (State.acceptFrame s c word) := by
  unfold State.acceptFrame
  repeat' first
    | with_reducible exact State.Moves.refl _ _
    | exact Eq.refl true
    | with_reducible apply State.Moves.ite
    | with_reducible apply State.Moves.step ?_ (State.moves_modCourse ..) ?_
    | with_reducible apply State.Moves.step ?_ (State.moves_fire ..) ?_
    | with_reducible apply State.Moves.step ?_ (State.moves_damper ..) ?_
    | with_reducible apply State.Moves.step ?_ (State.moves_followCause ..) ?_
    | with_reducible apply State.Moves.step ?_ (State.moves_hiccupBit ..) ?_
    | with_reducible apply State.Moves.overAll (fun _ _ => ?_)
    | with_reducible apply State.Moves.ite
    | with_reducible dsimp only

theorem State.moves_recordCopy (s : State) (c : Nat) (first : List Byte) (second : List Byte) :
    s.Moves [.courses, .recd, .regs] (State.recordCopy s c first second) := by
  unfold State.recordCopy
  repeat' first
    | with_reducible exact State.Moves.refl _ _
    | exact Eq.refl true
    | with_reducible apply State.Moves.ite
    | with_reducible apply State.Moves.step ?_ (State.moves_modCourse ..) ?_
    | with_reducible apply State.Moves.step ?_ (State.moves_count ..) ?_
    | with_reducible apply State.Moves.step ?_ (State.moves_enqueue ..) ?_
    | with_reducible apply State.Moves.ite
    | with_reducible dsimp only
    | split

theorem State.moves_readIdent (s : State) (c : Nat) (ident : List Byte) :
    s.Moves [.courses] (State.readIdent s c ident) := by
  unfold State.readIdent
  repeat' first
    | with_reducible exact State.Moves.refl _ _
    | exact Eq.refl true
    | with_reducible apply State.Moves.step ?_ (State.moves_modCourse ..) ?_
    | with_reducible dsimp only

theorem State.moves_powerOff (s : State) :
    s.Moves [.now, .blk, .st, .rails, .regions, .strings, .courses, .chans, .eng, .used, .cap, .telem, .tune, .hints, .learn,
      .therm, .convs, .cg, .dict, .dma, .recd, .clk, .regs] s.powerOff :=
  ⟨fun p hp => by cases p <;> first | exact absurd (by decide) hp | rfl,
    rfl, fun _ => ⟨(State.units_initial s.cfg).1, (State.units_initial s.cfg).2, (State.units_initial s.cfg).3,
      (State.units_initial s.cfg).4, (State.units_initial s.cfg).5, (State.units_initial s.cfg).6⟩,
    fun _ => Nat.two_pow_pos 64, fun _ => rfl, fun _ => rfl, fun _ => State.railsOk_initial s.cfg⟩

theorem State.moves_enterSelftest (s : State) (riseAt : Nat) :
    s.Moves [.blk, .st, .rails, .regions, .strings, .eng, .cap, .hints, .learn, .therm, .convs, .cg, .dma, .recd, .clk, .regs] (State.enterSelftest s riseAt) := by
  unfold State.enterSelftest
  repeat' first
    | with_reducible exact State.Moves.refl _ _
    | exact Eq.refl true
    | with_reducible apply State.Moves.ite
    | with_reducible apply State.Moves.step ?_ (State.moves_modBlkSt _ _) ?_
    | with_reducible apply State.Moves.step ?_ (State.moves_enter ..) ?_
    | with_reducible apply State.Moves.step ?_ (State.moves_fire ..) ?_
    | with_reducible apply State.Moves.ite
    | with_reducible dsimp only
    | with_reducible apply State.Moves.put_clk
    | with_reducible apply State.Moves.put_blk
    | refine .put ?_ rfl (fun p hp => by cases p <;> first | exact absurd (by decide) hp | rfl)
        (.of (by first | rfl | simp [State.sizes] | (simp only [State.sizes, List.length_map, List.length_modify]; rfl)) rfl rfl rfl)
    | exact fun _ => rfl

theorem State.moves_failConverter (s : State) (n : Nat) :
    s.Moves [.convs, .cg, .recd, .regs] (State.failConverter s n) := by
  unfold State.failConverter
  repeat' first
    | with_reducible exact State.Moves.refl _ _
    | exact Eq.refl true
    | with_reducible apply State.Moves.ite
    | with_reducible apply State.Moves.step ?_ (State.moves_fire ..) ?_
    | with_reducible apply State.Moves.step ?_ (State.moves_modConv ..) ?_
    | with_reducible apply State.Moves.ite
    | with_reducible dsimp only
    | with_reducible apply State.Moves.put_cg

theorem State.moves_startDiscover (s : State) :
    s.Moves [.blk, .st, .rails, .regions, .strings, .courses, .eng, .cap, .hints, .learn, .therm, .convs, .cg, .dma, .recd, .regs] (State.startDiscover s) := by
  unfold State.startDiscover
  repeat' first
    | with_reducible exact State.Moves.refl _ _
    | exact Eq.refl true
    | with_reducible apply State.Moves.ite
    | with_reducible apply State.Moves.step ?_ (State.moves_enter ..) ?_
    | with_reducible apply State.Moves.ite
    | with_reducible dsimp only
    | with_reducible apply State.Moves.put_courses
    | exact List.length_map ..
    | exact List.length_modify ..

theorem State.moves_discovered (s : State) (c : Nat) (outcome : Nat) (ident : List Byte) :
    s.Moves [.regions, .strings, .courses, .dma, .recd, .regs] (State.discovered s c outcome ident) := by
  unfold State.discovered
  repeat' first
    | with_reducible exact State.Moves.refl _ _
    | exact Eq.refl true
    | with_reducible apply State.Moves.ite
    | with_reducible apply State.Moves.step ?_ (State.moves_modCourse ..) ?_
    | with_reducible apply State.Moves.step ?_ (State.moves_fire ..) ?_
    | with_reducible apply State.Moves.step ?_ (State.moves_mute ..) ?_
    | with_reducible apply State.Moves.step ?_ (State.moves_courseFault ..) ?_
    | with_reducible apply State.Moves.overAll (fun _ _ => ?_)
    | with_reducible apply State.Moves.ite
    | with_reducible dsimp only

theorem State.moves_attempt (s : State) (c : Nat) (res : PmbResult) (ident : List Byte) :
    s.Moves [.regions, .strings, .courses, .dma, .recd, .regs] (State.attempt s c res ident) := by
  unfold State.attempt
  repeat' first
    | with_reducible exact State.Moves.refl _ _
    | exact Eq.refl true
    | with_reducible apply State.Moves.ite
    | with_reducible apply State.Moves.step ?_ (State.moves_discovered ..) ?_
    | with_reducible apply State.Moves.step ?_ (State.moves_modCourse ..) ?_
    | with_reducible apply State.Moves.ite
    | with_reducible dsimp only
    | split

theorem State.moves_startRamp (s : State) :
    s.Moves [.blk, .st, .rails, .regions, .strings, .chans, .eng, .cap, .hints, .learn, .therm, .convs, .cg, .dma, .recd, .regs] (State.startRamp s) := by
  unfold State.startRamp
  repeat' first
    | with_reducible exact State.Moves.refl _ _
    | exact Eq.refl true
    | with_reducible apply State.Moves.ite
    | with_reducible apply State.Moves.step ?_ (State.moves_modBlkSt _ _) ?_
    | with_reducible apply State.Moves.step ?_ (State.moves_enter ..) ?_
    | with_reducible apply State.Moves.ite
    | with_reducible dsimp only
    | with_reducible apply State.Moves.put_chans
    | with_reducible apply State.Moves.put_strings
    | with_reducible apply State.Moves.put_rails
    | with_reducible apply State.Moves.put_blk
    | exact List.length_map ..
    | exact List.length_modify ..
    | exact fun _ => ⟨rfl, rfl⟩
    | refine .put ?_ rfl (fun p hp => by cases p <;> first | exact absurd (by decide) hp | rfl)
        (.of (by first | rfl | simp [State.sizes] | (simp only [State.sizes, List.length_map, List.length_modify]; rfl)) rfl rfl rfl)
    | refine .put ?_ rfl (fun p hp => by cases p <;> first | exact absurd (by decide) hp | rfl)
        (.ofRails _ (by first | rfl | simp [State.sizes] | (simp only [State.sizes, List.length_map, List.length_modify]; rfl)) rfl rfl (by exact fun _ => ⟨rfl, rfl⟩) rfl)
    | exact fun _ => rfl

theorem State.moves_leaveRampIfDone (s : State) : s.Moves [.blk, .st, .rails, .regions, .strings, .eng, .cap, .hints,
    .learn, .therm, .convs, .cg, .dma, .recd, .regs] s.leaveRampIfDone := by
  unfold State.leaveRampIfDone
  refine .ite ?_ (.refl _ _)
  extract_lets a b good k c d
  have ha : s.Moves [.blk, .st, .rails, .regions, .strings, .eng, .cap, .hints, .learn, .therm, .convs, .cg, .dma,
      .recd, .regs] a := .step (.refl _ _) (State.moves_enter ..) rfl
  clear_value a
  have hb : s.Moves [.blk, .st, .rails, .regions, .strings, .eng, .cap, .hints, .learn, .therm, .convs, .cg, .dma,
      .recd, .regs] b := .step ha (State.moves_resumeWakes ..) rfl
  clear_value b good k
  have hc : s.Moves [.blk, .st, .rails, .regions, .strings, .eng, .cap, .hints, .learn, .therm, .convs, .cg, .dma,
      .recd, .regs] c := .put_cap hb rfl
  clear_value c
  have hd : s.Moves [.blk, .st, .rails, .regions, .strings, .eng, .cap, .hints, .learn, .therm, .convs, .cg, .dma,
      .recd, .regs] d := .put hc rfl
      (fun p hp => by cases p <;> first | exact absurd (by decide) hp | rfl) (.of (by simp only [State.sizes, List.length_map]) rfl rfl rfl)
  clear_value d
  refine .ite (.ite ?_ ?_) hd
  · exact .step (hd.step (State.moves_modBlk _ _ (by exact fun _ => rfl)) rfl) (State.moves_set ..) rfl
  · exact hd.step (State.moves_modBlk _ _ (by exact fun _ => rfl)) rfl

theorem State.moves_nextRail (s : State) :
    s.Moves [.blk, .st, .rails, .regions, .strings, .eng, .cap, .hints, .learn, .therm, .convs, .cg, .dma, .recd, .regs] (State.nextRail s) := by
  unfold State.nextRail
  repeat' first
    | with_reducible exact State.Moves.refl _ _
    | exact Eq.refl true
    | with_reducible apply State.Moves.step ?_ (State.moves_leaveRampIfDone ..) ?_
    | with_reducible apply State.Moves.step ?_ (State.moves_modBlkSt _ _) ?_
    | with_reducible dsimp only
    | exact fun _ => rfl

theorem State.moves_railRampStart (s : State) (q : Nat) :
    s.Moves [.blk, .st, .rails, .regions, .strings, .courses, .eng, .cap, .hints, .learn, .therm, .convs, .cg, .dma, .recd, .regs] (State.railRampStart s q) := by
  unfold State.railRampStart
  repeat' first
    | with_reducible exact State.Moves.refl _ _
    | exact Eq.refl true
    | with_reducible apply State.Moves.ite
    | with_reducible apply State.Moves.step ?_ (State.moves_nextRail ..) ?_
    | with_reducible apply State.Moves.step ?_ (State.moves_fire ..) ?_
    | with_reducible apply State.Moves.step ?_ (State.moves_modRail _ _ _ ?_) ?_
    | with_reducible apply State.Moves.step ?_ (State.moves_modCourse ..) ?_
    | with_reducible apply State.Moves.step ?_ (State.moves_modRegion ..) ?_
    | with_reducible apply State.Moves.overAll (fun _ _ => ?_)
    | with_reducible apply State.Moves.ite
    | with_reducible dsimp only
    | exact fun _ => ⟨rfl, rfl⟩

theorem State.moves_railEnLow (s : State) (q : Nat) :
    s.Moves [.regions, .strings, .courses] (State.railEnLow s q) := by
  unfold State.railEnLow
  repeat' first
    | with_reducible exact State.Moves.refl _ _
    | exact Eq.refl true
    | with_reducible apply State.Moves.step ?_ (State.moves_modCourse ..) ?_
    | with_reducible apply State.Moves.step ?_ (State.moves_haltRegion ..) ?_
    | with_reducible apply State.Moves.overAll (fun _ _ => ?_)
    | with_reducible dsimp only

theorem State.moves_cmdShutdown (s : State) :
    s.Moves [.blk, .st, .rails, .regions, .strings, .eng, .cap, .hints, .learn, .therm, .convs, .cg, .dma, .recd, .regs] (State.cmdShutdown s).2 := by
  unfold State.cmdShutdown
  repeat' first
    | with_reducible exact State.Moves.refl _ _
    | exact Eq.refl true
    | with_reducible apply State.Moves.step ?_ (State.moves_modBlkSt _ _) ?_
    | with_reducible apply State.Moves.step ?_ (State.moves_enter ..) ?_
    | with_reducible apply State.Moves.step ?_ (State.moves_fire ..) ?_
    | with_reducible dsimp only
    | split
    | exact fun _ => rfl

theorem State.moves_cmdStart (s : State) :
    s.Moves [.blk, .st, .rails, .regions, .strings, .courses, .eng, .cap, .hints, .learn, .therm, .convs, .cg, .dma, .recd, .regs] (State.cmdStart s).2 := by
  unfold State.cmdStart
  repeat' first
    | with_reducible exact State.Moves.refl _ _
    | exact Eq.refl true
    | with_reducible apply State.Moves.ite
    | with_reducible apply State.Moves.ite_snd
    | with_reducible apply State.Moves.step ?_ (State.moves_startDiscover ..) ?_
    | with_reducible apply State.Moves.step ?_ (State.moves_modBlkSt _ _) ?_
    | with_reducible apply State.Moves.step ?_ (State.moves_fire ..) ?_
    | with_reducible apply State.Moves.ite
    | with_reducible dsimp only
    | exact fun _ => rfl

theorem State.moves_beginDown (s : State) (q : Nat) :
    s.Moves [.rails, .regions] (State.beginDown s q) := by
  unfold State.beginDown
  repeat' first
    | with_reducible exact State.Moves.refl _ _
    | exact Eq.refl true
    | with_reducible apply State.Moves.step ?_ (State.moves_modRail _ _ _ ?_) ?_
    | with_reducible apply State.Moves.step ?_ (State.moves_modStrum ..) ?_
    | with_reducible apply State.Moves.overAll (fun _ _ => ?_)
    | with_reducible dsimp only
    | exact fun _ => ⟨rfl, rfl⟩

theorem State.moves_declareDiode (s : State) (r : Nat) (cause : Nat) :
    s.Moves [.blk, .therm, .recd, .regs] (State.declareDiode s r cause) := by
  unfold State.declareDiode
  repeat' first
    | with_reducible exact State.Moves.refl _ _
    | exact Eq.refl true
    | with_reducible apply State.Moves.step ?_ (State.moves_fire ..) ?_
    | with_reducible apply State.Moves.step ?_ (State.moves_modDiode ..) ?_
    | with_reducible apply State.Moves.step ?_ (State.moves_orBits ..) ?_
    | with_reducible apply State.Moves.step ?_ (State.moves_noteReason ..) ?_
    | with_reducible dsimp only

theorem State.moves_probateDiode (s : State) (r : Nat) :
    s.Moves [.therm, .recd, .regs] (State.probateDiode s r) := by
  unfold State.probateDiode
  repeat' first
    | with_reducible exact State.Moves.refl _ _
    | exact Eq.refl true
    | with_reducible apply State.Moves.step ?_ (State.moves_fire ..) ?_
    | with_reducible apply State.Moves.step ?_ (State.moves_modDiode ..) ?_
    | with_reducible dsimp only

theorem State.moves_judgeDiode (s : State) (r : Nat) (v : Int) (parityOk : Bool) :
    s.Moves [.blk, .therm, .recd, .regs] (State.judgeDiode s r v parityOk) := by
  unfold State.judgeDiode
  repeat' first
    | with_reducible exact State.Moves.refl _ _
    | exact Eq.refl true
    | with_reducible apply State.Moves.ite
    | with_reducible apply State.Moves.step ?_ (State.moves_declareDiode ..) ?_
    | with_reducible apply State.Moves.step ?_ (State.moves_fire ..) ?_
    | with_reducible apply State.Moves.step ?_ (State.moves_modDiode ..) ?_
    | with_reducible apply State.Moves.ite
    | with_reducible dsimp only

theorem State.moves_setTemp (s : State) (r : Nat) (t : Int) :
    s.Moves [.therm, .recd, .regs] (State.setTemp s r t) := by
  unfold State.setTemp
  repeat' first
    | with_reducible exact State.Moves.refl _ _
    | exact Eq.refl true
    | with_reducible apply State.Moves.ite
    | with_reducible apply State.Moves.step ?_ (State.moves_modDiode ..) ?_
    | with_reducible apply State.Moves.step ?_ (State.moves_fire ..) ?_
    | with_reducible apply State.Moves.step ?_ (State.moves_count ..) ?_
    | with_reducible apply State.Moves.step ?_ (State.moves_orBits ..) ?_
    | with_reducible apply State.Moves.ite
    | with_reducible dsimp only
    | with_reducible apply State.Moves.put_therm

theorem State.moves_updateTemps (s : State) (r : Nat) :
    s.Moves [.therm, .recd, .regs] (State.updateTemps s r) := by
  unfold State.updateTemps
  repeat' first
    | with_reducible exact State.Moves.refl _ _
    | exact Eq.refl true
    | with_reducible apply State.Moves.step ?_ (State.moves_setTemp ..) ?_
    | with_reducible apply State.Moves.overAll (fun _ _ => ?_)
    | with_reducible dsimp only
    | split

theorem State.moves_restartTimer (s : State) :
    s.Moves [.therm] (State.restartTimer s) := by
  unfold State.restartTimer
  repeat' first
    | with_reducible exact State.Moves.refl _ _
    | exact Eq.refl true
    | with_reducible apply State.Moves.ite
    | with_reducible apply State.Moves.ite
    | with_reducible dsimp only
    | with_reducible apply State.Moves.put_therm

theorem State.moves_scanReading (s : State) (r : Nat) (value : Int) (parityOk : Bool) :
    s.Moves [.blk, .used, .therm, .dict, .recd, .regs] (State.scanReading s r value parityOk) := by
  unfold State.scanReading
  repeat' first
    | with_reducible exact State.Moves.refl _ _
    | exact Eq.refl true
    | with_reducible apply State.Moves.ite
    | with_reducible apply State.Moves.step ?_ (State.moves_takeGroup ..) ?_
    | with_reducible apply State.Moves.step ?_ (State.moves_judgeDiode ..) ?_
    | with_reducible apply State.Moves.step ?_ (State.moves_modDiode ..) ?_
    | with_reducible apply State.Moves.step ?_ (State.moves_restartTimer ..) ?_
    | with_reducible apply State.Moves.step ?_ (State.moves_updateTemps ..) ?_
    | with_reducible apply State.Moves.step ?_ (State.moves_modFront ..) ?_
    | with_reducible apply State.Moves.ite
    | with_reducible dsimp only

theorem State.moves_calibration (s : State) (q : Nat) (value : Int) :
    s.Moves [.blk, .therm, .recd, .regs] (State.calibration s q value) := by
  unfold State.calibration
  repeat' first
    | with_reducible exact State.Moves.refl _ _
    | exact Eq.refl true
    | with_reducible apply State.Moves.ite
    | with_reducible apply State.Moves.step ?_ (State.moves_modFront ..) ?_
    | with_reducible apply State.Moves.step ?_ (State.moves_modDiode ..) ?_
    | with_reducible apply State.Moves.step ?_ (State.moves_restartTimer ..) ?_
    | with_reducible apply State.Moves.step ?_ (State.moves_orBits ..) ?_
    | with_reducible apply State.Moves.step ?_ (State.moves_noteReason ..) ?_
    | with_reducible apply State.Moves.step ?_ (State.moves_fire ..) ?_
    | with_reducible apply State.Moves.overAll (fun _ _ => ?_)
    | with_reducible apply State.Moves.ite
    | with_reducible dsimp only

theorem State.moves_trip (s : State) (d : Nat) :
    s.Moves [.blk, .st, .rails, .regions, .strings, .courses, .eng, .cap, .hints, .learn, .therm, .convs, .cg, .dma, .recd, .regs] (State.trip s d) := by
  unfold State.trip
  repeat' first
    | with_reducible exact State.Moves.refl _ _
    | exact Eq.refl true
    | with_reducible apply State.Moves.ite
    | with_reducible apply State.Moves.step ?_ (State.moves_fire ..) ?_
    | with_reducible apply State.Moves.step ?_ (State.moves_railsOff ..) ?_
    | with_reducible apply State.Moves.step ?_ (State.moves_allEnLow ..) ?_
    | with_reducible apply State.Moves.step ?_ (State.moves_haltAll ..) ?_
    | with_reducible apply State.Moves.step ?_ (State.moves_set ..) ?_
    | with_reducible apply State.Moves.step ?_ (State.moves_count ..) ?_
    | with_reducible apply State.Moves.step ?_ (State.moves_modBlkSt _ _) ?_
    | with_reducible apply State.Moves.step ?_ (State.moves_setReason ..) ?_
    | with_reducible apply State.Moves.step ?_ (State.moves_enter ..) ?_
    | with_reducible apply State.Moves.step ?_ (State.moves_restartTimer ..) ?_
    | with_reducible apply State.Moves.ite
    | with_reducible dsimp only
    | with_reducible apply State.Moves.put_blk
    | with_reducible apply State.Moves.put_therm
    | refine .put ?_ rfl (fun p hp => by cases p <;> first | exact absurd (by decide) hp | rfl)
        (.of (by first | rfl | simp [State.sizes] | (simp only [State.sizes, List.length_map, List.length_modify]; rfl)) rfl rfl rfl)
    | exact fun _ => rfl

theorem State.moves_confirmationRead (s : State) (q : Nat) (value : Int) (parityOk : Bool) :
    s.Moves [.blk, .st, .rails, .regions, .strings, .courses, .eng, .cap, .hints, .learn, .therm, .convs, .cg, .dma, .recd, .regs] (State.confirmationRead s q value parityOk) := by
  unfold State.confirmationRead
  repeat' first
    | with_reducible exact State.Moves.refl _ _
    | exact Eq.refl true
    | with_reducible apply State.Moves.ite
    | with_reducible apply State.Moves.step ?_ (State.moves_modFront ..) ?_
    | with_reducible apply State.Moves.step ?_ (State.moves_trip ..) ?_
    | with_reducible apply State.Moves.whenOf
    | with_reducible apply State.Moves.ite
    | with_reducible dsimp only
    | split

theorem State.moves_thermalDecision (s : State) :
    s.Moves [.rails, .regions, .used, .therm, .recd, .regs] (State.thermalDecision s) := by
  unfold State.thermalDecision
  repeat' first
    | with_reducible exact State.Moves.refl _ _
    | exact Eq.refl true
    | with_reducible apply State.Moves.ite
    | with_reducible apply State.Moves.step ?_ (State.moves_takeThrottle ..) ?_
    | with_reducible apply State.Moves.step ?_ (State.moves_lowerCapo ..) ?_
    | with_reducible apply State.Moves.step ?_ (State.moves_modSup ..) ?_
    | with_reducible apply State.Moves.step ?_ (State.moves_orBits ..) ?_
    | with_reducible apply State.Moves.step ?_ (State.moves_count ..) ?_
    | with_reducible apply State.Moves.step ?_ (State.moves_abandonFrets ..) ?_
    | with_reducible apply State.Moves.step ?_ (State.moves_resetRecovery ..) ?_
    | with_reducible apply State.Moves.step ?_ (State.moves_fire ..) ?_
    | with_reducible apply State.Moves.overAll (fun _ _ => ?_)
    | with_reducible apply State.Moves.ite
    | with_reducible dsimp only
    | split
    | with_reducible apply State.Moves.put_therm

theorem State.moves_diodeClear (s : State) (mask : Nat) :
    s.Moves [.therm, .recd, .regs] (State.diodeClear s mask) := by
  unfold State.diodeClear
  repeat' first
    | with_reducible exact State.Moves.refl _ _
    | exact Eq.refl true
    | with_reducible apply State.Moves.ite
    | with_reducible apply State.Moves.step ?_ (State.moves_probateDiode ..) ?_
    | with_reducible apply State.Moves.overAll (fun _ _ => ?_)
    | with_reducible apply State.Moves.ite
    | with_reducible dsimp only

theorem State.moves_diodeForce (s : State) (mask : Nat) :
    s.Moves [.blk, .therm, .recd, .regs] (State.diodeForce s mask) := by
  unfold State.diodeForce
  repeat' first
    | with_reducible exact State.Moves.refl _ _
    | exact Eq.refl true
    | with_reducible apply State.Moves.ite
    | with_reducible apply State.Moves.step ?_ (State.moves_set ..) ?_
    | with_reducible apply State.Moves.step ?_ (State.moves_declareDiode ..) ?_
    | with_reducible apply State.Moves.step ?_ (State.moves_probateDiode ..) ?_
    | with_reducible apply State.Moves.step ?_ (State.moves_restartTimer ..) ?_
    | with_reducible apply State.Moves.overAll (fun _ _ => ?_)
    | with_reducible apply State.Moves.ite
    | with_reducible dsimp only

theorem State.moves_arm (s : State) (n : Nat) :
    s.Moves [.convs] (State.arm s n) := by
  unfold State.arm
  repeat' first
    | with_reducible exact State.Moves.refl _ _
    | exact Eq.refl true
    | with_reducible apply State.Moves.step ?_ (State.moves_modConv ..) ?_
    | with_reducible dsimp only

theorem State.moves_convFailParity (s : State) (n : Nat) :
    s.Moves [.blk, .convs, .cg, .recd, .regs] (State.convFailParity s n) := by
  unfold State.convFailParity
  repeat' first
    | with_reducible exact State.Moves.refl _ _
    | exact Eq.refl true
    | with_reducible apply State.Moves.ite
    | with_reducible apply State.Moves.step ?_ (State.moves_failConverter ..) ?_
    | with_reducible apply State.Moves.step ?_ (State.moves_parityError ..) ?_
    | with_reducible apply State.Moves.ite
    | with_reducible dsimp only

theorem State.moves_senseRuns (s : State) (i : Nat) (code : Nat) (gain : Nat) :
    s.Moves [.strings] (State.senseRuns s i code gain) := by
  unfold State.senseRuns
  repeat' first
    | with_reducible exact State.Moves.refl _ _
    | exact Eq.refl true
    | with_reducible apply State.Moves.ite
    | with_reducible apply State.Moves.step ?_ (State.moves_modStr ..) ?_
    | with_reducible apply State.Moves.ite
    | with_reducible dsimp only

theorem State.moves_lostLaneReading (s : State) (i : Nat) :
    s.Moves [.regions, .strings, .courses, .cap, .dma, .recd, .regs] (State.lostLaneReading s i) := by
  unfold State.lostLaneReading
  repeat' first
    | with_reducible exact State.Moves.refl _ _
    | exact Eq.refl true
    | with_reducible apply State.Moves.ite
    | with_reducible apply State.Moves.step ?_ (State.moves_hiccupReport ..) ?_
    | with_reducible apply State.Moves.ite
    | with_reducible dsimp only

theorem State.moves_imonResult (s : State) (i : Nat) (code : Nat) (gain : Nat) :
    s.Moves [.regions, .strings, .courses, .cap, .dma, .recd, .regs] (State.imonResult s i code gain) := by
  unfold State.imonResult
  repeat' first
    | with_reducible exact State.Moves.refl _ _
    | exact Eq.refl true
    | with_reducible apply State.Moves.ite
    | with_reducible apply State.Moves.step ?_ (State.moves_modStr ..) ?_
    | with_reducible apply State.Moves.step ?_ (State.moves_lostLaneReading ..) ?_
    | with_reducible apply State.Moves.step ?_ (State.moves_senseRuns ..) ?_
    | with_reducible apply State.Moves.ite
    | with_reducible dsimp only
    | split

theorem State.moves_refResult (s : State) (n : Nat) (code : Nat) :
    s.Moves [.convs, .cg, .recd, .regs] (State.refResult s n code) := by
  unfold State.refResult
  repeat' first
    | with_reducible exact State.Moves.refl _ _
    | exact Eq.refl true
    | with_reducible apply State.Moves.ite
    | with_reducible apply State.Moves.step ?_ (State.moves_failConverter ..) ?_
    | with_reducible apply State.Moves.step ?_ (State.moves_modConv ..) ?_
    | with_reducible apply State.Moves.ite
    | with_reducible dsimp only

theorem State.moves_otherResult (s : State) (n : Nat) (word : Nat) (code : Nat) (gain : Nat) (input : Nat) :
    s.Moves [.convs, .cg, .recd, .regs] (State.otherResult s n word code gain input) := by
  unfold State.otherResult
  repeat' first
    | with_reducible exact State.Moves.refl _ _
    | exact Eq.refl true
    | with_reducible apply State.Moves.ite
    | with_reducible apply State.Moves.step ?_ (State.moves_modConv ..) ?_
    | with_reducible apply State.Moves.step ?_ (State.moves_refResult ..) ?_
    | with_reducible apply State.Moves.ite
    | with_reducible dsimp only

theorem State.moves_askSlope (s : State) (i : Nat) :
    s.Moves [.convs] (State.askSlope s i) := by
  unfold State.askSlope
  repeat' first
    | with_reducible exact State.Moves.refl _ _
    | exact Eq.refl true
    | with_reducible apply State.Moves.ite
    | with_reducible apply State.Moves.step ?_ (State.moves_askUrgent ..) ?_
    | with_reducible apply State.Moves.ite
    | with_reducible dsimp only
    | split

theorem State.moves_slopeReading (s : State) (i : Nat) (code : Nat) :
    s.Moves [.strings, .convs] (State.slopeReading s i code) := by
  unfold State.slopeReading
  repeat' first
    | with_reducible exact State.Moves.refl _ _
    | exact Eq.refl true
    | with_reducible apply State.Moves.ite
    | with_reducible apply State.Moves.step ?_ (State.moves_askSlope ..) ?_
    | with_reducible apply State.Moves.step ?_ (State.moves_modStr ..) ?_
    | with_reducible apply State.Moves.ite
    | with_reducible dsimp only

theorem State.moves_urgentResult (s : State) (n : Nat) (u : Urgent) (word : Nat) (code : Nat) (use : Bool) :
    s.Moves [.strings, .convs, .regs] (State.urgentResult s n u word code use) := by
  unfold State.urgentResult
  repeat' first
    | with_reducible exact State.Moves.refl _ _
    | exact Eq.refl true
    | with_reducible apply State.Moves.ite
    | with_reducible apply State.Moves.step ?_ (State.moves_count ..) ?_
    | with_reducible apply State.Moves.step ?_ (State.moves_modConv ..) ?_
    | with_reducible apply State.Moves.step ?_ (State.moves_slopeReading ..) ?_
    | with_reducible apply State.Moves.step ?_ (State.moves_senseRuns ..) ?_
    | with_reducible apply State.Moves.ite
    | with_reducible dsimp only
    | split

theorem State.moves_setSweepCount (s : State) (f : Nat → Nat) :
    s.Moves [.dma] (State.setSweepCount s f) := by
  unfold State.setSweepCount
  repeat' first
    | with_reducible exact State.Moves.refl _ _
    | exact Eq.refl true
    | with_reducible apply State.Moves.step ?_ (State.moves_modDmaCh ..) ?_
    | with_reducible dsimp only

theorem State.moves_sweepEnds (s : State) :
    s.Moves [.cg, .dma, .regs] (State.sweepEnds s) := by
  unfold State.sweepEnds
  repeat' first
    | with_reducible exact State.Moves.refl _ _
    | exact Eq.refl true
    | with_reducible apply State.Moves.ite
    | with_reducible apply State.Moves.step ?_ (State.moves_setSweepCount ..) ?_
    | with_reducible apply State.Moves.step ?_ (State.moves_count ..) ?_
    | with_reducible apply State.Moves.ite
    | with_reducible dsimp only
    | with_reducible apply State.Moves.put_cg

theorem State.moves_captureStep (s : State) :
    s.Moves [.convs, .cg] (State.captureStep s) := by
  unfold State.captureStep
  repeat' first
    | with_reducible exact State.Moves.refl _ _
    | exact Eq.refl true
    | with_reducible apply State.Moves.ite
    | with_reducible apply State.Moves.ite
    | with_reducible dsimp only
    | split
    | with_reducible apply State.Moves.put_cg
    | with_reducible apply State.Moves.put_convs
    | exact List.length_map ..
    | exact List.length_modify ..
    | exact (List.length_map ..).trans List.length_zipIdx
    | refine .put ?_ rfl (fun p hp => by cases p <;> first | exact absurd (by decide) hp | rfl)
        (.of (by first | rfl | simp [State.sizes] | (simp only [State.sizes, List.length_map, List.length_modify]; rfl)) rfl rfl rfl)

theorem State.moves_convSwept (s : State) (n : Nat) :
    s.Moves [.convs, .cg, .dma, .regs] (State.convSwept s n) := by
  unfold State.convSwept
  repeat' first
    | with_reducible exact State.Moves.refl _ _
    | exact Eq.refl true
    | with_reducible apply State.Moves.ite
    | with_reducible apply State.Moves.step ?_ (State.moves_raiseReq ..) ?_
    | with_reducible apply State.Moves.step ?_ (State.moves_captureStep ..) ?_
    | with_reducible apply State.Moves.step ?_ (State.moves_sweepEnds ..) ?_
    | with_reducible apply State.Moves.ite
    | with_reducible dsimp only
    | with_reducible apply State.Moves.put_cg

theorem State.moves_syncResult (s : State) (n : Nat) (word : Nat) :
    s.Moves [.convs, .cg, .dma, .regs] (State.syncResult s n word) := by
  unfold State.syncResult
  repeat' first
    | with_reducible exact State.Moves.refl _ _
    | exact Eq.refl true
    | with_reducible apply State.Moves.step ?_ (State.moves_modConv ..) ?_
    | with_reducible apply State.Moves.step ?_ (State.moves_convSwept ..) ?_
    | with_reducible dsimp only
    | split
    | with_reducible apply State.Moves.put_cg

theorem State.moves_scheduledResult (s : State) (n : Nat) (word : Nat) (code : Nat) (use : Bool) (timed : Bool) :
    s.Moves [.regions, .strings, .courses, .cap, .convs, .cg, .dma, .recd, .regs] (State.scheduledResult s n word code use timed) := by
  unfold State.scheduledResult
  repeat' first
    | with_reducible exact State.Moves.refl _ _
    | exact Eq.refl true
    | with_reducible apply State.Moves.ite
    | with_reducible apply State.Moves.step ?_ (State.moves_modConv ..) ?_
    | with_reducible apply State.Moves.step ?_ (State.moves_imonResult ..) ?_
    | with_reducible apply State.Moves.step ?_ (State.moves_otherResult ..) ?_
    | with_reducible apply State.Moves.step ?_ (State.moves_count ..) ?_
    | with_reducible apply State.Moves.ite
    | with_reducible dsimp only

theorem State.moves_conversionResult (s : State) (n : Nat) (nv : Int) (parityOk : Bool) :
    s.Moves [.blk, .regions, .strings, .courses, .cap, .convs, .cg, .dma, .recd, .regs] (State.conversionResult s n nv parityOk) := by
  unfold State.conversionResult
  repeat' first
    | with_reducible exact State.Moves.refl _ _
    | exact Eq.refl true
    | with_reducible apply State.Moves.ite
    | with_reducible apply State.Moves.step ?_ (State.moves_modConv ..) ?_
    | with_reducible apply State.Moves.step ?_ (State.moves_convFailParity ..) ?_
    | with_reducible apply State.Moves.step ?_ (State.moves_count ..) ?_
    | with_reducible apply State.Moves.step ?_ (State.moves_arm ..) ?_
    | with_reducible apply State.Moves.step ?_ (State.moves_urgentResult ..) ?_
    | with_reducible apply State.Moves.step ?_ (State.moves_syncResult ..) ?_
    | with_reducible apply State.Moves.step ?_ (State.moves_scheduledResult ..) ?_
    | with_reducible apply State.Moves.ite
    | with_reducible dsimp only
    | split

theorem State.moves_latchSlope (s : State) (i : Nat) :
    s.Moves [.convs] (State.latchSlope s i) := by
  unfold State.latchSlope
  repeat' first
    | with_reducible exact State.Moves.refl _ _
    | exact Eq.refl true
    | with_reducible apply State.Moves.ite
    | with_reducible apply State.Moves.step ?_ (State.moves_askSlope ..) ?_
    | with_reducible apply State.Moves.ite
    | with_reducible dsimp only
    | split

theorem State.moves_latchRetry (s : State) :
    s.Moves [.convs, .cg] (State.latchRetry s) := by
  unfold State.latchRetry
  repeat' first
    | with_reducible exact State.Moves.refl _ _
    | exact Eq.refl true
    | with_reducible apply State.Moves.step ?_ (State.moves_askUrgent ..) ?_
    | with_reducible apply State.Moves.overAll (fun _ _ => ?_)
    | with_reducible dsimp only
    | split
    | with_reducible apply State.Moves.put_cg

theorem State.moves_hostUrgent (s : State) (n : Nat) (v : Nat) :
    s.Moves [.convs] (State.hostUrgent s n v).2 := by
  unfold State.hostUrgent
  repeat' first
    | with_reducible exact State.Moves.refl _ _
    | exact Eq.refl true
    | with_reducible apply State.Moves.ite
    | with_reducible apply State.Moves.ite_snd
    | with_reducible apply State.Moves.step ?_ (State.moves_askUrgent ..) ?_
    | with_reducible apply State.Moves.ite
    | with_reducible dsimp only

theorem State.moves_urgentArrives (s : State) (n : Nat) :
    s.Moves [.convs, .cg, .regs] (State.urgentArrives s n) := by
  unfold State.urgentArrives
  repeat' first
    | with_reducible exact State.Moves.refl _ _
    | exact Eq.refl true
    | with_reducible apply State.Moves.ite
    | with_reducible apply State.Moves.step ?_ (State.moves_modConv ..) ?_
    | with_reducible apply State.Moves.step ?_ (State.moves_count ..) ?_
    | with_reducible apply State.Moves.ite
    | with_reducible dsimp only
    | split
    | with_reducible apply State.Moves.put_cg

theorem State.moves_syncArm (s : State) (v : Nat) :
    s.Moves [.convs, .cg] (State.syncArm s v) := by
  unfold State.syncArm
  repeat' first
    | with_reducible exact State.Moves.refl _ _
    | exact Eq.refl true
    | with_reducible apply State.Moves.ite
    | with_reducible apply State.Moves.step ?_ (State.moves_captureStep ..) ?_
    | with_reducible apply State.Moves.ite
    | with_reducible dsimp only
    | with_reducible apply State.Moves.put_cg

theorem State.moves_useTriggers (s : State) :
    s.Moves [.cg] (State.useTriggers s) := by
  unfold State.useTriggers
  repeat' first
    | with_reducible exact State.Moves.refl _ _
    | exact Eq.refl true
    | with_reducible dsimp only
    | with_reducible apply State.Moves.put_cg

theorem State.moves_syncTrigger (s : State) :
    s.Moves [.convs, .cg, .regs] (State.syncTrigger s) := by
  unfold State.syncTrigger
  repeat' first
    | with_reducible exact State.Moves.refl _ _
    | exact Eq.refl true
    | with_reducible apply State.Moves.ite
    | with_reducible apply State.Moves.step ?_ (State.moves_count ..) ?_
    | with_reducible apply State.Moves.ite
    | with_reducible dsimp only
    | split
    | with_reducible apply State.Moves.put_cg
    | with_reducible apply State.Moves.put_convs
    | exact List.length_map ..
    | exact List.length_modify ..
    | exact (List.length_map ..).trans List.length_zipIdx
    | refine .put ?_ rfl (fun p hp => by cases p <;> first | exact absurd (by decide) hp | rfl)
        (.of (by first | rfl | simp [State.sizes] | (simp only [State.sizes, List.length_map, List.length_modify]; rfl)) rfl rfl rfl)

theorem State.moves_convTableSet (s : State) (n : Nat) (t : TableObj) (data : List Byte) :
    s.Moves [.convs] (State.convTableSet s n t data) := by
  unfold State.convTableSet
  repeat' first
    | with_reducible exact State.Moves.refl _ _
    | exact Eq.refl true
    | with_reducible apply State.Moves.step ?_ (State.moves_modConv ..) ?_
    | with_reducible dsimp only
    | split

theorem State.moves_baFail (s : State) :
    s.Moves [.convs, .cg, .recd, .regs] (State.baFail s) := by
  unfold State.baFail
  repeat' first
    | with_reducible exact State.Moves.refl _ _
    | exact Eq.refl true
    | with_reducible apply State.Moves.step ?_ (State.moves_failConverter ..) ?_
    | with_reducible dsimp only

theorem State.moves_boardAnalog (s : State) (i : BaInput) (code : Nat) :
    s.Moves [.eng, .convs, .cg, .recd, .regs] (State.boardAnalog s i code) := by
  unfold State.boardAnalog
  repeat' first
    | with_reducible exact State.Moves.refl _ _
    | exact Eq.refl true
    | with_reducible apply State.Moves.ite
    | with_reducible apply State.Moves.step ?_ (State.moves_baFail ..) ?_
    | with_reducible apply State.Moves.ite
    | with_reducible dsimp only
    | split
    | with_reducible apply State.Moves.put_eng
    | with_reducible apply State.Moves.put_cg
    | refine .put ?_ rfl (fun p hp => by cases p <;> first | exact absurd (by decide) hp | rfl)
        (.of (by first | rfl | simp [State.sizes] | (simp only [State.sizes, List.length_map, List.length_modify]; rfl)) rfl rfl rfl)

theorem State.moves_boardResult (s : State) (i : BaInput) (res : Option (Int × Bool)) :
    s.Moves [.blk, .eng, .convs, .cg, .recd, .regs] (State.boardResult s i res) := by
  unfold State.boardResult
  repeat' first
    | with_reducible exact State.Moves.refl _ _
    | exact Eq.refl true
    | with_reducible apply State.Moves.ite
    | with_reducible apply State.Moves.step ?_ (State.moves_baFail ..) ?_
    | with_reducible apply State.Moves.step ?_ (State.moves_parityError ..) ?_
    | with_reducible apply State.Moves.step ?_ (State.moves_boardAnalog ..) ?_
    | with_reducible apply State.Moves.ite
    | with_reducible dsimp only
    | split
    | with_reducible apply State.Moves.put_cg

theorem State.moves_energyQuarter (s : State) (vs0 : Int) :
    s.Moves [.cap, .regs] (State.energyQuarter s vs0) := by
  unfold State.energyQuarter
  repeat' first
    | with_reducible exact State.Moves.refl _ _
    | exact Eq.refl true
    | with_reducible apply State.Moves.ite
    | with_reducible apply State.Moves.step ?_ (State.moves_count ..) ?_
    | with_reducible apply State.Moves.step ?_ (State.moves_set ..) ?_
    | with_reducible apply State.Moves.ite
    | with_reducible dsimp only
    | with_reducible apply State.Moves.put_cap

end Sys2Proof.Machine
end

