-- ==== Sys2Proof/Laws/MovesControl.lean ====
section
/-! SUPPORT. What the operations of hints, frets, cap, learner, pickups and engine move: one lemma for each. -/

namespace Sys2Proof.Machine

theorem State.moves_putCell (s : State) (r : Nat) (c : Nat) (x : Cell) :
    s.Moves [.learn] (State.putCell s r c x) := by
  unfold State.putCell
  repeat' first
    | with_reducible exact State.Moves.refl _ _
    | exact Eq.refl true
    | with_reducible dsimp only
    | with_reducible apply State.Moves.put_learn

theorem State.moves_modHint (s : State) (id : Nat) (f : HintEntry → HintEntry) :
    s.Moves [.hints] (State.modHint s id f) := by
  unfold State.modHint
  repeat' first
    | with_reducible exact State.Moves.refl _ _
    | exact Eq.refl true
    | with_reducible apply State.Moves.ite
    | with_reducible apply State.Moves.ite
    | with_reducible dsimp only
    | with_reducible apply State.Moves.put_hints

theorem State.moves_dropHint (s : State) (id : Nat) :
    s.Moves [.hints, .recd, .regs] (State.dropHint s id) := by
  unfold State.dropHint
  repeat' first
    | with_reducible exact State.Moves.refl _ _
    | exact Eq.refl true
    | with_reducible apply State.Moves.step ?_ (State.moves_hintsNotFull ..) ?_
    | with_reducible dsimp only
    | with_reducible apply State.Moves.put_hints

theorem State.moves_disarmHint (s : State) (id : Nat) :
    s.Moves [.regions] (State.disarmHint s id) := by
  unfold State.disarmHint
  repeat' first
    | with_reducible exact State.Moves.refl _ _
    | exact Eq.refl true
    | with_reducible dsimp only
    | with_reducible apply State.Moves.put_regions
    | exact List.length_map ..
    | exact List.length_modify ..

theorem State.moves_armHint (s : State) (h : HintEntry) (rs : List Nat) :
    s.Moves [.regions] (State.armHint s h rs) := by
  unfold State.armHint
  repeat' first
    | with_reducible exact State.Moves.refl _ _
    | exact Eq.refl true
    | with_reducible apply State.Moves.step ?_ (State.moves_armPre ..) ?_
    | with_reducible apply State.Moves.overAll (fun _ _ => ?_)
    | with_reducible dsimp only

theorem State.moves_prepare (s : State) (h : HintEntry) :
    s.Moves [.regions, .strings, .cap, .hints, .recd, .regs] (State.prepare s h) := by
  unfold State.prepare
  repeat' first
    | with_reducible exact State.Moves.refl _ _
    | exact Eq.refl true
    | with_reducible apply State.Moves.ite
    | with_reducible apply State.Moves.step ?_ (State.moves_rejoinAll ..) ?_
    | with_reducible apply State.Moves.step ?_ (State.moves_modHint ..) ?_
    | with_reducible apply State.Moves.overAll (fun _ _ => ?_)
    | with_reducible apply State.Moves.ite
    | with_reducible dsimp only
    | with_reducible apply State.Moves.put_regions
    | exact List.length_map ..
    | exact List.length_modify ..

theorem State.moves_mergeInto (s : State) (e : HintEntry) (h : HintEntry) :
    s.Moves [.regions, .strings, .cap, .hints, .recd, .regs] (State.mergeInto s e h) := by
  unfold State.mergeInto
  repeat' first
    | with_reducible exact State.Moves.refl _ _
    | exact Eq.refl true
    | with_reducible apply State.Moves.ite
    | with_reducible apply State.Moves.step ?_ (State.moves_armHint ..) ?_
    | with_reducible apply State.Moves.step ?_ (State.moves_disarmHint ..) ?_
    | with_reducible apply State.Moves.step ?_ (State.moves_count ..) ?_
    | with_reducible apply State.Moves.step ?_ (State.moves_rejoinAll ..) ?_
    | with_reducible apply State.Moves.step ?_ (State.moves_prepare ..) ?_
    | with_reducible apply State.Moves.overAll (fun _ _ => ?_)
    | with_reducible apply State.Moves.ite
    | with_reducible dsimp only
    | with_reducible apply State.Moves.put_hints

theorem State.moves_enterHint (s : State) (h : HintEntry) :
    s.Moves [.regions, .strings, .cap, .hints, .recd, .regs] (State.enterHint s h) := by
  unfold State.enterHint
  repeat' first
    | with_reducible exact State.Moves.refl _ _
    | exact Eq.refl true
    | with_reducible apply State.Moves.ite
    | with_reducible apply State.Moves.step ?_ (State.moves_count ..) ?_
    | with_reducible apply State.Moves.step ?_ (State.moves_orBits ..) ?_
    | with_reducible apply State.Moves.step ?_ (State.moves_fire ..) ?_
    | with_reducible apply State.Moves.step ?_ (State.moves_armHint ..) ?_
    | with_reducible apply State.Moves.step ?_ (State.moves_prepare ..) ?_
    | with_reducible apply State.Moves.ite
    | with_reducible dsimp only
    | with_reducible apply State.Moves.put_hints

theorem State.moves_retireHint (s : State) (h : HintEntry) :
    s.Moves [.hints, .recd, .regs] (State.retireHint s h) := by
  unfold State.retireHint
  repeat' first
    | with_reducible exact State.Moves.refl _ _
    | exact Eq.refl true
    | with_reducible apply State.Moves.ite
    | with_reducible apply State.Moves.step ?_ (State.moves_dropHint ..) ?_
    | with_reducible apply State.Moves.ite
    | with_reducible dsimp only
    | with_reducible apply State.Moves.put_hints

theorem State.moves_retireDue (s : State) :
    s.Moves [.hints, .recd, .regs] (State.retireDue s) := by
  unfold State.retireDue
  repeat' first
    | with_reducible exact State.Moves.refl _ _
    | exact Eq.refl true
    | with_reducible apply State.Moves.step ?_ (State.moves_retireHint ..) ?_
    | with_reducible apply State.Moves.overAll (fun _ _ => ?_)
    | with_reducible dsimp only

theorem State.moves_coalesceHint (s : State) (h : HintEntry) :
    s.Moves [.regions, .strings, .cap, .hints, .recd, .regs] (State.coalesceHint s h) := by
  unfold State.coalesceHint
  repeat' first
    | with_reducible exact State.Moves.refl _ _
    | exact Eq.refl true
    | with_reducible apply State.Moves.ite
    | with_reducible apply State.Moves.step ?_ (State.moves_count ..) ?_
    | with_reducible apply State.Moves.step ?_ (State.moves_mergeInto ..) ?_
    | with_reducible apply State.Moves.step ?_ (State.moves_orBits ..) ?_
    | with_reducible apply State.Moves.ite
    | with_reducible dsimp only
    | split

theorem State.moves_takeHint (s : State) (word0 : Nat) (par : Nat) :
    s.Moves [.blk, .regions, .strings, .cap, .hints, .recd, .regs] (State.takeHint s word0 par) := by
  unfold State.takeHint
  repeat' first
    | with_reducible exact State.Moves.refl _ _
    | exact Eq.refl true
    | with_reducible apply State.Moves.ite
    | with_reducible apply State.Moves.step ?_ (State.moves_parityError ..) ?_
    | with_reducible apply State.Moves.step ?_ (State.moves_orBits ..) ?_
    | with_reducible apply State.Moves.step ?_ (State.moves_count ..) ?_
    | with_reducible apply State.Moves.step ?_ (State.moves_retireDue ..) ?_
    | with_reducible apply State.Moves.step ?_ (State.moves_enterHint ..) ?_
    | with_reducible apply State.Moves.step ?_ (State.moves_coalesceHint ..) ?_
    | with_reducible apply State.Moves.ite
    | with_reducible dsimp only
    | split
    | with_reducible apply State.Moves.put_hints

theorem State.moves_discardHint (s : State) (h : HintEntry) :
    s.Moves [.hints, .recd, .regs] (State.discardHint s h) := by
  unfold State.discardHint
  repeat' first
    | with_reducible exact State.Moves.refl _ _
    | exact Eq.refl true
    | with_reducible apply State.Moves.step ?_ (State.moves_dropHint ..) ?_
    | with_reducible dsimp only
    | with_reducible apply State.Moves.put_hints

theorem State.moves_observeRail (s : State) (c : Nat) (q : Nat) (low : Int) :
    s.Moves [.learn] (State.observeRail s c q low) := by
  unfold State.observeRail
  repeat' first
    | with_reducible exact State.Moves.refl _ _
    | exact Eq.refl true
    | with_reducible dsimp only
    | with_reducible apply State.Moves.put_learn

theorem State.moves_droopObservation (s : State) (h : HintEntry) :
    s.Moves [.hints, .learn] (State.droopObservation s h) := by
  unfold State.droopObservation
  repeat' first
    | with_reducible exact State.Moves.refl _ _
    | exact Eq.refl true
    | with_reducible apply State.Moves.ite
    | with_reducible apply State.Moves.step ?_ (State.moves_observeRail ..) ?_
    | with_reducible apply State.Moves.step ?_ (State.moves_modHint ..) ?_
    | with_reducible apply State.Moves.overAll (fun _ _ => ?_)
    | with_reducible apply State.Moves.ite
    | with_reducible dsimp only
    | split
    | with_reducible apply State.Moves.put_hints

theorem State.moves_fretStepStart (s : State) (r : Nat) :
    s.Moves [.regions] (State.fretStepStart s r) := by
  unfold State.fretStepStart
  repeat' first
    | with_reducible exact State.Moves.refl _ _
    | exact Eq.refl true
    | with_reducible apply State.Moves.ite
    | with_reducible apply State.Moves.step ?_ (State.moves_abandonFret ..) ?_
    | with_reducible apply State.Moves.step ?_ (State.moves_modFret ..) ?_
    | with_reducible apply State.Moves.ite
    | with_reducible dsimp only

theorem State.moves_fretSettle (s : State) (r : Nat) :
    s.Moves [.regions] (State.fretSettle s r) := by
  unfold State.fretSettle
  repeat' first
    | with_reducible exact State.Moves.refl _ _
    | exact Eq.refl true
    | with_reducible apply State.Moves.ite
    | with_reducible apply State.Moves.step ?_ (State.moves_modFret ..) ?_
    | with_reducible apply State.Moves.ite
    | with_reducible dsimp only

theorem State.moves_putRcv (s : State) (c : Nat) (q : Nat) (x : Rcv) :
    s.Moves [.learn] (State.putRcv s c q x) := by
  unfold State.putRcv
  repeat' first
    | with_reducible exact State.Moves.refl _ _
    | exact Eq.refl true
    | with_reducible dsimp only
    | with_reducible apply State.Moves.put_learn

theorem State.moves_noteUndershoot (s : State) (r : Nat) (a : Nat) (b : Nat) (low : Int) :
    s.Moves [.learn] (State.noteUndershoot s r a b low) := by
  unfold State.noteUndershoot
  repeat' first
    | with_reducible exact State.Moves.refl _ _
    | exact Eq.refl true
    | with_reducible apply State.Moves.ite
    | with_reducible apply State.Moves.step ?_ (State.moves_putRcv ..) ?_
    | with_reducible apply State.Moves.overAll (fun _ _ => ?_)
    | with_reducible apply State.Moves.ite
    | with_reducible dsimp only

theorem State.moves_rcvRoll (s : State) :
    s.Moves [.learn] (State.rcvRoll s) := by
  unfold State.rcvRoll
  repeat' first
    | with_reducible exact State.Moves.refl _ _
    | exact Eq.refl true
    | with_reducible dsimp only
    | split
    | with_reducible apply State.Moves.put_learn

theorem State.moves_rcvStep (s : State) (c : Nat) (q : Nat) :
    s.Moves [.learn] (State.rcvStep s c q) := by
  unfold State.rcvStep
  repeat' first
    | with_reducible exact State.Moves.refl _ _
    | exact Eq.refl true
    | with_reducible apply State.Moves.ite
    | with_reducible apply State.Moves.step ?_ (State.moves_putRcv ..) ?_
    | with_reducible apply State.Moves.ite
    | with_reducible dsimp only

theorem State.moves_rcvUpdate (s : State) :
    s.Moves [.learn] (State.rcvUpdate s) := by
  unfold State.rcvUpdate
  repeat' first
    | with_reducible exact State.Moves.refl _ _
    | exact Eq.refl true
    | with_reducible apply State.Moves.step ?_ (State.moves_rcvStep ..) ?_
    | with_reducible apply State.Moves.overAll (fun _ _ => ?_)
    | with_reducible dsimp only

theorem State.moves_rcvForget (s : State) (c : Nat) (q : Nat) :
    s.Moves [.learn] (State.rcvForget s c q) := by
  unfold State.rcvForget
  repeat' first
    | with_reducible exact State.Moves.refl _ _
    | exact Eq.refl true
    | with_reducible apply State.Moves.ite
    | with_reducible apply State.Moves.step ?_ (State.moves_putRcv ..) ?_
    | with_reducible apply State.Moves.ite
    | with_reducible dsimp only

theorem State.moves_recoveryPeriod (s : State) (q : Nat) :
    s.Moves [.rails] (State.recoveryPeriod s q) := by
  unfold State.recoveryPeriod
  repeat' first
    | with_reducible exact State.Moves.refl _ _
    | exact Eq.refl true
    | with_reducible apply State.Moves.ite
    | with_reducible apply State.Moves.step ?_ (State.moves_modRail _ _ _ ?_) ?_
    | with_reducible apply State.Moves.ite
    | with_reducible dsimp only
    | exact fun _ => ⟨rfl, rfl⟩

theorem State.moves_setMatched (s : State) (v : Nat) :
    s.Moves [.regs] (State.setMatched s v) := by
  unfold State.setMatched
  repeat' first
    | with_reducible exact State.Moves.refl _ _
    | exact Eq.refl true
    | with_reducible apply State.Moves.ite
    | with_reducible apply State.Moves.step ?_ (State.moves_set ..) ?_
    | with_reducible apply State.Moves.ite
    | with_reducible dsimp only

theorem State.moves_powerRegion (s : State) (r : Nat) :
    s.Moves [.regions] (State.powerRegion s r) := by
  unfold State.powerRegion
  repeat' first
    | with_reducible exact State.Moves.refl _ _
    | exact Eq.refl true
    | with_reducible apply State.Moves.step ?_ (State.moves_modRegion ..) ?_
    | with_reducible dsimp only

theorem State.moves_powerPeriod (s : State) :
    s.Moves [.rails, .regions, .cap] (State.powerPeriod s) := by
  unfold State.powerPeriod
  repeat' first
    | with_reducible exact State.Moves.refl _ _
    | exact Eq.refl true
    | with_reducible apply State.Moves.ite
    | with_reducible apply State.Moves.step ?_ (State.moves_powerRegion ..) ?_
    | with_reducible apply State.Moves.step ?_ (State.moves_modRail _ _ _ ?_) ?_
    | with_reducible apply State.Moves.step ?_ (State.moves_modSup ..) ?_
    | with_reducible apply State.Moves.overAll (fun _ _ => ?_)
    | with_reducible apply State.Moves.ite
    | with_reducible dsimp only
    | with_reducible apply State.Moves.put_cap
    | exact fun _ => ⟨rfl, rfl⟩

theorem State.moves_frameClear (s : State) :
    s.Moves [.rails, .regions, .telem] (State.frameClear s) := by
  unfold State.frameClear
  repeat' first
    | with_reducible exact State.Moves.refl _ _
    | exact Eq.refl true
    | with_reducible dsimp only
    | with_reducible apply State.Moves.put_telem
    | with_reducible apply State.Moves.put_regions
    | with_reducible apply State.Moves.put_rails
    | exact List.length_map ..
    | exact List.length_modify ..
    | exact fun _ => ⟨rfl, rfl⟩
    | refine .put ?_ rfl (fun p hp => by cases p <;> first | exact absurd (by decide) hp | rfl)
        (.of (by first | rfl | simp [State.sizes] | (simp only [State.sizes, List.length_map, List.length_modify]; rfl)) rfl rfl rfl)
    | refine .put ?_ rfl (fun p hp => by cases p <;> first | exact absurd (by decide) hp | rfl)
        (.ofRails _ (by first | rfl | simp [State.sizes] | (simp only [State.sizes, List.length_map, List.length_modify]; rfl)) rfl rfl (by exact fun _ => ⟨rfl, rfl⟩) rfl)

theorem State.moves_frameBoundary (s : State) :
    s.Moves [.rails, .regions, .used, .telem, .dict] (State.frameBoundary s) := by
  unfold State.frameBoundary
  repeat' first
    | with_reducible exact State.Moves.refl _ _
    | exact Eq.refl true
    | with_reducible apply State.Moves.ite
    | with_reducible apply State.Moves.step ?_ (State.moves_frameClear ..) ?_
    | with_reducible apply State.Moves.step ?_ (State.moves_takeGroup ..) ?_
    | with_reducible apply State.Moves.ite
    | with_reducible dsimp only
    | with_reducible apply State.Moves.put_telem

theorem State.moves_countDropped (s : State) :
    s.Moves [.regs] (State.countDropped s) := by
  unfold State.countDropped
  repeat' first
    | with_reducible exact State.Moves.refl _ _
    | exact Eq.refl true
    | with_reducible apply State.Moves.step ?_ (State.moves_orBits ..) ?_
    | with_reducible apply State.Moves.step ?_ (State.moves_count ..) ?_
    | with_reducible dsimp only

theorem State.moves_offer (s : State) (f : List Byte) :
    s.Moves [.telem, .dma] (State.offer s f) := by
  unfold State.offer
  repeat' first
    | with_reducible exact State.Moves.refl _ _
    | exact Eq.refl true
    | with_reducible apply State.Moves.step ?_ (State.moves_raiseReq ..) ?_
    | with_reducible apply State.Moves.step ?_ (State.moves_dropReq ..) ?_
    | with_reducible dsimp only
    | with_reducible apply State.Moves.put_telem

theorem State.moves_frameReady (s : State) (f : List Byte) :
    s.Moves [.telem, .dma, .regs] (State.frameReady s f) := by
  unfold State.frameReady
  repeat' first
    | with_reducible exact State.Moves.refl _ _
    | exact Eq.refl true
    | with_reducible apply State.Moves.ite
    | with_reducible apply State.Moves.step ?_ (State.moves_countDropped ..) ?_
    | with_reducible apply State.Moves.step ?_ (State.moves_orBits ..) ?_
    | with_reducible apply State.Moves.step ?_ (State.moves_offer ..) ?_
    | with_reducible apply State.Moves.ite
    | with_reducible dsimp only
    | with_reducible apply State.Moves.put_telem

theorem State.moves_effStep (s : State) (del : Int) (inp : Int) :
    s.Moves [.cap, .regs] (State.effStep s del inp) := by
  unfold State.effStep
  repeat' first
    | with_reducible exact State.Moves.refl _ _
    | exact Eq.refl true
    | with_reducible apply State.Moves.ite
    | with_reducible apply State.Moves.step ?_ (State.moves_set ..) ?_
    | with_reducible apply State.Moves.ite
    | with_reducible dsimp only
    | with_reducible apply State.Moves.put_cap

theorem State.moves_msPowers (s : State) :
    s.Moves [.regs] (State.msPowers s) := by
  unfold State.msPowers
  repeat' first
    | with_reducible exact State.Moves.refl _ _
    | exact Eq.refl true
    | with_reducible apply State.Moves.step ?_ (State.moves_set ..) ?_
    | with_reducible apply State.Moves.overAll (fun _ _ => ?_)
    | with_reducible dsimp only

theorem State.moves_msInputs (s : State) (inTot : Int) :
    s.Moves [.regs] (State.msInputs s inTot) := by
  unfold State.msInputs
  repeat' first
    | with_reducible exact State.Moves.refl _ _
    | exact Eq.refl true
    | with_reducible apply State.Moves.ite
    | with_reducible apply State.Moves.step ?_ (State.moves_set ..) ?_
    | with_reducible apply State.Moves.ite
    | with_reducible dsimp only

theorem State.moves_msFigures (s : State) :
    s.Moves [.cap, .telem, .regs] (State.msFigures s) := by
  unfold State.msFigures
  repeat' first
    | with_reducible exact State.Moves.refl _ _
    | exact Eq.refl true
    | with_reducible apply State.Moves.ite
    | with_reducible apply State.Moves.step ?_ (State.moves_msPowers ..) ?_
    | with_reducible apply State.Moves.step ?_ (State.moves_set ..) ?_
    | with_reducible apply State.Moves.step ?_ (State.moves_msInputs ..) ?_
    | with_reducible apply State.Moves.step ?_ (State.moves_effStep ..) ?_
    | with_reducible apply State.Moves.ite
    | with_reducible dsimp only
    | with_reducible apply State.Moves.put_telem
    | with_reducible apply State.Moves.put_cap
    | refine .put ?_ rfl (fun p hp => by cases p <;> first | exact absurd (by decide) hp | rfl)
        (.of (by first | rfl | simp [State.sizes] | (simp only [State.sizes, List.length_map, List.length_modify]; rfl)) rfl rfl rfl)

theorem State.moves_msMatched (s : State) :
    s.Moves [.cap, .recd, .regs] (State.msMatched s) := by
  unfold State.msMatched
  repeat' first
    | with_reducible exact State.Moves.refl _ _
    | exact Eq.refl true
    | with_reducible apply State.Moves.ite
    | with_reducible apply State.Moves.step ?_ (State.moves_orBits ..) ?_
    | with_reducible apply State.Moves.step ?_ (State.moves_fire ..) ?_
    | with_reducible apply State.Moves.step ?_ (State.moves_count ..) ?_
    | with_reducible apply State.Moves.ite
    | with_reducible dsimp only
    | with_reducible apply State.Moves.put_cap

theorem State.moves_setDisagree (s : State) :
    s.Moves [.rails, .cap, .learn, .recd, .regs] (State.setDisagree s) := by
  unfold State.setDisagree
  repeat' first
    | with_reducible exact State.Moves.refl _ _
    | exact Eq.refl true
    | with_reducible apply State.Moves.ite
    | with_reducible apply State.Moves.step ?_ (State.moves_fire ..) ?_
    | with_reducible apply State.Moves.step ?_ (State.moves_count ..) ?_
    | with_reducible apply State.Moves.step ?_ (State.moves_orBits ..) ?_
    | with_reducible apply State.Moves.step ?_ (State.moves_set ..) ?_
    | with_reducible apply State.Moves.step ?_ (State.moves_resetRecovery ..) ?_
    | with_reducible apply State.Moves.step ?_ (State.moves_stopPass ..) ?_
    | with_reducible apply State.Moves.overAll (fun _ _ => ?_)
    | with_reducible apply State.Moves.ite
    | with_reducible dsimp only
    | with_reducible apply State.Moves.put_cap

theorem State.moves_msDisagree (s : State) :
    s.Moves [.rails, .cap, .learn, .recd, .regs] (State.msDisagree s) := by
  unfold State.msDisagree
  repeat' first
    | with_reducible exact State.Moves.refl _ _
    | exact Eq.refl true
    | with_reducible apply State.Moves.ite
    | with_reducible apply State.Moves.step ?_ (State.moves_setDisagree ..) ?_
    | with_reducible apply State.Moves.step ?_ (State.moves_fire ..) ?_
    | with_reducible apply State.Moves.step ?_ (State.moves_set ..) ?_
    | with_reducible apply State.Moves.ite
    | with_reducible dsimp only
    | with_reducible apply State.Moves.put_cap

theorem State.moves_msFloor (s : State) :
    s.Moves [.cap, .recd, .regs] (State.msFloor s) := by
  unfold State.msFloor
  repeat' first
    | with_reducible exact State.Moves.refl _ _
    | exact Eq.refl true
    | with_reducible apply State.Moves.ite
    | with_reducible apply State.Moves.step ?_ (State.moves_count ..) ?_
    | with_reducible apply State.Moves.step ?_ (State.moves_clearCapFloor ..) ?_
    | with_reducible apply State.Moves.step ?_ (State.moves_fire ..) ?_
    | with_reducible apply State.Moves.step ?_ (State.moves_orBits ..) ?_
    | with_reducible apply State.Moves.ite
    | with_reducible dsimp only
    | with_reducible apply State.Moves.put_cap

theorem State.moves_msClear (s : State) :
    s.Moves [.rails, .regions, .cap, .learn] (State.msClear s) := by
  unfold State.msClear
  repeat' first
    | with_reducible exact State.Moves.refl _ _
    | exact Eq.refl true
    | with_reducible apply State.Moves.ite
    | with_reducible apply State.Moves.ite
    | with_reducible dsimp only
    | with_reducible apply State.Moves.put_learn
    | with_reducible apply State.Moves.put_cap
    | with_reducible apply State.Moves.put_regions
    | with_reducible apply State.Moves.put_rails
    | exact List.length_map ..
    | exact List.length_modify ..
    | exact fun _ => ⟨rfl, rfl⟩
    | refine .put ?_ rfl (fun p hp => by cases p <;> first | exact absurd (by decide) hp | rfl)
        (.of (by first | rfl | simp [State.sizes] | (simp only [State.sizes, List.length_map, List.length_modify]; rfl)) rfl rfl rfl)
    | refine .put ?_ rfl (fun p hp => by cases p <;> first | exact absurd (by decide) hp | rfl)
        (.ofRails _ (by first | rfl | simp [State.sizes] | (simp only [State.sizes, List.length_map, List.length_modify]; rfl)) rfl rfl (by exact fun _ => ⟨rfl, rfl⟩) rfl)

theorem State.moves_millisecond (s : State) :
    s.Moves [.rails, .regions, .used, .cap, .telem, .learn, .dict, .recd, .regs] (State.millisecond s) := by
  unfold State.millisecond
  repeat' first
    | with_reducible exact State.Moves.refl _ _
    | exact Eq.refl true
    | with_reducible apply State.Moves.ite
    | with_reducible apply State.Moves.step ?_ (State.moves_msFigures ..) ?_
    | with_reducible apply State.Moves.step ?_ (State.moves_msMatched ..) ?_
    | with_reducible apply State.Moves.step ?_ (State.moves_msFloor ..) ?_
    | with_reducible apply State.Moves.step ?_ (State.moves_msDisagree ..) ?_
    | with_reducible apply State.Moves.step ?_ (State.moves_msClear ..) ?_
    | with_reducible apply State.Moves.step ?_ (State.moves_frameBoundary ..) ?_
    | with_reducible apply State.Moves.ite
    | with_reducible dsimp only

theorem State.moves_integralStep (s : State) (lim : Nat) (used : Nat) :
    s.Moves [.cap, .regs] (State.integralStep s lim used) := by
  unfold State.integralStep
  repeat' first
    | with_reducible exact State.Moves.refl _ _
    | exact Eq.refl true
    | with_reducible apply State.Moves.ite
    | with_reducible apply State.Moves.step ?_ (State.moves_count ..) ?_
    | with_reducible apply State.Moves.ite
    | with_reducible dsimp only
    | with_reducible apply State.Moves.put_cap

theorem State.moves_ditherStep (s : State) (cs : List Cand) (d : Option (Raise × Int)) (capos : List Nat) :
    s.Moves [.cap] (State.ditherStep s cs d capos) := by
  unfold State.ditherStep
  repeat' first
    | with_reducible exact State.Moves.refl _ _
    | exact Eq.refl true
    | with_reducible apply State.Moves.ite
    | with_reducible apply State.Moves.ite
    | with_reducible dsimp only
    | split
    | with_reducible apply State.Moves.put_cap

theorem State.moves_stepObjects (s : State) (cs : List Cand) (nominal : Bool) :
    s.Moves [.regions, .regs] (State.stepObjects s cs nominal) := by
  unfold State.stepObjects
  repeat' first
    | with_reducible exact State.Moves.refl _ _
    | exact Eq.refl true
    | with_reducible apply State.Moves.ite
    | with_reducible apply State.Moves.step ?_ (State.moves_set ..) ?_
    | with_reducible apply State.Moves.step ?_ (State.moves_modSup ..) ?_
    | with_reducible apply State.Moves.overAll (fun _ _ => ?_)
    | with_reducible apply State.Moves.ite
    | with_reducible dsimp only

theorem State.moves_capStep (s : State) : s.Moves [.rails, .regions, .used, .cap, .dict, .regs] s.capStep := by
  unfold State.capStep
  extract_lets a n pDel used lim b cs budget res spread nominal bind c d e
  have ha : s.Moves [.rails, .regions, .used, .cap, .dict, .regs] a := .step (.refl _ _) (State.moves_takeGroup ..) rfl
  clear_value a
  have hb : s.Moves [.rails, .regions, .used, .cap, .dict, .regs] b := .step ha (State.moves_integralStep ..) rfl
  clear_value b
  have hc : s.Moves [.rails, .regions, .used, .cap, .dict, .regs] c :=
    .step (.step hb (State.moves_set ..) rfl) (State.moves_stepObjects ..) rfl
  clear_value c
  have hd : s.Moves [.rails, .regions, .used, .cap, .dict, .regs] d := .step hc (State.moves_ditherStep ..) rfl
  clear_value d
  have he : s.Moves [.rails, .regions, .used, .cap, .dict, .regs] e :=
    .step (.step hd (State.moves_set ..) rfl) (State.moves_count ..) rfl
  clear_value e
  exact .put he rfl (fun p hp => by cases p <;> first | exact absurd (by decide) hp | rfl)
    (.ofRails (fun x => { x with pStep := 0 }) rfl rfl rfl (fun _ => ⟨rfl, rfl⟩) rfl)

theorem State.moves_stepClear (s : State) :
    s.Moves [.rails, .regions, .cap] (State.stepClear s) := by
  unfold State.stepClear
  repeat' first
    | with_reducible exact State.Moves.refl _ _
    | exact Eq.refl true
    | with_reducible dsimp only
    | with_reducible apply State.Moves.put_cap
    | with_reducible apply State.Moves.put_regions
    | with_reducible apply State.Moves.put_rails
    | exact List.length_map ..
    | exact List.length_modify ..
    | exact fun _ => ⟨rfl, rfl⟩
    | refine .put ?_ rfl (fun p hp => by cases p <;> first | exact absurd (by decide) hp | rfl)
        (.of (by first | rfl | simp [State.sizes] | (simp only [State.sizes, List.length_map, List.length_modify]; rfl)) rfl rfl rfl)
    | refine .put ?_ rfl (fun p hp => by cases p <;> first | exact absurd (by decide) hp | rfl)
        (.ofRails _ (by first | rfl | simp [State.sizes] | (simp only [State.sizes, List.length_map, List.length_modify]; rfl)) rfl rfl (by exact fun _ => ⟨rfl, rfl⟩) rfl)

theorem State.moves_holdCapo (s : State) (r : Nat) :
    s.Moves [.regions, .regs] (State.holdCapo s r) := by
  unfold State.holdCapo
  repeat' first
    | with_reducible exact State.Moves.refl _ _
    | exact Eq.refl true
    | with_reducible apply State.Moves.step ?_ (State.moves_lowerCapo ..) ?_
    | with_reducible dsimp only

theorem State.moves_holdCapos (s : State) :
    s.Moves [.regions, .regs] (State.holdCapos s) := by
  unfold State.holdCapos
  repeat' first
    | with_reducible exact State.Moves.refl _ _
    | exact Eq.refl true
    | with_reducible apply State.Moves.step ?_ (State.moves_holdCapo ..) ?_
    | with_reducible apply State.Moves.overAll (fun _ _ => ?_)
    | with_reducible dsimp only

theorem State.moves_capoDelivery (s : State) (l : List Nat) :
    s.Moves [.regions, .cap, .regs] (State.capoDelivery s l) := by
  unfold State.capoDelivery
  repeat' first
    | with_reducible exact State.Moves.refl _ _
    | exact Eq.refl true
    | with_reducible apply State.Moves.step ?_ (State.moves_setCapo ..) ?_
    | with_reducible apply State.Moves.step ?_ (State.moves_abandonFrets ..) ?_
    | with_reducible apply State.Moves.overAll (fun _ _ => ?_)
    | with_reducible dsimp only
    | with_reducible apply State.Moves.put_cap

theorem State.moves_actReject (s : State) :
    s.Moves [.regs] (State.actReject s) := by
  unfold State.actReject
  repeat' first
    | with_reducible exact State.Moves.refl _ _
    | exact Eq.refl true
    | with_reducible apply State.Moves.ite
    | with_reducible apply State.Moves.step ?_ (State.moves_count ..) ?_
    | with_reducible apply State.Moves.ite
    | with_reducible dsimp only

theorem State.moves_activityFrame (s : State) (r : Nat) (data : Nat) (par : Nat) :
    s.Moves [.regions, .regs] (State.activityFrame s r data par) := by
  unfold State.activityFrame
  repeat' first
    | with_reducible exact State.Moves.refl _ _
    | exact Eq.refl true
    | with_reducible apply State.Moves.ite
    | with_reducible apply State.Moves.step ?_ (State.moves_actReject ..) ?_
    | with_reducible apply State.Moves.step ?_ (State.moves_modSup ..) ?_
    | with_reducible apply State.Moves.ite
    | with_reducible dsimp only

theorem State.moves_storeCell (s : State) (r : Nat) (c : Nat) (x : Cell) :
    s.Moves [.learn, .regs] (State.storeCell s r c x) := by
  unfold State.storeCell
  repeat' first
    | with_reducible exact State.Moves.refl _ _
    | exact Eq.refl true
    | with_reducible apply State.Moves.ite
    | with_reducible apply State.Moves.step ?_ (State.moves_putCell ..) ?_
    | with_reducible apply State.Moves.step ?_ (State.moves_count ..) ?_
    | with_reducible apply State.Moves.step ?_ (State.moves_rcvForget ..) ?_
    | with_reducible apply State.Moves.ite
    | with_reducible dsimp only

theorem State.moves_accumulate (s : State) (r : Nat) (c : Nat) (g : Int) (x : List Nat) :
    s.Moves [.learn, .regs] (State.accumulate s r c g x) := by
  unfold State.accumulate
  repeat' first
    | with_reducible exact State.Moves.refl _ _
    | exact Eq.refl true
    | with_reducible apply State.Moves.step ?_ (State.moves_count ..) ?_
    | with_reducible dsimp only
    | with_reducible apply State.Moves.put_learn

theorem State.moves_liveOne (s : State) (r : Nat) (c : Nat) (x : List Nat) :
    s.Moves [.learn, .regs] (State.liveOne s r c x) := by
  unfold State.liveOne
  repeat' first
    | with_reducible exact State.Moves.refl _ _
    | exact Eq.refl true
    | with_reducible apply State.Moves.ite
    | with_reducible apply State.Moves.step ?_ (State.moves_count ..) ?_
    | with_reducible apply State.Moves.step ?_ (State.moves_accumulate ..) ?_
    | with_reducible apply State.Moves.step ?_ (State.moves_storeCell ..) ?_
    | with_reducible apply State.Moves.ite
    | with_reducible dsimp only

theorem State.moves_liveRegion (s : State) (r : Nat) :
    s.Moves [.regions, .learn, .regs] (State.liveRegion s r) := by
  unfold State.liveRegion
  repeat' first
    | with_reducible exact State.Moves.refl _ _
    | exact Eq.refl true
    | with_reducible apply State.Moves.step ?_ (State.moves_modSup ..) ?_
    | with_reducible apply State.Moves.step ?_ (State.moves_liveOne ..) ?_
    | with_reducible dsimp only
    | split

theorem State.moves_latchGroup (s : State) (g : Nat) :
    s.Moves [.learn, .regs] (State.latchGroup s g) := by
  unfold State.latchGroup
  repeat' first
    | with_reducible exact State.Moves.refl _ _
    | exact Eq.refl true
    | with_reducible apply State.Moves.ite
    | with_reducible apply State.Moves.step ?_ (State.moves_set ..) ?_
    | with_reducible apply State.Moves.step ?_ (State.moves_orBits ..) ?_
    | with_reducible apply State.Moves.step ?_ (State.moves_count ..) ?_
    | with_reducible apply State.Moves.ite
    | with_reducible dsimp only
    | with_reducible apply State.Moves.put_learn

theorem State.moves_checkCounter (s : State) (bad : Bool) (k : Nat) :
    s.Moves [.blk, .learn, .recd, .regs] (State.checkCounter s bad k) := by
  unfold State.checkCounter
  repeat' first
    | with_reducible exact State.Moves.refl _ _
    | exact Eq.refl true
    | with_reducible apply State.Moves.ite
    | with_reducible apply State.Moves.step ?_ (State.moves_parityError ..) ?_
    | with_reducible apply State.Moves.step ?_ (State.moves_countSat ..) ?_
    | with_reducible apply State.Moves.step ?_ (State.moves_modShard ..) ?_
    | with_reducible apply State.Moves.step ?_ (State.moves_fire ..) ?_
    | with_reducible apply State.Moves.step ?_ (State.moves_orBits ..) ?_
    | with_reducible apply State.Moves.ite
    | with_reducible dsimp only

theorem State.moves_stepShard (bad : List Nat) (s : State) (k : Nat) :
    s.Moves [.blk, .learn, .recd, .regs] (State.stepShard bad s k) := by
  unfold State.stepShard
  repeat' first
    | with_reducible exact State.Moves.refl _ _
    | exact Eq.refl true
    | with_reducible apply State.Moves.ite
    | with_reducible apply State.Moves.step ?_ (State.moves_checkCounter ..) ?_
    | with_reducible apply State.Moves.step ?_ (State.moves_count ..) ?_
    | with_reducible apply State.Moves.step ?_ (State.moves_modShard ..) ?_
    | with_reducible apply State.Moves.step ?_ (State.moves_set ..) ?_
    | with_reducible apply State.Moves.ite
    | with_reducible dsimp only

theorem State.moves_stepDone (s : State) :
    s.Moves [.learn, .dma] (State.stepDone s) := by
  unfold State.stepDone
  repeat' first
    | with_reducible exact State.Moves.refl _ _
    | exact Eq.refl true
    | with_reducible apply State.Moves.ite
    | with_reducible apply State.Moves.step ?_ (State.moves_raiseReq ..) ?_
    | with_reducible apply State.Moves.step ?_ (State.moves_rcvUpdate ..) ?_
    | with_reducible apply State.Moves.ite
    | with_reducible dsimp only

theorem State.moves_slotsServe (s : State) :
    s.Moves [.learn] (State.slotsServe s) := by
  unfold State.slotsServe
  repeat' first
    | with_reducible exact State.Moves.refl _ _
    | exact Eq.refl true
    | with_reducible dsimp only
    | with_reducible apply State.Moves.put_learn

theorem State.moves_learnerStep (bad : List Nat) (s : State) :
    s.Moves [.blk, .learn, .dma, .recd, .regs] (State.learnerStep bad s) := by
  unfold State.learnerStep
  repeat' first
    | with_reducible exact State.Moves.refl _ _
    | exact Eq.refl true
    | with_reducible apply State.Moves.step ?_ (State.moves_count ..) ?_
    | with_reducible apply State.Moves.step ?_ (State.moves_rcvRoll ..) ?_
    | with_reducible apply State.Moves.step ?_ (State.moves_slotsServe ..) ?_
    | with_reducible apply State.Moves.step ?_ (State.moves_latchGroup ..) ?_
    | with_reducible apply State.Moves.step ?_ (State.moves_stepDone ..) ?_
    | with_reducible apply State.Moves.step ?_ (State.moves_stepShard ..) ?_
    | with_reducible apply State.Moves.overAll (fun _ _ => ?_)
    | with_reducible dsimp only
    | with_reducible apply State.Moves.put_learn

theorem State.moves_commitCell (s : State) (key : Nat) (y : Cell) :
    s.Moves [.learn, .regs] (State.commitCell s key y) := by
  unfold State.commitCell
  repeat' first
    | with_reducible exact State.Moves.refl _ _
    | exact Eq.refl true
    | with_reducible apply State.Moves.ite
    | with_reducible apply State.Moves.step ?_ (State.moves_count ..) ?_
    | with_reducible apply State.Moves.step ?_ (State.moves_putCell ..) ?_
    | with_reducible apply State.Moves.ite
    | with_reducible dsimp only

theorem State.moves_passCommit (s : State) (k : Nat) :
    s.Moves [.learn, .dma, .regs] (State.passCommit s k) := by
  unfold State.passCommit
  repeat' first
    | with_reducible exact State.Moves.refl _ _
    | exact Eq.refl true
    | with_reducible apply State.Moves.ite
    | with_reducible apply State.Moves.step ?_ (State.moves_commitCell ..) ?_
    | with_reducible apply State.Moves.step ?_ (State.moves_count ..) ?_
    | with_reducible apply State.Moves.step ?_ (State.moves_modShard ..) ?_
    | with_reducible apply State.Moves.step ?_ (State.moves_stepDone ..) ?_
    | with_reducible apply State.Moves.overAll (fun _ _ => ?_)
    | with_reducible apply State.Moves.ite
    | with_reducible dsimp only

theorem State.moves_resetCell (s : State) (r : Nat) (c : Nat) :
    s.Moves [.blk, .regions, .learn, .recd, .regs] (State.resetCell s r c) := by
  unfold State.resetCell
  repeat' first
    | with_reducible exact State.Moves.refl _ _
    | exact Eq.refl true
    | with_reducible apply State.Moves.step ?_ (State.moves_storeCell ..) ?_
    | with_reducible apply State.Moves.step ?_ (State.moves_count ..) ?_
    | with_reducible apply State.Moves.step ?_ (State.moves_parityError ..) ?_
    | with_reducible apply State.Moves.step ?_ (State.moves_fire ..) ?_
    | with_reducible apply State.Moves.step ?_ (State.moves_learnFault ..) ?_
    | with_reducible dsimp only

theorem State.moves_passDiscard (s : State) (k : Nat) (parityIn : Option (Nat × Nat)) :
    s.Moves [.blk, .regions, .learn, .recd, .regs] (State.passDiscard s k parityIn) := by
  unfold State.passDiscard
  repeat' first
    | with_reducible exact State.Moves.refl _ _
    | exact Eq.refl true
    | with_reducible apply State.Moves.ite
    | with_reducible apply State.Moves.step ?_ (State.moves_stopPass ..) ?_
    | with_reducible apply State.Moves.step ?_ (State.moves_resetCell ..) ?_
    | with_reducible apply State.Moves.step ?_ (State.moves_parityError ..) ?_
    | with_reducible apply State.Moves.ite
    | with_reducible dsimp only
    | split

theorem State.moves_cellParity (s : State) (t : CellTarget) :
    s.Moves [.blk, .regions, .learn, .recd, .regs] (State.cellParity s t) := by
  unfold State.cellParity
  repeat' first
    | with_reducible exact State.Moves.refl _ _
    | exact Eq.refl true
    | with_reducible apply State.Moves.step ?_ (State.moves_resetCell ..) ?_
    | with_reducible apply State.Moves.step ?_ (State.moves_stopPass ..) ?_
    | with_reducible apply State.Moves.step ?_ (State.moves_parityError ..) ?_
    | with_reducible apply State.Moves.step ?_ (State.moves_fire ..) ?_
    | with_reducible dsimp only
    | split
    | with_reducible apply State.Moves.put_learn

theorem State.moves_groupEta (s : State) (g : Nat) (v : Int) :
    s.Moves [.regs] (State.groupEta s g v) := by
  unfold State.groupEta
  repeat' first
    | with_reducible exact State.Moves.refl _ _
    | exact Eq.refl true
    | with_reducible apply State.Moves.step ?_ (State.moves_set ..) ?_
    | with_reducible dsimp only

theorem State.moves_applySlot (s : State) (k : Nat) :
    s.Moves [.learn] (State.applySlot s k) := by
  unfold State.applySlot
  repeat' first
    | with_reducible exact State.Moves.refl _ _
    | exact Eq.refl true
    | with_reducible apply State.Moves.step ?_ (State.moves_modSlot ..) ?_
    | with_reducible dsimp only

theorem State.moves_setHalt (s : State) (k : Nat) (v : Nat) :
    s.Moves [.learn, .recd, .regs] (State.setHalt s k v) := by
  unfold State.setHalt
  repeat' first
    | with_reducible exact State.Moves.refl _ _
    | exact Eq.refl true
    | with_reducible apply State.Moves.ite
    | with_reducible apply State.Moves.step ?_ (State.moves_set ..) ?_
    | with_reducible apply State.Moves.step ?_ (State.moves_stopPass ..) ?_
    | with_reducible apply State.Moves.ite
    | with_reducible dsimp only

theorem State.moves_setXfer (s : State) (k : Nat) (v : Nat) :
    s.Moves [.learn] (State.setXfer s k v).2 := by
  unfold State.setXfer
  repeat' first
    | with_reducible exact State.Moves.refl _ _
    | exact Eq.refl true
    | with_reducible apply State.Moves.ite
    | with_reducible apply State.Moves.ite_snd
    | with_reducible apply State.Moves.step ?_ (State.moves_modShard ..) ?_
    | with_reducible apply State.Moves.ite
    | with_reducible dsimp only
    | with_reducible apply State.Moves.put_learn

theorem State.moves_importRefuse (s : State) (code : Nat) :
    s.Moves [.regs] (State.importRefuse s code).2 := by
  unfold State.importRefuse
  repeat' first
    | with_reducible exact State.Moves.refl _ _
    | exact Eq.refl true
    | with_reducible apply State.Moves.step ?_ (State.moves_set ..) ?_
    | with_reducible apply State.Moves.step ?_ (State.moves_count ..) ?_
    | with_reducible dsimp only

theorem State.moves_importCell (s : State) (k : Nat) (b : List Byte) :
    s.Moves [.learn, .regs] (State.importCell s k b).2 := by
  unfold State.importCell
  repeat' first
    | with_reducible exact State.Moves.refl _ _
    | exact Eq.refl true
    | with_reducible apply State.Moves.ite
    | with_reducible apply State.Moves.ite_snd
    | with_reducible apply State.Moves.step ?_ (State.moves_importRefuse ..) ?_
    | with_reducible apply State.Moves.step ?_ (State.moves_count ..) ?_
    | with_reducible apply State.Moves.step ?_ (State.moves_storeCell ..) ?_
    | with_reducible apply State.Moves.ite
    | with_reducible dsimp only

theorem State.moves_writeCell (s : State) (b : List Byte) :
    s.Moves [.learn, .regs] (State.writeCell s b).2 := by
  unfold State.writeCell
  repeat' first
    | with_reducible exact State.Moves.refl _ _
    | exact Eq.refl true
    | with_reducible apply State.Moves.ite
    | with_reducible apply State.Moves.ite_snd
    | with_reducible apply State.Moves.step ?_ (State.moves_importCell ..) ?_
    | with_reducible apply State.Moves.ite
    | with_reducible dsimp only

theorem State.moves_importHeader (s : State) (k : Nat) (b : List Byte) :
    s.Moves [.learn, .regs] (State.importHeader s k b) := by
  unfold State.importHeader
  repeat' first
    | with_reducible exact State.Moves.refl _ _
    | exact Eq.refl true
    | with_reducible apply State.Moves.ite
    | with_reducible apply State.Moves.step ?_ (State.moves_modShard ..) ?_
    | with_reducible apply State.Moves.step ?_ (State.moves_importRefuse ..) ?_
    | with_reducible apply State.Moves.ite
    | with_reducible dsimp only

theorem State.moves_importBytes (s : State) (k : Nat) (b : List Byte) : s.Moves [.learn, .regs] (State.importBytes s k b) := by
  induction b generalizing s with
  | nil => exact .refl _ _
  | cons b l ih =>
    unfold State.importBytes
    refine .step (.ite ?_ (.ite ?_ ?_)) (ih _) rfl
    · exact .step (.refl _ _) (State.moves_modShard ..) rfl
    · exact .step (.step (.refl _ _) (State.moves_modShard ..) rfl) (State.moves_importHeader ..) rfl
    · exact .step (.step (.refl _ _) (State.moves_modShard ..) rfl) (State.moves_importCell ..) rfl

theorem State.moves_pickEvents (s : State) (r : Nat) (old : List Pickup) (new : List Pickup) :
    s.Moves [.recd, .regs] (State.pickEvents s r old new) := by
  unfold State.pickEvents
  repeat' first
    | with_reducible exact State.Moves.refl _ _
    | exact Eq.refl true
    | with_reducible apply State.Moves.ite
    | with_reducible apply State.Moves.step ?_ (State.moves_fire ..) ?_
    | with_reducible apply State.Moves.overAll (fun _ _ => ?_)
    | with_reducible apply State.Moves.ite
    | with_reducible dsimp only

theorem State.moves_pickEvaluate (s : State) (r : Nat) :
    s.Moves [.regions, .recd, .regs] (State.pickEvaluate s r) := by
  unfold State.pickEvaluate
  repeat' first
    | with_reducible exact State.Moves.refl _ _
    | exact Eq.refl true
    | with_reducible apply State.Moves.step ?_ (State.moves_pickEvents ..) ?_
    | with_reducible apply State.Moves.step ?_ (State.moves_modRegion ..) ?_
    | with_reducible dsimp only

theorem State.moves_pickChange (s : State) (r : Nat) (f : Nat → Pickup → Pickup) :
    s.Moves [.regions, .recd, .regs] (State.pickChange s r f) := by
  unfold State.pickChange
  repeat' first
    | with_reducible exact State.Moves.refl _ _
    | exact Eq.refl true
    | with_reducible apply State.Moves.step ?_ (State.moves_pickEvents ..) ?_
    | with_reducible apply State.Moves.step ?_ (State.moves_modRegion ..) ?_
    | with_reducible dsimp only

theorem State.moves_pickClear (s : State) (r : Nat) (mask : Nat) :
    s.Moves [.regions, .recd, .regs] (State.pickClear s r mask) := by
  unfold State.pickClear
  repeat' first
    | with_reducible exact State.Moves.refl _ _
    | exact Eq.refl true
    | with_reducible apply State.Moves.ite
    | with_reducible apply State.Moves.step ?_ (State.moves_pickChange ..) ?_
    | with_reducible apply State.Moves.ite
    | with_reducible dsimp only

theorem State.moves_pickForce (s : State) (r : Nat) (mask : Nat) :
    s.Moves [.regions, .recd, .regs] (State.pickForce s r mask) := by
  unfold State.pickForce
  repeat' first
    | with_reducible exact State.Moves.refl _ _
    | exact Eq.refl true
    | with_reducible apply State.Moves.ite
    | with_reducible apply State.Moves.step ?_ (State.moves_set ..) ?_
    | with_reducible apply State.Moves.step ?_ (State.moves_pickChange ..) ?_
    | with_reducible apply State.Moves.ite
    | with_reducible dsimp only

theorem State.moves_takeReport (s : State) (a : Nat) (b : Nat) (r : Nat) :
    s.Moves [.regions, .learn, .regs] (State.takeReport s a b r) := by
  unfold State.takeReport
  repeat' first
    | with_reducible exact State.Moves.refl _ _
    | exact Eq.refl true
    | with_reducible apply State.Moves.ite
    | with_reducible apply State.Moves.step ?_ (State.moves_modRegion ..) ?_
    | with_reducible apply State.Moves.step ?_ (State.moves_set ..) ?_
    | with_reducible apply State.Moves.step ?_ (State.moves_noteUndershoot ..) ?_
    | with_reducible apply State.Moves.ite
    | with_reducible dsimp only
    | split

theorem State.moves_takeVin (s : State) (r : Nat) :
    s.Moves [.regions, .regs] (State.takeVin s r) := by
  unfold State.takeVin
  repeat' first
    | with_reducible exact State.Moves.refl _ _
    | exact Eq.refl true
    | with_reducible apply State.Moves.step ?_ (State.moves_set ..) ?_
    | with_reducible apply State.Moves.step ?_ (State.moves_modSup ..) ?_
    | with_reducible dsimp only

theorem State.moves_takeFrame (s : State) (r : Nat) :
    s.Moves [.regions, .regs] (State.takeFrame s r) := by
  unfold State.takeFrame
  repeat' first
    | with_reducible exact State.Moves.refl _ _
    | exact Eq.refl true
    | with_reducible apply State.Moves.ite
    | with_reducible apply State.Moves.step ?_ (State.moves_actReject ..) ?_
    | with_reducible apply State.Moves.step ?_ (State.moves_modSup ..) ?_
    | with_reducible apply State.Moves.ite
    | with_reducible dsimp only

theorem State.moves_takeTag (s : State) (a : Nat) (b : Nat) (r : Nat) :
    s.Moves [.regions] (State.takeTag s a b r) := by
  unfold State.takeTag
  repeat' first
    | with_reducible exact State.Moves.refl _ _
    | exact Eq.refl true
    | with_reducible apply State.Moves.ite
    | with_reducible apply State.Moves.step ?_ (State.moves_modSup ..) ?_
    | with_reducible apply State.Moves.ite
    | with_reducible dsimp only

theorem State.moves_takeTrimGroup (s : State) :
    s.Moves [.eng, .used, .dict] (State.takeTrimGroup s) := by
  unfold State.takeTrimGroup
  repeat' first
    | with_reducible exact State.Moves.refl _ _
    | exact Eq.refl true
    | with_reducible apply State.Moves.ite
    | with_reducible apply State.Moves.step ?_ (State.moves_takeGroup ..) ?_
    | with_reducible apply State.Moves.ite
    | with_reducible dsimp only
    | with_reducible apply State.Moves.put_eng

theorem State.moves_takeSwaps (s : State) :
    s.Moves [.chans, .regs] (State.takeSwaps s) := by
  unfold State.takeSwaps
  repeat' first
    | with_reducible exact State.Moves.refl _ _
    | exact Eq.refl true
    | with_reducible apply State.Moves.step ?_ (State.moves_count ..) ?_
    | with_reducible apply State.Moves.step ?_ (State.moves_modChan ..) ?_
    | with_reducible apply State.Moves.overAll (fun _ _ => ?_)
    | with_reducible dsimp only

theorem State.moves_beginPeriod (s : State) :
    s.Moves [.regions, .strings, .chans, .eng, .used, .learn, .cg, .dict, .regs] (State.beginPeriod s) := by
  unfold State.beginPeriod
  extract_lets a w b c regs d e f
  have hb : s.Moves [.regions, .strings, .chans, .eng, .used, .learn, .cg, .dict, .regs] b :=
    State.Moves.put_eng (s := s) (t := s) (v := _) (.refl _ _) rfl
  clear_value b
  have hc : s.Moves [.regions, .strings, .chans, .eng, .used, .learn, .cg, .dict, .regs] c :=
    .step (.step (.step (.step hb (State.moves_takeGroup ..) rfl) (State.moves_takeGroup ..) rfl)
      (State.moves_takeGroup ..) rfl) (State.moves_takeTrimGroup ..) rfl
  clear_value c
  have hd : s.Moves [.regions, .strings, .chans, .eng, .used, .learn, .cg, .dict, .regs] d :=
    .overAll (fun _ _ => (State.moves_takeReport ..).mono rfl) hc
  clear_value d
  have he : s.Moves [.regions, .strings, .chans, .eng, .used, .learn, .cg, .dict, .regs] e :=
    .step (.overAll (fun _ _ => (State.moves_takeFrame ..).mono rfl)
      (.overAll (fun _ _ => (State.moves_takeVin ..).mono rfl) hd)) (State.moves_takeSwaps ..) rfl
  clear_value e
  exact .put he rfl (fun p hp => by cases p <;> first | exact absurd (by decide) hp | rfl)
    (.of (by simp [State.sizes]) rfl rfl rfl)

theorem State.moves_latchString (s : State) (i : Nat) :
    s.Moves [.regions, .strings, .cap, .convs, .dma, .recd, .regs] (State.latchString s i) := by
  unfold State.latchString
  repeat' first
    | with_reducible exact State.Moves.refl _ _
    | exact Eq.refl true
    | with_reducible apply State.Moves.ite
    | with_reducible apply State.Moves.step ?_ (State.moves_latchSlope ..) ?_
    | with_reducible apply State.Moves.step ?_ (State.moves_latchTests ..) ?_
    | with_reducible apply State.Moves.ite
    | with_reducible dsimp only

theorem State.moves_latchFigures (s : State) : s.Moves [.regions, .strings] (State.latchFigures s) := by
  unfold State.latchFigures
  extract_lets regs a b
  have hb : s.Moves [.regions, .strings] b :=
    .overAll (fun _ _ => (State.moves_latchMr ..).mono rfl) (.overAll (fun _ _ => (State.moves_latchLateral ..).mono rfl)
      (.overAll (fun _ _ => (State.moves_latchRegion ..).mono rfl) (.refl _ _)))
  clear_value b
  exact hb.put_strings rfl (List.length_map ..)

theorem State.moves_latchStates (s : State) :
    s.Moves [.regions, .strings, .cap, .dma, .recd, .regs] (State.latchStates s) := by
  unfold State.latchStates
  repeat' first
    | with_reducible exact State.Moves.refl _ _
    | exact Eq.refl true
    | with_reducible apply State.Moves.ite
    | with_reducible apply State.Moves.step ?_ (State.moves_latchMr ..) ?_
    | with_reducible apply State.Moves.step ?_ (State.moves_latchReturns ..) ?_
    | with_reducible apply State.Moves.step ?_ (State.moves_latchTestsRet ..) ?_
    | with_reducible apply State.Moves.overAll (fun _ _ => ?_)
    | with_reducible apply State.Moves.ite
    | with_reducible dsimp only

theorem State.moves_latch (s : State) :
    s.Moves [.blk, .st, .rails, .regions, .strings, .eng, .cap, .hints, .learn, .therm, .convs, .cg, .dma, .recd, .regs] (State.latch s) := by
  unfold State.latch
  repeat' first
    | with_reducible exact State.Moves.refl _ _
    | exact Eq.refl true
    | with_reducible apply State.Moves.ite
    | with_reducible apply State.Moves.step ?_ (State.moves_latchFigures ..) ?_
    | with_reducible apply State.Moves.step ?_ (State.moves_latchStates ..) ?_
    | with_reducible apply State.Moves.step ?_ (State.moves_latchDisturb ..) ?_
    | with_reducible apply State.Moves.step ?_ (State.moves_pickEvaluate ..) ?_
    | with_reducible apply State.Moves.step ?_ (State.moves_latchRetry ..) ?_
    | with_reducible apply State.Moves.step ?_ (State.moves_latchString ..) ?_
    | with_reducible apply State.Moves.step ?_ (State.moves_latchRotation ..) ?_
    | with_reducible apply State.Moves.step ?_ (State.moves_latchService ..) ?_
    | with_reducible apply State.Moves.step ?_ (State.moves_latchAssist ..) ?_
    | with_reducible apply State.Moves.step ?_ (State.moves_latchDerate ..) ?_
    | with_reducible apply State.Moves.step ?_ (State.moves_holdCapos ..) ?_
    | with_reducible apply State.Moves.overAll (fun _ _ => ?_)
    | with_reducible apply State.Moves.ite
    | with_reducible dsimp only
    | with_reducible apply State.Moves.put_strings
    | exact List.length_map ..
    | exact List.length_modify ..

theorem State.moves_railTerms (s : State) (q : Nat) :
    s.Moves [.rails, .regs] (State.railTerms s q) := by
  unfold State.railTerms
  repeat' first
    | with_reducible exact State.Moves.refl _ _
    | exact Eq.refl true
    | with_reducible apply State.Moves.step ?_ (State.moves_set ..) ?_
    | with_reducible apply State.Moves.step ?_ (State.moves_modRail _ _ _ ?_) ?_
    | with_reducible apply State.Moves.step ?_ (State.moves_recoveryPeriod ..) ?_
    | with_reducible dsimp only
    | exact fun _ => ⟨rfl, rfl⟩

/-- R17, R180: a set-point is clamped to its rail's range before it is rounded. -/
theorem spRange_clamp (q : Nat) (h : q < 3) (x : Fl) :
    spRange q (roundUp (outClamp (mvUnits (railVmin q) * 65536) (mvUnits (railVmax q) * 65536) x).val 65536).toNat := by
  right
  match q, h with
  | 0, _ | 1, _ | 2, _ =>
    simp only [railVmin, railVmax, mvUnits, outClamp, roundUp, clampI, List.getD_cons_zero, List.getD_cons_succ]
    omega

theorem State.moves_railChannel (s : State) (q : Nat) : s.Moves [.rails, .chans] (State.railChannel s q) := by
  unfold State.railChannel
  extract_lets ch i target lo hi ramp slew base bump sp fl t
  refine .ite ((State.moves_modChan ..).mono rfl) ?_
  have ht : s.Moves [.rails, .chans] t := by
    refine ⟨fun p hp => by cases p <;> first | exact absurd (by decide) hp | rfl,
      ⟨rfl, .of_sizes rfl (List.length_modify ..), id, id, id, fun hs p hp => ?_⟩⟩
    have hq := hs p hp
    show spRange p ((s.rails.modify q _).getD p {}).spCalc ∧ spRange p ((s.rails.modify q _).getD p {}).spOut
    unfold State.rail at hq
    rcases Nat.lt_or_ge p s.rails.length with hl | hl
    · simp only [List.getD_eq_getElem?_getD, List.getElem?_modify, List.getElem?_eq_getElem hl, Option.getD_some] at hq ⊢
      split
      · rename_i he; subst he
        exact ⟨spRange_clamp _ hp _, hq.2⟩
      · exact hq
    · simpa [List.getD_eq_getElem?_getD, List.getElem?_modify, List.getElem?_eq_none hl] using hq
  clear_value t
  exact ht.step (State.moves_modChan ..) rfl

theorem State.moves_trimPeriod (s : State) :
    s.Moves [.eng] (State.trimPeriod s) := by
  unfold State.trimPeriod
  repeat' first
    | with_reducible exact State.Moves.refl _ _
    | exact Eq.refl true
    | with_reducible apply State.Moves.ite
    | with_reducible apply State.Moves.ite
    | with_reducible dsimp only
    | with_reducible apply State.Moves.put_eng

theorem State.moves_seedString (s : State) (i : Nat) :
    s.Moves [.strings] (State.seedString s i) := by
  unfold State.seedString
  repeat' first
    | with_reducible exact State.Moves.refl _ _
    | exact Eq.refl true
    | with_reducible apply State.Moves.ite
    | with_reducible apply State.Moves.step ?_ (State.moves_modStr ..) ?_
    | with_reducible apply State.Moves.ite
    | with_reducible dsimp only

theorem State.moves_shareIdle (s : State) (i : Nat) :
    s.Moves [.strings] (State.shareIdle s i) := by
  unfold State.shareIdle
  repeat' first
    | with_reducible exact State.Moves.refl _ _
    | exact Eq.refl true
    | with_reducible apply State.Moves.step ?_ (State.moves_modStr ..) ?_
    | with_reducible dsimp only
    | split

theorem State.moves_shareOut (s : State) (r : Nat) (mean : Int) (p : Nat × Fl) :
    s.Moves [.strings] (State.shareOut s r mean p).1 := by
  unfold State.shareOut
  repeat' first
    | with_reducible exact State.Moves.refl _ _
    | exact Eq.refl true
    | with_reducible apply State.Moves.step ?_ (State.moves_modStr ..) ?_
    | with_reducible dsimp only

theorem State.moves_shareFold (s : State) (n : Nat) (r : Nat) (mean : Int) (l : List (Nat × Fl)) :
    s.Moves [.strings] (l.foldl (fun a p => ((a.1.shareOut r mean p).1, a.2 ||| (a.1.shareOut r mean p).2)) (s, n)).1 := by
  induction l generalizing s n with
  | nil => exact .refl _ _
  | cons p l ih => exact .step (.step (.refl _ _) (State.moves_shareOut ..) rfl) (ih _ _) rfl

theorem State.moves_sharing (s : State) (r : Nat) (doubt : Bool) : s.Moves [.strings] (State.sharing s r doubt).1 := by
  unfold State.sharing
  have h : s.Moves [.strings]
      (overAll (overAll s (Config.regionStrings s.cfg r) State.seedString) (Config.regionStrings s.cfg r) State.shareIdle) :=
    .overAll (fun _ _ => State.moves_shareIdle ..) (.overAll (fun _ _ => State.moves_seedString ..) (.refl _ _))
  exact .ite_fst h (h.step (State.moves_shareFold ..) rfl)

theorem State.moves_consensus (s : State) (q : Nat) (doubt : Nat → Bool) :
    s.Moves [.chans] (State.consensus s q doubt) := by
  unfold State.consensus
  repeat' first
    | with_reducible exact State.Moves.refl _ _
    | exact Eq.refl true
    | with_reducible apply State.Moves.step ?_ (State.moves_modChan ..) ?_
    | with_reducible apply State.Moves.overAll (fun _ _ => ?_)
    | with_reducible dsimp only

theorem State.moves_regionHeld (s : State) (r : Nat) :
    s.Moves [.regions, .strings, .chans] (State.regionHeld s r) := by
  unfold State.regionHeld
  repeat' first
    | with_reducible exact State.Moves.refl _ _
    | exact Eq.refl true
    | with_reducible apply State.Moves.step ?_ (State.moves_modChan ..) ?_
    | with_reducible apply State.Moves.step ?_ (State.moves_modStr ..) ?_
    | with_reducible apply State.Moves.step ?_ (State.moves_modSup ..) ?_
    | with_reducible apply State.Moves.overAll (fun _ _ => ?_)
    | with_reducible dsimp only

theorem State.moves_regionRamp (s : State) (r : Nat) :
    s.Moves [.regions, .strings, .chans] (State.regionRamp s r) := by
  unfold State.regionRamp
  repeat' first
    | with_reducible exact State.Moves.refl _ _
    | exact Eq.refl true
    | with_reducible apply State.Moves.ite
    | with_reducible apply State.Moves.step ?_ (State.moves_regionHeld ..) ?_
    | with_reducible apply State.Moves.step ?_ (State.moves_modStr ..) ?_
    | with_reducible apply State.Moves.step ?_ (State.moves_modChan ..) ?_
    | with_reducible apply State.Moves.step ?_ (State.moves_modSup ..) ?_
    | with_reducible apply State.Moves.overAll (fun _ _ => ?_)
    | with_reducible apply State.Moves.ite
    | with_reducible dsimp only

theorem State.moves_regionChannel (s : State) (r : Nat) (doubt : Bool) :
    s.Moves [.regions, .strings, .chans] (State.regionChannel s r doubt) := by
  unfold State.regionChannel
  repeat' first
    | with_reducible exact State.Moves.refl _ _
    | exact Eq.refl true
    | with_reducible apply State.Moves.ite
    | with_reducible apply State.Moves.step ?_ (State.moves_regionHeld ..) ?_
    | with_reducible apply State.Moves.step ?_ (State.moves_sharing ..) ?_
    | with_reducible apply State.Moves.step ?_ (State.moves_modSup ..) ?_
    | with_reducible apply State.Moves.step ?_ (State.moves_modChan ..) ?_
    | with_reducible apply State.Moves.ite
    | with_reducible dsimp only

theorem State.moves_noteDeviation (s : State) (r : Nat) :
    s.Moves [.chans] (State.noteDeviation s r) := by
  unfold State.noteDeviation
  repeat' first
    | with_reducible exact State.Moves.refl _ _
    | exact Eq.refl true
    | with_reducible apply State.Moves.ite
    | with_reducible apply State.Moves.step ?_ (State.moves_modChan ..) ?_
    | with_reducible apply State.Moves.ite
    | with_reducible dsimp only

theorem State.moves_plausible (s : State) (r : Nat) :
    s.Moves [.chans] (State.plausible s r) := by
  unfold State.plausible
  repeat' first
    | with_reducible exact State.Moves.refl _ _
    | exact Eq.refl true
    | with_reducible apply State.Moves.ite
    | with_reducible apply State.Moves.step ?_ (State.moves_noteDeviation ..) ?_
    | with_reducible apply State.Moves.step ?_ (State.moves_modChan ..) ?_
    | with_reducible apply State.Moves.ite
    | with_reducible dsimp only

theorem State.moves_compute (s : State) :
    s.Moves [.rails, .regions, .strings, .chans, .eng, .regs] (State.compute s) := by
  unfold State.compute
  repeat' first
    | with_reducible exact State.Moves.refl _ _
    | exact Eq.refl true
    | with_reducible apply State.Moves.ite
    | with_reducible apply State.Moves.step ?_ (State.moves_trimPeriod ..) ?_
    | with_reducible apply State.Moves.step ?_ (State.moves_railTerms ..) ?_
    | with_reducible apply State.Moves.step ?_ (State.moves_abandonFrets ..) ?_
    | with_reducible apply State.Moves.step ?_ (State.moves_railChannel ..) ?_
    | with_reducible apply State.Moves.step ?_ (State.moves_plausible ..) ?_
    | with_reducible apply State.Moves.step ?_ (State.moves_regionRamp ..) ?_
    | with_reducible apply State.Moves.step ?_ (State.moves_consensus ..) ?_
    | with_reducible apply State.Moves.step ?_ (State.moves_regionChannel ..) ?_
    | with_reducible apply State.Moves.overAll (fun _ _ => ?_)
    | with_reducible apply State.Moves.ite
    | with_reducible dsimp only

theorem State.moves_pulseTick (s : State) :
    s.Moves [.eng, .freeK] (State.pulseTick s) := by
  unfold State.pulseTick
  repeat' first
    | with_reducible exact State.Moves.refl _ _
    | exact Eq.refl true
    | with_reducible apply State.Moves.step ?_ (State.moves_takeFree ..) ?_
    | with_reducible dsimp only
    | with_reducible apply State.Moves.put_eng

theorem State.moves_controlPeriod (s : State) :
    s.Moves [.blk, .st, .rails, .regions, .strings, .chans, .eng, .used, .cap, .hints, .learn, .therm, .convs, .cg, .dict, .dma, .recd, .regs, .freeK] (State.controlPeriod s) := by
  unfold State.controlPeriod
  repeat' first
    | with_reducible exact State.Moves.refl _ _
    | exact Eq.refl true
    | with_reducible apply State.Moves.ite
    | with_reducible apply State.Moves.step ?_ (State.moves_latch ..) ?_
    | with_reducible apply State.Moves.step ?_ (State.moves_beginPeriod ..) ?_
    | with_reducible apply State.Moves.step ?_ (State.moves_takeTag ..) ?_
    | with_reducible apply State.Moves.step ?_ (State.moves_pulseTick ..) ?_
    | with_reducible apply State.Moves.step ?_ (State.moves_powerPeriod ..) ?_
    | with_reducible apply State.Moves.step ?_ (State.moves_compute ..) ?_
    | with_reducible apply State.Moves.overAll (fun _ _ => ?_)
    | with_reducible apply State.Moves.ite
    | with_reducible dsimp only
    | with_reducible apply State.Moves.put_learn
    | with_reducible apply State.Moves.put_hints
    | with_reducible apply State.Moves.put_eng
    | refine .put ?_ rfl (fun p hp => by cases p <;> first | exact absurd (by decide) hp | rfl)
        (.of (by first | rfl | simp [State.sizes] | (simp only [State.sizes, List.length_map, List.length_modify]; rfl)) rfl rfl rfl)

theorem State.moves_engineOutputs (s : State) : s.Moves [.rails, .regions, .strings, .chans, .eng] s.engineOutputs := by
  refine ⟨fun p hp => by cases p <;> first | exact absurd (by decide) hp | rfl, rfl,
    .of_sizes (by simp [State.engineOutputs, State.sizes]) (List.length_map ..), id, id, id, ?_⟩
  refine railsOk_of_or fun q _ => ?_
  unfold State.engineOutputs State.rail
  rcases Nat.lt_or_ge q s.rails.length with h | h
  · simp [List.getD_eq_getElem?_getD, List.getElem?_eq_getElem h]
  · simp [List.getD_eq_getElem?_getD, List.getElem?_eq_none h]

theorem State.moves_askDoubt (s : State) (r : Nat) :
    s.Moves [.convs] (State.askDoubt s r) := by
  unfold State.askDoubt
  repeat' first
    | with_reducible exact State.Moves.refl _ _
    | exact Eq.refl true
    | with_reducible apply State.Moves.step ?_ (State.moves_askUrgent ..) ?_
    | with_reducible apply State.Moves.overAll (fun _ _ => ?_)
    | with_reducible dsimp only

theorem State.moves_takeDoubt (s : State) (r : Nat) :
    s.Moves [.chans, .convs, .recd, .regs] (State.takeDoubt s r) := by
  unfold State.takeDoubt
  repeat' first
    | with_reducible exact State.Moves.refl _ _
    | exact Eq.refl true
    | with_reducible apply State.Moves.step ?_ (State.moves_modChan ..) ?_
    | with_reducible apply State.Moves.step ?_ (State.moves_askDoubt ..) ?_
    | with_reducible apply State.Moves.step ?_ (State.moves_fire ..) ?_
    | with_reducible apply State.Moves.step ?_ (State.moves_countSat ..) ?_
    | with_reducible dsimp only
    | split

theorem State.moves_islandOutputs (s : State) (r : Nat) :
    s.Moves [.regions, .regs] (State.islandOutputs s r) := by
  unfold State.islandOutputs
  repeat' first
    | with_reducible exact State.Moves.refl _ _
    | exact Eq.refl true
    | with_reducible apply State.Moves.step ?_ (State.moves_modLoop ..) ?_
    | with_reducible apply State.Moves.step ?_ (State.moves_fretSettle ..) ?_
    | with_reducible apply State.Moves.step ?_ (State.moves_set ..) ?_
    | with_reducible dsimp only

theorem State.moves_outputsArrival (s : State) :
    s.Moves [.regions, .strings, .chans, .eng, .used, .convs, .recd, .regs] (State.outputsArrival s) := by
  unfold State.outputsArrival
  repeat' first
    | with_reducible exact State.Moves.refl _ _
    | exact Eq.refl true
    | with_reducible apply State.Moves.step ?_ (State.moves_applyIsland ..) ?_
    | with_reducible apply State.Moves.step ?_ (State.moves_islandOutputs ..) ?_
    | with_reducible apply State.Moves.step ?_ (State.moves_takeDoubt ..) ?_
    | with_reducible apply State.Moves.overAll (fun _ _ => ?_)
    | with_reducible dsimp only
    | with_reducible apply State.Moves.put_eng
    | with_reducible apply State.Moves.put_strings
    | exact List.length_map ..
    | exact List.length_modify ..
    | refine .put ?_ rfl (fun p hp => by cases p <;> first | exact absurd (by decide) hp | rfl)
        (.of (by first | rfl | simp [State.sizes] | (simp only [State.sizes, List.length_map, List.length_modify]; rfl)) rfl rfl rfl)

theorem State.moves_shadowWrite (s : State) (ch : Nat) (sub : Nat) (v : Int) :
    s.Moves [.chans] (State.shadowWrite s ch sub v) := by
  unfold State.shadowWrite
  repeat' first
    | with_reducible exact State.Moves.refl _ _
    | exact Eq.refl true
    | with_reducible apply State.Moves.ite
    | with_reducible apply State.Moves.step ?_ (State.moves_modChan ..) ?_
    | with_reducible apply State.Moves.ite
    | with_reducible dsimp only

theorem State.moves_bankSwap (s : State) (mask : Nat) : s.Moves [.chans] (State.bankSwap s mask) :=
  .put_chans (.refl _ _) rfl (by rw [List.length_map, List.length_zipIdx])

theorem State.moves_flagsClear (s : State) (ch : Nat) (mask : Nat) :
    s.Moves [.chans] (State.flagsClear s ch mask) := by
  unfold State.flagsClear
  repeat' first
    | with_reducible exact State.Moves.refl _ _
    | exact Eq.refl true
    | with_reducible apply State.Moves.step ?_ (State.moves_modChan ..) ?_
    | with_reducible dsimp only

theorem State.moves_holdOutputs (s : State) (ch : Nat) :
    s.Moves [.rails, .regions, .strings, .chans] (State.holdOutputs s ch) := by
  unfold State.holdOutputs
  refine .ite (.mono (State.moves_modChan ..) rfl) (.ite ?_ ?_)
  · exact .step (.overAll (fun _ _ => (State.moves_modStr ..).mono rfl) (.refl _ _)) (State.moves_modSup ..) rfl
  · refine ⟨fun p hp => by cases p <;> first | exact absurd (by decide) hp | rfl, rfl, .of_sizes rfl (List.length_modify ..),
      id, id, id, railsOk_of_or fun q _ => ?_⟩
    unfold State.modRail State.rail
    simp only [List.getD_eq_getElem?_getD, List.getElem?_modify]
    rcases Nat.lt_or_ge q s.rails.length with h | h
    · rw [List.getElem?_eq_getElem h]
      simp only [Option.getD_some]
      split <;> simp
    · rw [List.getElem?_eq_none h]; simp

theorem State.moves_bankParity (s : State) (ch : Nat) (t : ParityTarget) :
    s.Moves [.blk, .rails, .regions, .strings, .chans, .recd, .regs] (State.bankParity s ch t) := by
  unfold State.bankParity
  repeat' first
    | with_reducible exact State.Moves.refl _ _
    | exact Eq.refl true
    | with_reducible apply State.Moves.ite
    | with_reducible apply State.Moves.step ?_ (State.moves_modChan ..) ?_
    | with_reducible apply State.Moves.step ?_ (State.moves_parityError ..) ?_
    | with_reducible apply State.Moves.step ?_ (State.moves_fire ..) ?_
    | with_reducible apply State.Moves.step ?_ (State.moves_holdOutputs ..) ?_
    | with_reducible apply State.Moves.step ?_ (State.moves_modStr ..) ?_
    | with_reducible apply State.Moves.ite
    | with_reducible dsimp only
    | split

theorem State.moves_trimFound (s : State) (raw : Int) :
    s.Moves [.eng, .recd, .regs] (State.trimFound s raw) := by
  unfold State.trimFound
  repeat' first
    | with_reducible exact State.Moves.refl _ _
    | exact Eq.refl true
    | with_reducible apply State.Moves.ite
    | with_reducible apply State.Moves.step ?_ (State.moves_fire ..) ?_
    | with_reducible apply State.Moves.ite
    | with_reducible dsimp only
    | with_reducible apply State.Moves.put_eng

theorem State.moves_pwmPeriod (s : State) (high : Nat) (low : Nat) :
    s.Moves [.eng, .recd, .regs] (State.pwmPeriod s high low) := by
  unfold State.pwmPeriod
  repeat' first
    | with_reducible exact State.Moves.refl _ _
    | exact Eq.refl true
    | with_reducible apply State.Moves.ite
    | with_reducible apply State.Moves.step ?_ (State.moves_trimFound ..) ?_
    | with_reducible apply State.Moves.ite
    | with_reducible dsimp only
    | with_reducible apply State.Moves.put_eng

theorem State.moves_boardConversion (s : State) (i : BaInput) (res : Option (Int × Bool)) :
    s.Moves [.blk, .eng, .convs, .cg, .recd, .regs] (State.boardConversion s i res) := by
  unfold State.boardConversion
  repeat' first
    | with_reducible exact State.Moves.refl _ _
    | exact Eq.refl true
    | with_reducible apply State.Moves.ite
    | with_reducible apply State.Moves.step ?_ (State.moves_boardResult ..) ?_
    | with_reducible apply State.Moves.step ?_ (State.moves_trimFound ..) ?_
    | with_reducible apply State.Moves.ite
    | with_reducible dsimp only
    | split

end Sys2Proof.Machine
end

