-- ==== Sys2Proof/Laws/MovesPorts.lean ====
section
/-! SUPPORT. What the operations of fuses, recorder, DMA, dictionary and ports move: one lemma for each. -/

namespace Sys2Proof.Machine

theorem State.moves_tuneCheck (s : State) (b : List Byte) :
    s.Moves [.tune, .recd, .regs] (State.tuneCheck s b) := by
  unfold State.tuneCheck
  repeat' first
    | with_reducible exact State.Moves.refl _ _
    | exact Eq.refl true
    | with_reducible apply State.Moves.ite
    | with_reducible apply State.Moves.step ?_ (State.moves_fire ..) ?_
    | with_reducible apply State.Moves.overAll (fun _ _ => ?_)
    | with_reducible apply State.Moves.ite
    | with_reducible dsimp only
    | with_reducible apply State.Moves.put_tune

theorem State.moves_loadPickups (s : State) (b : List Byte) (r : Nat) :
    s.Moves [.regions] (State.loadPickups s b r) := by
  unfold State.loadPickups
  repeat' first
    | with_reducible exact State.Moves.refl _ _
    | exact Eq.refl true
    | with_reducible apply State.Moves.step ?_ (State.moves_modRegion ..) ?_
    | with_reducible dsimp only

theorem State.moves_loadImage (s : State) (b : List Byte) :
    s.Moves [.blk, .regions, .hints, .therm, .convs, .cg, .dict, .regs] (State.loadImage s b) := by
  unfold State.loadImage
  extract_lets a c d order e
  have ha : s.Moves [.blk, .regions, .hints, .therm, .convs, .cg, .dict, .regs] a :=
    .overAll (fun _ _ => .step (.step (.refl _ _) (State.moves_loadPickups ..) rfl) (State.moves_modDiode ..) rfl)
      (.refl _ _)
  clear_value a
  have hc : s.Moves [.blk, .regions, .hints, .therm, .convs, .cg, .dict, .regs] c :=
    .overAll (fun _ _ => (State.moves_modFront ..).mono rfl) ha
  clear_value c
  have hd : s.Moves [.blk, .regions, .hints, .therm, .convs, .cg, .dict, .regs] d :=
    .overAll (fun _ _ => (State.moves_modConv ..).mono rfl) hc
  clear_value d
  have he : s.Moves [.blk, .regions, .hints, .therm, .convs, .cg, .dict, .regs] e := by
    refine .step (.step hd (State.moves_modBlk _ _ (by exact fun _ => rfl)) rfl) (State.moves_set ..) rfl
  clear_value e
  generalize slice b 0x1B00 32 = key, imgU16 b (0x662 + 4 * 70) = ref, imgU16 b 4 = maker, e.hints.loadStatic b = hs,
    clampI 880 1000 (signedAt b 6 2) = sd, b.getD 3 0 % 16 = inst
  generalize maker % 32768 = mk, min 4095 ref = rf
  refine State.Moves.put (t := e) he ?_ ?_ ?_
  · rfl
  · exact (fun p hp => by cases p <;> first | exact absurd (by decide) hp | rfl)
  · exact .of (Eq.refl e.sizes) (Eq.refl e.cfg) (Eq.refl (e.now, e.regs, e.dict.staged)) (Eq.refl e.rails)

theorem State.moves_overflow (s : State) :
    s.Moves [.recd] (State.overflow s) := by
  unfold State.overflow
  repeat' first
    | with_reducible exact State.Moves.refl _ _
    | exact Eq.refl true
    | with_reducible dsimp only
    | with_reducible apply State.Moves.put_recd

theorem State.moves_storeFault (s : State) (x : LogRec) :
    s.Moves [.dma, .recd, .regs] (State.storeFault s x) := by
  unfold State.storeFault
  repeat' first
    | with_reducible exact State.Moves.refl _ _
    | exact Eq.refl true
    | with_reducible apply State.Moves.ite
    | with_reducible apply State.Moves.step ?_ (State.moves_raiseReq ..) ?_
    | with_reducible apply State.Moves.step ?_ (State.moves_stUpdate ..) ?_
    | with_reducible apply State.Moves.ite
    | with_reducible dsimp only
    | with_reducible apply State.Moves.put_recd

theorem State.moves_enterFault (s : State) (x : LogRec) (skip : Bool) :
    s.Moves [.dma, .recd, .regs] (State.enterFault s x skip) := by
  unfold State.enterFault
  repeat' first
    | with_reducible exact State.Moves.refl _ _
    | exact Eq.refl true
    | with_reducible apply State.Moves.ite
    | with_reducible apply State.Moves.step ?_ (State.moves_overflow ..) ?_
    | with_reducible apply State.Moves.step ?_ (State.moves_storeFault ..) ?_
    | with_reducible apply State.Moves.ite
    | with_reducible dsimp only

theorem State.moves_holdFault (s : State) (x : LogRec) (skip : Bool) :
    s.Moves [.recd] (State.holdFault s x skip) := by
  unfold State.holdFault
  repeat' first
    | with_reducible exact State.Moves.refl _ _
    | exact Eq.refl true
    | with_reducible apply State.Moves.ite
    | with_reducible apply State.Moves.ite
    | with_reducible dsimp only
    | with_reducible apply State.Moves.put_recd

theorem State.moves_takeFault (s : State) (x : LogRec) (skip : Bool) :
    s.Moves [.dma, .recd, .regs] (State.takeFault s x skip) := by
  unfold State.takeFault
  repeat' first
    | with_reducible exact State.Moves.refl _ _
    | exact Eq.refl true
    | with_reducible apply State.Moves.ite
    | with_reducible apply State.Moves.step ?_ (State.moves_holdFault ..) ?_
    | with_reducible apply State.Moves.step ?_ (State.moves_enterFault ..) ?_
    | with_reducible apply State.Moves.ite
    | with_reducible dsimp only
    | with_reducible apply State.Moves.put_recd

theorem State.moves_takeTrace (s : State) (x : LogRec) :
    s.Moves [.dma, .recd] (State.takeTrace s x) := by
  unfold State.takeTrace
  repeat' first
    | with_reducible exact State.Moves.refl _ _
    | exact Eq.refl true
    | with_reducible apply State.Moves.step ?_ (State.moves_raiseReq ..) ?_
    | with_reducible dsimp only
    | with_reducible apply State.Moves.put_recd

theorem State.moves_formRecord (s : State) (t : Trig) :
    s.Moves [.dma, .recd, .regs] (State.formRecord s t) := by
  unfold State.formRecord
  repeat' first
    | with_reducible exact State.Moves.refl _ _
    | exact Eq.refl true
    | with_reducible apply State.Moves.ite
    | with_reducible apply State.Moves.step ?_ (State.moves_takeFault ..) ?_
    | with_reducible apply State.Moves.step ?_ (State.moves_takeTrace ..) ?_
    | with_reducible apply State.Moves.ite
    | with_reducible dsimp only

theorem State.moves_recordFormed (s : State) :
    s.Moves [.dma, .recd, .regs] (State.recordFormed s) := by
  unfold State.recordFormed
  repeat' first
    | with_reducible exact State.Moves.refl _ _
    | exact Eq.refl true
    | with_reducible apply State.Moves.step ?_ (State.moves_formRecord ..) ?_
    | with_reducible dsimp only
    | split
    | with_reducible apply State.Moves.put_recd

theorem State.moves_flushHold (s : State) (skip : Bool) (l : List LogRec) :
    s.Moves [.dma, .recd, .regs] (State.flushHold s skip l).1 := by
  induction l generalizing s skip with
  | nil => exact .refl _ _
  | cons x l ih =>
    unfold State.flushHold
    exact .step (.step (.refl _ _) (State.moves_enterFault ..) rfl) (ih _ _) rfl

theorem State.moves_endFreeze (s : State) :
    s.Moves [.dma, .recd, .regs] (State.endFreeze s) := by
  unfold State.endFreeze
  repeat' first
    | with_reducible exact State.Moves.refl _ _
    | exact Eq.refl true
    | with_reducible apply State.Moves.ite
    | with_reducible apply State.Moves.step ?_ (State.moves_flushHold ..) ?_
    | with_reducible apply State.Moves.ite
    | with_reducible dsimp only
    | split
    | with_reducible apply State.Moves.put_recd

theorem State.moves_setFreeze (s : State) (v : Nat) :
    s.Moves [.dma, .recd, .regs] (State.setFreeze s v) := by
  unfold State.setFreeze
  repeat' first
    | with_reducible exact State.Moves.refl _ _
    | exact Eq.refl true
    | with_reducible apply State.Moves.ite
    | with_reducible apply State.Moves.step ?_ (State.moves_endFreeze ..) ?_
    | with_reducible apply State.Moves.ite
    | with_reducible dsimp only
    | with_reducible apply State.Moves.put_recd

theorem State.moves_clearFault (s : State) (sess : Nat) (path : Nat) :
    s.Moves [.dma, .recd, .regs] (State.clearFault s sess path).2 := by
  unfold State.clearFault
  repeat' first
    | with_reducible exact State.Moves.refl _ _
    | exact Eq.refl true
    | with_reducible apply State.Moves.ite
    | with_reducible apply State.Moves.ite_snd
    | with_reducible apply State.Moves.step ?_ (State.moves_formRecord ..) ?_
    | with_reducible apply State.Moves.step ?_ (State.moves_count ..) ?_
    | with_reducible apply State.Moves.ite
    | with_reducible dsimp only
    | with_reducible apply State.Moves.put_recd

theorem State.moves_clearTrace (s : State) (sess : Nat) (path : Nat) :
    s.Moves [.dma, .recd, .regs] (State.clearTrace s sess path).2 := by
  unfold State.clearTrace
  repeat' first
    | with_reducible exact State.Moves.refl _ _
    | exact Eq.refl true
    | with_reducible apply State.Moves.ite
    | with_reducible apply State.Moves.ite_snd
    | with_reducible apply State.Moves.step ?_ (State.moves_formRecord ..) ?_
    | with_reducible apply State.Moves.step ?_ (State.moves_count ..) ?_
    | with_reducible apply State.Moves.ite
    | with_reducible dsimp only
    | with_reducible apply State.Moves.put_recd

theorem State.moves_installSnaps (s : State) (t : Nat) (v : Nat) :
    s.Moves [.recd, .regs] (State.installSnaps s t v) := by
  unfold State.installSnaps
  repeat' first
    | with_reducible exact State.Moves.refl _ _
    | exact Eq.refl true
    | with_reducible apply State.Moves.step ?_ (State.moves_set ..) ?_
    | with_reducible dsimp only
    | with_reducible apply State.Moves.put_recd

theorem State.moves_restartQueueMax (s : State) :
    s.Moves [.recd] (State.restartQueueMax s) := by
  unfold State.restartQueueMax
  repeat' first
    | with_reducible exact State.Moves.refl _ _
    | exact Eq.refl true
    | with_reducible dsimp only
    | with_reducible apply State.Moves.put_recd

theorem State.moves_beginSource (s : State) (ch : Nat) (o : Nat) :
    s.Moves [.telem, .cg] (State.beginSource s ch o) := by
  unfold State.beginSource
  repeat' first
    | with_reducible exact State.Moves.refl _ _
    | exact Eq.refl true
    | with_reducible apply State.Moves.ite
    | with_reducible apply State.Moves.ite
    | with_reducible dsimp only
    | with_reducible apply State.Moves.put_cg
    | with_reducible apply State.Moves.put_telem
    | refine .put ?_ rfl (fun p hp => by cases p <;> first | exact absurd (by decide) hp | rfl)
        (.of (by first | rfl | simp [State.sizes] | (simp only [State.sizes, List.length_map, List.length_modify]; rfl)) rfl rfl rfl)

theorem State.moves_endSource (s : State) (ch : Nat) (o : Nat) :
    s.Moves [.telem, .learn, .cg, .dma] (State.endSource s ch o) := by
  unfold State.endSource
  repeat' first
    | with_reducible exact State.Moves.refl _ _
    | exact Eq.refl true
    | with_reducible apply State.Moves.ite
    | with_reducible apply State.Moves.step ?_ (State.moves_offer ..) ?_
    | with_reducible apply State.Moves.step ?_ (State.moves_modShard ..) ?_
    | with_reducible apply State.Moves.ite
    | with_reducible dsimp only
    | split
    | with_reducible apply State.Moves.put_cg
    | with_reducible apply State.Moves.put_telem
    | refine .put ?_ rfl (fun p hp => by cases p <;> first | exact absurd (by decide) hp | rfl)
        (.of (by first | rfl | simp [State.sizes] | (simp only [State.sizes, List.length_map, List.length_modify]; rfl)) rfl rfl rfl)

theorem State.moves_closeSession (s : State) (k : Nat) :
    s.Moves [.dict] (State.closeSession s k) := by
  unfold State.closeSession
  repeat' first
    | with_reducible exact State.Moves.refl _ _
    | exact Eq.refl true
    | with_reducible apply State.Moves.step ?_ (State.moves_modSession ..) ?_
    | with_reducible dsimp only

theorem State.moves_openSlot (s : State) (k : Nat) :
    s.Moves [.dict] (State.openSlot s k) := by
  unfold State.openSlot
  repeat' first
    | with_reducible exact State.Moves.refl _ _
    | exact Eq.refl true
    | with_reducible apply State.Moves.step ?_ (State.moves_modSession ..) ?_
    | with_reducible dsimp only

theorem State.moves_clearTxns (s : State) (ch : Nat) :
    s.Moves [.dma] (State.clearTxns s ch) := by
  unfold State.clearTxns
  repeat' first
    | with_reducible exact State.Moves.refl _ _
    | exact Eq.refl true
    | with_reducible dsimp only
    | with_reducible apply State.Moves.put_dma

theorem State.moves_channelEnds (s : State) (ch : Nat) :
    s.Moves [.cg, .dict] (State.channelEnds s ch) := by
  unfold State.channelEnds
  repeat' first
    | with_reducible exact State.Moves.refl _ _
    | exact Eq.refl true
    | with_reducible apply State.Moves.ite
    | with_reducible apply State.Moves.step ?_ (State.moves_closeSession ..) ?_
    | with_reducible apply State.Moves.ite
    | with_reducible dsimp only
    | with_reducible apply State.Moves.put_cg

theorem State.moves_dmaHalted (s : State) (ch : Nat) (code : Nat) :
    s.Moves [.cg, .dict, .dma, .recd, .regs] (State.dmaHalted s ch code) := by
  unfold State.dmaHalted
  repeat' first
    | with_reducible exact State.Moves.refl _ _
    | exact Eq.refl true
    | with_reducible apply State.Moves.step ?_ (State.moves_modDmaCh ..) ?_
    | with_reducible apply State.Moves.step ?_ (State.moves_clearTxns ..) ?_
    | with_reducible apply State.Moves.step ?_ (State.moves_channelEnds ..) ?_
    | with_reducible apply State.Moves.step ?_ (State.moves_fire ..) ?_
    | with_reducible dsimp only

theorem State.moves_haltNow (s : State) (ch : Nat) (code : Nat) :
    s.Moves [.cg, .dict, .dma, .recd, .regs] (State.haltNow s ch code) := by
  unfold State.haltNow
  repeat' first
    | with_reducible exact State.Moves.refl _ _
    | exact Eq.refl true
    | with_reducible apply State.Moves.step ?_ (State.moves_dmaHalted ..) ?_
    | with_reducible apply State.Moves.step ?_ (State.moves_modDmaCh ..) ?_
    | with_reducible dsimp only

theorem State.moves_dataFault (s : State) (ch : Nat) (code : Nat) :
    s.Moves [.dma] (State.dataFault s ch code) := by
  unfold State.dataFault
  repeat' first
    | with_reducible exact State.Moves.refl _ _
    | exact Eq.refl true
    | with_reducible apply State.Moves.ite
    | with_reducible apply State.Moves.step ?_ (State.moves_modDmaCh ..) ?_
    | with_reducible apply State.Moves.ite
    | with_reducible dsimp only
    | with_reducible apply State.Moves.put_dma

theorem State.moves_fetchDesc (s : State) (ch : Nat) (addr : Nat) :
    s.Moves [.dma, .regs] (State.fetchDesc s ch addr) := by
  unfold State.fetchDesc
  repeat' first
    | with_reducible exact State.Moves.refl _ _
    | exact Eq.refl true
    | with_reducible apply State.Moves.step ?_ (State.moves_memIssue ..) ?_
    | with_reducible apply State.Moves.step ?_ (State.moves_modDmaCh ..) ?_
    | with_reducible dsimp only

theorem State.moves_writeStatus (s : State) (ch : Nat) (code : Nat) :
    s.Moves [.dma, .regs] (State.writeStatus s ch code) := by
  unfold State.writeStatus
  repeat' first
    | with_reducible exact State.Moves.refl _ _
    | exact Eq.refl true
    | with_reducible apply State.Moves.step ?_ (State.moves_modDmaCh ..) ?_
    | with_reducible apply State.Moves.step ?_ (State.moves_clearTxns ..) ?_
    | with_reducible apply State.Moves.step ?_ (State.moves_memIssue ..) ?_
    | with_reducible dsimp only

theorem State.moves_writeOwn (s : State) (ch : Nat) :
    s.Moves [.dma, .regs] (State.writeOwn s ch) := by
  unfold State.writeOwn
  repeat' first
    | with_reducible exact State.Moves.refl _ _
    | exact Eq.refl true
    | with_reducible apply State.Moves.step ?_ (State.moves_memIssue ..) ?_
    | with_reducible dsimp only

theorem State.moves_dmaIdle (s : State) (ch : Nat) :
    s.Moves [.cg, .dict, .dma] (State.dmaIdle s ch) := by
  unfold State.dmaIdle
  repeat' first
    | with_reducible exact State.Moves.refl _ _
    | exact Eq.refl true
    | with_reducible apply State.Moves.step ?_ (State.moves_channelEnds ..) ?_
    | with_reducible apply State.Moves.step ?_ (State.moves_modDmaCh ..) ?_
    | with_reducible dsimp only

theorem State.moves_dmaAborted (s : State) (ch : Nat) :
    s.Moves [.cg, .dict, .dma] (State.dmaAborted s ch) := by
  unfold State.dmaAborted
  repeat' first
    | with_reducible exact State.Moves.refl _ _
    | exact Eq.refl true
    | with_reducible apply State.Moves.step ?_ (State.moves_dmaIdle ..) ?_
    | with_reducible apply State.Moves.step ?_ (State.moves_modDmaCh ..) ?_
    | with_reducible dsimp only

theorem State.moves_descDone (s : State) (ch : Nat) :
    s.Moves [.cg, .dict, .dma, .recd, .regs] (State.descDone s ch) := by
  unfold State.descDone
  repeat' first
    | with_reducible exact State.Moves.refl _ _
    | exact Eq.refl true
    | with_reducible apply State.Moves.ite
    | with_reducible apply State.Moves.step ?_ (State.moves_modDmaCh ..) ?_
    | with_reducible apply State.Moves.step ?_ (State.moves_count ..) ?_
    | with_reducible apply State.Moves.step ?_ (State.moves_dmaAborted ..) ?_
    | with_reducible apply State.Moves.step ?_ (State.moves_dmaHalted ..) ?_
    | with_reducible apply State.Moves.step ?_ (State.moves_dmaIdle ..) ?_
    | with_reducible apply State.Moves.step ?_ (State.moves_fetchDesc ..) ?_
    | with_reducible apply State.Moves.ite
    | with_reducible dsimp only

theorem State.moves_descComplete (s : State) (ch : Nat) :
    s.Moves [.dma, .regs] (State.descComplete s ch) := by
  unfold State.descComplete
  repeat' first
    | with_reducible exact State.Moves.refl _ _
    | exact Eq.refl true
    | with_reducible apply State.Moves.ite
    | with_reducible apply State.Moves.step ?_ (State.moves_writeStatus ..) ?_
    | with_reducible apply State.Moves.ite
    | with_reducible dsimp only

theorem State.moves_dmaStart (s : State) (ch : Nat) :
    s.Moves [.dict, .dma, .regs] (State.dmaStart s ch) := by
  unfold State.dmaStart
  repeat' first
    | with_reducible exact State.Moves.refl _ _
    | exact Eq.refl true
    | with_reducible apply State.Moves.ite
    | with_reducible apply State.Moves.step ?_ (State.moves_modDmaCh ..) ?_
    | with_reducible apply State.Moves.step ?_ (State.moves_openSlot ..) ?_
    | with_reducible apply State.Moves.step ?_ (State.moves_fetchDesc ..) ?_
    | with_reducible apply State.Moves.ite
    | with_reducible dsimp only

theorem State.moves_dmaAbort (s : State) (ch : Nat) :
    s.Moves [.cg, .dict, .dma] (State.dmaAbort s ch) := by
  unfold State.dmaAbort
  repeat' first
    | with_reducible exact State.Moves.refl _ _
    | exact Eq.refl true
    | with_reducible apply State.Moves.step ?_ (State.moves_dmaAborted ..) ?_
    | with_reducible apply State.Moves.step ?_ (State.moves_modDmaCh ..) ?_
    | with_reducible dsimp only
    | split

theorem State.moves_dmaKick (s : State) (ch : Nat) :
    s.Moves [.dma, .regs] (State.dmaKick s ch) := by
  unfold State.dmaKick
  repeat' first
    | with_reducible exact State.Moves.refl _ _
    | exact Eq.refl true
    | with_reducible apply State.Moves.ite
    | with_reducible apply State.Moves.step ?_ (State.moves_fetchDesc ..) ?_
    | with_reducible apply State.Moves.ite
    | with_reducible dsimp only

theorem State.moves_dmaCommand (s : State) (ch : Nat) (v : Nat) :
    s.Moves [.cg, .dict, .dma, .regs] (State.dmaCommand s ch v).2 := by
  unfold State.dmaCommand
  repeat' first
    | with_reducible exact State.Moves.refl _ _
    | exact Eq.refl true
    | with_reducible apply State.Moves.ite
    | with_reducible apply State.Moves.ite_snd
    | with_reducible apply State.Moves.step ?_ (State.moves_dmaStart ..) ?_
    | with_reducible apply State.Moves.step ?_ (State.moves_dmaAbort ..) ?_
    | with_reducible apply State.Moves.step ?_ (State.moves_dmaKick ..) ?_
    | with_reducible apply State.Moves.ite
    | with_reducible dsimp only
    | split

theorem State.moves_descBegin (s : State) (ch : Nat) :
    s.Moves [.dma] (State.descBegin s ch) := by
  unfold State.descBegin
  repeat' first
    | with_reducible exact State.Moves.refl _ _
    | exact Eq.refl true
    | with_reducible apply State.Moves.ite
    | with_reducible apply State.Moves.step ?_ (State.moves_modDmaCh ..) ?_
    | with_reducible apply State.Moves.ite
    | with_reducible dsimp only

theorem State.moves_descCheck (s : State) (ch : Nat) :
    s.Moves [.dma, .regs] (State.descCheck s ch) := by
  unfold State.descCheck
  repeat' first
    | with_reducible exact State.Moves.refl _ _
    | exact Eq.refl true
    | with_reducible apply State.Moves.ite
    | with_reducible apply State.Moves.step ?_ (State.moves_writeStatus ..) ?_
    | with_reducible apply State.Moves.step ?_ (State.moves_descBegin ..) ?_
    | with_reducible apply State.Moves.ite
    | with_reducible dsimp only

theorem State.moves_descFetched (s : State) (ch : Nat) :
    s.Moves [.cg, .dict, .dma, .regs] (State.descFetched s ch) := by
  unfold State.descFetched
  repeat' first
    | with_reducible exact State.Moves.refl _ _
    | exact Eq.refl true
    | with_reducible apply State.Moves.ite
    | with_reducible apply State.Moves.step ?_ (State.moves_modDmaCh ..) ?_
    | with_reducible apply State.Moves.step ?_ (State.moves_dmaAborted ..) ?_
    | with_reducible apply State.Moves.step ?_ (State.moves_descCheck ..) ?_
    | with_reducible apply State.Moves.ite
    | with_reducible dsimp only

theorem State.moves_startBurst (s : State) (ch : Nat) :
    s.Moves [.dma] (State.startBurst s ch) := by
  unfold State.startBurst
  repeat' first
    | with_reducible exact State.Moves.refl _ _
    | exact Eq.refl true
    | with_reducible apply State.Moves.ite
    | with_reducible apply State.Moves.step ?_ (State.moves_modDmaCh ..) ?_
    | with_reducible apply State.Moves.ite
    | with_reducible dsimp only
    | with_reducible apply State.Moves.put_dma

theorem State.moves_writeOut (s : State) (ch : Nat) (b : List Byte) :
    s.Moves [.dma, .regs] (State.writeOut s ch b) := by
  unfold State.writeOut
  repeat' first
    | with_reducible exact State.Moves.refl _ _
    | exact Eq.refl true
    | with_reducible apply State.Moves.step ?_ (State.moves_modDmaCh ..) ?_
    | with_reducible apply State.Moves.step ?_ (State.moves_memIssue ..) ?_
    | with_reducible apply State.Moves.overAll (fun _ _ => ?_)
    | with_reducible dsimp only

theorem State.moves_fillInternal (s : State) (ch : Nat) :
    s.Moves [.telem, .learn, .cg, .dma, .regs] (State.fillInternal s ch) := by
  unfold State.fillInternal
  repeat' first
    | with_reducible exact State.Moves.refl _ _
    | exact Eq.refl true
    | with_reducible apply State.Moves.ite
    | with_reducible apply State.Moves.step ?_ (State.moves_dataFault ..) ?_
    | with_reducible apply State.Moves.step ?_ (State.moves_modDmaCh ..) ?_
    | with_reducible apply State.Moves.step ?_ (State.moves_beginSource ..) ?_
    | with_reducible apply State.Moves.step ?_ (State.moves_endSource ..) ?_
    | with_reducible apply State.Moves.step ?_ (State.moves_writeOut ..) ?_
    | with_reducible apply State.Moves.ite
    | with_reducible dsimp only
    | split

theorem State.moves_fillMemory (s : State) (ch : Nat) :
    s.Moves [.dma, .regs] (State.fillMemory s ch) := by
  unfold State.fillMemory
  repeat' first
    | with_reducible exact State.Moves.refl _ _
    | exact Eq.refl true
    | with_reducible apply State.Moves.ite
    | with_reducible apply State.Moves.step ?_ (State.moves_modDmaCh ..) ?_
    | with_reducible apply State.Moves.step ?_ (State.moves_memIssue ..) ?_
    | with_reducible apply State.Moves.overAll (fun _ _ => ?_)
    | with_reducible apply State.Moves.ite
    | with_reducible dsimp only

theorem State.moves_importChunk (s : State) (ch : Nat) (b : List Byte) :
    s.Moves [.learn, .dma, .regs] (State.importChunk s ch b) := by
  unfold State.importChunk
  repeat' first
    | with_reducible exact State.Moves.refl _ _
    | exact Eq.refl true
    | with_reducible apply State.Moves.ite
    | with_reducible apply State.Moves.step ?_ (State.moves_dataFault ..) ?_
    | with_reducible apply State.Moves.step ?_ (State.moves_importBytes ..) ?_
    | with_reducible apply State.Moves.step ?_ (State.moves_modDmaCh ..) ?_
    | with_reducible apply State.Moves.step ?_ (State.moves_count ..) ?_
    | with_reducible apply State.Moves.step ?_ (State.moves_modShard ..) ?_
    | with_reducible apply State.Moves.ite
    | with_reducible dsimp only

theorem State.moves_moveOn (s : State) (ch : Nat) :
    s.Moves [.telem, .learn, .cg, .dma, .regs] (State.moveOn s ch) := by
  unfold State.moveOn
  repeat' first
    | with_reducible exact State.Moves.refl _ _
    | exact Eq.refl true
    | with_reducible apply State.Moves.ite
    | with_reducible apply State.Moves.step ?_ (State.moves_fillInternal ..) ?_
    | with_reducible apply State.Moves.step ?_ (State.moves_dataFault ..) ?_
    | with_reducible apply State.Moves.step ?_ (State.moves_fillMemory ..) ?_
    | with_reducible apply State.Moves.step ?_ (State.moves_modDmaCh ..) ?_
    | with_reducible apply State.Moves.step ?_ (State.moves_importChunk ..) ?_
    | with_reducible apply State.Moves.step ?_ (State.moves_writeOut ..) ?_
    | with_reducible apply State.Moves.ite
    | with_reducible dsimp only

theorem State.moves_waitPace (s : State) (ch : Nat) :
    s.Moves [.dma] (State.waitPace s ch) := by
  unfold State.waitPace
  repeat' first
    | with_reducible exact State.Moves.refl _ _
    | exact Eq.refl true
    | with_reducible apply State.Moves.ite
    | with_reducible apply State.Moves.step ?_ (State.moves_modDmaCh ..) ?_
    | with_reducible apply State.Moves.ite
    | with_reducible dsimp only

theorem State.moves_dmaBurst (s : State) (ch : Nat) (holdOk : Bool) :
    s.Moves [.blk, .telem, .learn, .cg, .dma, .regs] (State.dmaBurst s ch holdOk) := by
  unfold State.dmaBurst
  repeat' first
    | with_reducible exact State.Moves.refl _ _
    | exact Eq.refl true
    | with_reducible apply State.Moves.ite
    | with_reducible apply State.Moves.step ?_ (State.moves_dataFault ..) ?_
    | with_reducible apply State.Moves.step ?_ (State.moves_parityError ..) ?_
    | with_reducible apply State.Moves.step ?_ (State.moves_startBurst ..) ?_
    | with_reducible apply State.Moves.step ?_ (State.moves_waitPace ..) ?_
    | with_reducible apply State.Moves.step ?_ (State.moves_moveOn ..) ?_
    | with_reducible apply State.Moves.step ?_ (State.moves_takePort ..) ?_
    | with_reducible apply State.Moves.ite
    | with_reducible dsimp only

theorem State.moves_stFault (s : State) (code : Nat) :
    s.Moves [.cg, .dict, .dma, .recd, .regs] (State.stFault s code) := by
  unfold State.stFault
  repeat' first
    | with_reducible exact State.Moves.refl _ _
    | exact Eq.refl true
    | with_reducible apply State.Moves.step ?_ (State.moves_modTab ..) ?_
    | with_reducible apply State.Moves.step ?_ (State.moves_dmaHalted ..) ?_
    | with_reducible apply State.Moves.step ?_ (State.moves_modDmaCh ..) ?_
    | with_reducible apply State.Moves.step ?_ (State.moves_fire ..) ?_
    | with_reducible dsimp only

theorem State.moves_cachePut (s : State) (e : CacheEnt) :
    s.Moves [.dma, .regs] (State.cachePut s e) := by
  unfold State.cachePut
  repeat' first
    | with_reducible exact State.Moves.refl _ _
    | exact Eq.refl true
    | with_reducible apply State.Moves.ite
    | with_reducible apply State.Moves.step ?_ (State.moves_stWrite ..) ?_
    | with_reducible apply State.Moves.step ?_ (State.moves_modTab ..) ?_
    | with_reducible apply State.Moves.ite
    | with_reducible dsimp only
    | split

theorem State.moves_hostEntry (s : State) (e : CacheEnt) (fields : List Byte) :
    s.Moves [.strings, .dma, .regs] (State.hostEntry s e fields) := by
  unfold State.hostEntry
  repeat' first
    | with_reducible exact State.Moves.refl _ _
    | exact Eq.refl true
    | with_reducible apply State.Moves.ite
    | with_reducible apply State.Moves.step ?_ (State.moves_stWrite ..) ?_
    | with_reducible apply State.Moves.step ?_ (State.moves_cachePut ..) ?_
    | with_reducible apply State.Moves.step ?_ (State.moves_modStr ..) ?_
    | with_reducible apply State.Moves.ite
    | with_reducible dsimp only

theorem State.moves_stDrain (s : State) (l : List (Nat × Nat × Nat)) : s.Moves [.dma, .regs] (State.stDrain s l) := by
  induction l generalizing s with
  | nil => exact (State.moves_modTab ..).mono rfl
  | cons w l ih =>
    obtain ⟨i, f, v⟩ := w
    unfold State.stDrain
    refine .ite (ih _) ?_
    split
    · exact .step (.step (.refl _ _) (State.moves_modTab ..) rfl) (ih _) rfl
    · exact .step (.step (.refl _ _) (State.moves_modTab ..) rfl) (State.moves_stFetch ..) rfl

theorem State.moves_hostWaiting (s : State) (i : Nat) (b : List Byte) :
    s.Moves [.strings, .dma, .regs] (State.hostWaiting s i b) := by
  unfold State.hostWaiting
  repeat' first
    | with_reducible exact State.Moves.refl _ _
    | exact Eq.refl true
    | with_reducible apply State.Moves.ite
    | with_reducible apply State.Moves.step ?_ (State.moves_modTab ..) ?_
    | with_reducible apply State.Moves.step ?_ (State.moves_hostEntry ..) ?_
    | with_reducible apply State.Moves.overAll (fun _ _ => ?_)
    | with_reducible apply State.Moves.ite
    | with_reducible dsimp only

theorem State.moves_sweepOn (s : State) (i : Nat) :
    s.Moves [.dma, .regs] (State.sweepOn s i) := by
  unfold State.sweepOn
  repeat' first
    | with_reducible exact State.Moves.refl _ _
    | exact Eq.refl true
    | with_reducible apply State.Moves.ite
    | with_reducible apply State.Moves.step ?_ (State.moves_modTab ..) ?_
    | with_reducible apply State.Moves.step ?_ (State.moves_stFetch ..) ?_
    | with_reducible apply State.Moves.ite
    | with_reducible dsimp only
    | split

theorem State.moves_entryTaken (s : State) (i : Nat) (b : List Byte) :
    s.Moves [.strings, .dma, .recd, .regs] (State.entryTaken s i b) := by
  unfold State.entryTaken
  repeat' first
    | with_reducible exact State.Moves.refl _ _
    | exact Eq.refl true
    | with_reducible apply State.Moves.ite
    | with_reducible apply State.Moves.step ?_ (State.moves_modStr ..) ?_
    | with_reducible apply State.Moves.step ?_ (State.moves_fire ..) ?_
    | with_reducible apply State.Moves.step ?_ (State.moves_countSat ..) ?_
    | with_reducible apply State.Moves.step ?_ (State.moves_cachePut ..) ?_
    | with_reducible apply State.Moves.ite
    | with_reducible dsimp only

theorem State.moves_entryFetched (s : State) (i : Nat) (b : List Byte) :
    s.Moves [.strings, .dma, .recd, .regs] (State.entryFetched s i b) := by
  unfold State.entryFetched
  repeat' first
    | with_reducible exact State.Moves.refl _ _
    | exact Eq.refl true
    | with_reducible apply State.Moves.step ?_ (State.moves_hostWaiting ..) ?_
    | with_reducible apply State.Moves.step ?_ (State.moves_entryTaken ..) ?_
    | with_reducible apply State.Moves.step ?_ (State.moves_stDrain ..) ?_
    | with_reducible apply State.Moves.step ?_ (State.moves_sweepOn ..) ?_
    | with_reducible apply State.Moves.step ?_ (State.moves_stFlushEnd ..) ?_
    | with_reducible apply State.Moves.step ?_ (State.moves_stFlushOn ..) ?_
    | with_reducible dsimp only
    | with_reducible apply State.Moves.put_dma

theorem State.moves_setTable (s : State) (v : Nat) :
    s.Moves [.dma, .regs] (State.setTable s v) := by
  unfold State.setTable
  repeat' first
    | with_reducible exact State.Moves.refl _ _
    | exact Eq.refl true
    | with_reducible apply State.Moves.ite
    | with_reducible apply State.Moves.step ?_ (State.moves_modTab ..) ?_
    | with_reducible apply State.Moves.step ?_ (State.moves_set ..) ?_
    | with_reducible apply State.Moves.step ?_ (State.moves_stFetch ..) ?_
    | with_reducible apply State.Moves.step ?_ (State.moves_modDmaCh ..) ?_
    | with_reducible apply State.Moves.step ?_ (State.moves_stWrite ..) ?_
    | with_reducible apply State.Moves.overAll (fun _ _ => ?_)
    | with_reducible apply State.Moves.ite
    | with_reducible dsimp only

theorem State.moves_correctionParity (s : State) (i : Nat) :
    s.Moves [.blk, .strings, .dma, .regs] (State.correctionParity s i) := by
  unfold State.correctionParity
  repeat' first
    | with_reducible exact State.Moves.refl _ _
    | exact Eq.refl true
    | with_reducible apply State.Moves.step ?_ (State.moves_parityError ..) ?_
    | with_reducible apply State.Moves.step ?_ (State.moves_modStr ..) ?_
    | with_reducible apply State.Moves.step ?_ (State.moves_stFetch ..) ?_
    | with_reducible dsimp only
    | split

theorem State.moves_flushTable (s : State) :
    s.Moves [.dma, .regs] (State.flushTable s) := by
  unfold State.flushTable
  repeat' first
    | with_reducible exact State.Moves.refl _ _
    | exact Eq.refl true
    | with_reducible apply State.Moves.step ?_ (State.moves_stStartFlush ..) ?_
    | with_reducible dsimp only

theorem State.moves_hostFields (s : State) (fields : List Byte) :
    s.Moves [.strings, .dma, .regs] (State.hostFields s fields).2 := by
  unfold State.hostFields
  repeat' first
    | with_reducible exact State.Moves.refl _ _
    | exact Eq.refl true
    | with_reducible apply State.Moves.ite
    | with_reducible apply State.Moves.ite_snd
    | with_reducible apply State.Moves.step ?_ (State.moves_hostEntry ..) ?_
    | with_reducible apply State.Moves.step ?_ (State.moves_count ..) ?_
    | with_reducible apply State.Moves.step ?_ (State.moves_stFetch ..) ?_
    | with_reducible apply State.Moves.step ?_ (State.moves_modTab ..) ?_
    | with_reducible apply State.Moves.ite
    | with_reducible dsimp only
    | split

theorem State.moves_modTxn (s : State) (id : Nat) (f : Txn → Txn) :
    s.Moves [.dma] (State.modTxn s id f) := by
  unfold State.modTxn
  repeat' first
    | with_reducible exact State.Moves.refl _ _
    | exact Eq.refl true
    | with_reducible apply State.Moves.ite
    | with_reducible apply State.Moves.ite
    | with_reducible dsimp only
    | with_reducible apply State.Moves.put_dma

theorem State.moves_dropTxn (s : State) (id : Nat) :
    s.Moves [.dma] (State.dropTxn s id) := by
  unfold State.dropTxn
  repeat' first
    | with_reducible exact State.Moves.refl _ _
    | exact Eq.refl true
    | with_reducible dsimp only
    | with_reducible apply State.Moves.put_dma

theorem State.moves_confirmWrites (s : State) (ch : Nat) :
    s.Moves [.dma, .regs] (State.confirmWrites s ch) := by
  unfold State.confirmWrites
  repeat' first
    | with_reducible exact State.Moves.refl _ _
    | exact Eq.refl true
    | with_reducible apply State.Moves.step ?_ (State.moves_count ..) ?_
    | with_reducible apply State.Moves.step ?_ (State.moves_modDmaCh ..) ?_
    | with_reducible dsimp only
    | with_reducible apply State.Moves.put_dma

theorem State.moves_collectReads (s : State) (ch : Nat) :
    s.Moves [.dma] (State.collectReads s ch) := by
  unfold State.collectReads
  repeat' first
    | with_reducible exact State.Moves.refl _ _
    | exact Eq.refl true
    | with_reducible apply State.Moves.ite
    | with_reducible apply State.Moves.step ?_ (State.moves_modDmaCh ..) ?_
    | with_reducible apply State.Moves.ite
    | with_reducible dsimp only
    | with_reducible apply State.Moves.put_dma

theorem State.moves_txnFault (s : State) (t : Txn) (parity : Bool) :
    s.Moves [.cg, .dict, .dma, .recd, .regs] (State.txnFault s t parity) := by
  unfold State.txnFault
  repeat' first
    | with_reducible exact State.Moves.refl _ _
    | exact Eq.refl true
    | with_reducible apply State.Moves.ite
    | with_reducible apply State.Moves.step ?_ (State.moves_haltNow ..) ?_
    | with_reducible apply State.Moves.step ?_ (State.moves_dropTxn ..) ?_
    | with_reducible apply State.Moves.step ?_ (State.moves_dataFault ..) ?_
    | with_reducible apply State.Moves.step ?_ (State.moves_modTxn ..) ?_
    | with_reducible apply State.Moves.step ?_ (State.moves_stFault ..) ?_
    | with_reducible apply State.Moves.ite
    | with_reducible dsimp only
    | split

theorem State.moves_writeGood (s : State) (t : Txn) :
    s.Moves [.cg, .dict, .dma, .recd, .regs] (State.writeGood s t) := by
  unfold State.writeGood
  repeat' first
    | with_reducible exact State.Moves.refl _ _
    | exact Eq.refl true
    | with_reducible apply State.Moves.step ?_ (State.moves_confirmWrites ..) ?_
    | with_reducible apply State.Moves.step ?_ (State.moves_modTxn ..) ?_
    | with_reducible apply State.Moves.step ?_ (State.moves_count ..) ?_
    | with_reducible apply State.Moves.step ?_ (State.moves_modDmaCh ..) ?_
    | with_reducible apply State.Moves.step ?_ (State.moves_dropTxn ..) ?_
    | with_reducible apply State.Moves.step ?_ (State.moves_writeOwn ..) ?_
    | with_reducible apply State.Moves.step ?_ (State.moves_descDone ..) ?_
    | with_reducible apply State.Moves.step ?_ (State.moves_stFlushEnd ..) ?_
    | with_reducible dsimp only
    | split

theorem State.moves_writeResponse (s : State) (id : Nat) (err : Bool) :
    s.Moves [.cg, .dict, .dma, .recd, .regs] (State.writeResponse s id err) := by
  unfold State.writeResponse
  repeat' first
    | with_reducible exact State.Moves.refl _ _
    | exact Eq.refl true
    | with_reducible apply State.Moves.ite
    | with_reducible apply State.Moves.step ?_ (State.moves_issueWaiting ..) ?_
    | with_reducible apply State.Moves.step ?_ (State.moves_txnFault ..) ?_
    | with_reducible apply State.Moves.step ?_ (State.moves_writeGood ..) ?_
    | with_reducible apply State.Moves.step ?_ (State.moves_breach ..) ?_
    | with_reducible apply State.Moves.ite
    | with_reducible dsimp only
    | split

theorem State.moves_readGood (s : State) (t : Txn) :
    s.Moves [.dma] (State.readGood s t) := by
  unfold State.readGood
  repeat' first
    | with_reducible exact State.Moves.refl _ _
    | exact Eq.refl true
    | with_reducible apply State.Moves.step ?_ (State.moves_modDmaCh ..) ?_
    | with_reducible apply State.Moves.step ?_ (State.moves_dropTxn ..) ?_
    | with_reducible apply State.Moves.step ?_ (State.moves_collectReads ..) ?_
    | with_reducible apply State.Moves.step ?_ (State.moves_modTxn ..) ?_
    | with_reducible dsimp only
    | split

theorem State.moves_readBeat (s : State) (id : Nat) (data : List Byte) (parityOk : Bool) (last : Bool) (err : Bool) :
    s.Moves [.blk, .cg, .dict, .dma, .recd, .regs] (State.readBeat s id data parityOk last err) := by
  unfold State.readBeat
  repeat' first
    | with_reducible exact State.Moves.refl _ _
    | exact Eq.refl true
    | with_reducible apply State.Moves.ite
    | with_reducible apply State.Moves.step ?_ (State.moves_breach ..) ?_
    | with_reducible apply State.Moves.step ?_ (State.moves_parityError ..) ?_
    | with_reducible apply State.Moves.step ?_ (State.moves_modTxn ..) ?_
    | with_reducible apply State.Moves.step ?_ (State.moves_issueWaiting ..) ?_
    | with_reducible apply State.Moves.step ?_ (State.moves_txnFault ..) ?_
    | with_reducible apply State.Moves.step ?_ (State.moves_readGood ..) ?_
    | with_reducible apply State.Moves.ite
    | with_reducible dsimp only
    | split

theorem State.moves_noteLines (s : State) :
    s.Moves [.dict] (State.noteLines s) := by
  unfold State.noteLines
  repeat' first
    | with_reducible exact State.Moves.refl _ _
    | exact Eq.refl true
    | with_reducible dsimp only
    | with_reducible apply State.Moves.put_dict

theorem State.moves_modI3c (s : State) (f : I3c → I3c) :
    s.Moves [.dict] (State.modI3c s f) := by
  unfold State.modI3c
  repeat' first
    | with_reducible exact State.Moves.refl _ _
    | exact Eq.refl true
    | with_reducible dsimp only
    | with_reducible apply State.Moves.put_dict

theorem State.moves_modMbx (s : State) (m : Nat) (f : Mailbox → Mailbox) :
    s.Moves [.dict] (State.modMbx s m f) := by
  unfold State.modMbx
  repeat' first
    | with_reducible exact State.Moves.refl _ _
    | exact Eq.refl true
    | with_reducible dsimp only
    | with_reducible apply State.Moves.put_dict

theorem State.moves_deliver (s : State) (p : Path) (x : Resp) :
    s.Moves [.dict] (State.deliver s p x) := by
  unfold State.deliver
  repeat' first
    | with_reducible exact State.Moves.refl _ _
    | exact Eq.refl true
    | with_reducible apply State.Moves.ite
    | with_reducible apply State.Moves.step ?_ (State.moves_modI3c ..) ?_
    | with_reducible apply State.Moves.step ?_ (State.moves_modMbx ..) ?_
    | with_reducible apply State.Moves.ite
    | with_reducible dsimp only
    | split
    | with_reducible apply State.Moves.put_dict

theorem State.moves_serveOpen (s : State) (p : Path) (q : Req) :
    s.Moves [.dict, .regs] (State.serveOpen s p q).2 := by
  unfold State.serveOpen
  repeat' first
    | with_reducible exact State.Moves.refl _ _
    | exact Eq.refl true
    | with_reducible apply State.Moves.ite
    | with_reducible apply State.Moves.ite_snd
    | with_reducible apply State.Moves.step ?_ (State.moves_count ..) ?_
    | with_reducible apply State.Moves.step ?_ (State.moves_openSlot ..) ?_
    | with_reducible apply State.Moves.ite
    | with_reducible dsimp only
    | split

theorem State.moves_serveClose (s : State) (p : Path) (q : Req) :
    s.Moves [.dict] (State.serveClose s p q).2 := by
  unfold State.serveClose
  repeat' first
    | with_reducible exact State.Moves.refl _ _
    | exact Eq.refl true
    | with_reducible apply State.Moves.step ?_ (State.moves_closeSession ..) ?_
    | with_reducible dsimp only
    | split

theorem State.moves_newChallenge (s : State) (k : Nat) :
    s.Moves [.dict] (State.newChallenge s k).2 := by
  unfold State.newChallenge
  repeat' first
    | with_reducible exact State.Moves.refl _ _
    | exact Eq.refl true
    | with_reducible apply State.Moves.step ?_ (State.moves_modSession ..) ?_
    | with_reducible dsimp only
    | with_reducible apply State.Moves.put_dict

theorem State.moves_keeperFails (s : State) (k : Nat) :
    s.Moves [.dict, .recd, .regs] (State.keeperFails s k) := by
  unfold State.keeperFails
  repeat' first
    | with_reducible exact State.Moves.refl _ _
    | exact Eq.refl true
    | with_reducible apply State.Moves.ite
    | with_reducible apply State.Moves.step ?_ (State.moves_fire ..) ?_
    | with_reducible apply State.Moves.step ?_ (State.moves_count ..) ?_
    | with_reducible apply State.Moves.ite
    | with_reducible dsimp only
    | with_reducible apply State.Moves.put_dict

theorem State.moves_keeperResponse (s : State) (k : Nat) (resp : List Byte) :
    s.Moves [.dict, .recd, .regs] (State.keeperResponse s k resp).2 := by
  unfold State.keeperResponse
  repeat' first
    | with_reducible exact State.Moves.refl _ _
    | exact Eq.refl true
    | with_reducible apply State.Moves.ite
    | with_reducible apply State.Moves.ite_snd
    | with_reducible apply State.Moves.step ?_ (State.moves_modSession ..) ?_
    | with_reducible apply State.Moves.step ?_ (State.moves_fire ..) ?_
    | with_reducible apply State.Moves.step ?_ (State.moves_count ..) ?_
    | with_reducible apply State.Moves.step ?_ (State.moves_keeperFails ..) ?_
    | with_reducible apply State.Moves.ite
    | with_reducible dsimp only
    | with_reducible apply State.Moves.put_dict

theorem State.moves_stage (s : State) (o : Obj') (v : Int) : s.Moves [.dict] (State.stage s o v) :=
  ⟨fun p hp => by cases p <;> first | exact absurd (by decide) hp | rfl,
    rfl, .of_sizes rfl rfl, id, id, fun h => rfWf_put _ _ h, id⟩

theorem State.moves_lower (s : State) (m : Reg) (b : Int) :
    s.Moves [.regs] (State.lower s m b) := by
  unfold State.lower
  repeat' first
    | with_reducible exact State.Moves.refl _ _
    | exact Eq.refl true
    | with_reducible apply State.Moves.step ?_ (State.moves_set ..) ?_
    | with_reducible dsimp only

theorem State.moves_raise (s : State) (m : Reg) (b : Int) :
    s.Moves [.regs] (State.raise s m b) := by
  unfold State.raise
  repeat' first
    | with_reducible exact State.Moves.refl _ _
    | exact Eq.refl true
    | with_reducible apply State.Moves.step ?_ (State.moves_set ..) ?_
    | with_reducible dsimp only

theorem State.moves_consistent (s : State) (g : Nat) :
    s.Moves [.regs] (State.consistent s g) := by
  unfold State.consistent
  repeat' first
    | with_reducible exact State.Moves.refl _ _
    | exact Eq.refl true
    | with_reducible apply State.Moves.step ?_ (State.moves_lower ..) ?_
    | with_reducible apply State.Moves.step ?_ (State.moves_raise ..) ?_
    | with_reducible apply State.Moves.step ?_ (State.moves_set ..) ?_
    | with_reducible dsimp only
    | split

theorem State.moves_unstage (s : State) (g : Nat) : s.Moves [.dict] (State.unstage s g) :=
  ⟨fun p hp => by cases p <;> first | exact absurd (by decide) hp | rfl,
    rfl, .of_sizes rfl rfl, id, id, fun h => rfWf_foldl_del _ _ h, id⟩

theorem State.moves_commitGroup (s : State) (g : Nat) :
    s.Moves [.dict, .regs] (State.commitGroup s g) := by
  unfold State.commitGroup
  repeat' first
    | with_reducible exact State.Moves.refl _ _
    | exact Eq.refl true
    | with_reducible apply State.Moves.ite
    | with_reducible apply State.Moves.step ?_ (State.moves_unstage ..) ?_
    | with_reducible apply State.Moves.step ?_ (State.moves_consistent ..) ?_
    | with_reducible apply State.Moves.step ?_ (State.moves_set ..) ?_
    | with_reducible apply State.Moves.step ?_ (State.moves_count ..) ?_
    | with_reducible apply State.Moves.overAll (fun _ _ => ?_)
    | with_reducible apply State.Moves.ite
    | with_reducible dsimp only
    | with_reducible apply State.Moves.put_dict

theorem State.moves_commitMask (s : State) (mask : Nat) :
    s.Moves [.dict, .regs] (State.commitMask s mask) := by
  unfold State.commitMask
  repeat' first
    | with_reducible exact State.Moves.refl _ _
    | exact Eq.refl true
    | with_reducible apply State.Moves.step ?_ (State.moves_commitGroup ..) ?_
    | with_reducible apply State.Moves.overAll (fun _ _ => ?_)
    | with_reducible dsimp only

theorem State.moves_discardMask (s : State) (mask : Nat) :
    s.Moves [.dict] (State.discardMask s mask) := by
  unfold State.discardMask
  repeat' first
    | with_reducible exact State.Moves.refl _ _
    | exact Eq.refl true
    | with_reducible apply State.Moves.step ?_ (State.moves_unstage ..) ?_
    | with_reducible apply State.Moves.overAll (fun _ _ => ?_)
    | with_reducible dsimp only

theorem State.moves_plain (s : State) (o : Obj') (v : Int) :
    s.Moves [.regs] (State.plain s o v).2 := by
  unfold State.plain
  repeat' first
    | with_reducible exact State.Moves.refl _ _
    | exact Eq.refl true
    | with_reducible apply State.Moves.step ?_ (State.moves_set ..) ?_
    | with_reducible dsimp only

theorem State.moves_writeBlock (s : State) (o : Obj') (v : Int) :
    s.Moves [.blk, .st, .rails, .regions, .strings, .courses, .eng, .cap, .hints, .learn, .therm, .convs, .cg, .dma, .recd, .regs] (State.writeBlock s o v).2 := by
  unfold State.writeBlock
  repeat' first
    | with_reducible exact State.Moves.refl _ _
    | exact Eq.refl true
    | with_reducible apply State.Moves.ite
    | with_reducible apply State.Moves.ite_snd
    | with_reducible apply State.Moves.step ?_ (State.moves_cmdShutdown ..) ?_
    | with_reducible apply State.Moves.step ?_ (State.moves_cmdStart ..) ?_
    | with_reducible apply State.Moves.step ?_ (State.moves_clrBits ..) ?_
    | with_reducible apply State.Moves.step ?_ (State.moves_set ..) ?_
    | with_reducible apply State.Moves.step ?_ (State.moves_plain ..) ?_
    | with_reducible apply State.Moves.ite
    | with_reducible dsimp only
    | split

theorem State.moves_writeCommit (s : State) (o : Obj') (v : Int) :
    s.Moves [.dict, .regs] (State.writeCommit s o v).2 := by
  unfold State.writeCommit
  repeat' first
    | with_reducible exact State.Moves.refl _ _
    | exact Eq.refl true
    | with_reducible apply State.Moves.step ?_ (State.moves_commitMask ..) ?_
    | with_reducible apply State.Moves.step ?_ (State.moves_discardMask ..) ?_
    | with_reducible dsimp only
    | split

theorem State.moves_writeRegion (s : State) (o : Obj') (v : Int) :
    s.Moves [.regions, .recd, .regs] (State.writeRegion s o v).2 := by
  unfold State.writeRegion
  repeat' first
    | with_reducible exact State.Moves.refl _ _
    | exact Eq.refl true
    | with_reducible apply State.Moves.step ?_ (State.moves_pickClear ..) ?_
    | with_reducible apply State.Moves.step ?_ (State.moves_pickForce ..) ?_
    | with_reducible apply State.Moves.step ?_ (State.moves_abandonFrets ..) ?_
    | with_reducible apply State.Moves.step ?_ (State.moves_holdCapo ..) ?_
    | with_reducible apply State.Moves.step ?_ (State.moves_set ..) ?_
    | with_reducible apply State.Moves.step ?_ (State.moves_plain ..) ?_
    | with_reducible dsimp only
    | split

theorem State.moves_writeString (s : State) (k : Nat) (o : Obj') (v : Int) :
    s.Moves [.regions, .strings, .cap, .dma, .recd, .regs] (State.writeString s k o v).2 := by
  unfold State.writeString
  repeat' first
    | with_reducible exact State.Moves.refl _ _
    | exact Eq.refl true
    | with_reducible apply State.Moves.step ?_ (State.moves_stringMute ..) ?_
    | with_reducible apply State.Moves.step ?_ (State.moves_stringReturn ..) ?_
    | with_reducible apply State.Moves.step ?_ (State.moves_stringSetBlind ..) ?_
    | with_reducible apply State.Moves.step ?_ (State.moves_stringClearBlind ..) ?_
    | with_reducible dsimp only
    | split

theorem State.moves_writeEngine (s : State) (o : Obj') (v : Int) :
    s.Moves [.chans, .regs] (State.writeEngine s o v).2 := by
  unfold State.writeEngine
  repeat' first
    | with_reducible exact State.Moves.refl _ _
    | exact Eq.refl true
    | with_reducible apply State.Moves.step ?_ (State.moves_bankSwap ..) ?_
    | with_reducible apply State.Moves.step ?_ (State.moves_plain ..) ?_
    | with_reducible dsimp only
    | split

theorem State.moves_writeChannel (s : State) (o : Obj') (v : Int) :
    s.Moves [.chans, .regs] (State.writeChannel s o v).2 := by
  unfold State.writeChannel
  repeat' first
    | with_reducible exact State.Moves.refl _ _
    | exact Eq.refl true
    | with_reducible apply State.Moves.step ?_ (State.moves_flagsClear ..) ?_
    | with_reducible apply State.Moves.step ?_ (State.moves_plain ..) ?_
    | with_reducible dsimp only
    | split

theorem State.moves_writeTune (s : State) (o : Obj') (v : Int) :
    s.Moves [.regs] (State.writeTune s o v).2 := by
  unfold State.writeTune
  repeat' first
    | with_reducible exact State.Moves.refl _ _
    | exact Eq.refl true
    | with_reducible apply State.Moves.step ?_ (State.moves_set ..) ?_
    | with_reducible apply State.Moves.step ?_ (State.moves_setMatched ..) ?_
    | with_reducible apply State.Moves.step ?_ (State.moves_plain ..) ?_
    | with_reducible dsimp only
    | split

theorem State.moves_writeCap (s : State) (o : Obj') (v : Int) :
    s.Moves [.regs] (State.writeCap s o v).2 := by
  unfold State.writeCap
  repeat' first
    | with_reducible exact State.Moves.refl _ _
    | exact Eq.refl true
    | with_reducible apply State.Moves.step ?_ (State.moves_clrBits ..) ?_
    | with_reducible apply State.Moves.step ?_ (State.moves_plain ..) ?_
    | with_reducible dsimp only
    | split

theorem State.moves_writeThermal (s : State) (o : Obj') (v : Int) :
    s.Moves [.blk, .therm, .recd, .regs] (State.writeThermal s o v).2 := by
  unfold State.writeThermal
  repeat' first
    | with_reducible exact State.Moves.refl _ _
    | exact Eq.refl true
    | with_reducible apply State.Moves.step ?_ (State.moves_diodeClear ..) ?_
    | with_reducible apply State.Moves.step ?_ (State.moves_diodeForce ..) ?_
    | with_reducible apply State.Moves.step ?_ (State.moves_clrBits ..) ?_
    | with_reducible apply State.Moves.step ?_ (State.moves_plain ..) ?_
    | with_reducible dsimp only
    | split

theorem State.moves_writeLearner (s : State) (o : Obj') (v : Int) (b : List Byte) :
    s.Moves [.learn, .regs] (State.writeLearner s o v b).2 := by
  unfold State.writeLearner
  repeat' first
    | with_reducible exact State.Moves.refl _ _
    | exact Eq.refl true
    | with_reducible apply State.Moves.step ?_ (State.moves_plain ..) ?_
    | with_reducible apply State.Moves.step ?_ (State.moves_writeCell ..) ?_
    | with_reducible apply State.Moves.step ?_ (State.moves_clrBits ..) ?_
    | with_reducible dsimp only
    | split

theorem State.moves_writeGroup (s : State) (o : Obj') (v : Int) :
    s.Moves [.regs] (State.writeGroup s o v).2 := by
  unfold State.writeGroup
  repeat' first
    | with_reducible exact State.Moves.refl _ _
    | exact Eq.refl true
    | with_reducible apply State.Moves.step ?_ (State.moves_groupEta ..) ?_
    | with_reducible apply State.Moves.step ?_ (State.moves_plain ..) ?_
    | with_reducible dsimp only
    | split

theorem State.moves_writeSlot (s : State) (o : Obj') (v : Int) :
    s.Moves [.learn, .regs] (State.writeSlot s o v).2 := by
  unfold State.writeSlot
  repeat' first
    | with_reducible exact State.Moves.refl _ _
    | exact Eq.refl true
    | with_reducible apply State.Moves.ite
    | with_reducible apply State.Moves.ite_snd
    | with_reducible apply State.Moves.step ?_ (State.moves_applySlot ..) ?_
    | with_reducible apply State.Moves.step ?_ (State.moves_plain ..) ?_
    | with_reducible apply State.Moves.ite
    | with_reducible dsimp only
    | split

theorem State.moves_writeShard (s : State) (o : Obj') (v : Int) :
    s.Moves [.learn, .recd, .regs] (State.writeShard s o v).2 := by
  unfold State.writeShard
  repeat' first
    | with_reducible exact State.Moves.refl _ _
    | exact Eq.refl true
    | with_reducible apply State.Moves.ite
    | with_reducible apply State.Moves.ite_snd
    | with_reducible apply State.Moves.step ?_ (State.moves_setHalt ..) ?_
    | with_reducible apply State.Moves.step ?_ (State.moves_setXfer ..) ?_
    | with_reducible apply State.Moves.step ?_ (State.moves_plain ..) ?_
    | with_reducible apply State.Moves.ite
    | with_reducible dsimp only
    | split

theorem State.moves_writeHints (s : State) (o : Obj') (v : Int) :
    s.Moves [.regs] (State.writeHints s o v).2 := by
  unfold State.writeHints
  repeat' first
    | with_reducible exact State.Moves.refl _ _
    | exact Eq.refl true
    | with_reducible apply State.Moves.step ?_ (State.moves_clrBits ..) ?_
    | with_reducible apply State.Moves.step ?_ (State.moves_plain ..) ?_
    | with_reducible dsimp only
    | split

theorem State.moves_writeConv (s : State) (o : Obj') (v : Int) (b : List Byte) :
    s.Moves [.convs, .regs] (State.writeConv s o v b).2 := by
  unfold State.writeConv
  repeat' first
    | with_reducible exact State.Moves.refl _ _
    | exact Eq.refl true
    | with_reducible apply State.Moves.step ?_ (State.moves_convTableSet ..) ?_
    | with_reducible apply State.Moves.step ?_ (State.moves_hostUrgent ..) ?_
    | with_reducible apply State.Moves.step ?_ (State.moves_plain ..) ?_
    | with_reducible dsimp only
    | split

theorem State.moves_writeConvGlobal (s : State) (o : Obj') (v : Int) :
    s.Moves [.convs, .cg, .regs] (State.writeConvGlobal s o v).2 := by
  unfold State.writeConvGlobal
  repeat' first
    | with_reducible exact State.Moves.refl _ _
    | exact Eq.refl true
    | with_reducible apply State.Moves.step ?_ (State.moves_syncArm ..) ?_
    | with_reducible apply State.Moves.step ?_ (State.moves_plain ..) ?_
    | with_reducible dsimp only
    | split

theorem State.moves_writeDma (s : State) (o : Obj') (v : Int) :
    s.Moves [.cg, .dict, .dma, .regs] (State.writeDma s o v).2 := by
  unfold State.writeDma
  repeat' first
    | with_reducible exact State.Moves.refl _ _
    | exact Eq.refl true
    | with_reducible apply State.Moves.step ?_ (State.moves_plain ..) ?_
    | with_reducible apply State.Moves.step ?_ (State.moves_dmaCommand ..) ?_
    | with_reducible apply State.Moves.step ?_ (State.moves_modDmaCh ..) ?_
    | with_reducible dsimp only
    | split

theorem State.moves_writeTable (s : State) (o : Obj') (v : Int) (b : List Byte) :
    s.Moves [.strings, .dma, .regs] (State.writeTable s o v b).2 := by
  unfold State.writeTable
  repeat' first
    | with_reducible exact State.Moves.refl _ _
    | exact Eq.refl true
    | with_reducible apply State.Moves.ite
    | with_reducible apply State.Moves.ite_snd
    | with_reducible apply State.Moves.step ?_ (State.moves_plain ..) ?_
    | with_reducible apply State.Moves.step ?_ (State.moves_setTable ..) ?_
    | with_reducible apply State.Moves.step ?_ (State.moves_flushTable ..) ?_
    | with_reducible apply State.Moves.step ?_ (State.moves_hostFields ..) ?_
    | with_reducible apply State.Moves.ite
    | with_reducible dsimp only
    | split

theorem State.moves_writeFaultLog (s : State) (p : Path) (k : Nat) (o : Obj') (v : Int) :
    s.Moves [.dma, .recd, .regs] (State.writeFaultLog s p k o v).2 := by
  unfold State.writeFaultLog
  repeat' first
    | with_reducible exact State.Moves.refl _ _
    | exact Eq.refl true
    | with_reducible apply State.Moves.ite
    | with_reducible apply State.Moves.ite_snd
    | with_reducible apply State.Moves.step ?_ (State.moves_setFreeze ..) ?_
    | with_reducible apply State.Moves.step ?_ (State.moves_clearFault ..) ?_
    | with_reducible apply State.Moves.step ?_ (State.moves_plain ..) ?_
    | with_reducible apply State.Moves.ite
    | with_reducible dsimp only
    | split

theorem State.moves_writeTraceLog (s : State) (p : Path) (k : Nat) (o : Obj') (v : Int) :
    s.Moves [.dma, .recd, .regs] (State.writeTraceLog s p k o v).2 := by
  unfold State.writeTraceLog
  repeat' first
    | with_reducible exact State.Moves.refl _ _
    | exact Eq.refl true
    | with_reducible apply State.Moves.ite
    | with_reducible apply State.Moves.ite_snd
    | with_reducible apply State.Moves.step ?_ (State.moves_clearTrace ..) ?_
    | with_reducible apply State.Moves.step ?_ (State.moves_plain ..) ?_
    | with_reducible apply State.Moves.ite
    | with_reducible dsimp only
    | split

theorem State.moves_writeTrig (s : State) (o : Obj') (v : Int) :
    s.Moves [.recd, .regs] (State.writeTrig s o v).2 := by
  unfold State.writeTrig
  repeat' first
    | with_reducible exact State.Moves.refl _ _
    | exact Eq.refl true
    | with_reducible apply State.Moves.ite
    | with_reducible apply State.Moves.ite_snd
    | with_reducible apply State.Moves.step ?_ (State.moves_plain ..) ?_
    | with_reducible apply State.Moves.step ?_ (State.moves_installSnaps ..) ?_
    | with_reducible apply State.Moves.ite
    | with_reducible dsimp only
    | split

theorem State.moves_writeKeeper (s : State) (k : Nat) (o : Obj') (b : List Byte) :
    s.Moves [.dict, .recd, .regs] (State.writeKeeper s k o b).2 := by
  unfold State.writeKeeper
  repeat' first
    | with_reducible exact State.Moves.refl _ _
    | exact Eq.refl true
    | with_reducible apply State.Moves.step ?_ (State.moves_keeperResponse ..) ?_
    | with_reducible apply State.Moves.step ?_ (State.moves_modSession ..) ?_
    | with_reducible dsimp only
    | split

theorem State.moves_writeValue (s : State) (p : Path) (k : Nat) (o : Obj') (v : Int) (b : List Byte) :
    s.Moves [.blk, .st, .rails, .regions, .strings, .courses, .chans, .eng, .cap, .hints, .learn, .therm, .convs, .cg, .dict, .dma, .recd, .regs] (State.writeValue s p k o v b).2 := by
  unfold State.writeValue
  repeat' first
    | with_reducible exact State.Moves.refl _ _
    | exact Eq.refl true
    | with_reducible apply State.Moves.step ?_ (State.moves_writeBlock ..) ?_
    | with_reducible apply State.Moves.step ?_ (State.moves_writeCommit ..) ?_
    | with_reducible apply State.Moves.step ?_ (State.moves_writeRegion ..) ?_
    | with_reducible apply State.Moves.step ?_ (State.moves_writeString ..) ?_
    | with_reducible apply State.Moves.step ?_ (State.moves_writeEngine ..) ?_
    | with_reducible apply State.Moves.step ?_ (State.moves_writeChannel ..) ?_
    | with_reducible apply State.Moves.step ?_ (State.moves_shadowWrite ..) ?_
    | with_reducible apply State.Moves.step ?_ (State.moves_writeTune ..) ?_
    | with_reducible apply State.Moves.step ?_ (State.moves_writeCap ..) ?_
    | with_reducible apply State.Moves.step ?_ (State.moves_writeThermal ..) ?_
    | with_reducible apply State.Moves.step ?_ (State.moves_writeLearner ..) ?_
    | with_reducible apply State.Moves.step ?_ (State.moves_writeGroup ..) ?_
    | with_reducible apply State.Moves.step ?_ (State.moves_writeSlot ..) ?_
    | with_reducible apply State.Moves.step ?_ (State.moves_writeShard ..) ?_
    | with_reducible apply State.Moves.step ?_ (State.moves_writeHints ..) ?_
    | with_reducible apply State.Moves.step ?_ (State.moves_writeConv ..) ?_
    | with_reducible apply State.Moves.step ?_ (State.moves_writeConvGlobal ..) ?_
    | with_reducible apply State.Moves.step ?_ (State.moves_writeDma ..) ?_
    | with_reducible apply State.Moves.step ?_ (State.moves_writeTable ..) ?_
    | with_reducible apply State.Moves.step ?_ (State.moves_writeFaultLog ..) ?_
    | with_reducible apply State.Moves.step ?_ (State.moves_writeTraceLog ..) ?_
    | with_reducible apply State.Moves.step ?_ (State.moves_writeTrig ..) ?_
    | with_reducible apply State.Moves.step ?_ (State.moves_writeKeeper ..) ?_
    | with_reducible apply State.Moves.step ?_ (State.moves_closeSession ..) ?_
    | with_reducible apply State.Moves.step ?_ (State.moves_plain ..) ?_
    | with_reducible dsimp only
    | split

theorem State.moves_writeWhole (s : State) (p : Path) (k : Nat) (o : Obj') (b : List Byte) :
    s.Moves [.blk, .st, .rails, .regions, .strings, .courses, .chans, .eng, .cap, .hints, .learn, .therm, .convs, .cg, .dict, .dma, .recd, .regs] (State.writeWhole s p k o b).2 := by
  unfold State.writeWhole
  repeat' first
    | with_reducible exact State.Moves.refl _ _
    | exact Eq.refl true
    | with_reducible apply State.Moves.ite
    | with_reducible apply State.Moves.ite_snd
    | with_reducible apply State.Moves.step ?_ (State.moves_stage ..) ?_
    | with_reducible apply State.Moves.step ?_ (State.moves_writeValue ..) ?_
    | with_reducible apply State.Moves.ite
    | with_reducible dsimp only
    | split

theorem State.moves_writeBlob (s : State) (p : Path) (k : Nat) (o : Obj') (q : Req) :
    s.Moves [.blk, .st, .rails, .regions, .strings, .courses, .chans, .eng, .cap, .hints, .learn, .therm, .convs, .cg, .dict, .dma, .recd, .regs] (State.writeBlob s p k o q).2 := by
  unfold State.writeBlob
  repeat' first
    | with_reducible exact State.Moves.refl _ _
    | exact Eq.refl true
    | with_reducible apply State.Moves.step ?_ (State.moves_modSession ..) ?_
    | with_reducible apply State.Moves.step ?_ (State.moves_writeWhole ..) ?_
    | with_reducible dsimp only
    | split

theorem State.moves_writeScalar (s : State) (p : Path) (k : Nat) (o : Obj') (q : Req) :
    s.Moves [.blk, .st, .rails, .regions, .strings, .courses, .chans, .eng, .cap, .hints, .learn, .therm, .convs, .cg, .dict, .dma, .recd, .regs] (State.writeScalar s p k o q).2 := by
  unfold State.writeScalar
  repeat' first
    | with_reducible exact State.Moves.refl _ _
    | exact Eq.refl true
    | with_reducible apply State.Moves.ite
    | with_reducible apply State.Moves.ite_snd
    | with_reducible apply State.Moves.step ?_ (State.moves_writeWhole ..) ?_
    | with_reducible apply State.Moves.ite
    | with_reducible dsimp only

theorem State.moves_serveWrite (s : State) (p : Path) (q : Req) :
    s.Moves [.blk, .st, .rails, .regions, .strings, .courses, .chans, .eng, .cap, .hints, .learn, .therm, .convs, .cg, .dict, .dma, .recd, .regs] (State.serveWrite s p q).2 := by
  unfold State.serveWrite
  repeat' first
    | with_reducible exact State.Moves.refl _ _
    | exact Eq.refl true
    | with_reducible apply State.Moves.ite
    | with_reducible apply State.Moves.ite_snd
    | with_reducible apply State.Moves.step ?_ (State.moves_writeBlob ..) ?_
    | with_reducible apply State.Moves.step ?_ (State.moves_writeScalar ..) ?_
    | with_reducible apply State.Moves.ite
    | with_reducible dsimp only
    | split

theorem State.moves_readEffect (s : State) (o : Obj') :
    s.Moves [.hints, .recd] (State.readEffect s o) := by
  unfold State.readEffect
  repeat' first
    | with_reducible exact State.Moves.refl _ _
    | exact Eq.refl true
    | with_reducible apply State.Moves.ite
    | with_reducible apply State.Moves.step ?_ (State.moves_restartQueueMax ..) ?_
    | with_reducible apply State.Moves.ite
    | with_reducible dsimp only
    | with_reducible apply State.Moves.put_hints

theorem State.moves_readBlobValue (s : State) (who : Option Nat) (q : Req) (o : Obj') (b : List Byte) :
    s.Moves [.dict] (State.readBlobValue s who q o b).2 := by
  unfold State.readBlobValue
  repeat' first
    | with_reducible exact State.Moves.refl _ _
    | exact Eq.refl true
    | with_reducible apply State.Moves.step ?_ (State.moves_modSession ..) ?_
    | with_reducible dsimp only
    | split

theorem State.moves_readHit (s : State) (o : Obj') :
    s.Moves [.cg, .dma, .regs] (State.readHit s o) := by
  unfold State.readHit
  repeat' first
    | with_reducible exact State.Moves.refl _ _
    | exact Eq.refl true
    | with_reducible apply State.Moves.ite
    | with_reducible apply State.Moves.step ?_ (State.moves_count ..) ?_
    | with_reducible apply State.Moves.step ?_ (State.moves_modTab ..) ?_
    | with_reducible apply State.Moves.ite
    | with_reducible dsimp only
    | split
    | with_reducible apply State.Moves.put_cg

theorem State.moves_readBlob (s : State) (p : Path) (who : Option Nat) (q : Req) (o : Obj') :
    s.Moves [.cg, .dict, .dma, .regs] (State.readBlob s p who q o).2 := by
  unfold State.readBlob
  repeat' first
    | with_reducible exact State.Moves.refl _ _
    | exact Eq.refl true
    | with_reducible apply State.Moves.ite
    | with_reducible apply State.Moves.ite_snd
    | with_reducible apply State.Moves.step ?_ (State.moves_newChallenge ..) ?_
    | with_reducible apply State.Moves.step ?_ (State.moves_readBlobValue ..) ?_
    | with_reducible apply State.Moves.step ?_ (State.moves_count ..) ?_
    | with_reducible apply State.Moves.step ?_ (State.moves_modTab ..) ?_
    | with_reducible apply State.Moves.step ?_ (State.moves_stFetch ..) ?_
    | with_reducible apply State.Moves.step ?_ (State.moves_readHit ..) ?_
    | with_reducible apply State.Moves.ite
    | with_reducible dsimp only
    | split

theorem State.moves_serveRead (s : State) (p : Path) (q : Req) :
    s.Moves [.hints, .cg, .dict, .dma, .recd, .regs] (State.serveRead s p q).2 := by
  unfold State.serveRead
  repeat' first
    | with_reducible exact State.Moves.refl _ _
    | exact Eq.refl true
    | with_reducible apply State.Moves.ite
    | with_reducible apply State.Moves.ite_snd
    | with_reducible apply State.Moves.step ?_ (State.moves_readBlob ..) ?_
    | with_reducible apply State.Moves.step ?_ (State.moves_readEffect ..) ?_
    | with_reducible apply State.Moves.ite
    | with_reducible dsimp only
    | split

theorem State.moves_serve (s : State) (p : Path) (q : Req) :
    s.Moves [.blk, .st, .rails, .regions, .strings, .courses, .chans, .eng, .cap, .hints, .learn, .therm, .convs, .cg, .dict, .dma, .recd, .regs] (State.serve s p q).2 := by
  unfold State.serve
  repeat' first
    | with_reducible exact State.Moves.refl _ _
    | exact Eq.refl true
    | with_reducible apply State.Moves.ite
    | with_reducible apply State.Moves.ite_snd
    | with_reducible apply State.Moves.step ?_ (State.moves_serveOpen ..) ?_
    | with_reducible apply State.Moves.step ?_ (State.moves_serveClose ..) ?_
    | with_reducible apply State.Moves.step ?_ (State.moves_serveRead ..) ?_
    | with_reducible apply State.Moves.step ?_ (State.moves_serveWrite ..) ?_
    | with_reducible apply State.Moves.ite
    | with_reducible dsimp only

theorem State.moves_complete (s : State) (p : Path) (q : Req) :
    s.Moves [.dict, .regs] (State.complete s p q) := by
  unfold State.complete
  repeat' first
    | with_reducible exact State.Moves.refl _ _
    | exact Eq.refl true
    | with_reducible apply State.Moves.step ?_ (State.moves_modSession ..) ?_
    | with_reducible apply State.Moves.step ?_ (State.moves_count ..) ?_
    | with_reducible dsimp only
    | split

theorem State.moves_request (s : State) (p : Path) (q : Req) :
    s.Moves [.blk, .st, .rails, .regions, .strings, .courses, .chans, .eng, .cap, .hints, .learn, .therm, .convs, .cg, .dict, .dma, .recd, .regs] (State.request s p q) := by
  unfold State.request
  repeat' first
    | with_reducible exact State.Moves.refl _ _
    | exact Eq.refl true
    | with_reducible apply State.Moves.ite
    | with_reducible apply State.Moves.step ?_ (State.moves_deliver ..) ?_
    | with_reducible apply State.Moves.step ?_ (State.moves_count ..) ?_
    | with_reducible apply State.Moves.step ?_ (State.moves_serve ..) ?_
    | with_reducible apply State.Moves.step ?_ (State.moves_noteLines ..) ?_
    | with_reducible apply State.Moves.step ?_ (State.moves_complete ..) ?_
    | with_reducible apply State.Moves.step ?_ (State.moves_modI3c ..) ?_
    | with_reducible apply State.Moves.step ?_ (State.moves_modMbx ..) ?_
    | with_reducible apply State.Moves.ite
    | with_reducible dsimp only
    | split

theorem State.moves_answerOne (s : State) (b : List Byte) (w : WaitRead) :
    s.Moves [.dict, .regs] (State.answerOne s b w) := by
  unfold State.answerOne
  repeat' first
    | with_reducible exact State.Moves.refl _ _
    | exact Eq.refl true
    | with_reducible apply State.Moves.ite
    | with_reducible apply State.Moves.step ?_ (State.moves_readBlobValue ..) ?_
    | with_reducible apply State.Moves.step ?_ (State.moves_noteLines ..) ?_
    | with_reducible apply State.Moves.step ?_ (State.moves_deliver ..) ?_
    | with_reducible apply State.Moves.step ?_ (State.moves_complete ..) ?_
    | with_reducible apply State.Moves.ite
    | with_reducible dsimp only
    | split

theorem State.moves_answerReads (s : State) (i : Nat) (b : List Byte) :
    s.Moves [.dict, .dma, .regs] (State.answerReads s i b) := by
  unfold State.answerReads
  repeat' first
    | with_reducible exact State.Moves.refl _ _
    | exact Eq.refl true
    | with_reducible apply State.Moves.step ?_ (State.moves_modTab ..) ?_
    | with_reducible apply State.Moves.step ?_ (State.moves_answerOne ..) ?_
    | with_reducible apply State.Moves.overAll (fun _ _ => ?_)
    | with_reducible dsimp only
    | split

theorem State.moves_putBytes (s : State) (p : Path) (sess : Nat) (idx : Nat) (sub : Nat) (b : List Byte) :
    s.Moves [.blk, .st, .rails, .regions, .strings, .courses, .chans, .eng, .cap, .hints, .learn, .therm, .convs, .cg, .dict, .dma, .recd, .regs] (State.putBytes s p sess idx sub b) := by
  unfold State.putBytes
  repeat' first
    | with_reducible exact State.Moves.refl _ _
    | exact Eq.refl true
    | with_reducible apply State.Moves.ite
    | with_reducible apply State.Moves.step ?_ (State.moves_request ..) ?_
    | with_reducible apply State.Moves.overAll (fun _ _ => ?_)
    | with_reducible apply State.Moves.ite
    | with_reducible dsimp only

theorem State.moves_putNum (s : State) (p : Path) (sess : Nat) (idx : Nat) (sub : Nat) (v : Int) :
    s.Moves [.blk, .st, .rails, .regions, .strings, .courses, .chans, .eng, .cap, .hints, .learn, .therm, .convs, .cg, .dict, .dma, .recd, .regs] (State.putNum s p sess idx sub v) := by
  unfold State.putNum
  repeat' first
    | with_reducible exact State.Moves.refl _ _
    | exact Eq.refl true
    | with_reducible apply State.Moves.step ?_ (State.moves_putBytes ..) ?_
    | with_reducible dsimp only
    | split

theorem State.moves_getObj (s : State) (p : Path) (sess : Nat) (idx : Nat) (sub : Nat) :
    s.Moves [.blk, .st, .rails, .regions, .strings, .courses, .chans, .eng, .cap, .hints, .learn, .therm, .convs, .cg, .dict, .dma, .recd, .regs] (State.getObj s p sess idx sub) := by
  unfold State.getObj
  repeat' first
    | with_reducible exact State.Moves.refl _ _
    | exact Eq.refl true
    | with_reducible apply State.Moves.step ?_ (State.moves_request ..) ?_
    | with_reducible dsimp only

theorem State.moves_groupTaken (s : State) (g : Nat) :
    s.Moves [.rails, .regions, .eng, .used, .telem, .dict] (State.groupTaken s g) := by
  unfold State.groupTaken
  repeat' first
    | with_reducible exact State.Moves.refl _ _
    | exact Eq.refl true
    | with_reducible apply State.Moves.ite
    | with_reducible apply State.Moves.step ?_ (State.moves_takeTrimGroup ..) ?_
    | with_reducible apply State.Moves.step ?_ (State.moves_frameBoundary ..) ?_
    | with_reducible apply State.Moves.step ?_ (State.moves_takeGroup ..) ?_
    | with_reducible apply State.Moves.ite
    | with_reducible dsimp only
    | split

theorem State.moves_setDynamic (s : State) (a : Nat) :
    s.Moves [.dict] (State.setDynamic s a) := by
  unfold State.setDynamic
  repeat' first
    | with_reducible exact State.Moves.refl _ _
    | exact Eq.refl true
    | with_reducible apply State.Moves.step ?_ (State.moves_modI3c ..) ?_
    | with_reducible dsimp only

theorem State.moves_go (s : State) (m : Nat) :
    s.Moves [.blk, .st, .rails, .regions, .strings, .courses, .chans, .eng, .cap, .hints, .learn, .therm, .convs, .cg, .dict, .dma, .recd, .regs] (State.go s m) := by
  unfold State.go
  repeat' first
    | with_reducible exact State.Moves.refl _ _
    | exact Eq.refl true
    | with_reducible apply State.Moves.ite
    | with_reducible apply State.Moves.step ?_ (State.moves_request ..) ?_
    | with_reducible apply State.Moves.step ?_ (State.moves_modMbx ..) ?_
    | with_reducible apply State.Moves.ite
    | with_reducible dsimp only

theorem State.moves_hregDone (s : State) (data : Nat) (err : Bool) :
    s.Moves [.clk] (State.hregDone s data err) := by
  unfold State.hregDone
  repeat' first
    | with_reducible exact State.Moves.refl _ _
    | exact Eq.refl true
    | with_reducible dsimp only
    | with_reducible apply State.Moves.put_clk

theorem State.moves_hregRead (s : State) (m : Nat) (g : MbxReg) :
    s.Moves [.clk, .freeK] (State.hregRead s m g) := by
  unfold State.hregRead
  repeat' first
    | with_reducible exact State.Moves.refl _ _
    | exact Eq.refl true
    | with_reducible apply State.Moves.step ?_ (State.moves_takeFree ..) ?_
    | with_reducible apply State.Moves.step ?_ (State.moves_hregDone ..) ?_
    | with_reducible dsimp only
    | split

theorem State.moves_hregWrite (s : State) (m : Nat) (g : MbxReg) (v : Nat) :
    s.Moves [.blk, .st, .rails, .regions, .strings, .courses, .chans, .eng, .cap, .hints, .learn, .therm, .convs, .cg, .dict, .dma, .recd, .clk, .regs] (State.hregWrite s m g v) := by
  unfold State.hregWrite
  repeat' first
    | with_reducible exact State.Moves.refl _ _
    | exact Eq.refl true
    | with_reducible apply State.Moves.ite
    | with_reducible apply State.Moves.step ?_ (State.moves_hregDone ..) ?_
    | with_reducible apply State.Moves.step ?_ (State.moves_go ..) ?_
    | with_reducible apply State.Moves.step ?_ (State.moves_modMbx ..) ?_
    | with_reducible apply State.Moves.ite
    | with_reducible dsimp only
    | split

theorem State.moves_execRecord (s : State) (b : List Byte) :
    s.Moves [.blk, .st, .rails, .regions, .strings, .courses, .chans, .eng, .cap, .hints, .learn, .therm, .convs, .cg, .dict, .dma, .recd, .regs] (State.execRecord s b) := by
  unfold State.execRecord
  repeat' first
    | with_reducible exact State.Moves.refl _ _
    | exact Eq.refl true
    | with_reducible apply State.Moves.ite
    | with_reducible apply State.Moves.step ?_ (State.moves_request ..) ?_
    | with_reducible apply State.Moves.ite
    | with_reducible dsimp only
    | with_reducible apply State.Moves.put_dict

theorem State.moves_ringRecord (s : State) :
    s.Moves [.blk, .st, .rails, .regions, .strings, .courses, .chans, .eng, .cap, .hints, .learn, .therm, .convs, .cg, .dict, .dma, .recd, .regs] (State.ringRecord s) := by
  unfold State.ringRecord
  repeat' first
    | with_reducible exact State.Moves.refl _ _
    | exact Eq.refl true
    | with_reducible apply State.Moves.ite
    | with_reducible apply State.Moves.step ?_ (State.moves_modDmaCh ..) ?_
    | with_reducible apply State.Moves.step ?_ (State.moves_execRecord ..) ?_
    | with_reducible apply State.Moves.step ?_ (State.moves_waitPace ..) ?_
    | with_reducible apply State.Moves.step ?_ (State.moves_memIssue ..) ?_
    | with_reducible apply State.Moves.ite
    | with_reducible dsimp only

theorem State.moves_tapReset (s : State) :
    s.Moves [.clk] (State.tapReset s) := by
  unfold State.tapReset
  repeat' first
    | with_reducible exact State.Moves.refl _ _
    | exact Eq.refl true
    | with_reducible dsimp only
    | with_reducible apply State.Moves.put_clk

theorem State.moves_selectBypass (s : State) :
    s.Moves [.clk] (State.selectBypass s) := by
  unfold State.selectBypass
  repeat' first
    | with_reducible exact State.Moves.refl _ _
    | exact Eq.refl true
    | with_reducible dsimp only
    | with_reducible apply State.Moves.put_clk

theorem State.moves_setTestMode (s : State) (v : Bool) :
    s.Moves [.clk] (State.setTestMode s v) := by
  unfold State.setTestMode
  repeat' first
    | with_reducible exact State.Moves.refl _ _
    | exact Eq.refl true
    | with_reducible apply State.Moves.ite
    | with_reducible apply State.Moves.step ?_ (State.moves_selectBypass ..) ?_
    | with_reducible apply State.Moves.ite
    | with_reducible dsimp only
    | with_reducible apply State.Moves.put_clk

theorem State.moves_tick (s : State) : s.Moves [.now, .dict] s.tick := by
  unfold State.tick
  refine .ite (.refl _ _) (.step ?_ (State.moves_noteLines ..) rfl)
  exact ⟨fun p hp => by cases p <;> first | exact absurd (by decide) hp | rfl,
    rfl, .of_sizes rfl rfl, fun _ => Nat.mod_lt _ (Nat.two_pow_pos 64), id, id, id⟩

end Sys2Proof.Machine
end

