-- ==== Sys2Proof/Laws/Same.lean ====
section
/-! SUPPORT. What the shared operations leave alone, field by field, as rewriting lemmas. -/

set_option linter.all false

namespace Sys2Proof.Machine

@[simp] theorem State.count_cfg (s : State) (g : Reg) (w : Nat) (k : Nat) : (State.count s g w k).cfg = s.cfg :=
  (State.moves_count ..).frame .cfg (by decide)
@[simp] theorem State.count_now (s : State) (g : Reg) (w : Nat) (k : Nat) : (State.count s g w k).now = s.now :=
  (State.moves_count ..).frame .now (by decide)
@[simp] theorem State.count_blk (s : State) (g : Reg) (w : Nat) (k : Nat) : (State.count s g w k).blk = s.blk :=
  (State.moves_count ..).frame .blk (by decide)
@[simp] theorem State.count_rails (s : State) (g : Reg) (w : Nat) (k : Nat) : (State.count s g w k).rails = s.rails :=
  (State.moves_count ..).frame .rails (by decide)
@[simp] theorem State.count_rail (s : State) (g : Reg) (w : Nat) (k : Nat) (q' : Nat) : (State.count s g w k).rail q' = s.rail q' := by
  simp only [State.rail, State.count_rails]
@[simp] theorem State.count_regions (s : State) (g : Reg) (w : Nat) (k : Nat) : (State.count s g w k).regions = s.regions :=
  (State.moves_count ..).frame .regions (by decide)
@[simp] theorem State.count_region (s : State) (g : Reg) (w : Nat) (k : Nat) (r' : Nat) : (State.count s g w k).region r' = s.region r' := by
  simp only [State.region, State.count_regions]
@[simp] theorem State.count_strings (s : State) (g : Reg) (w : Nat) (k : Nat) : (State.count s g w k).strings = s.strings :=
  (State.moves_count ..).frame .strings (by decide)
@[simp] theorem State.count_str (s : State) (g : Reg) (w : Nat) (k : Nat) (i' : Nat) : (State.count s g w k).str i' = s.str i' := by
  simp only [State.str, State.count_strings]
@[simp] theorem State.count_courses (s : State) (g : Reg) (w : Nat) (k : Nat) : (State.count s g w k).courses = s.courses :=
  (State.moves_count ..).frame .courses (by decide)
@[simp] theorem State.count_course (s : State) (g : Reg) (w : Nat) (k : Nat) (c' : Nat) : (State.count s g w k).course c' = s.course c' := by
  simp only [State.course, State.count_courses]
@[simp] theorem State.count_chans (s : State) (g : Reg) (w : Nat) (k : Nat) : (State.count s g w k).chans = s.chans :=
  (State.moves_count ..).frame .chans (by decide)
@[simp] theorem State.count_chan (s : State) (g : Reg) (w : Nat) (k : Nat) (c' : Nat) : (State.count s g w k).chan c' = s.chan c' := by
  simp only [State.chan, State.count_chans]
@[simp] theorem State.count_eng (s : State) (g : Reg) (w : Nat) (k : Nat) : (State.count s g w k).eng = s.eng :=
  (State.moves_count ..).frame .eng (by decide)
@[simp] theorem State.count_used (s : State) (g : Reg) (w : Nat) (k : Nat) : (State.count s g w k).used = s.used :=
  (State.moves_count ..).frame .used (by decide)
@[simp] theorem State.count_cap (s : State) (g : Reg) (w : Nat) (k : Nat) : (State.count s g w k).cap = s.cap :=
  (State.moves_count ..).frame .cap (by decide)
@[simp] theorem State.count_telem (s : State) (g : Reg) (w : Nat) (k : Nat) : (State.count s g w k).telem = s.telem :=
  (State.moves_count ..).frame .telem (by decide)
@[simp] theorem State.count_tune (s : State) (g : Reg) (w : Nat) (k : Nat) : (State.count s g w k).tune = s.tune :=
  (State.moves_count ..).frame .tune (by decide)
@[simp] theorem State.count_hints (s : State) (g : Reg) (w : Nat) (k : Nat) : (State.count s g w k).hints = s.hints :=
  (State.moves_count ..).frame .hints (by decide)
@[simp] theorem State.count_learn (s : State) (g : Reg) (w : Nat) (k : Nat) : (State.count s g w k).learn = s.learn :=
  (State.moves_count ..).frame .learn (by decide)
@[simp] theorem State.count_therm (s : State) (g : Reg) (w : Nat) (k : Nat) : (State.count s g w k).therm = s.therm :=
  (State.moves_count ..).frame .therm (by decide)
@[simp] theorem State.count_diode (s : State) (g : Reg) (w : Nat) (k : Nat) (r' : Nat) : (State.count s g w k).diode r' = s.diode r' := by
  simp only [State.diode, State.count_therm]
@[simp] theorem State.count_convs (s : State) (g : Reg) (w : Nat) (k : Nat) : (State.count s g w k).convs = s.convs :=
  (State.moves_count ..).frame .convs (by decide)
@[simp] theorem State.count_conv (s : State) (g : Reg) (w : Nat) (k : Nat) (n' : Nat) : (State.count s g w k).conv n' = s.conv n' := by
  simp only [State.conv, State.count_convs]
@[simp] theorem State.count_cg (s : State) (g : Reg) (w : Nat) (k : Nat) : (State.count s g w k).cg = s.cg :=
  (State.moves_count ..).frame .cg (by decide)
@[simp] theorem State.count_dict (s : State) (g : Reg) (w : Nat) (k : Nat) : (State.count s g w k).dict = s.dict :=
  (State.moves_count ..).frame .dict (by decide)
@[simp] theorem State.count_dma (s : State) (g : Reg) (w : Nat) (k : Nat) : (State.count s g w k).dma = s.dma :=
  (State.moves_count ..).frame .dma (by decide)
@[simp] theorem State.count_recd (s : State) (g : Reg) (w : Nat) (k : Nat) : (State.count s g w k).recd = s.recd :=
  (State.moves_count ..).frame .recd (by decide)
@[simp] theorem State.count_clk (s : State) (g : Reg) (w : Nat) (k : Nat) : (State.count s g w k).clk = s.clk :=
  (State.moves_count ..).frame .clk (by decide)
@[simp] theorem State.count_freeK (s : State) (g : Reg) (w : Nat) (k : Nat) : (State.count s g w k).freeK = s.freeK :=
  (State.moves_count ..).frame .freeK (by decide)
@[simp] theorem State.count_pending (s : State) (g : Reg) (w : Nat) (k : Nat) : (State.count s g w k).pending = s.pending :=
  (State.moves_count ..).frame .pending (by decide)
@[simp] theorem State.countSat_cfg (s : State) (g : Reg) (w : Nat) (k : Nat) : (State.countSat s g w k).cfg = s.cfg :=
  (State.moves_countSat ..).frame .cfg (by decide)
@[simp] theorem State.countSat_now (s : State) (g : Reg) (w : Nat) (k : Nat) : (State.countSat s g w k).now = s.now :=
  (State.moves_countSat ..).frame .now (by decide)
@[simp] theorem State.countSat_blk (s : State) (g : Reg) (w : Nat) (k : Nat) : (State.countSat s g w k).blk = s.blk :=
  (State.moves_countSat ..).frame .blk (by decide)
@[simp] theorem State.countSat_rails (s : State) (g : Reg) (w : Nat) (k : Nat) : (State.countSat s g w k).rails = s.rails :=
  (State.moves_countSat ..).frame .rails (by decide)
@[simp] theorem State.countSat_rail (s : State) (g : Reg) (w : Nat) (k : Nat) (q' : Nat) : (State.countSat s g w k).rail q' = s.rail q' := by
  simp only [State.rail, State.countSat_rails]
@[simp] theorem State.countSat_regions (s : State) (g : Reg) (w : Nat) (k : Nat) : (State.countSat s g w k).regions = s.regions :=
  (State.moves_countSat ..).frame .regions (by decide)
@[simp] theorem State.countSat_region (s : State) (g : Reg) (w : Nat) (k : Nat) (r' : Nat) : (State.countSat s g w k).region r' = s.region r' := by
  simp only [State.region, State.countSat_regions]
@[simp] theorem State.countSat_strings (s : State) (g : Reg) (w : Nat) (k : Nat) : (State.countSat s g w k).strings = s.strings :=
  (State.moves_countSat ..).frame .strings (by decide)
@[simp] theorem State.countSat_str (s : State) (g : Reg) (w : Nat) (k : Nat) (i' : Nat) : (State.countSat s g w k).str i' = s.str i' := by
  simp only [State.str, State.countSat_strings]
@[simp] theorem State.countSat_courses (s : State) (g : Reg) (w : Nat) (k : Nat) : (State.countSat s g w k).courses = s.courses :=
  (State.moves_countSat ..).frame .courses (by decide)
@[simp] theorem State.countSat_course (s : State) (g : Reg) (w : Nat) (k : Nat) (c' : Nat) : (State.countSat s g w k).course c' = s.course c' := by
  simp only [State.course, State.countSat_courses]
@[simp] theorem State.countSat_chans (s : State) (g : Reg) (w : Nat) (k : Nat) : (State.countSat s g w k).chans = s.chans :=
  (State.moves_countSat ..).frame .chans (by decide)
@[simp] theorem State.countSat_chan (s : State) (g : Reg) (w : Nat) (k : Nat) (c' : Nat) : (State.countSat s g w k).chan c' = s.chan c' := by
  simp only [State.chan, State.countSat_chans]
@[simp] theorem State.countSat_eng (s : State) (g : Reg) (w : Nat) (k : Nat) : (State.countSat s g w k).eng = s.eng :=
  (State.moves_countSat ..).frame .eng (by decide)
@[simp] theorem State.countSat_used (s : State) (g : Reg) (w : Nat) (k : Nat) : (State.countSat s g w k).used = s.used :=
  (State.moves_countSat ..).frame .used (by decide)
@[simp] theorem State.countSat_cap (s : State) (g : Reg) (w : Nat) (k : Nat) : (State.countSat s g w k).cap = s.cap :=
  (State.moves_countSat ..).frame .cap (by decide)
@[simp] theorem State.countSat_telem (s : State) (g : Reg) (w : Nat) (k : Nat) : (State.countSat s g w k).telem = s.telem :=
  (State.moves_countSat ..).frame .telem (by decide)
@[simp] theorem State.countSat_tune (s : State) (g : Reg) (w : Nat) (k : Nat) : (State.countSat s g w k).tune = s.tune :=
  (State.moves_countSat ..).frame .tune (by decide)
@[simp] theorem State.countSat_hints (s : State) (g : Reg) (w : Nat) (k : Nat) : (State.countSat s g w k).hints = s.hints :=
  (State.moves_countSat ..).frame .hints (by decide)
@[simp] theorem State.countSat_learn (s : State) (g : Reg) (w : Nat) (k : Nat) : (State.countSat s g w k).learn = s.learn :=
  (State.moves_countSat ..).frame .learn (by decide)
@[simp] theorem State.countSat_therm (s : State) (g : Reg) (w : Nat) (k : Nat) : (State.countSat s g w k).therm = s.therm :=
  (State.moves_countSat ..).frame .therm (by decide)
@[simp] theorem State.countSat_diode (s : State) (g : Reg) (w : Nat) (k : Nat) (r' : Nat) : (State.countSat s g w k).diode r' = s.diode r' := by
  simp only [State.diode, State.countSat_therm]
@[simp] theorem State.countSat_convs (s : State) (g : Reg) (w : Nat) (k : Nat) : (State.countSat s g w k).convs = s.convs :=
  (State.moves_countSat ..).frame .convs (by decide)
@[simp] theorem State.countSat_conv (s : State) (g : Reg) (w : Nat) (k : Nat) (n' : Nat) : (State.countSat s g w k).conv n' = s.conv n' := by
  simp only [State.conv, State.countSat_convs]
@[simp] theorem State.countSat_cg (s : State) (g : Reg) (w : Nat) (k : Nat) : (State.countSat s g w k).cg = s.cg :=
  (State.moves_countSat ..).frame .cg (by decide)
@[simp] theorem State.countSat_dict (s : State) (g : Reg) (w : Nat) (k : Nat) : (State.countSat s g w k).dict = s.dict :=
  (State.moves_countSat ..).frame .dict (by decide)
@[simp] theorem State.countSat_dma (s : State) (g : Reg) (w : Nat) (k : Nat) : (State.countSat s g w k).dma = s.dma :=
  (State.moves_countSat ..).frame .dma (by decide)
@[simp] theorem State.countSat_recd (s : State) (g : Reg) (w : Nat) (k : Nat) : (State.countSat s g w k).recd = s.recd :=
  (State.moves_countSat ..).frame .recd (by decide)
@[simp] theorem State.countSat_clk (s : State) (g : Reg) (w : Nat) (k : Nat) : (State.countSat s g w k).clk = s.clk :=
  (State.moves_countSat ..).frame .clk (by decide)
@[simp] theorem State.countSat_freeK (s : State) (g : Reg) (w : Nat) (k : Nat) : (State.countSat s g w k).freeK = s.freeK :=
  (State.moves_countSat ..).frame .freeK (by decide)
@[simp] theorem State.countSat_pending (s : State) (g : Reg) (w : Nat) (k : Nat) : (State.countSat s g w k).pending = s.pending :=
  (State.moves_countSat ..).frame .pending (by decide)
@[simp] theorem State.orBits_cfg (s : State) (g : Reg) (m : Nat) : (State.orBits s g m).cfg = s.cfg :=
  (State.moves_orBits ..).frame .cfg (by decide)
@[simp] theorem State.orBits_now (s : State) (g : Reg) (m : Nat) : (State.orBits s g m).now = s.now :=
  (State.moves_orBits ..).frame .now (by decide)
@[simp] theorem State.orBits_blk (s : State) (g : Reg) (m : Nat) : (State.orBits s g m).blk = s.blk :=
  (State.moves_orBits ..).frame .blk (by decide)
@[simp] theorem State.orBits_rails (s : State) (g : Reg) (m : Nat) : (State.orBits s g m).rails = s.rails :=
  (State.moves_orBits ..).frame .rails (by decide)
@[simp] theorem State.orBits_rail (s : State) (g : Reg) (m : Nat) (q' : Nat) : (State.orBits s g m).rail q' = s.rail q' := by
  simp only [State.rail, State.orBits_rails]
@[simp] theorem State.orBits_regions (s : State) (g : Reg) (m : Nat) : (State.orBits s g m).regions = s.regions :=
  (State.moves_orBits ..).frame .regions (by decide)
@[simp] theorem State.orBits_region (s : State) (g : Reg) (m : Nat) (r' : Nat) : (State.orBits s g m).region r' = s.region r' := by
  simp only [State.region, State.orBits_regions]
@[simp] theorem State.orBits_strings (s : State) (g : Reg) (m : Nat) : (State.orBits s g m).strings = s.strings :=
  (State.moves_orBits ..).frame .strings (by decide)
@[simp] theorem State.orBits_str (s : State) (g : Reg) (m : Nat) (i' : Nat) : (State.orBits s g m).str i' = s.str i' := by
  simp only [State.str, State.orBits_strings]
@[simp] theorem State.orBits_courses (s : State) (g : Reg) (m : Nat) : (State.orBits s g m).courses = s.courses :=
  (State.moves_orBits ..).frame .courses (by decide)
@[simp] theorem State.orBits_course (s : State) (g : Reg) (m : Nat) (c' : Nat) : (State.orBits s g m).course c' = s.course c' := by
  simp only [State.course, State.orBits_courses]
@[simp] theorem State.orBits_chans (s : State) (g : Reg) (m : Nat) : (State.orBits s g m).chans = s.chans :=
  (State.moves_orBits ..).frame .chans (by decide)
@[simp] theorem State.orBits_chan (s : State) (g : Reg) (m : Nat) (c' : Nat) : (State.orBits s g m).chan c' = s.chan c' := by
  simp only [State.chan, State.orBits_chans]
@[simp] theorem State.orBits_eng (s : State) (g : Reg) (m : Nat) : (State.orBits s g m).eng = s.eng :=
  (State.moves_orBits ..).frame .eng (by decide)
@[simp] theorem State.orBits_used (s : State) (g : Reg) (m : Nat) : (State.orBits s g m).used = s.used :=
  (State.moves_orBits ..).frame .used (by decide)
@[simp] theorem State.orBits_cap (s : State) (g : Reg) (m : Nat) : (State.orBits s g m).cap = s.cap :=
  (State.moves_orBits ..).frame .cap (by decide)
@[simp] theorem State.orBits_telem (s : State) (g : Reg) (m : Nat) : (State.orBits s g m).telem = s.telem :=
  (State.moves_orBits ..).frame .telem (by decide)
@[simp] theorem State.orBits_tune (s : State) (g : Reg) (m : Nat) : (State.orBits s g m).tune = s.tune :=
  (State.moves_orBits ..).frame .tune (by decide)
@[simp] theorem State.orBits_hints (s : State) (g : Reg) (m : Nat) : (State.orBits s g m).hints = s.hints :=
  (State.moves_orBits ..).frame .hints (by decide)
@[simp] theorem State.orBits_learn (s : State) (g : Reg) (m : Nat) : (State.orBits s g m).learn = s.learn :=
  (State.moves_orBits ..).frame .learn (by decide)
@[simp] theorem State.orBits_therm (s : State) (g : Reg) (m : Nat) : (State.orBits s g m).therm = s.therm :=
  (State.moves_orBits ..).frame .therm (by decide)
@[simp] theorem State.orBits_diode (s : State) (g : Reg) (m : Nat) (r' : Nat) : (State.orBits s g m).diode r' = s.diode r' := by
  simp only [State.diode, State.orBits_therm]
@[simp] theorem State.orBits_convs (s : State) (g : Reg) (m : Nat) : (State.orBits s g m).convs = s.convs :=
  (State.moves_orBits ..).frame .convs (by decide)
@[simp] theorem State.orBits_conv (s : State) (g : Reg) (m : Nat) (n' : Nat) : (State.orBits s g m).conv n' = s.conv n' := by
  simp only [State.conv, State.orBits_convs]
@[simp] theorem State.orBits_cg (s : State) (g : Reg) (m : Nat) : (State.orBits s g m).cg = s.cg :=
  (State.moves_orBits ..).frame .cg (by decide)
@[simp] theorem State.orBits_dict (s : State) (g : Reg) (m : Nat) : (State.orBits s g m).dict = s.dict :=
  (State.moves_orBits ..).frame .dict (by decide)
@[simp] theorem State.orBits_dma (s : State) (g : Reg) (m : Nat) : (State.orBits s g m).dma = s.dma :=
  (State.moves_orBits ..).frame .dma (by decide)
@[simp] theorem State.orBits_recd (s : State) (g : Reg) (m : Nat) : (State.orBits s g m).recd = s.recd :=
  (State.moves_orBits ..).frame .recd (by decide)
@[simp] theorem State.orBits_clk (s : State) (g : Reg) (m : Nat) : (State.orBits s g m).clk = s.clk :=
  (State.moves_orBits ..).frame .clk (by decide)
@[simp] theorem State.orBits_freeK (s : State) (g : Reg) (m : Nat) : (State.orBits s g m).freeK = s.freeK :=
  (State.moves_orBits ..).frame .freeK (by decide)
@[simp] theorem State.orBits_pending (s : State) (g : Reg) (m : Nat) : (State.orBits s g m).pending = s.pending :=
  (State.moves_orBits ..).frame .pending (by decide)
@[simp] theorem State.clrBits_cfg (s : State) (g : Reg) (m : Nat) : (State.clrBits s g m).cfg = s.cfg :=
  (State.moves_clrBits ..).frame .cfg (by decide)
@[simp] theorem State.clrBits_now (s : State) (g : Reg) (m : Nat) : (State.clrBits s g m).now = s.now :=
  (State.moves_clrBits ..).frame .now (by decide)
@[simp] theorem State.clrBits_blk (s : State) (g : Reg) (m : Nat) : (State.clrBits s g m).blk = s.blk :=
  (State.moves_clrBits ..).frame .blk (by decide)
@[simp] theorem State.clrBits_rails (s : State) (g : Reg) (m : Nat) : (State.clrBits s g m).rails = s.rails :=
  (State.moves_clrBits ..).frame .rails (by decide)
@[simp] theorem State.clrBits_rail (s : State) (g : Reg) (m : Nat) (q' : Nat) : (State.clrBits s g m).rail q' = s.rail q' := by
  simp only [State.rail, State.clrBits_rails]
@[simp] theorem State.clrBits_regions (s : State) (g : Reg) (m : Nat) : (State.clrBits s g m).regions = s.regions :=
  (State.moves_clrBits ..).frame .regions (by decide)
@[simp] theorem State.clrBits_region (s : State) (g : Reg) (m : Nat) (r' : Nat) : (State.clrBits s g m).region r' = s.region r' := by
  simp only [State.region, State.clrBits_regions]
@[simp] theorem State.clrBits_strings (s : State) (g : Reg) (m : Nat) : (State.clrBits s g m).strings = s.strings :=
  (State.moves_clrBits ..).frame .strings (by decide)
@[simp] theorem State.clrBits_str (s : State) (g : Reg) (m : Nat) (i' : Nat) : (State.clrBits s g m).str i' = s.str i' := by
  simp only [State.str, State.clrBits_strings]
@[simp] theorem State.clrBits_courses (s : State) (g : Reg) (m : Nat) : (State.clrBits s g m).courses = s.courses :=
  (State.moves_clrBits ..).frame .courses (by decide)
@[simp] theorem State.clrBits_course (s : State) (g : Reg) (m : Nat) (c' : Nat) : (State.clrBits s g m).course c' = s.course c' := by
  simp only [State.course, State.clrBits_courses]
@[simp] theorem State.clrBits_chans (s : State) (g : Reg) (m : Nat) : (State.clrBits s g m).chans = s.chans :=
  (State.moves_clrBits ..).frame .chans (by decide)
@[simp] theorem State.clrBits_chan (s : State) (g : Reg) (m : Nat) (c' : Nat) : (State.clrBits s g m).chan c' = s.chan c' := by
  simp only [State.chan, State.clrBits_chans]
@[simp] theorem State.clrBits_eng (s : State) (g : Reg) (m : Nat) : (State.clrBits s g m).eng = s.eng :=
  (State.moves_clrBits ..).frame .eng (by decide)
@[simp] theorem State.clrBits_used (s : State) (g : Reg) (m : Nat) : (State.clrBits s g m).used = s.used :=
  (State.moves_clrBits ..).frame .used (by decide)
@[simp] theorem State.clrBits_cap (s : State) (g : Reg) (m : Nat) : (State.clrBits s g m).cap = s.cap :=
  (State.moves_clrBits ..).frame .cap (by decide)
@[simp] theorem State.clrBits_telem (s : State) (g : Reg) (m : Nat) : (State.clrBits s g m).telem = s.telem :=
  (State.moves_clrBits ..).frame .telem (by decide)
@[simp] theorem State.clrBits_tune (s : State) (g : Reg) (m : Nat) : (State.clrBits s g m).tune = s.tune :=
  (State.moves_clrBits ..).frame .tune (by decide)
@[simp] theorem State.clrBits_hints (s : State) (g : Reg) (m : Nat) : (State.clrBits s g m).hints = s.hints :=
  (State.moves_clrBits ..).frame .hints (by decide)
@[simp] theorem State.clrBits_learn (s : State) (g : Reg) (m : Nat) : (State.clrBits s g m).learn = s.learn :=
  (State.moves_clrBits ..).frame .learn (by decide)
@[simp] theorem State.clrBits_therm (s : State) (g : Reg) (m : Nat) : (State.clrBits s g m).therm = s.therm :=
  (State.moves_clrBits ..).frame .therm (by decide)
@[simp] theorem State.clrBits_diode (s : State) (g : Reg) (m : Nat) (r' : Nat) : (State.clrBits s g m).diode r' = s.diode r' := by
  simp only [State.diode, State.clrBits_therm]
@[simp] theorem State.clrBits_convs (s : State) (g : Reg) (m : Nat) : (State.clrBits s g m).convs = s.convs :=
  (State.moves_clrBits ..).frame .convs (by decide)
@[simp] theorem State.clrBits_conv (s : State) (g : Reg) (m : Nat) (n' : Nat) : (State.clrBits s g m).conv n' = s.conv n' := by
  simp only [State.conv, State.clrBits_convs]
@[simp] theorem State.clrBits_cg (s : State) (g : Reg) (m : Nat) : (State.clrBits s g m).cg = s.cg :=
  (State.moves_clrBits ..).frame .cg (by decide)
@[simp] theorem State.clrBits_dict (s : State) (g : Reg) (m : Nat) : (State.clrBits s g m).dict = s.dict :=
  (State.moves_clrBits ..).frame .dict (by decide)
@[simp] theorem State.clrBits_dma (s : State) (g : Reg) (m : Nat) : (State.clrBits s g m).dma = s.dma :=
  (State.moves_clrBits ..).frame .dma (by decide)
@[simp] theorem State.clrBits_recd (s : State) (g : Reg) (m : Nat) : (State.clrBits s g m).recd = s.recd :=
  (State.moves_clrBits ..).frame .recd (by decide)
@[simp] theorem State.clrBits_clk (s : State) (g : Reg) (m : Nat) : (State.clrBits s g m).clk = s.clk :=
  (State.moves_clrBits ..).frame .clk (by decide)
@[simp] theorem State.clrBits_freeK (s : State) (g : Reg) (m : Nat) : (State.clrBits s g m).freeK = s.freeK :=
  (State.moves_clrBits ..).frame .freeK (by decide)
@[simp] theorem State.clrBits_pending (s : State) (g : Reg) (m : Nat) : (State.clrBits s g m).pending = s.pending :=
  (State.moves_clrBits ..).frame .pending (by decide)
@[simp] theorem State.fire_cfg (s : State) (ty : Nat) (detail : Nat) (src : Source) : (State.fire s ty detail src).cfg = s.cfg :=
  (State.moves_fire ..).frame .cfg (by decide)
@[simp] theorem State.fire_now (s : State) (ty : Nat) (detail : Nat) (src : Source) : (State.fire s ty detail src).now = s.now :=
  (State.moves_fire ..).frame .now (by decide)
@[simp] theorem State.fire_blk (s : State) (ty : Nat) (detail : Nat) (src : Source) : (State.fire s ty detail src).blk = s.blk :=
  (State.moves_fire ..).frame .blk (by decide)
@[simp] theorem State.fire_rails (s : State) (ty : Nat) (detail : Nat) (src : Source) : (State.fire s ty detail src).rails = s.rails :=
  (State.moves_fire ..).frame .rails (by decide)
@[simp] theorem State.fire_rail (s : State) (ty : Nat) (detail : Nat) (src : Source) (q' : Nat) : (State.fire s ty detail src).rail q' = s.rail q' := by
  simp only [State.rail, State.fire_rails]
@[simp] theorem State.fire_regions (s : State) (ty : Nat) (detail : Nat) (src : Source) : (State.fire s ty detail src).regions = s.regions :=
  (State.moves_fire ..).frame .regions (by decide)
@[simp] theorem State.fire_region (s : State) (ty : Nat) (detail : Nat) (src : Source) (r' : Nat) : (State.fire s ty detail src).region r' = s.region r' := by
  simp only [State.region, State.fire_regions]
@[simp] theorem State.fire_strings (s : State) (ty : Nat) (detail : Nat) (src : Source) : (State.fire s ty detail src).strings = s.strings :=
  (State.moves_fire ..).frame .strings (by decide)
@[simp] theorem State.fire_str (s : State) (ty : Nat) (detail : Nat) (src : Source) (i' : Nat) : (State.fire s ty detail src).str i' = s.str i' := by
  simp only [State.str, State.fire_strings]
@[simp] theorem State.fire_courses (s : State) (ty : Nat) (detail : Nat) (src : Source) : (State.fire s ty detail src).courses = s.courses :=
  (State.moves_fire ..).frame .courses (by decide)
@[simp] theorem State.fire_course (s : State) (ty : Nat) (detail : Nat) (src : Source) (c' : Nat) : (State.fire s ty detail src).course c' = s.course c' := by
  simp only [State.course, State.fire_courses]
@[simp] theorem State.fire_chans (s : State) (ty : Nat) (detail : Nat) (src : Source) : (State.fire s ty detail src).chans = s.chans :=
  (State.moves_fire ..).frame .chans (by decide)
@[simp] theorem State.fire_chan (s : State) (ty : Nat) (detail : Nat) (src : Source) (c' : Nat) : (State.fire s ty detail src).chan c' = s.chan c' := by
  simp only [State.chan, State.fire_chans]
@[simp] theorem State.fire_eng (s : State) (ty : Nat) (detail : Nat) (src : Source) : (State.fire s ty detail src).eng = s.eng :=
  (State.moves_fire ..).frame .eng (by decide)
@[simp] theorem State.fire_used (s : State) (ty : Nat) (detail : Nat) (src : Source) : (State.fire s ty detail src).used = s.used :=
  (State.moves_fire ..).frame .used (by decide)
@[simp] theorem State.fire_cap (s : State) (ty : Nat) (detail : Nat) (src : Source) : (State.fire s ty detail src).cap = s.cap :=
  (State.moves_fire ..).frame .cap (by decide)
@[simp] theorem State.fire_telem (s : State) (ty : Nat) (detail : Nat) (src : Source) : (State.fire s ty detail src).telem = s.telem :=
  (State.moves_fire ..).frame .telem (by decide)
@[simp] theorem State.fire_tune (s : State) (ty : Nat) (detail : Nat) (src : Source) : (State.fire s ty detail src).tune = s.tune :=
  (State.moves_fire ..).frame .tune (by decide)
@[simp] theorem State.fire_hints (s : State) (ty : Nat) (detail : Nat) (src : Source) : (State.fire s ty detail src).hints = s.hints :=
  (State.moves_fire ..).frame .hints (by decide)
@[simp] theorem State.fire_learn (s : State) (ty : Nat) (detail : Nat) (src : Source) : (State.fire s ty detail src).learn = s.learn :=
  (State.moves_fire ..).frame .learn (by decide)
@[simp] theorem State.fire_therm (s : State) (ty : Nat) (detail : Nat) (src : Source) : (State.fire s ty detail src).therm = s.therm :=
  (State.moves_fire ..).frame .therm (by decide)
@[simp] theorem State.fire_diode (s : State) (ty : Nat) (detail : Nat) (src : Source) (r' : Nat) : (State.fire s ty detail src).diode r' = s.diode r' := by
  simp only [State.diode, State.fire_therm]
@[simp] theorem State.fire_convs (s : State) (ty : Nat) (detail : Nat) (src : Source) : (State.fire s ty detail src).convs = s.convs :=
  (State.moves_fire ..).frame .convs (by decide)
@[simp] theorem State.fire_conv (s : State) (ty : Nat) (detail : Nat) (src : Source) (n' : Nat) : (State.fire s ty detail src).conv n' = s.conv n' := by
  simp only [State.conv, State.fire_convs]
@[simp] theorem State.fire_cg (s : State) (ty : Nat) (detail : Nat) (src : Source) : (State.fire s ty detail src).cg = s.cg :=
  (State.moves_fire ..).frame .cg (by decide)
@[simp] theorem State.fire_dict (s : State) (ty : Nat) (detail : Nat) (src : Source) : (State.fire s ty detail src).dict = s.dict :=
  (State.moves_fire ..).frame .dict (by decide)
@[simp] theorem State.fire_dma (s : State) (ty : Nat) (detail : Nat) (src : Source) : (State.fire s ty detail src).dma = s.dma :=
  (State.moves_fire ..).frame .dma (by decide)
@[simp] theorem State.fire_clk (s : State) (ty : Nat) (detail : Nat) (src : Source) : (State.fire s ty detail src).clk = s.clk :=
  (State.moves_fire ..).frame .clk (by decide)
@[simp] theorem State.fire_freeK (s : State) (ty : Nat) (detail : Nat) (src : Source) : (State.fire s ty detail src).freeK = s.freeK :=
  (State.moves_fire ..).frame .freeK (by decide)
@[simp] theorem State.fire_pending (s : State) (ty : Nat) (detail : Nat) (src : Source) : (State.fire s ty detail src).pending = s.pending :=
  (State.moves_fire ..).frame .pending (by decide)
@[simp] theorem State.enqueue_cfg (s : State) (t : Trig) : (State.enqueue s t).cfg = s.cfg :=
  (State.moves_enqueue ..).frame .cfg (by decide)
@[simp] theorem State.enqueue_now (s : State) (t : Trig) : (State.enqueue s t).now = s.now :=
  (State.moves_enqueue ..).frame .now (by decide)
@[simp] theorem State.enqueue_blk (s : State) (t : Trig) : (State.enqueue s t).blk = s.blk :=
  (State.moves_enqueue ..).frame .blk (by decide)
@[simp] theorem State.enqueue_rails (s : State) (t : Trig) : (State.enqueue s t).rails = s.rails :=
  (State.moves_enqueue ..).frame .rails (by decide)
@[simp] theorem State.enqueue_rail (s : State) (t : Trig) (q' : Nat) : (State.enqueue s t).rail q' = s.rail q' := by
  simp only [State.rail, State.enqueue_rails]
@[simp] theorem State.enqueue_regions (s : State) (t : Trig) : (State.enqueue s t).regions = s.regions :=
  (State.moves_enqueue ..).frame .regions (by decide)
@[simp] theorem State.enqueue_region (s : State) (t : Trig) (r' : Nat) : (State.enqueue s t).region r' = s.region r' := by
  simp only [State.region, State.enqueue_regions]
@[simp] theorem State.enqueue_strings (s : State) (t : Trig) : (State.enqueue s t).strings = s.strings :=
  (State.moves_enqueue ..).frame .strings (by decide)
@[simp] theorem State.enqueue_str (s : State) (t : Trig) (i' : Nat) : (State.enqueue s t).str i' = s.str i' := by
  simp only [State.str, State.enqueue_strings]
@[simp] theorem State.enqueue_courses (s : State) (t : Trig) : (State.enqueue s t).courses = s.courses :=
  (State.moves_enqueue ..).frame .courses (by decide)
@[simp] theorem State.enqueue_course (s : State) (t : Trig) (c' : Nat) : (State.enqueue s t).course c' = s.course c' := by
  simp only [State.course, State.enqueue_courses]
@[simp] theorem State.enqueue_chans (s : State) (t : Trig) : (State.enqueue s t).chans = s.chans :=
  (State.moves_enqueue ..).frame .chans (by decide)
@[simp] theorem State.enqueue_chan (s : State) (t : Trig) (c' : Nat) : (State.enqueue s t).chan c' = s.chan c' := by
  simp only [State.chan, State.enqueue_chans]
@[simp] theorem State.enqueue_eng (s : State) (t : Trig) : (State.enqueue s t).eng = s.eng :=
  (State.moves_enqueue ..).frame .eng (by decide)
@[simp] theorem State.enqueue_used (s : State) (t : Trig) : (State.enqueue s t).used = s.used :=
  (State.moves_enqueue ..).frame .used (by decide)
@[simp] theorem State.enqueue_cap (s : State) (t : Trig) : (State.enqueue s t).cap = s.cap :=
  (State.moves_enqueue ..).frame .cap (by decide)
@[simp] theorem State.enqueue_telem (s : State) (t : Trig) : (State.enqueue s t).telem = s.telem :=
  (State.moves_enqueue ..).frame .telem (by decide)
@[simp] theorem State.enqueue_tune (s : State) (t : Trig) : (State.enqueue s t).tune = s.tune :=
  (State.moves_enqueue ..).frame .tune (by decide)
@[simp] theorem State.enqueue_hints (s : State) (t : Trig) : (State.enqueue s t).hints = s.hints :=
  (State.moves_enqueue ..).frame .hints (by decide)
@[simp] theorem State.enqueue_learn (s : State) (t : Trig) : (State.enqueue s t).learn = s.learn :=
  (State.moves_enqueue ..).frame .learn (by decide)
@[simp] theorem State.enqueue_therm (s : State) (t : Trig) : (State.enqueue s t).therm = s.therm :=
  (State.moves_enqueue ..).frame .therm (by decide)
@[simp] theorem State.enqueue_diode (s : State) (t : Trig) (r' : Nat) : (State.enqueue s t).diode r' = s.diode r' := by
  simp only [State.diode, State.enqueue_therm]
@[simp] theorem State.enqueue_convs (s : State) (t : Trig) : (State.enqueue s t).convs = s.convs :=
  (State.moves_enqueue ..).frame .convs (by decide)
@[simp] theorem State.enqueue_conv (s : State) (t : Trig) (n' : Nat) : (State.enqueue s t).conv n' = s.conv n' := by
  simp only [State.conv, State.enqueue_convs]
@[simp] theorem State.enqueue_cg (s : State) (t : Trig) : (State.enqueue s t).cg = s.cg :=
  (State.moves_enqueue ..).frame .cg (by decide)
@[simp] theorem State.enqueue_dict (s : State) (t : Trig) : (State.enqueue s t).dict = s.dict :=
  (State.moves_enqueue ..).frame .dict (by decide)
@[simp] theorem State.enqueue_dma (s : State) (t : Trig) : (State.enqueue s t).dma = s.dma :=
  (State.moves_enqueue ..).frame .dma (by decide)
@[simp] theorem State.enqueue_clk (s : State) (t : Trig) : (State.enqueue s t).clk = s.clk :=
  (State.moves_enqueue ..).frame .clk (by decide)
@[simp] theorem State.enqueue_freeK (s : State) (t : Trig) : (State.enqueue s t).freeK = s.freeK :=
  (State.moves_enqueue ..).frame .freeK (by decide)
@[simp] theorem State.enqueue_pending (s : State) (t : Trig) : (State.enqueue s t).pending = s.pending :=
  (State.moves_enqueue ..).frame .pending (by decide)
@[simp] theorem State.setReason_cfg (s : State) (b : Nat) : (State.setReason s b).cfg = s.cfg :=
  (State.moves_setReason ..).frame .cfg (by decide)
@[simp] theorem State.setReason_now (s : State) (b : Nat) : (State.setReason s b).now = s.now :=
  (State.moves_setReason ..).frame .now (by decide)
@[simp] theorem State.setReason_blk (s : State) (b : Nat) : (State.setReason s b).blk = s.blk :=
  (State.moves_setReason ..).frame .blk (by decide)
@[simp] theorem State.setReason_rails (s : State) (b : Nat) : (State.setReason s b).rails = s.rails :=
  (State.moves_setReason ..).frame .rails (by decide)
@[simp] theorem State.setReason_rail (s : State) (b : Nat) (q' : Nat) : (State.setReason s b).rail q' = s.rail q' := by
  simp only [State.rail, State.setReason_rails]
@[simp] theorem State.setReason_regions (s : State) (b : Nat) : (State.setReason s b).regions = s.regions :=
  (State.moves_setReason ..).frame .regions (by decide)
@[simp] theorem State.setReason_region (s : State) (b : Nat) (r' : Nat) : (State.setReason s b).region r' = s.region r' := by
  simp only [State.region, State.setReason_regions]
@[simp] theorem State.setReason_strings (s : State) (b : Nat) : (State.setReason s b).strings = s.strings :=
  (State.moves_setReason ..).frame .strings (by decide)
@[simp] theorem State.setReason_str (s : State) (b : Nat) (i' : Nat) : (State.setReason s b).str i' = s.str i' := by
  simp only [State.str, State.setReason_strings]
@[simp] theorem State.setReason_courses (s : State) (b : Nat) : (State.setReason s b).courses = s.courses :=
  (State.moves_setReason ..).frame .courses (by decide)
@[simp] theorem State.setReason_course (s : State) (b : Nat) (c' : Nat) : (State.setReason s b).course c' = s.course c' := by
  simp only [State.course, State.setReason_courses]
@[simp] theorem State.setReason_chans (s : State) (b : Nat) : (State.setReason s b).chans = s.chans :=
  (State.moves_setReason ..).frame .chans (by decide)
@[simp] theorem State.setReason_chan (s : State) (b : Nat) (c' : Nat) : (State.setReason s b).chan c' = s.chan c' := by
  simp only [State.chan, State.setReason_chans]
@[simp] theorem State.setReason_eng (s : State) (b : Nat) : (State.setReason s b).eng = s.eng :=
  (State.moves_setReason ..).frame .eng (by decide)
@[simp] theorem State.setReason_used (s : State) (b : Nat) : (State.setReason s b).used = s.used :=
  (State.moves_setReason ..).frame .used (by decide)
@[simp] theorem State.setReason_cap (s : State) (b : Nat) : (State.setReason s b).cap = s.cap :=
  (State.moves_setReason ..).frame .cap (by decide)
@[simp] theorem State.setReason_telem (s : State) (b : Nat) : (State.setReason s b).telem = s.telem :=
  (State.moves_setReason ..).frame .telem (by decide)
@[simp] theorem State.setReason_tune (s : State) (b : Nat) : (State.setReason s b).tune = s.tune :=
  (State.moves_setReason ..).frame .tune (by decide)
@[simp] theorem State.setReason_hints (s : State) (b : Nat) : (State.setReason s b).hints = s.hints :=
  (State.moves_setReason ..).frame .hints (by decide)
@[simp] theorem State.setReason_learn (s : State) (b : Nat) : (State.setReason s b).learn = s.learn :=
  (State.moves_setReason ..).frame .learn (by decide)
@[simp] theorem State.setReason_therm (s : State) (b : Nat) : (State.setReason s b).therm = s.therm :=
  (State.moves_setReason ..).frame .therm (by decide)
@[simp] theorem State.setReason_diode (s : State) (b : Nat) (r' : Nat) : (State.setReason s b).diode r' = s.diode r' := by
  simp only [State.diode, State.setReason_therm]
@[simp] theorem State.setReason_convs (s : State) (b : Nat) : (State.setReason s b).convs = s.convs :=
  (State.moves_setReason ..).frame .convs (by decide)
@[simp] theorem State.setReason_conv (s : State) (b : Nat) (n' : Nat) : (State.setReason s b).conv n' = s.conv n' := by
  simp only [State.conv, State.setReason_convs]
@[simp] theorem State.setReason_cg (s : State) (b : Nat) : (State.setReason s b).cg = s.cg :=
  (State.moves_setReason ..).frame .cg (by decide)
@[simp] theorem State.setReason_dict (s : State) (b : Nat) : (State.setReason s b).dict = s.dict :=
  (State.moves_setReason ..).frame .dict (by decide)
@[simp] theorem State.setReason_dma (s : State) (b : Nat) : (State.setReason s b).dma = s.dma :=
  (State.moves_setReason ..).frame .dma (by decide)
@[simp] theorem State.setReason_clk (s : State) (b : Nat) : (State.setReason s b).clk = s.clk :=
  (State.moves_setReason ..).frame .clk (by decide)
@[simp] theorem State.setReason_freeK (s : State) (b : Nat) : (State.setReason s b).freeK = s.freeK :=
  (State.moves_setReason ..).frame .freeK (by decide)
@[simp] theorem State.setReason_pending (s : State) (b : Nat) : (State.setReason s b).pending = s.pending :=
  (State.moves_setReason ..).frame .pending (by decide)
@[simp] theorem State.noteReason_cfg (s : State) (b : Nat) : (State.noteReason s b).cfg = s.cfg :=
  (State.moves_noteReason ..).frame .cfg (by decide)
@[simp] theorem State.noteReason_now (s : State) (b : Nat) : (State.noteReason s b).now = s.now :=
  (State.moves_noteReason ..).frame .now (by decide)
@[simp] theorem State.noteReason_rails (s : State) (b : Nat) : (State.noteReason s b).rails = s.rails :=
  (State.moves_noteReason ..).frame .rails (by decide)
@[simp] theorem State.noteReason_rail (s : State) (b : Nat) (q' : Nat) : (State.noteReason s b).rail q' = s.rail q' := by
  simp only [State.rail, State.noteReason_rails]
@[simp] theorem State.noteReason_regions (s : State) (b : Nat) : (State.noteReason s b).regions = s.regions :=
  (State.moves_noteReason ..).frame .regions (by decide)
@[simp] theorem State.noteReason_region (s : State) (b : Nat) (r' : Nat) : (State.noteReason s b).region r' = s.region r' := by
  simp only [State.region, State.noteReason_regions]
@[simp] theorem State.noteReason_strings (s : State) (b : Nat) : (State.noteReason s b).strings = s.strings :=
  (State.moves_noteReason ..).frame .strings (by decide)
@[simp] theorem State.noteReason_str (s : State) (b : Nat) (i' : Nat) : (State.noteReason s b).str i' = s.str i' := by
  simp only [State.str, State.noteReason_strings]
@[simp] theorem State.noteReason_courses (s : State) (b : Nat) : (State.noteReason s b).courses = s.courses :=
  (State.moves_noteReason ..).frame .courses (by decide)
@[simp] theorem State.noteReason_course (s : State) (b : Nat) (c' : Nat) : (State.noteReason s b).course c' = s.course c' := by
  simp only [State.course, State.noteReason_courses]
@[simp] theorem State.noteReason_chans (s : State) (b : Nat) : (State.noteReason s b).chans = s.chans :=
  (State.moves_noteReason ..).frame .chans (by decide)
@[simp] theorem State.noteReason_chan (s : State) (b : Nat) (c' : Nat) : (State.noteReason s b).chan c' = s.chan c' := by
  simp only [State.chan, State.noteReason_chans]
@[simp] theorem State.noteReason_eng (s : State) (b : Nat) : (State.noteReason s b).eng = s.eng :=
  (State.moves_noteReason ..).frame .eng (by decide)
@[simp] theorem State.noteReason_used (s : State) (b : Nat) : (State.noteReason s b).used = s.used :=
  (State.moves_noteReason ..).frame .used (by decide)
@[simp] theorem State.noteReason_cap (s : State) (b : Nat) : (State.noteReason s b).cap = s.cap :=
  (State.moves_noteReason ..).frame .cap (by decide)
@[simp] theorem State.noteReason_telem (s : State) (b : Nat) : (State.noteReason s b).telem = s.telem :=
  (State.moves_noteReason ..).frame .telem (by decide)
@[simp] theorem State.noteReason_tune (s : State) (b : Nat) : (State.noteReason s b).tune = s.tune :=
  (State.moves_noteReason ..).frame .tune (by decide)
@[simp] theorem State.noteReason_hints (s : State) (b : Nat) : (State.noteReason s b).hints = s.hints :=
  (State.moves_noteReason ..).frame .hints (by decide)
@[simp] theorem State.noteReason_learn (s : State) (b : Nat) : (State.noteReason s b).learn = s.learn :=
  (State.moves_noteReason ..).frame .learn (by decide)
@[simp] theorem State.noteReason_therm (s : State) (b : Nat) : (State.noteReason s b).therm = s.therm :=
  (State.moves_noteReason ..).frame .therm (by decide)
@[simp] theorem State.noteReason_diode (s : State) (b : Nat) (r' : Nat) : (State.noteReason s b).diode r' = s.diode r' := by
  simp only [State.diode, State.noteReason_therm]
@[simp] theorem State.noteReason_convs (s : State) (b : Nat) : (State.noteReason s b).convs = s.convs :=
  (State.moves_noteReason ..).frame .convs (by decide)
@[simp] theorem State.noteReason_conv (s : State) (b : Nat) (n' : Nat) : (State.noteReason s b).conv n' = s.conv n' := by
  simp only [State.conv, State.noteReason_convs]
@[simp] theorem State.noteReason_cg (s : State) (b : Nat) : (State.noteReason s b).cg = s.cg :=
  (State.moves_noteReason ..).frame .cg (by decide)
@[simp] theorem State.noteReason_dict (s : State) (b : Nat) : (State.noteReason s b).dict = s.dict :=
  (State.moves_noteReason ..).frame .dict (by decide)
@[simp] theorem State.noteReason_dma (s : State) (b : Nat) : (State.noteReason s b).dma = s.dma :=
  (State.moves_noteReason ..).frame .dma (by decide)
@[simp] theorem State.noteReason_clk (s : State) (b : Nat) : (State.noteReason s b).clk = s.clk :=
  (State.moves_noteReason ..).frame .clk (by decide)
@[simp] theorem State.noteReason_freeK (s : State) (b : Nat) : (State.noteReason s b).freeK = s.freeK :=
  (State.moves_noteReason ..).frame .freeK (by decide)
@[simp] theorem State.noteReason_pending (s : State) (b : Nat) : (State.noteReason s b).pending = s.pending :=
  (State.moves_noteReason ..).frame .pending (by decide)
@[simp] theorem State.noteReason_st (s : State) (b : Nat) : (State.noteReason s b).blk.st = s.blk.st :=
  (State.moves_noteReason ..).frame .st (by decide)
@[simp] theorem State.parityError_cfg (s : State) : (State.parityError s).cfg = s.cfg :=
  (State.moves_parityError ..).frame .cfg (by decide)
@[simp] theorem State.parityError_now (s : State) : (State.parityError s).now = s.now :=
  (State.moves_parityError ..).frame .now (by decide)
@[simp] theorem State.parityError_rails (s : State) : (State.parityError s).rails = s.rails :=
  (State.moves_parityError ..).frame .rails (by decide)
@[simp] theorem State.parityError_rail (s : State) (q' : Nat) : (State.parityError s).rail q' = s.rail q' := by
  simp only [State.rail, State.parityError_rails]
@[simp] theorem State.parityError_regions (s : State) : (State.parityError s).regions = s.regions :=
  (State.moves_parityError ..).frame .regions (by decide)
@[simp] theorem State.parityError_region (s : State) (r' : Nat) : (State.parityError s).region r' = s.region r' := by
  simp only [State.region, State.parityError_regions]
@[simp] theorem State.parityError_strings (s : State) : (State.parityError s).strings = s.strings :=
  (State.moves_parityError ..).frame .strings (by decide)
@[simp] theorem State.parityError_str (s : State) (i' : Nat) : (State.parityError s).str i' = s.str i' := by
  simp only [State.str, State.parityError_strings]
@[simp] theorem State.parityError_courses (s : State) : (State.parityError s).courses = s.courses :=
  (State.moves_parityError ..).frame .courses (by decide)
@[simp] theorem State.parityError_course (s : State) (c' : Nat) : (State.parityError s).course c' = s.course c' := by
  simp only [State.course, State.parityError_courses]
@[simp] theorem State.parityError_chans (s : State) : (State.parityError s).chans = s.chans :=
  (State.moves_parityError ..).frame .chans (by decide)
@[simp] theorem State.parityError_chan (s : State) (c' : Nat) : (State.parityError s).chan c' = s.chan c' := by
  simp only [State.chan, State.parityError_chans]
@[simp] theorem State.parityError_eng (s : State) : (State.parityError s).eng = s.eng :=
  (State.moves_parityError ..).frame .eng (by decide)
@[simp] theorem State.parityError_used (s : State) : (State.parityError s).used = s.used :=
  (State.moves_parityError ..).frame .used (by decide)
@[simp] theorem State.parityError_cap (s : State) : (State.parityError s).cap = s.cap :=
  (State.moves_parityError ..).frame .cap (by decide)
@[simp] theorem State.parityError_telem (s : State) : (State.parityError s).telem = s.telem :=
  (State.moves_parityError ..).frame .telem (by decide)
@[simp] theorem State.parityError_tune (s : State) : (State.parityError s).tune = s.tune :=
  (State.moves_parityError ..).frame .tune (by decide)
@[simp] theorem State.parityError_hints (s : State) : (State.parityError s).hints = s.hints :=
  (State.moves_parityError ..).frame .hints (by decide)
@[simp] theorem State.parityError_learn (s : State) : (State.parityError s).learn = s.learn :=
  (State.moves_parityError ..).frame .learn (by decide)
@[simp] theorem State.parityError_therm (s : State) : (State.parityError s).therm = s.therm :=
  (State.moves_parityError ..).frame .therm (by decide)
@[simp] theorem State.parityError_diode (s : State) (r' : Nat) : (State.parityError s).diode r' = s.diode r' := by
  simp only [State.diode, State.parityError_therm]
@[simp] theorem State.parityError_convs (s : State) : (State.parityError s).convs = s.convs :=
  (State.moves_parityError ..).frame .convs (by decide)
@[simp] theorem State.parityError_conv (s : State) (n' : Nat) : (State.parityError s).conv n' = s.conv n' := by
  simp only [State.conv, State.parityError_convs]
@[simp] theorem State.parityError_cg (s : State) : (State.parityError s).cg = s.cg :=
  (State.moves_parityError ..).frame .cg (by decide)
@[simp] theorem State.parityError_dict (s : State) : (State.parityError s).dict = s.dict :=
  (State.moves_parityError ..).frame .dict (by decide)
@[simp] theorem State.parityError_dma (s : State) : (State.parityError s).dma = s.dma :=
  (State.moves_parityError ..).frame .dma (by decide)
@[simp] theorem State.parityError_recd (s : State) : (State.parityError s).recd = s.recd :=
  (State.moves_parityError ..).frame .recd (by decide)
@[simp] theorem State.parityError_clk (s : State) : (State.parityError s).clk = s.clk :=
  (State.moves_parityError ..).frame .clk (by decide)
@[simp] theorem State.parityError_freeK (s : State) : (State.parityError s).freeK = s.freeK :=
  (State.moves_parityError ..).frame .freeK (by decide)
@[simp] theorem State.parityError_pending (s : State) : (State.parityError s).pending = s.pending :=
  (State.moves_parityError ..).frame .pending (by decide)
@[simp] theorem State.parityError_st (s : State) : (State.parityError s).blk.st = s.blk.st :=
  (State.moves_parityError ..).frame .st (by decide)
@[simp] theorem State.breach_cfg (s : State) (code : Nat) : (State.breach s code).cfg = s.cfg :=
  (State.moves_breach ..).frame .cfg (by decide)
@[simp] theorem State.breach_now (s : State) (code : Nat) : (State.breach s code).now = s.now :=
  (State.moves_breach ..).frame .now (by decide)
@[simp] theorem State.breach_blk (s : State) (code : Nat) : (State.breach s code).blk = s.blk :=
  (State.moves_breach ..).frame .blk (by decide)
@[simp] theorem State.breach_rails (s : State) (code : Nat) : (State.breach s code).rails = s.rails :=
  (State.moves_breach ..).frame .rails (by decide)
@[simp] theorem State.breach_rail (s : State) (code : Nat) (q' : Nat) : (State.breach s code).rail q' = s.rail q' := by
  simp only [State.rail, State.breach_rails]
@[simp] theorem State.breach_regions (s : State) (code : Nat) : (State.breach s code).regions = s.regions :=
  (State.moves_breach ..).frame .regions (by decide)
@[simp] theorem State.breach_region (s : State) (code : Nat) (r' : Nat) : (State.breach s code).region r' = s.region r' := by
  simp only [State.region, State.breach_regions]
@[simp] theorem State.breach_strings (s : State) (code : Nat) : (State.breach s code).strings = s.strings :=
  (State.moves_breach ..).frame .strings (by decide)
@[simp] theorem State.breach_str (s : State) (code : Nat) (i' : Nat) : (State.breach s code).str i' = s.str i' := by
  simp only [State.str, State.breach_strings]
@[simp] theorem State.breach_courses (s : State) (code : Nat) : (State.breach s code).courses = s.courses :=
  (State.moves_breach ..).frame .courses (by decide)
@[simp] theorem State.breach_course (s : State) (code : Nat) (c' : Nat) : (State.breach s code).course c' = s.course c' := by
  simp only [State.course, State.breach_courses]
@[simp] theorem State.breach_chans (s : State) (code : Nat) : (State.breach s code).chans = s.chans :=
  (State.moves_breach ..).frame .chans (by decide)
@[simp] theorem State.breach_chan (s : State) (code : Nat) (c' : Nat) : (State.breach s code).chan c' = s.chan c' := by
  simp only [State.chan, State.breach_chans]
@[simp] theorem State.breach_eng (s : State) (code : Nat) : (State.breach s code).eng = s.eng :=
  (State.moves_breach ..).frame .eng (by decide)
@[simp] theorem State.breach_used (s : State) (code : Nat) : (State.breach s code).used = s.used :=
  (State.moves_breach ..).frame .used (by decide)
@[simp] theorem State.breach_cap (s : State) (code : Nat) : (State.breach s code).cap = s.cap :=
  (State.moves_breach ..).frame .cap (by decide)
@[simp] theorem State.breach_telem (s : State) (code : Nat) : (State.breach s code).telem = s.telem :=
  (State.moves_breach ..).frame .telem (by decide)
@[simp] theorem State.breach_tune (s : State) (code : Nat) : (State.breach s code).tune = s.tune :=
  (State.moves_breach ..).frame .tune (by decide)
@[simp] theorem State.breach_hints (s : State) (code : Nat) : (State.breach s code).hints = s.hints :=
  (State.moves_breach ..).frame .hints (by decide)
@[simp] theorem State.breach_learn (s : State) (code : Nat) : (State.breach s code).learn = s.learn :=
  (State.moves_breach ..).frame .learn (by decide)
@[simp] theorem State.breach_therm (s : State) (code : Nat) : (State.breach s code).therm = s.therm :=
  (State.moves_breach ..).frame .therm (by decide)
@[simp] theorem State.breach_diode (s : State) (code : Nat) (r' : Nat) : (State.breach s code).diode r' = s.diode r' := by
  simp only [State.diode, State.breach_therm]
@[simp] theorem State.breach_convs (s : State) (code : Nat) : (State.breach s code).convs = s.convs :=
  (State.moves_breach ..).frame .convs (by decide)
@[simp] theorem State.breach_conv (s : State) (code : Nat) (n' : Nat) : (State.breach s code).conv n' = s.conv n' := by
  simp only [State.conv, State.breach_convs]
@[simp] theorem State.breach_cg (s : State) (code : Nat) : (State.breach s code).cg = s.cg :=
  (State.moves_breach ..).frame .cg (by decide)
@[simp] theorem State.breach_dict (s : State) (code : Nat) : (State.breach s code).dict = s.dict :=
  (State.moves_breach ..).frame .dict (by decide)
@[simp] theorem State.breach_dma (s : State) (code : Nat) : (State.breach s code).dma = s.dma :=
  (State.moves_breach ..).frame .dma (by decide)
@[simp] theorem State.breach_recd (s : State) (code : Nat) : (State.breach s code).recd = s.recd :=
  (State.moves_breach ..).frame .recd (by decide)
@[simp] theorem State.breach_clk (s : State) (code : Nat) : (State.breach s code).clk = s.clk :=
  (State.moves_breach ..).frame .clk (by decide)
@[simp] theorem State.breach_freeK (s : State) (code : Nat) : (State.breach s code).freeK = s.freeK :=
  (State.moves_breach ..).frame .freeK (by decide)
@[simp] theorem State.breach_pending (s : State) (code : Nat) : (State.breach s code).pending = s.pending :=
  (State.moves_breach ..).frame .pending (by decide)
@[simp] theorem State.stUpdate_cfg (s : State) (i : Nat) (field : Nat) (value : Nat) : (State.stUpdate s i field value).cfg = s.cfg :=
  (State.moves_stUpdate ..).frame .cfg (by decide)
@[simp] theorem State.stUpdate_now (s : State) (i : Nat) (field : Nat) (value : Nat) : (State.stUpdate s i field value).now = s.now :=
  (State.moves_stUpdate ..).frame .now (by decide)
@[simp] theorem State.stUpdate_blk (s : State) (i : Nat) (field : Nat) (value : Nat) : (State.stUpdate s i field value).blk = s.blk :=
  (State.moves_stUpdate ..).frame .blk (by decide)
@[simp] theorem State.stUpdate_rails (s : State) (i : Nat) (field : Nat) (value : Nat) : (State.stUpdate s i field value).rails = s.rails :=
  (State.moves_stUpdate ..).frame .rails (by decide)
@[simp] theorem State.stUpdate_rail (s : State) (i : Nat) (field : Nat) (value : Nat) (q' : Nat) : (State.stUpdate s i field value).rail q' = s.rail q' := by
  simp only [State.rail, State.stUpdate_rails]
@[simp] theorem State.stUpdate_regions (s : State) (i : Nat) (field : Nat) (value : Nat) : (State.stUpdate s i field value).regions = s.regions :=
  (State.moves_stUpdate ..).frame .regions (by decide)
@[simp] theorem State.stUpdate_region (s : State) (i : Nat) (field : Nat) (value : Nat) (r' : Nat) : (State.stUpdate s i field value).region r' = s.region r' := by
  simp only [State.region, State.stUpdate_regions]
@[simp] theorem State.stUpdate_strings (s : State) (i : Nat) (field : Nat) (value : Nat) : (State.stUpdate s i field value).strings = s.strings :=
  (State.moves_stUpdate ..).frame .strings (by decide)
@[simp] theorem State.stUpdate_str (s : State) (i : Nat) (field : Nat) (value : Nat) (i' : Nat) : (State.stUpdate s i field value).str i' = s.str i' := by
  simp only [State.str, State.stUpdate_strings]
@[simp] theorem State.stUpdate_courses (s : State) (i : Nat) (field : Nat) (value : Nat) : (State.stUpdate s i field value).courses = s.courses :=
  (State.moves_stUpdate ..).frame .courses (by decide)
@[simp] theorem State.stUpdate_course (s : State) (i : Nat) (field : Nat) (value : Nat) (c' : Nat) : (State.stUpdate s i field value).course c' = s.course c' := by
  simp only [State.course, State.stUpdate_courses]
@[simp] theorem State.stUpdate_chans (s : State) (i : Nat) (field : Nat) (value : Nat) : (State.stUpdate s i field value).chans = s.chans :=
  (State.moves_stUpdate ..).frame .chans (by decide)
@[simp] theorem State.stUpdate_chan (s : State) (i : Nat) (field : Nat) (value : Nat) (c' : Nat) : (State.stUpdate s i field value).chan c' = s.chan c' := by
  simp only [State.chan, State.stUpdate_chans]
@[simp] theorem State.stUpdate_eng (s : State) (i : Nat) (field : Nat) (value : Nat) : (State.stUpdate s i field value).eng = s.eng :=
  (State.moves_stUpdate ..).frame .eng (by decide)
@[simp] theorem State.stUpdate_used (s : State) (i : Nat) (field : Nat) (value : Nat) : (State.stUpdate s i field value).used = s.used :=
  (State.moves_stUpdate ..).frame .used (by decide)
@[simp] theorem State.stUpdate_cap (s : State) (i : Nat) (field : Nat) (value : Nat) : (State.stUpdate s i field value).cap = s.cap :=
  (State.moves_stUpdate ..).frame .cap (by decide)
@[simp] theorem State.stUpdate_telem (s : State) (i : Nat) (field : Nat) (value : Nat) : (State.stUpdate s i field value).telem = s.telem :=
  (State.moves_stUpdate ..).frame .telem (by decide)
@[simp] theorem State.stUpdate_tune (s : State) (i : Nat) (field : Nat) (value : Nat) : (State.stUpdate s i field value).tune = s.tune :=
  (State.moves_stUpdate ..).frame .tune (by decide)
@[simp] theorem State.stUpdate_hints (s : State) (i : Nat) (field : Nat) (value : Nat) : (State.stUpdate s i field value).hints = s.hints :=
  (State.moves_stUpdate ..).frame .hints (by decide)
@[simp] theorem State.stUpdate_learn (s : State) (i : Nat) (field : Nat) (value : Nat) : (State.stUpdate s i field value).learn = s.learn :=
  (State.moves_stUpdate ..).frame .learn (by decide)
@[simp] theorem State.stUpdate_therm (s : State) (i : Nat) (field : Nat) (value : Nat) : (State.stUpdate s i field value).therm = s.therm :=
  (State.moves_stUpdate ..).frame .therm (by decide)
@[simp] theorem State.stUpdate_diode (s : State) (i : Nat) (field : Nat) (value : Nat) (r' : Nat) : (State.stUpdate s i field value).diode r' = s.diode r' := by
  simp only [State.diode, State.stUpdate_therm]
@[simp] theorem State.stUpdate_convs (s : State) (i : Nat) (field : Nat) (value : Nat) : (State.stUpdate s i field value).convs = s.convs :=
  (State.moves_stUpdate ..).frame .convs (by decide)
@[simp] theorem State.stUpdate_conv (s : State) (i : Nat) (field : Nat) (value : Nat) (n' : Nat) : (State.stUpdate s i field value).conv n' = s.conv n' := by
  simp only [State.conv, State.stUpdate_convs]
@[simp] theorem State.stUpdate_cg (s : State) (i : Nat) (field : Nat) (value : Nat) : (State.stUpdate s i field value).cg = s.cg :=
  (State.moves_stUpdate ..).frame .cg (by decide)
@[simp] theorem State.stUpdate_dict (s : State) (i : Nat) (field : Nat) (value : Nat) : (State.stUpdate s i field value).dict = s.dict :=
  (State.moves_stUpdate ..).frame .dict (by decide)
@[simp] theorem State.stUpdate_recd (s : State) (i : Nat) (field : Nat) (value : Nat) : (State.stUpdate s i field value).recd = s.recd :=
  (State.moves_stUpdate ..).frame .recd (by decide)
@[simp] theorem State.stUpdate_clk (s : State) (i : Nat) (field : Nat) (value : Nat) : (State.stUpdate s i field value).clk = s.clk :=
  (State.moves_stUpdate ..).frame .clk (by decide)
@[simp] theorem State.stUpdate_freeK (s : State) (i : Nat) (field : Nat) (value : Nat) : (State.stUpdate s i field value).freeK = s.freeK :=
  (State.moves_stUpdate ..).frame .freeK (by decide)
@[simp] theorem State.stUpdate_pending (s : State) (i : Nat) (field : Nat) (value : Nat) : (State.stUpdate s i field value).pending = s.pending :=
  (State.moves_stUpdate ..).frame .pending (by decide)
@[simp] theorem State.stFetch_cfg (s : State) (i : Nat) : (State.stFetch s i).cfg = s.cfg :=
  (State.moves_stFetch ..).frame .cfg (by decide)
@[simp] theorem State.stFetch_now (s : State) (i : Nat) : (State.stFetch s i).now = s.now :=
  (State.moves_stFetch ..).frame .now (by decide)
@[simp] theorem State.stFetch_blk (s : State) (i : Nat) : (State.stFetch s i).blk = s.blk :=
  (State.moves_stFetch ..).frame .blk (by decide)
@[simp] theorem State.stFetch_rails (s : State) (i : Nat) : (State.stFetch s i).rails = s.rails :=
  (State.moves_stFetch ..).frame .rails (by decide)
@[simp] theorem State.stFetch_rail (s : State) (i : Nat) (q' : Nat) : (State.stFetch s i).rail q' = s.rail q' := by
  simp only [State.rail, State.stFetch_rails]
@[simp] theorem State.stFetch_regions (s : State) (i : Nat) : (State.stFetch s i).regions = s.regions :=
  (State.moves_stFetch ..).frame .regions (by decide)
@[simp] theorem State.stFetch_region (s : State) (i : Nat) (r' : Nat) : (State.stFetch s i).region r' = s.region r' := by
  simp only [State.region, State.stFetch_regions]
@[simp] theorem State.stFetch_strings (s : State) (i : Nat) : (State.stFetch s i).strings = s.strings :=
  (State.moves_stFetch ..).frame .strings (by decide)
@[simp] theorem State.stFetch_str (s : State) (i : Nat) (i' : Nat) : (State.stFetch s i).str i' = s.str i' := by
  simp only [State.str, State.stFetch_strings]
@[simp] theorem State.stFetch_courses (s : State) (i : Nat) : (State.stFetch s i).courses = s.courses :=
  (State.moves_stFetch ..).frame .courses (by decide)
@[simp] theorem State.stFetch_course (s : State) (i : Nat) (c' : Nat) : (State.stFetch s i).course c' = s.course c' := by
  simp only [State.course, State.stFetch_courses]
@[simp] theorem State.stFetch_chans (s : State) (i : Nat) : (State.stFetch s i).chans = s.chans :=
  (State.moves_stFetch ..).frame .chans (by decide)
@[simp] theorem State.stFetch_chan (s : State) (i : Nat) (c' : Nat) : (State.stFetch s i).chan c' = s.chan c' := by
  simp only [State.chan, State.stFetch_chans]
@[simp] theorem State.stFetch_eng (s : State) (i : Nat) : (State.stFetch s i).eng = s.eng :=
  (State.moves_stFetch ..).frame .eng (by decide)
@[simp] theorem State.stFetch_used (s : State) (i : Nat) : (State.stFetch s i).used = s.used :=
  (State.moves_stFetch ..).frame .used (by decide)
@[simp] theorem State.stFetch_cap (s : State) (i : Nat) : (State.stFetch s i).cap = s.cap :=
  (State.moves_stFetch ..).frame .cap (by decide)
@[simp] theorem State.stFetch_telem (s : State) (i : Nat) : (State.stFetch s i).telem = s.telem :=
  (State.moves_stFetch ..).frame .telem (by decide)
@[simp] theorem State.stFetch_tune (s : State) (i : Nat) : (State.stFetch s i).tune = s.tune :=
  (State.moves_stFetch ..).frame .tune (by decide)
@[simp] theorem State.stFetch_hints (s : State) (i : Nat) : (State.stFetch s i).hints = s.hints :=
  (State.moves_stFetch ..).frame .hints (by decide)
@[simp] theorem State.stFetch_learn (s : State) (i : Nat) : (State.stFetch s i).learn = s.learn :=
  (State.moves_stFetch ..).frame .learn (by decide)
@[simp] theorem State.stFetch_therm (s : State) (i : Nat) : (State.stFetch s i).therm = s.therm :=
  (State.moves_stFetch ..).frame .therm (by decide)
@[simp] theorem State.stFetch_diode (s : State) (i : Nat) (r' : Nat) : (State.stFetch s i).diode r' = s.diode r' := by
  simp only [State.diode, State.stFetch_therm]
@[simp] theorem State.stFetch_convs (s : State) (i : Nat) : (State.stFetch s i).convs = s.convs :=
  (State.moves_stFetch ..).frame .convs (by decide)
@[simp] theorem State.stFetch_conv (s : State) (i : Nat) (n' : Nat) : (State.stFetch s i).conv n' = s.conv n' := by
  simp only [State.conv, State.stFetch_convs]
@[simp] theorem State.stFetch_cg (s : State) (i : Nat) : (State.stFetch s i).cg = s.cg :=
  (State.moves_stFetch ..).frame .cg (by decide)
@[simp] theorem State.stFetch_dict (s : State) (i : Nat) : (State.stFetch s i).dict = s.dict :=
  (State.moves_stFetch ..).frame .dict (by decide)
@[simp] theorem State.stFetch_recd (s : State) (i : Nat) : (State.stFetch s i).recd = s.recd :=
  (State.moves_stFetch ..).frame .recd (by decide)
@[simp] theorem State.stFetch_clk (s : State) (i : Nat) : (State.stFetch s i).clk = s.clk :=
  (State.moves_stFetch ..).frame .clk (by decide)
@[simp] theorem State.stFetch_freeK (s : State) (i : Nat) : (State.stFetch s i).freeK = s.freeK :=
  (State.moves_stFetch ..).frame .freeK (by decide)
@[simp] theorem State.stFetch_pending (s : State) (i : Nat) : (State.stFetch s i).pending = s.pending :=
  (State.moves_stFetch ..).frame .pending (by decide)
@[simp] theorem State.memIssue_cfg (s : State) (t : Txn) : (State.memIssue s t).cfg = s.cfg :=
  (State.moves_memIssue ..).frame .cfg (by decide)
@[simp] theorem State.memIssue_now (s : State) (t : Txn) : (State.memIssue s t).now = s.now :=
  (State.moves_memIssue ..).frame .now (by decide)
@[simp] theorem State.memIssue_blk (s : State) (t : Txn) : (State.memIssue s t).blk = s.blk :=
  (State.moves_memIssue ..).frame .blk (by decide)
@[simp] theorem State.memIssue_rails (s : State) (t : Txn) : (State.memIssue s t).rails = s.rails :=
  (State.moves_memIssue ..).frame .rails (by decide)
@[simp] theorem State.memIssue_rail (s : State) (t : Txn) (q' : Nat) : (State.memIssue s t).rail q' = s.rail q' := by
  simp only [State.rail, State.memIssue_rails]
@[simp] theorem State.memIssue_regions (s : State) (t : Txn) : (State.memIssue s t).regions = s.regions :=
  (State.moves_memIssue ..).frame .regions (by decide)
@[simp] theorem State.memIssue_region (s : State) (t : Txn) (r' : Nat) : (State.memIssue s t).region r' = s.region r' := by
  simp only [State.region, State.memIssue_regions]
@[simp] theorem State.memIssue_strings (s : State) (t : Txn) : (State.memIssue s t).strings = s.strings :=
  (State.moves_memIssue ..).frame .strings (by decide)
@[simp] theorem State.memIssue_str (s : State) (t : Txn) (i' : Nat) : (State.memIssue s t).str i' = s.str i' := by
  simp only [State.str, State.memIssue_strings]
@[simp] theorem State.memIssue_courses (s : State) (t : Txn) : (State.memIssue s t).courses = s.courses :=
  (State.moves_memIssue ..).frame .courses (by decide)
@[simp] theorem State.memIssue_course (s : State) (t : Txn) (c' : Nat) : (State.memIssue s t).course c' = s.course c' := by
  simp only [State.course, State.memIssue_courses]
@[simp] theorem State.memIssue_chans (s : State) (t : Txn) : (State.memIssue s t).chans = s.chans :=
  (State.moves_memIssue ..).frame .chans (by decide)
@[simp] theorem State.memIssue_chan (s : State) (t : Txn) (c' : Nat) : (State.memIssue s t).chan c' = s.chan c' := by
  simp only [State.chan, State.memIssue_chans]
@[simp] theorem State.memIssue_eng (s : State) (t : Txn) : (State.memIssue s t).eng = s.eng :=
  (State.moves_memIssue ..).frame .eng (by decide)
@[simp] theorem State.memIssue_used (s : State) (t : Txn) : (State.memIssue s t).used = s.used :=
  (State.moves_memIssue ..).frame .used (by decide)
@[simp] theorem State.memIssue_cap (s : State) (t : Txn) : (State.memIssue s t).cap = s.cap :=
  (State.moves_memIssue ..).frame .cap (by decide)
@[simp] theorem State.memIssue_telem (s : State) (t : Txn) : (State.memIssue s t).telem = s.telem :=
  (State.moves_memIssue ..).frame .telem (by decide)
@[simp] theorem State.memIssue_tune (s : State) (t : Txn) : (State.memIssue s t).tune = s.tune :=
  (State.moves_memIssue ..).frame .tune (by decide)
@[simp] theorem State.memIssue_hints (s : State) (t : Txn) : (State.memIssue s t).hints = s.hints :=
  (State.moves_memIssue ..).frame .hints (by decide)
@[simp] theorem State.memIssue_learn (s : State) (t : Txn) : (State.memIssue s t).learn = s.learn :=
  (State.moves_memIssue ..).frame .learn (by decide)
@[simp] theorem State.memIssue_therm (s : State) (t : Txn) : (State.memIssue s t).therm = s.therm :=
  (State.moves_memIssue ..).frame .therm (by decide)
@[simp] theorem State.memIssue_diode (s : State) (t : Txn) (r' : Nat) : (State.memIssue s t).diode r' = s.diode r' := by
  simp only [State.diode, State.memIssue_therm]
@[simp] theorem State.memIssue_convs (s : State) (t : Txn) : (State.memIssue s t).convs = s.convs :=
  (State.moves_memIssue ..).frame .convs (by decide)
@[simp] theorem State.memIssue_conv (s : State) (t : Txn) (n' : Nat) : (State.memIssue s t).conv n' = s.conv n' := by
  simp only [State.conv, State.memIssue_convs]
@[simp] theorem State.memIssue_cg (s : State) (t : Txn) : (State.memIssue s t).cg = s.cg :=
  (State.moves_memIssue ..).frame .cg (by decide)
@[simp] theorem State.memIssue_dict (s : State) (t : Txn) : (State.memIssue s t).dict = s.dict :=
  (State.moves_memIssue ..).frame .dict (by decide)
@[simp] theorem State.memIssue_recd (s : State) (t : Txn) : (State.memIssue s t).recd = s.recd :=
  (State.moves_memIssue ..).frame .recd (by decide)
@[simp] theorem State.memIssue_clk (s : State) (t : Txn) : (State.memIssue s t).clk = s.clk :=
  (State.moves_memIssue ..).frame .clk (by decide)
@[simp] theorem State.memIssue_freeK (s : State) (t : Txn) : (State.memIssue s t).freeK = s.freeK :=
  (State.moves_memIssue ..).frame .freeK (by decide)
@[simp] theorem State.memIssue_pending (s : State) (t : Txn) : (State.memIssue s t).pending = s.pending :=
  (State.moves_memIssue ..).frame .pending (by decide)
@[simp] theorem State.mark_cfg (s : State) (i : Nat) : (State.mark s i).cfg = s.cfg :=
  (State.moves_mark ..).frame .cfg (by decide)
@[simp] theorem State.mark_now (s : State) (i : Nat) : (State.mark s i).now = s.now :=
  (State.moves_mark ..).frame .now (by decide)
@[simp] theorem State.mark_blk (s : State) (i : Nat) : (State.mark s i).blk = s.blk :=
  (State.moves_mark ..).frame .blk (by decide)
@[simp] theorem State.mark_rails (s : State) (i : Nat) : (State.mark s i).rails = s.rails :=
  (State.moves_mark ..).frame .rails (by decide)
@[simp] theorem State.mark_rail (s : State) (i : Nat) (q' : Nat) : (State.mark s i).rail q' = s.rail q' := by
  simp only [State.rail, State.mark_rails]
@[simp] theorem State.mark_strings (s : State) (i : Nat) : (State.mark s i).strings = s.strings :=
  (State.moves_mark ..).frame .strings (by decide)
@[simp] theorem State.mark_str (s : State) (i : Nat) (i' : Nat) : (State.mark s i).str i' = s.str i' := by
  simp only [State.str, State.mark_strings]
@[simp] theorem State.mark_courses (s : State) (i : Nat) : (State.mark s i).courses = s.courses :=
  (State.moves_mark ..).frame .courses (by decide)
@[simp] theorem State.mark_course (s : State) (i : Nat) (c' : Nat) : (State.mark s i).course c' = s.course c' := by
  simp only [State.course, State.mark_courses]
@[simp] theorem State.mark_chans (s : State) (i : Nat) : (State.mark s i).chans = s.chans :=
  (State.moves_mark ..).frame .chans (by decide)
@[simp] theorem State.mark_chan (s : State) (i : Nat) (c' : Nat) : (State.mark s i).chan c' = s.chan c' := by
  simp only [State.chan, State.mark_chans]
@[simp] theorem State.mark_eng (s : State) (i : Nat) : (State.mark s i).eng = s.eng :=
  (State.moves_mark ..).frame .eng (by decide)
@[simp] theorem State.mark_used (s : State) (i : Nat) : (State.mark s i).used = s.used :=
  (State.moves_mark ..).frame .used (by decide)
@[simp] theorem State.mark_cap (s : State) (i : Nat) : (State.mark s i).cap = s.cap :=
  (State.moves_mark ..).frame .cap (by decide)
@[simp] theorem State.mark_telem (s : State) (i : Nat) : (State.mark s i).telem = s.telem :=
  (State.moves_mark ..).frame .telem (by decide)
@[simp] theorem State.mark_tune (s : State) (i : Nat) : (State.mark s i).tune = s.tune :=
  (State.moves_mark ..).frame .tune (by decide)
@[simp] theorem State.mark_hints (s : State) (i : Nat) : (State.mark s i).hints = s.hints :=
  (State.moves_mark ..).frame .hints (by decide)
@[simp] theorem State.mark_learn (s : State) (i : Nat) : (State.mark s i).learn = s.learn :=
  (State.moves_mark ..).frame .learn (by decide)
@[simp] theorem State.mark_therm (s : State) (i : Nat) : (State.mark s i).therm = s.therm :=
  (State.moves_mark ..).frame .therm (by decide)
@[simp] theorem State.mark_diode (s : State) (i : Nat) (r' : Nat) : (State.mark s i).diode r' = s.diode r' := by
  simp only [State.diode, State.mark_therm]
@[simp] theorem State.mark_convs (s : State) (i : Nat) : (State.mark s i).convs = s.convs :=
  (State.moves_mark ..).frame .convs (by decide)
@[simp] theorem State.mark_conv (s : State) (i : Nat) (n' : Nat) : (State.mark s i).conv n' = s.conv n' := by
  simp only [State.conv, State.mark_convs]
@[simp] theorem State.mark_cg (s : State) (i : Nat) : (State.mark s i).cg = s.cg :=
  (State.moves_mark ..).frame .cg (by decide)
@[simp] theorem State.mark_dict (s : State) (i : Nat) : (State.mark s i).dict = s.dict :=
  (State.moves_mark ..).frame .dict (by decide)
@[simp] theorem State.mark_dma (s : State) (i : Nat) : (State.mark s i).dma = s.dma :=
  (State.moves_mark ..).frame .dma (by decide)
@[simp] theorem State.mark_recd (s : State) (i : Nat) : (State.mark s i).recd = s.recd :=
  (State.moves_mark ..).frame .recd (by decide)
@[simp] theorem State.mark_clk (s : State) (i : Nat) : (State.mark s i).clk = s.clk :=
  (State.moves_mark ..).frame .clk (by decide)
@[simp] theorem State.mark_regs (s : State) (i : Nat) : (State.mark s i).regs = s.regs :=
  (State.moves_mark ..).frame .regs (by decide)
@[simp] theorem State.mark_get (s : State) (i : Nat) (g' : Reg) : (State.mark s i).get g' = s.get g' := by
  simp only [State.get, State.mark_regs]
@[simp] theorem State.mark_getN (s : State) (i : Nat) (g' : Reg) : (State.mark s i).getN g' = s.getN g' := by
  simp only [State.getN, State.get, State.mark_regs]
@[simp] theorem State.mark_freeK (s : State) (i : Nat) : (State.mark s i).freeK = s.freeK :=
  (State.moves_mark ..).frame .freeK (by decide)
@[simp] theorem State.mark_pending (s : State) (i : Nat) : (State.mark s i).pending = s.pending :=
  (State.moves_mark ..).frame .pending (by decide)
@[simp] theorem State.strTo_cfg (s : State) (i : Nat) (new : StrSt) (f : Str → Str) : (State.strTo s i new f).cfg = s.cfg :=
  (State.moves_strTo ..).frame .cfg (by decide)
@[simp] theorem State.strTo_now (s : State) (i : Nat) (new : StrSt) (f : Str → Str) : (State.strTo s i new f).now = s.now :=
  (State.moves_strTo ..).frame .now (by decide)
@[simp] theorem State.strTo_blk (s : State) (i : Nat) (new : StrSt) (f : Str → Str) : (State.strTo s i new f).blk = s.blk :=
  (State.moves_strTo ..).frame .blk (by decide)
@[simp] theorem State.strTo_rails (s : State) (i : Nat) (new : StrSt) (f : Str → Str) : (State.strTo s i new f).rails = s.rails :=
  (State.moves_strTo ..).frame .rails (by decide)
@[simp] theorem State.strTo_rail (s : State) (i : Nat) (new : StrSt) (f : Str → Str) (q' : Nat) : (State.strTo s i new f).rail q' = s.rail q' := by
  simp only [State.rail, State.strTo_rails]
@[simp] theorem State.strTo_courses (s : State) (i : Nat) (new : StrSt) (f : Str → Str) : (State.strTo s i new f).courses = s.courses :=
  (State.moves_strTo ..).frame .courses (by decide)
@[simp] theorem State.strTo_course (s : State) (i : Nat) (new : StrSt) (f : Str → Str) (c' : Nat) : (State.strTo s i new f).course c' = s.course c' := by
  simp only [State.course, State.strTo_courses]
@[simp] theorem State.strTo_chans (s : State) (i : Nat) (new : StrSt) (f : Str → Str) : (State.strTo s i new f).chans = s.chans :=
  (State.moves_strTo ..).frame .chans (by decide)
@[simp] theorem State.strTo_chan (s : State) (i : Nat) (new : StrSt) (f : Str → Str) (c' : Nat) : (State.strTo s i new f).chan c' = s.chan c' := by
  simp only [State.chan, State.strTo_chans]
@[simp] theorem State.strTo_eng (s : State) (i : Nat) (new : StrSt) (f : Str → Str) : (State.strTo s i new f).eng = s.eng :=
  (State.moves_strTo ..).frame .eng (by decide)
@[simp] theorem State.strTo_used (s : State) (i : Nat) (new : StrSt) (f : Str → Str) : (State.strTo s i new f).used = s.used :=
  (State.moves_strTo ..).frame .used (by decide)
@[simp] theorem State.strTo_telem (s : State) (i : Nat) (new : StrSt) (f : Str → Str) : (State.strTo s i new f).telem = s.telem :=
  (State.moves_strTo ..).frame .telem (by decide)
@[simp] theorem State.strTo_tune (s : State) (i : Nat) (new : StrSt) (f : Str → Str) : (State.strTo s i new f).tune = s.tune :=
  (State.moves_strTo ..).frame .tune (by decide)
@[simp] theorem State.strTo_hints (s : State) (i : Nat) (new : StrSt) (f : Str → Str) : (State.strTo s i new f).hints = s.hints :=
  (State.moves_strTo ..).frame .hints (by decide)
@[simp] theorem State.strTo_learn (s : State) (i : Nat) (new : StrSt) (f : Str → Str) : (State.strTo s i new f).learn = s.learn :=
  (State.moves_strTo ..).frame .learn (by decide)
@[simp] theorem State.strTo_therm (s : State) (i : Nat) (new : StrSt) (f : Str → Str) : (State.strTo s i new f).therm = s.therm :=
  (State.moves_strTo ..).frame .therm (by decide)
@[simp] theorem State.strTo_diode (s : State) (i : Nat) (new : StrSt) (f : Str → Str) (r' : Nat) : (State.strTo s i new f).diode r' = s.diode r' := by
  simp only [State.diode, State.strTo_therm]
@[simp] theorem State.strTo_convs (s : State) (i : Nat) (new : StrSt) (f : Str → Str) : (State.strTo s i new f).convs = s.convs :=
  (State.moves_strTo ..).frame .convs (by decide)
@[simp] theorem State.strTo_conv (s : State) (i : Nat) (new : StrSt) (f : Str → Str) (n' : Nat) : (State.strTo s i new f).conv n' = s.conv n' := by
  simp only [State.conv, State.strTo_convs]
@[simp] theorem State.strTo_cg (s : State) (i : Nat) (new : StrSt) (f : Str → Str) : (State.strTo s i new f).cg = s.cg :=
  (State.moves_strTo ..).frame .cg (by decide)
@[simp] theorem State.strTo_dict (s : State) (i : Nat) (new : StrSt) (f : Str → Str) : (State.strTo s i new f).dict = s.dict :=
  (State.moves_strTo ..).frame .dict (by decide)
@[simp] theorem State.strTo_dma (s : State) (i : Nat) (new : StrSt) (f : Str → Str) : (State.strTo s i new f).dma = s.dma :=
  (State.moves_strTo ..).frame .dma (by decide)
@[simp] theorem State.strTo_clk (s : State) (i : Nat) (new : StrSt) (f : Str → Str) : (State.strTo s i new f).clk = s.clk :=
  (State.moves_strTo ..).frame .clk (by decide)
@[simp] theorem State.strTo_freeK (s : State) (i : Nat) (new : StrSt) (f : Str → Str) : (State.strTo s i new f).freeK = s.freeK :=
  (State.moves_strTo ..).frame .freeK (by decide)
@[simp] theorem State.strTo_pending (s : State) (i : Nat) (new : StrSt) (f : Str → Str) : (State.strTo s i new f).pending = s.pending :=
  (State.moves_strTo ..).frame .pending (by decide)
@[simp] theorem State.mute_cfg (s : State) (i : Nat) (cause : Nat) : (State.mute s i cause).cfg = s.cfg :=
  (State.moves_mute ..).frame .cfg (by decide)
@[simp] theorem State.mute_now (s : State) (i : Nat) (cause : Nat) : (State.mute s i cause).now = s.now :=
  (State.moves_mute ..).frame .now (by decide)
@[simp] theorem State.mute_blk (s : State) (i : Nat) (cause : Nat) : (State.mute s i cause).blk = s.blk :=
  (State.moves_mute ..).frame .blk (by decide)
@[simp] theorem State.mute_rails (s : State) (i : Nat) (cause : Nat) : (State.mute s i cause).rails = s.rails :=
  (State.moves_mute ..).frame .rails (by decide)
@[simp] theorem State.mute_rail (s : State) (i : Nat) (cause : Nat) (q' : Nat) : (State.mute s i cause).rail q' = s.rail q' := by
  simp only [State.rail, State.mute_rails]
@[simp] theorem State.mute_courses (s : State) (i : Nat) (cause : Nat) : (State.mute s i cause).courses = s.courses :=
  (State.moves_mute ..).frame .courses (by decide)
@[simp] theorem State.mute_course (s : State) (i : Nat) (cause : Nat) (c' : Nat) : (State.mute s i cause).course c' = s.course c' := by
  simp only [State.course, State.mute_courses]
@[simp] theorem State.mute_chans (s : State) (i : Nat) (cause : Nat) : (State.mute s i cause).chans = s.chans :=
  (State.moves_mute ..).frame .chans (by decide)
@[simp] theorem State.mute_chan (s : State) (i : Nat) (cause : Nat) (c' : Nat) : (State.mute s i cause).chan c' = s.chan c' := by
  simp only [State.chan, State.mute_chans]
@[simp] theorem State.mute_eng (s : State) (i : Nat) (cause : Nat) : (State.mute s i cause).eng = s.eng :=
  (State.moves_mute ..).frame .eng (by decide)
@[simp] theorem State.mute_used (s : State) (i : Nat) (cause : Nat) : (State.mute s i cause).used = s.used :=
  (State.moves_mute ..).frame .used (by decide)
@[simp] theorem State.mute_cap (s : State) (i : Nat) (cause : Nat) : (State.mute s i cause).cap = s.cap :=
  (State.moves_mute ..).frame .cap (by decide)
@[simp] theorem State.mute_telem (s : State) (i : Nat) (cause : Nat) : (State.mute s i cause).telem = s.telem :=
  (State.moves_mute ..).frame .telem (by decide)
@[simp] theorem State.mute_tune (s : State) (i : Nat) (cause : Nat) : (State.mute s i cause).tune = s.tune :=
  (State.moves_mute ..).frame .tune (by decide)
@[simp] theorem State.mute_hints (s : State) (i : Nat) (cause : Nat) : (State.mute s i cause).hints = s.hints :=
  (State.moves_mute ..).frame .hints (by decide)
@[simp] theorem State.mute_learn (s : State) (i : Nat) (cause : Nat) : (State.mute s i cause).learn = s.learn :=
  (State.moves_mute ..).frame .learn (by decide)
@[simp] theorem State.mute_therm (s : State) (i : Nat) (cause : Nat) : (State.mute s i cause).therm = s.therm :=
  (State.moves_mute ..).frame .therm (by decide)
@[simp] theorem State.mute_diode (s : State) (i : Nat) (cause : Nat) (r' : Nat) : (State.mute s i cause).diode r' = s.diode r' := by
  simp only [State.diode, State.mute_therm]
@[simp] theorem State.mute_convs (s : State) (i : Nat) (cause : Nat) : (State.mute s i cause).convs = s.convs :=
  (State.moves_mute ..).frame .convs (by decide)
@[simp] theorem State.mute_conv (s : State) (i : Nat) (cause : Nat) (n' : Nat) : (State.mute s i cause).conv n' = s.conv n' := by
  simp only [State.conv, State.mute_convs]
@[simp] theorem State.mute_cg (s : State) (i : Nat) (cause : Nat) : (State.mute s i cause).cg = s.cg :=
  (State.moves_mute ..).frame .cg (by decide)
@[simp] theorem State.mute_dict (s : State) (i : Nat) (cause : Nat) : (State.mute s i cause).dict = s.dict :=
  (State.moves_mute ..).frame .dict (by decide)
@[simp] theorem State.mute_clk (s : State) (i : Nat) (cause : Nat) : (State.mute s i cause).clk = s.clk :=
  (State.moves_mute ..).frame .clk (by decide)
@[simp] theorem State.mute_freeK (s : State) (i : Nat) (cause : Nat) : (State.mute s i cause).freeK = s.freeK :=
  (State.moves_mute ..).frame .freeK (by decide)
@[simp] theorem State.mute_pending (s : State) (i : Nat) (cause : Nat) : (State.mute s i cause).pending = s.pending :=
  (State.moves_mute ..).frame .pending (by decide)
@[simp] theorem State.flagBlind_cfg (s : State) (i : Nat) (cause : Nat) : (State.flagBlind s i cause).cfg = s.cfg :=
  (State.moves_flagBlind ..).frame .cfg (by decide)
@[simp] theorem State.flagBlind_now (s : State) (i : Nat) (cause : Nat) : (State.flagBlind s i cause).now = s.now :=
  (State.moves_flagBlind ..).frame .now (by decide)
@[simp] theorem State.flagBlind_blk (s : State) (i : Nat) (cause : Nat) : (State.flagBlind s i cause).blk = s.blk :=
  (State.moves_flagBlind ..).frame .blk (by decide)
@[simp] theorem State.flagBlind_rails (s : State) (i : Nat) (cause : Nat) : (State.flagBlind s i cause).rails = s.rails :=
  (State.moves_flagBlind ..).frame .rails (by decide)
@[simp] theorem State.flagBlind_rail (s : State) (i : Nat) (cause : Nat) (q' : Nat) : (State.flagBlind s i cause).rail q' = s.rail q' := by
  simp only [State.rail, State.flagBlind_rails]
@[simp] theorem State.flagBlind_regions (s : State) (i : Nat) (cause : Nat) : (State.flagBlind s i cause).regions = s.regions :=
  (State.moves_flagBlind ..).frame .regions (by decide)
@[simp] theorem State.flagBlind_region (s : State) (i : Nat) (cause : Nat) (r' : Nat) : (State.flagBlind s i cause).region r' = s.region r' := by
  simp only [State.region, State.flagBlind_regions]
@[simp] theorem State.flagBlind_courses (s : State) (i : Nat) (cause : Nat) : (State.flagBlind s i cause).courses = s.courses :=
  (State.moves_flagBlind ..).frame .courses (by decide)
@[simp] theorem State.flagBlind_course (s : State) (i : Nat) (cause : Nat) (c' : Nat) : (State.flagBlind s i cause).course c' = s.course c' := by
  simp only [State.course, State.flagBlind_courses]
@[simp] theorem State.flagBlind_chans (s : State) (i : Nat) (cause : Nat) : (State.flagBlind s i cause).chans = s.chans :=
  (State.moves_flagBlind ..).frame .chans (by decide)
@[simp] theorem State.flagBlind_chan (s : State) (i : Nat) (cause : Nat) (c' : Nat) : (State.flagBlind s i cause).chan c' = s.chan c' := by
  simp only [State.chan, State.flagBlind_chans]
@[simp] theorem State.flagBlind_eng (s : State) (i : Nat) (cause : Nat) : (State.flagBlind s i cause).eng = s.eng :=
  (State.moves_flagBlind ..).frame .eng (by decide)
@[simp] theorem State.flagBlind_used (s : State) (i : Nat) (cause : Nat) : (State.flagBlind s i cause).used = s.used :=
  (State.moves_flagBlind ..).frame .used (by decide)
@[simp] theorem State.flagBlind_cap (s : State) (i : Nat) (cause : Nat) : (State.flagBlind s i cause).cap = s.cap :=
  (State.moves_flagBlind ..).frame .cap (by decide)
@[simp] theorem State.flagBlind_telem (s : State) (i : Nat) (cause : Nat) : (State.flagBlind s i cause).telem = s.telem :=
  (State.moves_flagBlind ..).frame .telem (by decide)
@[simp] theorem State.flagBlind_tune (s : State) (i : Nat) (cause : Nat) : (State.flagBlind s i cause).tune = s.tune :=
  (State.moves_flagBlind ..).frame .tune (by decide)
@[simp] theorem State.flagBlind_hints (s : State) (i : Nat) (cause : Nat) : (State.flagBlind s i cause).hints = s.hints :=
  (State.moves_flagBlind ..).frame .hints (by decide)
@[simp] theorem State.flagBlind_learn (s : State) (i : Nat) (cause : Nat) : (State.flagBlind s i cause).learn = s.learn :=
  (State.moves_flagBlind ..).frame .learn (by decide)
@[simp] theorem State.flagBlind_therm (s : State) (i : Nat) (cause : Nat) : (State.flagBlind s i cause).therm = s.therm :=
  (State.moves_flagBlind ..).frame .therm (by decide)
@[simp] theorem State.flagBlind_diode (s : State) (i : Nat) (cause : Nat) (r' : Nat) : (State.flagBlind s i cause).diode r' = s.diode r' := by
  simp only [State.diode, State.flagBlind_therm]
@[simp] theorem State.flagBlind_convs (s : State) (i : Nat) (cause : Nat) : (State.flagBlind s i cause).convs = s.convs :=
  (State.moves_flagBlind ..).frame .convs (by decide)
@[simp] theorem State.flagBlind_conv (s : State) (i : Nat) (cause : Nat) (n' : Nat) : (State.flagBlind s i cause).conv n' = s.conv n' := by
  simp only [State.conv, State.flagBlind_convs]
@[simp] theorem State.flagBlind_cg (s : State) (i : Nat) (cause : Nat) : (State.flagBlind s i cause).cg = s.cg :=
  (State.moves_flagBlind ..).frame .cg (by decide)
@[simp] theorem State.flagBlind_dict (s : State) (i : Nat) (cause : Nat) : (State.flagBlind s i cause).dict = s.dict :=
  (State.moves_flagBlind ..).frame .dict (by decide)
@[simp] theorem State.flagBlind_recd (s : State) (i : Nat) (cause : Nat) : (State.flagBlind s i cause).recd = s.recd :=
  (State.moves_flagBlind ..).frame .recd (by decide)
@[simp] theorem State.flagBlind_clk (s : State) (i : Nat) (cause : Nat) : (State.flagBlind s i cause).clk = s.clk :=
  (State.moves_flagBlind ..).frame .clk (by decide)
@[simp] theorem State.flagBlind_freeK (s : State) (i : Nat) (cause : Nat) : (State.flagBlind s i cause).freeK = s.freeK :=
  (State.moves_flagBlind ..).frame .freeK (by decide)
@[simp] theorem State.flagBlind_pending (s : State) (i : Nat) (cause : Nat) : (State.flagBlind s i cause).pending = s.pending :=
  (State.moves_flagBlind ..).frame .pending (by decide)
@[simp] theorem State.makeBlind_cfg (s : State) (i : Nat) (cause : Nat) : (State.makeBlind s i cause).cfg = s.cfg :=
  (State.moves_makeBlind ..).frame .cfg (by decide)
@[simp] theorem State.makeBlind_now (s : State) (i : Nat) (cause : Nat) : (State.makeBlind s i cause).now = s.now :=
  (State.moves_makeBlind ..).frame .now (by decide)
@[simp] theorem State.makeBlind_blk (s : State) (i : Nat) (cause : Nat) : (State.makeBlind s i cause).blk = s.blk :=
  (State.moves_makeBlind ..).frame .blk (by decide)
@[simp] theorem State.makeBlind_rails (s : State) (i : Nat) (cause : Nat) : (State.makeBlind s i cause).rails = s.rails :=
  (State.moves_makeBlind ..).frame .rails (by decide)
@[simp] theorem State.makeBlind_rail (s : State) (i : Nat) (cause : Nat) (q' : Nat) : (State.makeBlind s i cause).rail q' = s.rail q' := by
  simp only [State.rail, State.makeBlind_rails]
@[simp] theorem State.makeBlind_courses (s : State) (i : Nat) (cause : Nat) : (State.makeBlind s i cause).courses = s.courses :=
  (State.moves_makeBlind ..).frame .courses (by decide)
@[simp] theorem State.makeBlind_course (s : State) (i : Nat) (cause : Nat) (c' : Nat) : (State.makeBlind s i cause).course c' = s.course c' := by
  simp only [State.course, State.makeBlind_courses]
@[simp] theorem State.makeBlind_chans (s : State) (i : Nat) (cause : Nat) : (State.makeBlind s i cause).chans = s.chans :=
  (State.moves_makeBlind ..).frame .chans (by decide)
@[simp] theorem State.makeBlind_chan (s : State) (i : Nat) (cause : Nat) (c' : Nat) : (State.makeBlind s i cause).chan c' = s.chan c' := by
  simp only [State.chan, State.makeBlind_chans]
@[simp] theorem State.makeBlind_eng (s : State) (i : Nat) (cause : Nat) : (State.makeBlind s i cause).eng = s.eng :=
  (State.moves_makeBlind ..).frame .eng (by decide)
@[simp] theorem State.makeBlind_used (s : State) (i : Nat) (cause : Nat) : (State.makeBlind s i cause).used = s.used :=
  (State.moves_makeBlind ..).frame .used (by decide)
@[simp] theorem State.makeBlind_telem (s : State) (i : Nat) (cause : Nat) : (State.makeBlind s i cause).telem = s.telem :=
  (State.moves_makeBlind ..).frame .telem (by decide)
@[simp] theorem State.makeBlind_tune (s : State) (i : Nat) (cause : Nat) : (State.makeBlind s i cause).tune = s.tune :=
  (State.moves_makeBlind ..).frame .tune (by decide)
@[simp] theorem State.makeBlind_hints (s : State) (i : Nat) (cause : Nat) : (State.makeBlind s i cause).hints = s.hints :=
  (State.moves_makeBlind ..).frame .hints (by decide)
@[simp] theorem State.makeBlind_learn (s : State) (i : Nat) (cause : Nat) : (State.makeBlind s i cause).learn = s.learn :=
  (State.moves_makeBlind ..).frame .learn (by decide)
@[simp] theorem State.makeBlind_therm (s : State) (i : Nat) (cause : Nat) : (State.makeBlind s i cause).therm = s.therm :=
  (State.moves_makeBlind ..).frame .therm (by decide)
@[simp] theorem State.makeBlind_diode (s : State) (i : Nat) (cause : Nat) (r' : Nat) : (State.makeBlind s i cause).diode r' = s.diode r' := by
  simp only [State.diode, State.makeBlind_therm]
@[simp] theorem State.makeBlind_convs (s : State) (i : Nat) (cause : Nat) : (State.makeBlind s i cause).convs = s.convs :=
  (State.moves_makeBlind ..).frame .convs (by decide)
@[simp] theorem State.makeBlind_conv (s : State) (i : Nat) (cause : Nat) (n' : Nat) : (State.makeBlind s i cause).conv n' = s.conv n' := by
  simp only [State.conv, State.makeBlind_convs]
@[simp] theorem State.makeBlind_cg (s : State) (i : Nat) (cause : Nat) : (State.makeBlind s i cause).cg = s.cg :=
  (State.moves_makeBlind ..).frame .cg (by decide)
@[simp] theorem State.makeBlind_dict (s : State) (i : Nat) (cause : Nat) : (State.makeBlind s i cause).dict = s.dict :=
  (State.moves_makeBlind ..).frame .dict (by decide)
@[simp] theorem State.makeBlind_clk (s : State) (i : Nat) (cause : Nat) : (State.makeBlind s i cause).clk = s.clk :=
  (State.moves_makeBlind ..).frame .clk (by decide)
@[simp] theorem State.makeBlind_freeK (s : State) (i : Nat) (cause : Nat) : (State.makeBlind s i cause).freeK = s.freeK :=
  (State.moves_makeBlind ..).frame .freeK (by decide)
@[simp] theorem State.makeBlind_pending (s : State) (i : Nat) (cause : Nat) : (State.makeBlind s i cause).pending = s.pending :=
  (State.moves_makeBlind ..).frame .pending (by decide)
@[simp] theorem State.toHiccup_cfg (s : State) (i : Nat) : (State.toHiccup s i).cfg = s.cfg :=
  (State.moves_toHiccup ..).frame .cfg (by decide)
@[simp] theorem State.toHiccup_now (s : State) (i : Nat) : (State.toHiccup s i).now = s.now :=
  (State.moves_toHiccup ..).frame .now (by decide)
@[simp] theorem State.toHiccup_blk (s : State) (i : Nat) : (State.toHiccup s i).blk = s.blk :=
  (State.moves_toHiccup ..).frame .blk (by decide)
@[simp] theorem State.toHiccup_rails (s : State) (i : Nat) : (State.toHiccup s i).rails = s.rails :=
  (State.moves_toHiccup ..).frame .rails (by decide)
@[simp] theorem State.toHiccup_rail (s : State) (i : Nat) (q' : Nat) : (State.toHiccup s i).rail q' = s.rail q' := by
  simp only [State.rail, State.toHiccup_rails]
@[simp] theorem State.toHiccup_courses (s : State) (i : Nat) : (State.toHiccup s i).courses = s.courses :=
  (State.moves_toHiccup ..).frame .courses (by decide)
@[simp] theorem State.toHiccup_course (s : State) (i : Nat) (c' : Nat) : (State.toHiccup s i).course c' = s.course c' := by
  simp only [State.course, State.toHiccup_courses]
@[simp] theorem State.toHiccup_chans (s : State) (i : Nat) : (State.toHiccup s i).chans = s.chans :=
  (State.moves_toHiccup ..).frame .chans (by decide)
@[simp] theorem State.toHiccup_chan (s : State) (i : Nat) (c' : Nat) : (State.toHiccup s i).chan c' = s.chan c' := by
  simp only [State.chan, State.toHiccup_chans]
@[simp] theorem State.toHiccup_eng (s : State) (i : Nat) : (State.toHiccup s i).eng = s.eng :=
  (State.moves_toHiccup ..).frame .eng (by decide)
@[simp] theorem State.toHiccup_used (s : State) (i : Nat) : (State.toHiccup s i).used = s.used :=
  (State.moves_toHiccup ..).frame .used (by decide)
@[simp] theorem State.toHiccup_telem (s : State) (i : Nat) : (State.toHiccup s i).telem = s.telem :=
  (State.moves_toHiccup ..).frame .telem (by decide)
@[simp] theorem State.toHiccup_tune (s : State) (i : Nat) : (State.toHiccup s i).tune = s.tune :=
  (State.moves_toHiccup ..).frame .tune (by decide)
@[simp] theorem State.toHiccup_hints (s : State) (i : Nat) : (State.toHiccup s i).hints = s.hints :=
  (State.moves_toHiccup ..).frame .hints (by decide)
@[simp] theorem State.toHiccup_learn (s : State) (i : Nat) : (State.toHiccup s i).learn = s.learn :=
  (State.moves_toHiccup ..).frame .learn (by decide)
@[simp] theorem State.toHiccup_therm (s : State) (i : Nat) : (State.toHiccup s i).therm = s.therm :=
  (State.moves_toHiccup ..).frame .therm (by decide)
@[simp] theorem State.toHiccup_diode (s : State) (i : Nat) (r' : Nat) : (State.toHiccup s i).diode r' = s.diode r' := by
  simp only [State.diode, State.toHiccup_therm]
@[simp] theorem State.toHiccup_convs (s : State) (i : Nat) : (State.toHiccup s i).convs = s.convs :=
  (State.moves_toHiccup ..).frame .convs (by decide)
@[simp] theorem State.toHiccup_conv (s : State) (i : Nat) (n' : Nat) : (State.toHiccup s i).conv n' = s.conv n' := by
  simp only [State.conv, State.toHiccup_convs]
@[simp] theorem State.toHiccup_cg (s : State) (i : Nat) : (State.toHiccup s i).cg = s.cg :=
  (State.moves_toHiccup ..).frame .cg (by decide)
@[simp] theorem State.toHiccup_dict (s : State) (i : Nat) : (State.toHiccup s i).dict = s.dict :=
  (State.moves_toHiccup ..).frame .dict (by decide)
@[simp] theorem State.toHiccup_clk (s : State) (i : Nat) : (State.toHiccup s i).clk = s.clk :=
  (State.moves_toHiccup ..).frame .clk (by decide)
@[simp] theorem State.toHiccup_freeK (s : State) (i : Nat) : (State.toHiccup s i).freeK = s.freeK :=
  (State.moves_toHiccup ..).frame .freeK (by decide)
@[simp] theorem State.toHiccup_pending (s : State) (i : Nat) : (State.toHiccup s i).pending = s.pending :=
  (State.moves_toHiccup ..).frame .pending (by decide)
@[simp] theorem State.rejoin_cfg (s : State) (i : Nat) : (State.rejoin s i).cfg = s.cfg :=
  (State.moves_rejoin ..).frame .cfg (by decide)
@[simp] theorem State.rejoin_now (s : State) (i : Nat) : (State.rejoin s i).now = s.now :=
  (State.moves_rejoin ..).frame .now (by decide)
@[simp] theorem State.rejoin_blk (s : State) (i : Nat) : (State.rejoin s i).blk = s.blk :=
  (State.moves_rejoin ..).frame .blk (by decide)
@[simp] theorem State.rejoin_rails (s : State) (i : Nat) : (State.rejoin s i).rails = s.rails :=
  (State.moves_rejoin ..).frame .rails (by decide)
@[simp] theorem State.rejoin_rail (s : State) (i : Nat) (q' : Nat) : (State.rejoin s i).rail q' = s.rail q' := by
  simp only [State.rail, State.rejoin_rails]
@[simp] theorem State.rejoin_courses (s : State) (i : Nat) : (State.rejoin s i).courses = s.courses :=
  (State.moves_rejoin ..).frame .courses (by decide)
@[simp] theorem State.rejoin_course (s : State) (i : Nat) (c' : Nat) : (State.rejoin s i).course c' = s.course c' := by
  simp only [State.course, State.rejoin_courses]
@[simp] theorem State.rejoin_chans (s : State) (i : Nat) : (State.rejoin s i).chans = s.chans :=
  (State.moves_rejoin ..).frame .chans (by decide)
@[simp] theorem State.rejoin_chan (s : State) (i : Nat) (c' : Nat) : (State.rejoin s i).chan c' = s.chan c' := by
  simp only [State.chan, State.rejoin_chans]
@[simp] theorem State.rejoin_eng (s : State) (i : Nat) : (State.rejoin s i).eng = s.eng :=
  (State.moves_rejoin ..).frame .eng (by decide)
@[simp] theorem State.rejoin_used (s : State) (i : Nat) : (State.rejoin s i).used = s.used :=
  (State.moves_rejoin ..).frame .used (by decide)
@[simp] theorem State.rejoin_telem (s : State) (i : Nat) : (State.rejoin s i).telem = s.telem :=
  (State.moves_rejoin ..).frame .telem (by decide)
@[simp] theorem State.rejoin_tune (s : State) (i : Nat) : (State.rejoin s i).tune = s.tune :=
  (State.moves_rejoin ..).frame .tune (by decide)
@[simp] theorem State.rejoin_hints (s : State) (i : Nat) : (State.rejoin s i).hints = s.hints :=
  (State.moves_rejoin ..).frame .hints (by decide)
@[simp] theorem State.rejoin_learn (s : State) (i : Nat) : (State.rejoin s i).learn = s.learn :=
  (State.moves_rejoin ..).frame .learn (by decide)
@[simp] theorem State.rejoin_therm (s : State) (i : Nat) : (State.rejoin s i).therm = s.therm :=
  (State.moves_rejoin ..).frame .therm (by decide)
@[simp] theorem State.rejoin_diode (s : State) (i : Nat) (r' : Nat) : (State.rejoin s i).diode r' = s.diode r' := by
  simp only [State.diode, State.rejoin_therm]
@[simp] theorem State.rejoin_convs (s : State) (i : Nat) : (State.rejoin s i).convs = s.convs :=
  (State.moves_rejoin ..).frame .convs (by decide)
@[simp] theorem State.rejoin_conv (s : State) (i : Nat) (n' : Nat) : (State.rejoin s i).conv n' = s.conv n' := by
  simp only [State.conv, State.rejoin_convs]
@[simp] theorem State.rejoin_cg (s : State) (i : Nat) : (State.rejoin s i).cg = s.cg :=
  (State.moves_rejoin ..).frame .cg (by decide)
@[simp] theorem State.rejoin_dict (s : State) (i : Nat) : (State.rejoin s i).dict = s.dict :=
  (State.moves_rejoin ..).frame .dict (by decide)
@[simp] theorem State.rejoin_dma (s : State) (i : Nat) : (State.rejoin s i).dma = s.dma :=
  (State.moves_rejoin ..).frame .dma (by decide)
@[simp] theorem State.rejoin_clk (s : State) (i : Nat) : (State.rejoin s i).clk = s.clk :=
  (State.moves_rejoin ..).frame .clk (by decide)
@[simp] theorem State.rejoin_freeK (s : State) (i : Nat) : (State.rejoin s i).freeK = s.freeK :=
  (State.moves_rejoin ..).frame .freeK (by decide)
@[simp] theorem State.rejoin_pending (s : State) (i : Nat) : (State.rejoin s i).pending = s.pending :=
  (State.moves_rejoin ..).frame .pending (by decide)
@[simp] theorem State.rejoinAll_cfg (s : State) (r : Nat) : (State.rejoinAll s r).cfg = s.cfg :=
  (State.moves_rejoinAll ..).frame .cfg (by decide)
@[simp] theorem State.rejoinAll_now (s : State) (r : Nat) : (State.rejoinAll s r).now = s.now :=
  (State.moves_rejoinAll ..).frame .now (by decide)
@[simp] theorem State.rejoinAll_blk (s : State) (r : Nat) : (State.rejoinAll s r).blk = s.blk :=
  (State.moves_rejoinAll ..).frame .blk (by decide)
@[simp] theorem State.rejoinAll_rails (s : State) (r : Nat) : (State.rejoinAll s r).rails = s.rails :=
  (State.moves_rejoinAll ..).frame .rails (by decide)
@[simp] theorem State.rejoinAll_rail (s : State) (r : Nat) (q' : Nat) : (State.rejoinAll s r).rail q' = s.rail q' := by
  simp only [State.rail, State.rejoinAll_rails]
@[simp] theorem State.rejoinAll_courses (s : State) (r : Nat) : (State.rejoinAll s r).courses = s.courses :=
  (State.moves_rejoinAll ..).frame .courses (by decide)
@[simp] theorem State.rejoinAll_course (s : State) (r : Nat) (c' : Nat) : (State.rejoinAll s r).course c' = s.course c' := by
  simp only [State.course, State.rejoinAll_courses]
@[simp] theorem State.rejoinAll_chans (s : State) (r : Nat) : (State.rejoinAll s r).chans = s.chans :=
  (State.moves_rejoinAll ..).frame .chans (by decide)
@[simp] theorem State.rejoinAll_chan (s : State) (r : Nat) (c' : Nat) : (State.rejoinAll s r).chan c' = s.chan c' := by
  simp only [State.chan, State.rejoinAll_chans]
@[simp] theorem State.rejoinAll_eng (s : State) (r : Nat) : (State.rejoinAll s r).eng = s.eng :=
  (State.moves_rejoinAll ..).frame .eng (by decide)
@[simp] theorem State.rejoinAll_used (s : State) (r : Nat) : (State.rejoinAll s r).used = s.used :=
  (State.moves_rejoinAll ..).frame .used (by decide)
@[simp] theorem State.rejoinAll_telem (s : State) (r : Nat) : (State.rejoinAll s r).telem = s.telem :=
  (State.moves_rejoinAll ..).frame .telem (by decide)
@[simp] theorem State.rejoinAll_tune (s : State) (r : Nat) : (State.rejoinAll s r).tune = s.tune :=
  (State.moves_rejoinAll ..).frame .tune (by decide)
@[simp] theorem State.rejoinAll_hints (s : State) (r : Nat) : (State.rejoinAll s r).hints = s.hints :=
  (State.moves_rejoinAll ..).frame .hints (by decide)
@[simp] theorem State.rejoinAll_learn (s : State) (r : Nat) : (State.rejoinAll s r).learn = s.learn :=
  (State.moves_rejoinAll ..).frame .learn (by decide)
@[simp] theorem State.rejoinAll_therm (s : State) (r : Nat) : (State.rejoinAll s r).therm = s.therm :=
  (State.moves_rejoinAll ..).frame .therm (by decide)
@[simp] theorem State.rejoinAll_diode (s : State) (r : Nat) (r' : Nat) : (State.rejoinAll s r).diode r' = s.diode r' := by
  simp only [State.diode, State.rejoinAll_therm]
@[simp] theorem State.rejoinAll_convs (s : State) (r : Nat) : (State.rejoinAll s r).convs = s.convs :=
  (State.moves_rejoinAll ..).frame .convs (by decide)
@[simp] theorem State.rejoinAll_conv (s : State) (r : Nat) (n' : Nat) : (State.rejoinAll s r).conv n' = s.conv n' := by
  simp only [State.conv, State.rejoinAll_convs]
@[simp] theorem State.rejoinAll_cg (s : State) (r : Nat) : (State.rejoinAll s r).cg = s.cg :=
  (State.moves_rejoinAll ..).frame .cg (by decide)
@[simp] theorem State.rejoinAll_dict (s : State) (r : Nat) : (State.rejoinAll s r).dict = s.dict :=
  (State.moves_rejoinAll ..).frame .dict (by decide)
@[simp] theorem State.rejoinAll_dma (s : State) (r : Nat) : (State.rejoinAll s r).dma = s.dma :=
  (State.moves_rejoinAll ..).frame .dma (by decide)
@[simp] theorem State.rejoinAll_clk (s : State) (r : Nat) : (State.rejoinAll s r).clk = s.clk :=
  (State.moves_rejoinAll ..).frame .clk (by decide)
@[simp] theorem State.rejoinAll_freeK (s : State) (r : Nat) : (State.rejoinAll s r).freeK = s.freeK :=
  (State.moves_rejoinAll ..).frame .freeK (by decide)
@[simp] theorem State.rejoinAll_pending (s : State) (r : Nat) : (State.rejoinAll s r).pending = s.pending :=
  (State.moves_rejoinAll ..).frame .pending (by decide)
@[simp] theorem State.setCapo_cfg (s : State) (r : Nat) (v : Nat) : (State.setCapo s r v).cfg = s.cfg :=
  (State.moves_setCapo ..).frame .cfg (by decide)
@[simp] theorem State.setCapo_now (s : State) (r : Nat) (v : Nat) : (State.setCapo s r v).now = s.now :=
  (State.moves_setCapo ..).frame .now (by decide)
@[simp] theorem State.setCapo_blk (s : State) (r : Nat) (v : Nat) : (State.setCapo s r v).blk = s.blk :=
  (State.moves_setCapo ..).frame .blk (by decide)
@[simp] theorem State.setCapo_rails (s : State) (r : Nat) (v : Nat) : (State.setCapo s r v).rails = s.rails :=
  (State.moves_setCapo ..).frame .rails (by decide)
@[simp] theorem State.setCapo_rail (s : State) (r : Nat) (v : Nat) (q' : Nat) : (State.setCapo s r v).rail q' = s.rail q' := by
  simp only [State.rail, State.setCapo_rails]
@[simp] theorem State.setCapo_strings (s : State) (r : Nat) (v : Nat) : (State.setCapo s r v).strings = s.strings :=
  (State.moves_setCapo ..).frame .strings (by decide)
@[simp] theorem State.setCapo_str (s : State) (r : Nat) (v : Nat) (i' : Nat) : (State.setCapo s r v).str i' = s.str i' := by
  simp only [State.str, State.setCapo_strings]
@[simp] theorem State.setCapo_courses (s : State) (r : Nat) (v : Nat) : (State.setCapo s r v).courses = s.courses :=
  (State.moves_setCapo ..).frame .courses (by decide)
@[simp] theorem State.setCapo_course (s : State) (r : Nat) (v : Nat) (c' : Nat) : (State.setCapo s r v).course c' = s.course c' := by
  simp only [State.course, State.setCapo_courses]
@[simp] theorem State.setCapo_chans (s : State) (r : Nat) (v : Nat) : (State.setCapo s r v).chans = s.chans :=
  (State.moves_setCapo ..).frame .chans (by decide)
@[simp] theorem State.setCapo_chan (s : State) (r : Nat) (v : Nat) (c' : Nat) : (State.setCapo s r v).chan c' = s.chan c' := by
  simp only [State.chan, State.setCapo_chans]
@[simp] theorem State.setCapo_eng (s : State) (r : Nat) (v : Nat) : (State.setCapo s r v).eng = s.eng :=
  (State.moves_setCapo ..).frame .eng (by decide)
@[simp] theorem State.setCapo_used (s : State) (r : Nat) (v : Nat) : (State.setCapo s r v).used = s.used :=
  (State.moves_setCapo ..).frame .used (by decide)
@[simp] theorem State.setCapo_cap (s : State) (r : Nat) (v : Nat) : (State.setCapo s r v).cap = s.cap :=
  (State.moves_setCapo ..).frame .cap (by decide)
@[simp] theorem State.setCapo_telem (s : State) (r : Nat) (v : Nat) : (State.setCapo s r v).telem = s.telem :=
  (State.moves_setCapo ..).frame .telem (by decide)
@[simp] theorem State.setCapo_tune (s : State) (r : Nat) (v : Nat) : (State.setCapo s r v).tune = s.tune :=
  (State.moves_setCapo ..).frame .tune (by decide)
@[simp] theorem State.setCapo_hints (s : State) (r : Nat) (v : Nat) : (State.setCapo s r v).hints = s.hints :=
  (State.moves_setCapo ..).frame .hints (by decide)
@[simp] theorem State.setCapo_learn (s : State) (r : Nat) (v : Nat) : (State.setCapo s r v).learn = s.learn :=
  (State.moves_setCapo ..).frame .learn (by decide)
@[simp] theorem State.setCapo_therm (s : State) (r : Nat) (v : Nat) : (State.setCapo s r v).therm = s.therm :=
  (State.moves_setCapo ..).frame .therm (by decide)
@[simp] theorem State.setCapo_diode (s : State) (r : Nat) (v : Nat) (r' : Nat) : (State.setCapo s r v).diode r' = s.diode r' := by
  simp only [State.diode, State.setCapo_therm]
@[simp] theorem State.setCapo_convs (s : State) (r : Nat) (v : Nat) : (State.setCapo s r v).convs = s.convs :=
  (State.moves_setCapo ..).frame .convs (by decide)
@[simp] theorem State.setCapo_conv (s : State) (r : Nat) (v : Nat) (n' : Nat) : (State.setCapo s r v).conv n' = s.conv n' := by
  simp only [State.conv, State.setCapo_convs]
@[simp] theorem State.setCapo_cg (s : State) (r : Nat) (v : Nat) : (State.setCapo s r v).cg = s.cg :=
  (State.moves_setCapo ..).frame .cg (by decide)
@[simp] theorem State.setCapo_dict (s : State) (r : Nat) (v : Nat) : (State.setCapo s r v).dict = s.dict :=
  (State.moves_setCapo ..).frame .dict (by decide)
@[simp] theorem State.setCapo_dma (s : State) (r : Nat) (v : Nat) : (State.setCapo s r v).dma = s.dma :=
  (State.moves_setCapo ..).frame .dma (by decide)
@[simp] theorem State.setCapo_recd (s : State) (r : Nat) (v : Nat) : (State.setCapo s r v).recd = s.recd :=
  (State.moves_setCapo ..).frame .recd (by decide)
@[simp] theorem State.setCapo_clk (s : State) (r : Nat) (v : Nat) : (State.setCapo s r v).clk = s.clk :=
  (State.moves_setCapo ..).frame .clk (by decide)
@[simp] theorem State.setCapo_freeK (s : State) (r : Nat) (v : Nat) : (State.setCapo s r v).freeK = s.freeK :=
  (State.moves_setCapo ..).frame .freeK (by decide)
@[simp] theorem State.setCapo_pending (s : State) (r : Nat) (v : Nat) : (State.setCapo s r v).pending = s.pending :=
  (State.moves_setCapo ..).frame .pending (by decide)
@[simp] theorem State.courseFault_cfg (s : State) (c : Nat) : (State.courseFault s c).cfg = s.cfg :=
  (State.moves_courseFault ..).frame .cfg (by decide)
@[simp] theorem State.courseFault_now (s : State) (c : Nat) : (State.courseFault s c).now = s.now :=
  (State.moves_courseFault ..).frame .now (by decide)
@[simp] theorem State.courseFault_blk (s : State) (c : Nat) : (State.courseFault s c).blk = s.blk :=
  (State.moves_courseFault ..).frame .blk (by decide)
@[simp] theorem State.courseFault_rails (s : State) (c : Nat) : (State.courseFault s c).rails = s.rails :=
  (State.moves_courseFault ..).frame .rails (by decide)
@[simp] theorem State.courseFault_rail (s : State) (c : Nat) (q' : Nat) : (State.courseFault s c).rail q' = s.rail q' := by
  simp only [State.rail, State.courseFault_rails]
@[simp] theorem State.courseFault_regions (s : State) (c : Nat) : (State.courseFault s c).regions = s.regions :=
  (State.moves_courseFault ..).frame .regions (by decide)
@[simp] theorem State.courseFault_region (s : State) (c : Nat) (r' : Nat) : (State.courseFault s c).region r' = s.region r' := by
  simp only [State.region, State.courseFault_regions]
@[simp] theorem State.courseFault_strings (s : State) (c : Nat) : (State.courseFault s c).strings = s.strings :=
  (State.moves_courseFault ..).frame .strings (by decide)
@[simp] theorem State.courseFault_str (s : State) (c : Nat) (i' : Nat) : (State.courseFault s c).str i' = s.str i' := by
  simp only [State.str, State.courseFault_strings]
@[simp] theorem State.courseFault_courses (s : State) (c : Nat) : (State.courseFault s c).courses = s.courses :=
  (State.moves_courseFault ..).frame .courses (by decide)
@[simp] theorem State.courseFault_course (s : State) (c : Nat) (c' : Nat) : (State.courseFault s c).course c' = s.course c' := by
  simp only [State.course, State.courseFault_courses]
@[simp] theorem State.courseFault_chans (s : State) (c : Nat) : (State.courseFault s c).chans = s.chans :=
  (State.moves_courseFault ..).frame .chans (by decide)
@[simp] theorem State.courseFault_chan (s : State) (c : Nat) (c' : Nat) : (State.courseFault s c).chan c' = s.chan c' := by
  simp only [State.chan, State.courseFault_chans]
@[simp] theorem State.courseFault_eng (s : State) (c : Nat) : (State.courseFault s c).eng = s.eng :=
  (State.moves_courseFault ..).frame .eng (by decide)
@[simp] theorem State.courseFault_used (s : State) (c : Nat) : (State.courseFault s c).used = s.used :=
  (State.moves_courseFault ..).frame .used (by decide)
@[simp] theorem State.courseFault_cap (s : State) (c : Nat) : (State.courseFault s c).cap = s.cap :=
  (State.moves_courseFault ..).frame .cap (by decide)
@[simp] theorem State.courseFault_telem (s : State) (c : Nat) : (State.courseFault s c).telem = s.telem :=
  (State.moves_courseFault ..).frame .telem (by decide)
@[simp] theorem State.courseFault_tune (s : State) (c : Nat) : (State.courseFault s c).tune = s.tune :=
  (State.moves_courseFault ..).frame .tune (by decide)
@[simp] theorem State.courseFault_hints (s : State) (c : Nat) : (State.courseFault s c).hints = s.hints :=
  (State.moves_courseFault ..).frame .hints (by decide)
@[simp] theorem State.courseFault_learn (s : State) (c : Nat) : (State.courseFault s c).learn = s.learn :=
  (State.moves_courseFault ..).frame .learn (by decide)
@[simp] theorem State.courseFault_therm (s : State) (c : Nat) : (State.courseFault s c).therm = s.therm :=
  (State.moves_courseFault ..).frame .therm (by decide)
@[simp] theorem State.courseFault_diode (s : State) (c : Nat) (r' : Nat) : (State.courseFault s c).diode r' = s.diode r' := by
  simp only [State.diode, State.courseFault_therm]
@[simp] theorem State.courseFault_convs (s : State) (c : Nat) : (State.courseFault s c).convs = s.convs :=
  (State.moves_courseFault ..).frame .convs (by decide)
@[simp] theorem State.courseFault_conv (s : State) (c : Nat) (n' : Nat) : (State.courseFault s c).conv n' = s.conv n' := by
  simp only [State.conv, State.courseFault_convs]
@[simp] theorem State.courseFault_cg (s : State) (c : Nat) : (State.courseFault s c).cg = s.cg :=
  (State.moves_courseFault ..).frame .cg (by decide)
@[simp] theorem State.courseFault_dict (s : State) (c : Nat) : (State.courseFault s c).dict = s.dict :=
  (State.moves_courseFault ..).frame .dict (by decide)
@[simp] theorem State.courseFault_dma (s : State) (c : Nat) : (State.courseFault s c).dma = s.dma :=
  (State.moves_courseFault ..).frame .dma (by decide)
@[simp] theorem State.courseFault_recd (s : State) (c : Nat) : (State.courseFault s c).recd = s.recd :=
  (State.moves_courseFault ..).frame .recd (by decide)
@[simp] theorem State.courseFault_clk (s : State) (c : Nat) : (State.courseFault s c).clk = s.clk :=
  (State.moves_courseFault ..).frame .clk (by decide)
@[simp] theorem State.courseFault_freeK (s : State) (c : Nat) : (State.courseFault s c).freeK = s.freeK :=
  (State.moves_courseFault ..).frame .freeK (by decide)
@[simp] theorem State.courseFault_pending (s : State) (c : Nat) : (State.courseFault s c).pending = s.pending :=
  (State.moves_courseFault ..).frame .pending (by decide)
@[simp] theorem State.followCause_cfg (s : State) (c : Nat) : (State.followCause s c).cfg = s.cfg :=
  (State.moves_followCause ..).frame .cfg (by decide)
@[simp] theorem State.followCause_now (s : State) (c : Nat) : (State.followCause s c).now = s.now :=
  (State.moves_followCause ..).frame .now (by decide)
@[simp] theorem State.followCause_blk (s : State) (c : Nat) : (State.followCause s c).blk = s.blk :=
  (State.moves_followCause ..).frame .blk (by decide)
@[simp] theorem State.followCause_rails (s : State) (c : Nat) : (State.followCause s c).rails = s.rails :=
  (State.moves_followCause ..).frame .rails (by decide)
@[simp] theorem State.followCause_rail (s : State) (c : Nat) (q' : Nat) : (State.followCause s c).rail q' = s.rail q' := by
  simp only [State.rail, State.followCause_rails]
@[simp] theorem State.followCause_regions (s : State) (c : Nat) : (State.followCause s c).regions = s.regions :=
  (State.moves_followCause ..).frame .regions (by decide)
@[simp] theorem State.followCause_region (s : State) (c : Nat) (r' : Nat) : (State.followCause s c).region r' = s.region r' := by
  simp only [State.region, State.followCause_regions]
@[simp] theorem State.followCause_strings (s : State) (c : Nat) : (State.followCause s c).strings = s.strings :=
  (State.moves_followCause ..).frame .strings (by decide)
@[simp] theorem State.followCause_str (s : State) (c : Nat) (i' : Nat) : (State.followCause s c).str i' = s.str i' := by
  simp only [State.str, State.followCause_strings]
@[simp] theorem State.followCause_chans (s : State) (c : Nat) : (State.followCause s c).chans = s.chans :=
  (State.moves_followCause ..).frame .chans (by decide)
@[simp] theorem State.followCause_chan (s : State) (c : Nat) (c' : Nat) : (State.followCause s c).chan c' = s.chan c' := by
  simp only [State.chan, State.followCause_chans]
@[simp] theorem State.followCause_eng (s : State) (c : Nat) : (State.followCause s c).eng = s.eng :=
  (State.moves_followCause ..).frame .eng (by decide)
@[simp] theorem State.followCause_used (s : State) (c : Nat) : (State.followCause s c).used = s.used :=
  (State.moves_followCause ..).frame .used (by decide)
@[simp] theorem State.followCause_cap (s : State) (c : Nat) : (State.followCause s c).cap = s.cap :=
  (State.moves_followCause ..).frame .cap (by decide)
@[simp] theorem State.followCause_telem (s : State) (c : Nat) : (State.followCause s c).telem = s.telem :=
  (State.moves_followCause ..).frame .telem (by decide)
@[simp] theorem State.followCause_tune (s : State) (c : Nat) : (State.followCause s c).tune = s.tune :=
  (State.moves_followCause ..).frame .tune (by decide)
@[simp] theorem State.followCause_hints (s : State) (c : Nat) : (State.followCause s c).hints = s.hints :=
  (State.moves_followCause ..).frame .hints (by decide)
@[simp] theorem State.followCause_learn (s : State) (c : Nat) : (State.followCause s c).learn = s.learn :=
  (State.moves_followCause ..).frame .learn (by decide)
@[simp] theorem State.followCause_therm (s : State) (c : Nat) : (State.followCause s c).therm = s.therm :=
  (State.moves_followCause ..).frame .therm (by decide)
@[simp] theorem State.followCause_diode (s : State) (c : Nat) (r' : Nat) : (State.followCause s c).diode r' = s.diode r' := by
  simp only [State.diode, State.followCause_therm]
@[simp] theorem State.followCause_convs (s : State) (c : Nat) : (State.followCause s c).convs = s.convs :=
  (State.moves_followCause ..).frame .convs (by decide)
@[simp] theorem State.followCause_conv (s : State) (c : Nat) (n' : Nat) : (State.followCause s c).conv n' = s.conv n' := by
  simp only [State.conv, State.followCause_convs]
@[simp] theorem State.followCause_cg (s : State) (c : Nat) : (State.followCause s c).cg = s.cg :=
  (State.moves_followCause ..).frame .cg (by decide)
@[simp] theorem State.followCause_dict (s : State) (c : Nat) : (State.followCause s c).dict = s.dict :=
  (State.moves_followCause ..).frame .dict (by decide)
@[simp] theorem State.followCause_dma (s : State) (c : Nat) : (State.followCause s c).dma = s.dma :=
  (State.moves_followCause ..).frame .dma (by decide)
@[simp] theorem State.followCause_recd (s : State) (c : Nat) : (State.followCause s c).recd = s.recd :=
  (State.moves_followCause ..).frame .recd (by decide)
@[simp] theorem State.followCause_clk (s : State) (c : Nat) : (State.followCause s c).clk = s.clk :=
  (State.moves_followCause ..).frame .clk (by decide)
@[simp] theorem State.followCause_regs (s : State) (c : Nat) : (State.followCause s c).regs = s.regs :=
  (State.moves_followCause ..).frame .regs (by decide)
@[simp] theorem State.followCause_get (s : State) (c : Nat) (g' : Reg) : (State.followCause s c).get g' = s.get g' := by
  simp only [State.get, State.followCause_regs]
@[simp] theorem State.followCause_getN (s : State) (c : Nat) (g' : Reg) : (State.followCause s c).getN g' = s.getN g' := by
  simp only [State.getN, State.get, State.followCause_regs]
@[simp] theorem State.followCause_freeK (s : State) (c : Nat) : (State.followCause s c).freeK = s.freeK :=
  (State.moves_followCause ..).frame .freeK (by decide)
@[simp] theorem State.followCause_pending (s : State) (c : Nat) : (State.followCause s c).pending = s.pending :=
  (State.moves_followCause ..).frame .pending (by decide)
@[simp] theorem State.cutPulse_cfg (s : State) (i : Nat) : (State.cutPulse s i).cfg = s.cfg :=
  (State.moves_cutPulse ..).frame .cfg (by decide)
@[simp] theorem State.cutPulse_now (s : State) (i : Nat) : (State.cutPulse s i).now = s.now :=
  (State.moves_cutPulse ..).frame .now (by decide)
@[simp] theorem State.cutPulse_blk (s : State) (i : Nat) : (State.cutPulse s i).blk = s.blk :=
  (State.moves_cutPulse ..).frame .blk (by decide)
@[simp] theorem State.cutPulse_rails (s : State) (i : Nat) : (State.cutPulse s i).rails = s.rails :=
  (State.moves_cutPulse ..).frame .rails (by decide)
@[simp] theorem State.cutPulse_rail (s : State) (i : Nat) (q' : Nat) : (State.cutPulse s i).rail q' = s.rail q' := by
  simp only [State.rail, State.cutPulse_rails]
@[simp] theorem State.cutPulse_regions (s : State) (i : Nat) : (State.cutPulse s i).regions = s.regions :=
  (State.moves_cutPulse ..).frame .regions (by decide)
@[simp] theorem State.cutPulse_region (s : State) (i : Nat) (r' : Nat) : (State.cutPulse s i).region r' = s.region r' := by
  simp only [State.region, State.cutPulse_regions]
@[simp] theorem State.cutPulse_courses (s : State) (i : Nat) : (State.cutPulse s i).courses = s.courses :=
  (State.moves_cutPulse ..).frame .courses (by decide)
@[simp] theorem State.cutPulse_course (s : State) (i : Nat) (c' : Nat) : (State.cutPulse s i).course c' = s.course c' := by
  simp only [State.course, State.cutPulse_courses]
@[simp] theorem State.cutPulse_chans (s : State) (i : Nat) : (State.cutPulse s i).chans = s.chans :=
  (State.moves_cutPulse ..).frame .chans (by decide)
@[simp] theorem State.cutPulse_chan (s : State) (i : Nat) (c' : Nat) : (State.cutPulse s i).chan c' = s.chan c' := by
  simp only [State.chan, State.cutPulse_chans]
@[simp] theorem State.cutPulse_eng (s : State) (i : Nat) : (State.cutPulse s i).eng = s.eng :=
  (State.moves_cutPulse ..).frame .eng (by decide)
@[simp] theorem State.cutPulse_used (s : State) (i : Nat) : (State.cutPulse s i).used = s.used :=
  (State.moves_cutPulse ..).frame .used (by decide)
@[simp] theorem State.cutPulse_cap (s : State) (i : Nat) : (State.cutPulse s i).cap = s.cap :=
  (State.moves_cutPulse ..).frame .cap (by decide)
@[simp] theorem State.cutPulse_telem (s : State) (i : Nat) : (State.cutPulse s i).telem = s.telem :=
  (State.moves_cutPulse ..).frame .telem (by decide)
@[simp] theorem State.cutPulse_tune (s : State) (i : Nat) : (State.cutPulse s i).tune = s.tune :=
  (State.moves_cutPulse ..).frame .tune (by decide)
@[simp] theorem State.cutPulse_hints (s : State) (i : Nat) : (State.cutPulse s i).hints = s.hints :=
  (State.moves_cutPulse ..).frame .hints (by decide)
@[simp] theorem State.cutPulse_learn (s : State) (i : Nat) : (State.cutPulse s i).learn = s.learn :=
  (State.moves_cutPulse ..).frame .learn (by decide)
@[simp] theorem State.cutPulse_therm (s : State) (i : Nat) : (State.cutPulse s i).therm = s.therm :=
  (State.moves_cutPulse ..).frame .therm (by decide)
@[simp] theorem State.cutPulse_diode (s : State) (i : Nat) (r' : Nat) : (State.cutPulse s i).diode r' = s.diode r' := by
  simp only [State.diode, State.cutPulse_therm]
@[simp] theorem State.cutPulse_convs (s : State) (i : Nat) : (State.cutPulse s i).convs = s.convs :=
  (State.moves_cutPulse ..).frame .convs (by decide)
@[simp] theorem State.cutPulse_conv (s : State) (i : Nat) (n' : Nat) : (State.cutPulse s i).conv n' = s.conv n' := by
  simp only [State.conv, State.cutPulse_convs]
@[simp] theorem State.cutPulse_cg (s : State) (i : Nat) : (State.cutPulse s i).cg = s.cg :=
  (State.moves_cutPulse ..).frame .cg (by decide)
@[simp] theorem State.cutPulse_dict (s : State) (i : Nat) : (State.cutPulse s i).dict = s.dict :=
  (State.moves_cutPulse ..).frame .dict (by decide)
@[simp] theorem State.cutPulse_dma (s : State) (i : Nat) : (State.cutPulse s i).dma = s.dma :=
  (State.moves_cutPulse ..).frame .dma (by decide)
@[simp] theorem State.cutPulse_recd (s : State) (i : Nat) : (State.cutPulse s i).recd = s.recd :=
  (State.moves_cutPulse ..).frame .recd (by decide)
@[simp] theorem State.cutPulse_clk (s : State) (i : Nat) : (State.cutPulse s i).clk = s.clk :=
  (State.moves_cutPulse ..).frame .clk (by decide)
@[simp] theorem State.cutPulse_regs (s : State) (i : Nat) : (State.cutPulse s i).regs = s.regs :=
  (State.moves_cutPulse ..).frame .regs (by decide)
@[simp] theorem State.cutPulse_get (s : State) (i : Nat) (g' : Reg) : (State.cutPulse s i).get g' = s.get g' := by
  simp only [State.get, State.cutPulse_regs]
@[simp] theorem State.cutPulse_getN (s : State) (i : Nat) (g' : Reg) : (State.cutPulse s i).getN g' = s.getN g' := by
  simp only [State.getN, State.get, State.cutPulse_regs]
@[simp] theorem State.cutPulse_freeK (s : State) (i : Nat) : (State.cutPulse s i).freeK = s.freeK :=
  (State.moves_cutPulse ..).frame .freeK (by decide)
@[simp] theorem State.cutPulse_pending (s : State) (i : Nat) : (State.cutPulse s i).pending = s.pending :=
  (State.moves_cutPulse ..).frame .pending (by decide)
@[simp] theorem State.haltRegion_cfg (s : State) (r : Nat) : (State.haltRegion s r).cfg = s.cfg :=
  (State.moves_haltRegion ..).frame .cfg (by decide)
@[simp] theorem State.haltRegion_now (s : State) (r : Nat) : (State.haltRegion s r).now = s.now :=
  (State.moves_haltRegion ..).frame .now (by decide)
@[simp] theorem State.haltRegion_blk (s : State) (r : Nat) : (State.haltRegion s r).blk = s.blk :=
  (State.moves_haltRegion ..).frame .blk (by decide)
@[simp] theorem State.haltRegion_rails (s : State) (r : Nat) : (State.haltRegion s r).rails = s.rails :=
  (State.moves_haltRegion ..).frame .rails (by decide)
@[simp] theorem State.haltRegion_rail (s : State) (r : Nat) (q' : Nat) : (State.haltRegion s r).rail q' = s.rail q' := by
  simp only [State.rail, State.haltRegion_rails]
@[simp] theorem State.haltRegion_courses (s : State) (r : Nat) : (State.haltRegion s r).courses = s.courses :=
  (State.moves_haltRegion ..).frame .courses (by decide)
@[simp] theorem State.haltRegion_course (s : State) (r : Nat) (c' : Nat) : (State.haltRegion s r).course c' = s.course c' := by
  simp only [State.course, State.haltRegion_courses]
@[simp] theorem State.haltRegion_chans (s : State) (r : Nat) : (State.haltRegion s r).chans = s.chans :=
  (State.moves_haltRegion ..).frame .chans (by decide)
@[simp] theorem State.haltRegion_chan (s : State) (r : Nat) (c' : Nat) : (State.haltRegion s r).chan c' = s.chan c' := by
  simp only [State.chan, State.haltRegion_chans]
@[simp] theorem State.haltRegion_eng (s : State) (r : Nat) : (State.haltRegion s r).eng = s.eng :=
  (State.moves_haltRegion ..).frame .eng (by decide)
@[simp] theorem State.haltRegion_used (s : State) (r : Nat) : (State.haltRegion s r).used = s.used :=
  (State.moves_haltRegion ..).frame .used (by decide)
@[simp] theorem State.haltRegion_cap (s : State) (r : Nat) : (State.haltRegion s r).cap = s.cap :=
  (State.moves_haltRegion ..).frame .cap (by decide)
@[simp] theorem State.haltRegion_telem (s : State) (r : Nat) : (State.haltRegion s r).telem = s.telem :=
  (State.moves_haltRegion ..).frame .telem (by decide)
@[simp] theorem State.haltRegion_tune (s : State) (r : Nat) : (State.haltRegion s r).tune = s.tune :=
  (State.moves_haltRegion ..).frame .tune (by decide)
@[simp] theorem State.haltRegion_hints (s : State) (r : Nat) : (State.haltRegion s r).hints = s.hints :=
  (State.moves_haltRegion ..).frame .hints (by decide)
@[simp] theorem State.haltRegion_learn (s : State) (r : Nat) : (State.haltRegion s r).learn = s.learn :=
  (State.moves_haltRegion ..).frame .learn (by decide)
@[simp] theorem State.haltRegion_therm (s : State) (r : Nat) : (State.haltRegion s r).therm = s.therm :=
  (State.moves_haltRegion ..).frame .therm (by decide)
@[simp] theorem State.haltRegion_diode (s : State) (r : Nat) (r' : Nat) : (State.haltRegion s r).diode r' = s.diode r' := by
  simp only [State.diode, State.haltRegion_therm]
@[simp] theorem State.haltRegion_convs (s : State) (r : Nat) : (State.haltRegion s r).convs = s.convs :=
  (State.moves_haltRegion ..).frame .convs (by decide)
@[simp] theorem State.haltRegion_conv (s : State) (r : Nat) (n' : Nat) : (State.haltRegion s r).conv n' = s.conv n' := by
  simp only [State.conv, State.haltRegion_convs]
@[simp] theorem State.haltRegion_cg (s : State) (r : Nat) : (State.haltRegion s r).cg = s.cg :=
  (State.moves_haltRegion ..).frame .cg (by decide)
@[simp] theorem State.haltRegion_dict (s : State) (r : Nat) : (State.haltRegion s r).dict = s.dict :=
  (State.moves_haltRegion ..).frame .dict (by decide)
@[simp] theorem State.haltRegion_dma (s : State) (r : Nat) : (State.haltRegion s r).dma = s.dma :=
  (State.moves_haltRegion ..).frame .dma (by decide)
@[simp] theorem State.haltRegion_recd (s : State) (r : Nat) : (State.haltRegion s r).recd = s.recd :=
  (State.moves_haltRegion ..).frame .recd (by decide)
@[simp] theorem State.haltRegion_clk (s : State) (r : Nat) : (State.haltRegion s r).clk = s.clk :=
  (State.moves_haltRegion ..).frame .clk (by decide)
@[simp] theorem State.haltRegion_regs (s : State) (r : Nat) : (State.haltRegion s r).regs = s.regs :=
  (State.moves_haltRegion ..).frame .regs (by decide)
@[simp] theorem State.haltRegion_get (s : State) (r : Nat) (g' : Reg) : (State.haltRegion s r).get g' = s.get g' := by
  simp only [State.get, State.haltRegion_regs]
@[simp] theorem State.haltRegion_getN (s : State) (r : Nat) (g' : Reg) : (State.haltRegion s r).getN g' = s.getN g' := by
  simp only [State.getN, State.get, State.haltRegion_regs]
@[simp] theorem State.haltRegion_freeK (s : State) (r : Nat) : (State.haltRegion s r).freeK = s.freeK :=
  (State.moves_haltRegion ..).frame .freeK (by decide)
@[simp] theorem State.haltRegion_pending (s : State) (r : Nat) : (State.haltRegion s r).pending = s.pending :=
  (State.moves_haltRegion ..).frame .pending (by decide)
@[simp] theorem State.haltAll_cfg (s : State) : (State.haltAll s).cfg = s.cfg :=
  (State.moves_haltAll ..).frame .cfg (by decide)
@[simp] theorem State.haltAll_now (s : State) : (State.haltAll s).now = s.now :=
  (State.moves_haltAll ..).frame .now (by decide)
@[simp] theorem State.haltAll_blk (s : State) : (State.haltAll s).blk = s.blk :=
  (State.moves_haltAll ..).frame .blk (by decide)
@[simp] theorem State.haltAll_rails (s : State) : (State.haltAll s).rails = s.rails :=
  (State.moves_haltAll ..).frame .rails (by decide)
@[simp] theorem State.haltAll_rail (s : State) (q' : Nat) : (State.haltAll s).rail q' = s.rail q' := by
  simp only [State.rail, State.haltAll_rails]
@[simp] theorem State.haltAll_courses (s : State) : (State.haltAll s).courses = s.courses :=
  (State.moves_haltAll ..).frame .courses (by decide)
@[simp] theorem State.haltAll_course (s : State) (c' : Nat) : (State.haltAll s).course c' = s.course c' := by
  simp only [State.course, State.haltAll_courses]
@[simp] theorem State.haltAll_chans (s : State) : (State.haltAll s).chans = s.chans :=
  (State.moves_haltAll ..).frame .chans (by decide)
@[simp] theorem State.haltAll_chan (s : State) (c' : Nat) : (State.haltAll s).chan c' = s.chan c' := by
  simp only [State.chan, State.haltAll_chans]
@[simp] theorem State.haltAll_eng (s : State) : (State.haltAll s).eng = s.eng :=
  (State.moves_haltAll ..).frame .eng (by decide)
@[simp] theorem State.haltAll_used (s : State) : (State.haltAll s).used = s.used :=
  (State.moves_haltAll ..).frame .used (by decide)
@[simp] theorem State.haltAll_cap (s : State) : (State.haltAll s).cap = s.cap :=
  (State.moves_haltAll ..).frame .cap (by decide)
@[simp] theorem State.haltAll_telem (s : State) : (State.haltAll s).telem = s.telem :=
  (State.moves_haltAll ..).frame .telem (by decide)
@[simp] theorem State.haltAll_tune (s : State) : (State.haltAll s).tune = s.tune :=
  (State.moves_haltAll ..).frame .tune (by decide)
@[simp] theorem State.haltAll_hints (s : State) : (State.haltAll s).hints = s.hints :=
  (State.moves_haltAll ..).frame .hints (by decide)
@[simp] theorem State.haltAll_learn (s : State) : (State.haltAll s).learn = s.learn :=
  (State.moves_haltAll ..).frame .learn (by decide)
@[simp] theorem State.haltAll_therm (s : State) : (State.haltAll s).therm = s.therm :=
  (State.moves_haltAll ..).frame .therm (by decide)
@[simp] theorem State.haltAll_diode (s : State) (r' : Nat) : (State.haltAll s).diode r' = s.diode r' := by
  simp only [State.diode, State.haltAll_therm]
@[simp] theorem State.haltAll_convs (s : State) : (State.haltAll s).convs = s.convs :=
  (State.moves_haltAll ..).frame .convs (by decide)
@[simp] theorem State.haltAll_conv (s : State) (n' : Nat) : (State.haltAll s).conv n' = s.conv n' := by
  simp only [State.conv, State.haltAll_convs]
@[simp] theorem State.haltAll_cg (s : State) : (State.haltAll s).cg = s.cg :=
  (State.moves_haltAll ..).frame .cg (by decide)
@[simp] theorem State.haltAll_dict (s : State) : (State.haltAll s).dict = s.dict :=
  (State.moves_haltAll ..).frame .dict (by decide)
@[simp] theorem State.haltAll_dma (s : State) : (State.haltAll s).dma = s.dma :=
  (State.moves_haltAll ..).frame .dma (by decide)
@[simp] theorem State.haltAll_recd (s : State) : (State.haltAll s).recd = s.recd :=
  (State.moves_haltAll ..).frame .recd (by decide)
@[simp] theorem State.haltAll_clk (s : State) : (State.haltAll s).clk = s.clk :=
  (State.moves_haltAll ..).frame .clk (by decide)
@[simp] theorem State.haltAll_regs (s : State) : (State.haltAll s).regs = s.regs :=
  (State.moves_haltAll ..).frame .regs (by decide)
@[simp] theorem State.haltAll_get (s : State) (g' : Reg) : (State.haltAll s).get g' = s.get g' := by
  simp only [State.get, State.haltAll_regs]
@[simp] theorem State.haltAll_getN (s : State) (g' : Reg) : (State.haltAll s).getN g' = s.getN g' := by
  simp only [State.getN, State.get, State.haltAll_regs]
@[simp] theorem State.haltAll_freeK (s : State) : (State.haltAll s).freeK = s.freeK :=
  (State.moves_haltAll ..).frame .freeK (by decide)
@[simp] theorem State.haltAll_pending (s : State) : (State.haltAll s).pending = s.pending :=
  (State.moves_haltAll ..).frame .pending (by decide)
@[simp] theorem State.allEnLow_cfg (s : State) : (State.allEnLow s).cfg = s.cfg :=
  (State.moves_allEnLow ..).frame .cfg (by decide)
@[simp] theorem State.allEnLow_now (s : State) : (State.allEnLow s).now = s.now :=
  (State.moves_allEnLow ..).frame .now (by decide)
@[simp] theorem State.allEnLow_blk (s : State) : (State.allEnLow s).blk = s.blk :=
  (State.moves_allEnLow ..).frame .blk (by decide)
@[simp] theorem State.allEnLow_rails (s : State) : (State.allEnLow s).rails = s.rails :=
  (State.moves_allEnLow ..).frame .rails (by decide)
@[simp] theorem State.allEnLow_rail (s : State) (q' : Nat) : (State.allEnLow s).rail q' = s.rail q' := by
  simp only [State.rail, State.allEnLow_rails]
@[simp] theorem State.allEnLow_regions (s : State) : (State.allEnLow s).regions = s.regions :=
  (State.moves_allEnLow ..).frame .regions (by decide)
@[simp] theorem State.allEnLow_region (s : State) (r' : Nat) : (State.allEnLow s).region r' = s.region r' := by
  simp only [State.region, State.allEnLow_regions]
@[simp] theorem State.allEnLow_strings (s : State) : (State.allEnLow s).strings = s.strings :=
  (State.moves_allEnLow ..).frame .strings (by decide)
@[simp] theorem State.allEnLow_str (s : State) (i' : Nat) : (State.allEnLow s).str i' = s.str i' := by
  simp only [State.str, State.allEnLow_strings]
@[simp] theorem State.allEnLow_chans (s : State) : (State.allEnLow s).chans = s.chans :=
  (State.moves_allEnLow ..).frame .chans (by decide)
@[simp] theorem State.allEnLow_chan (s : State) (c' : Nat) : (State.allEnLow s).chan c' = s.chan c' := by
  simp only [State.chan, State.allEnLow_chans]
@[simp] theorem State.allEnLow_eng (s : State) : (State.allEnLow s).eng = s.eng :=
  (State.moves_allEnLow ..).frame .eng (by decide)
@[simp] theorem State.allEnLow_used (s : State) : (State.allEnLow s).used = s.used :=
  (State.moves_allEnLow ..).frame .used (by decide)
@[simp] theorem State.allEnLow_cap (s : State) : (State.allEnLow s).cap = s.cap :=
  (State.moves_allEnLow ..).frame .cap (by decide)
@[simp] theorem State.allEnLow_telem (s : State) : (State.allEnLow s).telem = s.telem :=
  (State.moves_allEnLow ..).frame .telem (by decide)
@[simp] theorem State.allEnLow_tune (s : State) : (State.allEnLow s).tune = s.tune :=
  (State.moves_allEnLow ..).frame .tune (by decide)
@[simp] theorem State.allEnLow_hints (s : State) : (State.allEnLow s).hints = s.hints :=
  (State.moves_allEnLow ..).frame .hints (by decide)
@[simp] theorem State.allEnLow_learn (s : State) : (State.allEnLow s).learn = s.learn :=
  (State.moves_allEnLow ..).frame .learn (by decide)
@[simp] theorem State.allEnLow_therm (s : State) : (State.allEnLow s).therm = s.therm :=
  (State.moves_allEnLow ..).frame .therm (by decide)
@[simp] theorem State.allEnLow_diode (s : State) (r' : Nat) : (State.allEnLow s).diode r' = s.diode r' := by
  simp only [State.diode, State.allEnLow_therm]
@[simp] theorem State.allEnLow_convs (s : State) : (State.allEnLow s).convs = s.convs :=
  (State.moves_allEnLow ..).frame .convs (by decide)
@[simp] theorem State.allEnLow_conv (s : State) (n' : Nat) : (State.allEnLow s).conv n' = s.conv n' := by
  simp only [State.conv, State.allEnLow_convs]
@[simp] theorem State.allEnLow_cg (s : State) : (State.allEnLow s).cg = s.cg :=
  (State.moves_allEnLow ..).frame .cg (by decide)
@[simp] theorem State.allEnLow_dict (s : State) : (State.allEnLow s).dict = s.dict :=
  (State.moves_allEnLow ..).frame .dict (by decide)
@[simp] theorem State.allEnLow_dma (s : State) : (State.allEnLow s).dma = s.dma :=
  (State.moves_allEnLow ..).frame .dma (by decide)
@[simp] theorem State.allEnLow_recd (s : State) : (State.allEnLow s).recd = s.recd :=
  (State.moves_allEnLow ..).frame .recd (by decide)
@[simp] theorem State.allEnLow_clk (s : State) : (State.allEnLow s).clk = s.clk :=
  (State.moves_allEnLow ..).frame .clk (by decide)
@[simp] theorem State.allEnLow_regs (s : State) : (State.allEnLow s).regs = s.regs :=
  (State.moves_allEnLow ..).frame .regs (by decide)
@[simp] theorem State.allEnLow_get (s : State) (g' : Reg) : (State.allEnLow s).get g' = s.get g' := by
  simp only [State.get, State.allEnLow_regs]
@[simp] theorem State.allEnLow_getN (s : State) (g' : Reg) : (State.allEnLow s).getN g' = s.getN g' := by
  simp only [State.getN, State.get, State.allEnLow_regs]
@[simp] theorem State.allEnLow_freeK (s : State) : (State.allEnLow s).freeK = s.freeK :=
  (State.moves_allEnLow ..).frame .freeK (by decide)
@[simp] theorem State.allEnLow_pending (s : State) : (State.allEnLow s).pending = s.pending :=
  (State.moves_allEnLow ..).frame .pending (by decide)
@[simp] theorem State.railsOff_cfg (s : State) : (State.railsOff s).cfg = s.cfg :=
  (State.moves_railsOff ..).frame .cfg (by decide)
@[simp] theorem State.railsOff_now (s : State) : (State.railsOff s).now = s.now :=
  (State.moves_railsOff ..).frame .now (by decide)
@[simp] theorem State.railsOff_blk (s : State) : (State.railsOff s).blk = s.blk :=
  (State.moves_railsOff ..).frame .blk (by decide)
@[simp] theorem State.railsOff_regions (s : State) : (State.railsOff s).regions = s.regions :=
  (State.moves_railsOff ..).frame .regions (by decide)
@[simp] theorem State.railsOff_region (s : State) (r' : Nat) : (State.railsOff s).region r' = s.region r' := by
  simp only [State.region, State.railsOff_regions]
@[simp] theorem State.railsOff_strings (s : State) : (State.railsOff s).strings = s.strings :=
  (State.moves_railsOff ..).frame .strings (by decide)
@[simp] theorem State.railsOff_str (s : State) (i' : Nat) : (State.railsOff s).str i' = s.str i' := by
  simp only [State.str, State.railsOff_strings]
@[simp] theorem State.railsOff_courses (s : State) : (State.railsOff s).courses = s.courses :=
  (State.moves_railsOff ..).frame .courses (by decide)
@[simp] theorem State.railsOff_course (s : State) (c' : Nat) : (State.railsOff s).course c' = s.course c' := by
  simp only [State.course, State.railsOff_courses]
@[simp] theorem State.railsOff_chans (s : State) : (State.railsOff s).chans = s.chans :=
  (State.moves_railsOff ..).frame .chans (by decide)
@[simp] theorem State.railsOff_chan (s : State) (c' : Nat) : (State.railsOff s).chan c' = s.chan c' := by
  simp only [State.chan, State.railsOff_chans]
@[simp] theorem State.railsOff_eng (s : State) : (State.railsOff s).eng = s.eng :=
  (State.moves_railsOff ..).frame .eng (by decide)
@[simp] theorem State.railsOff_used (s : State) : (State.railsOff s).used = s.used :=
  (State.moves_railsOff ..).frame .used (by decide)
@[simp] theorem State.railsOff_cap (s : State) : (State.railsOff s).cap = s.cap :=
  (State.moves_railsOff ..).frame .cap (by decide)
@[simp] theorem State.railsOff_telem (s : State) : (State.railsOff s).telem = s.telem :=
  (State.moves_railsOff ..).frame .telem (by decide)
@[simp] theorem State.railsOff_tune (s : State) : (State.railsOff s).tune = s.tune :=
  (State.moves_railsOff ..).frame .tune (by decide)
@[simp] theorem State.railsOff_hints (s : State) : (State.railsOff s).hints = s.hints :=
  (State.moves_railsOff ..).frame .hints (by decide)
@[simp] theorem State.railsOff_learn (s : State) : (State.railsOff s).learn = s.learn :=
  (State.moves_railsOff ..).frame .learn (by decide)
@[simp] theorem State.railsOff_therm (s : State) : (State.railsOff s).therm = s.therm :=
  (State.moves_railsOff ..).frame .therm (by decide)
@[simp] theorem State.railsOff_diode (s : State) (r' : Nat) : (State.railsOff s).diode r' = s.diode r' := by
  simp only [State.diode, State.railsOff_therm]
@[simp] theorem State.railsOff_convs (s : State) : (State.railsOff s).convs = s.convs :=
  (State.moves_railsOff ..).frame .convs (by decide)
@[simp] theorem State.railsOff_conv (s : State) (n' : Nat) : (State.railsOff s).conv n' = s.conv n' := by
  simp only [State.conv, State.railsOff_convs]
@[simp] theorem State.railsOff_cg (s : State) : (State.railsOff s).cg = s.cg :=
  (State.moves_railsOff ..).frame .cg (by decide)
@[simp] theorem State.railsOff_dict (s : State) : (State.railsOff s).dict = s.dict :=
  (State.moves_railsOff ..).frame .dict (by decide)
@[simp] theorem State.railsOff_dma (s : State) : (State.railsOff s).dma = s.dma :=
  (State.moves_railsOff ..).frame .dma (by decide)
@[simp] theorem State.railsOff_recd (s : State) : (State.railsOff s).recd = s.recd :=
  (State.moves_railsOff ..).frame .recd (by decide)
@[simp] theorem State.railsOff_clk (s : State) : (State.railsOff s).clk = s.clk :=
  (State.moves_railsOff ..).frame .clk (by decide)
@[simp] theorem State.railsOff_regs (s : State) : (State.railsOff s).regs = s.regs :=
  (State.moves_railsOff ..).frame .regs (by decide)
@[simp] theorem State.railsOff_get (s : State) (g' : Reg) : (State.railsOff s).get g' = s.get g' := by
  simp only [State.get, State.railsOff_regs]
@[simp] theorem State.railsOff_getN (s : State) (g' : Reg) : (State.railsOff s).getN g' = s.getN g' := by
  simp only [State.getN, State.get, State.railsOff_regs]
@[simp] theorem State.railsOff_freeK (s : State) : (State.railsOff s).freeK = s.freeK :=
  (State.moves_railsOff ..).frame .freeK (by decide)
@[simp] theorem State.railsOff_pending (s : State) : (State.railsOff s).pending = s.pending :=
  (State.moves_railsOff ..).frame .pending (by decide)
@[simp] theorem State.resetRecovery_cfg (s : State) : (State.resetRecovery s).cfg = s.cfg :=
  (State.moves_resetRecovery ..).frame .cfg (by decide)
@[simp] theorem State.resetRecovery_now (s : State) : (State.resetRecovery s).now = s.now :=
  (State.moves_resetRecovery ..).frame .now (by decide)
@[simp] theorem State.resetRecovery_blk (s : State) : (State.resetRecovery s).blk = s.blk :=
  (State.moves_resetRecovery ..).frame .blk (by decide)
@[simp] theorem State.resetRecovery_regions (s : State) : (State.resetRecovery s).regions = s.regions :=
  (State.moves_resetRecovery ..).frame .regions (by decide)
@[simp] theorem State.resetRecovery_region (s : State) (r' : Nat) : (State.resetRecovery s).region r' = s.region r' := by
  simp only [State.region, State.resetRecovery_regions]
@[simp] theorem State.resetRecovery_strings (s : State) : (State.resetRecovery s).strings = s.strings :=
  (State.moves_resetRecovery ..).frame .strings (by decide)
@[simp] theorem State.resetRecovery_str (s : State) (i' : Nat) : (State.resetRecovery s).str i' = s.str i' := by
  simp only [State.str, State.resetRecovery_strings]
@[simp] theorem State.resetRecovery_courses (s : State) : (State.resetRecovery s).courses = s.courses :=
  (State.moves_resetRecovery ..).frame .courses (by decide)
@[simp] theorem State.resetRecovery_course (s : State) (c' : Nat) : (State.resetRecovery s).course c' = s.course c' := by
  simp only [State.course, State.resetRecovery_courses]
@[simp] theorem State.resetRecovery_chans (s : State) : (State.resetRecovery s).chans = s.chans :=
  (State.moves_resetRecovery ..).frame .chans (by decide)
@[simp] theorem State.resetRecovery_chan (s : State) (c' : Nat) : (State.resetRecovery s).chan c' = s.chan c' := by
  simp only [State.chan, State.resetRecovery_chans]
@[simp] theorem State.resetRecovery_eng (s : State) : (State.resetRecovery s).eng = s.eng :=
  (State.moves_resetRecovery ..).frame .eng (by decide)
@[simp] theorem State.resetRecovery_used (s : State) : (State.resetRecovery s).used = s.used :=
  (State.moves_resetRecovery ..).frame .used (by decide)
@[simp] theorem State.resetRecovery_cap (s : State) : (State.resetRecovery s).cap = s.cap :=
  (State.moves_resetRecovery ..).frame .cap (by decide)
@[simp] theorem State.resetRecovery_telem (s : State) : (State.resetRecovery s).telem = s.telem :=
  (State.moves_resetRecovery ..).frame .telem (by decide)
@[simp] theorem State.resetRecovery_tune (s : State) : (State.resetRecovery s).tune = s.tune :=
  (State.moves_resetRecovery ..).frame .tune (by decide)
@[simp] theorem State.resetRecovery_hints (s : State) : (State.resetRecovery s).hints = s.hints :=
  (State.moves_resetRecovery ..).frame .hints (by decide)
@[simp] theorem State.resetRecovery_learn (s : State) : (State.resetRecovery s).learn = s.learn :=
  (State.moves_resetRecovery ..).frame .learn (by decide)
@[simp] theorem State.resetRecovery_therm (s : State) : (State.resetRecovery s).therm = s.therm :=
  (State.moves_resetRecovery ..).frame .therm (by decide)
@[simp] theorem State.resetRecovery_diode (s : State) (r' : Nat) : (State.resetRecovery s).diode r' = s.diode r' := by
  simp only [State.diode, State.resetRecovery_therm]
@[simp] theorem State.resetRecovery_convs (s : State) : (State.resetRecovery s).convs = s.convs :=
  (State.moves_resetRecovery ..).frame .convs (by decide)
@[simp] theorem State.resetRecovery_conv (s : State) (n' : Nat) : (State.resetRecovery s).conv n' = s.conv n' := by
  simp only [State.conv, State.resetRecovery_convs]
@[simp] theorem State.resetRecovery_cg (s : State) : (State.resetRecovery s).cg = s.cg :=
  (State.moves_resetRecovery ..).frame .cg (by decide)
@[simp] theorem State.resetRecovery_dict (s : State) : (State.resetRecovery s).dict = s.dict :=
  (State.moves_resetRecovery ..).frame .dict (by decide)
@[simp] theorem State.resetRecovery_dma (s : State) : (State.resetRecovery s).dma = s.dma :=
  (State.moves_resetRecovery ..).frame .dma (by decide)
@[simp] theorem State.resetRecovery_recd (s : State) : (State.resetRecovery s).recd = s.recd :=
  (State.moves_resetRecovery ..).frame .recd (by decide)
@[simp] theorem State.resetRecovery_clk (s : State) : (State.resetRecovery s).clk = s.clk :=
  (State.moves_resetRecovery ..).frame .clk (by decide)
@[simp] theorem State.resetRecovery_regs (s : State) : (State.resetRecovery s).regs = s.regs :=
  (State.moves_resetRecovery ..).frame .regs (by decide)
@[simp] theorem State.resetRecovery_get (s : State) (g' : Reg) : (State.resetRecovery s).get g' = s.get g' := by
  simp only [State.get, State.resetRecovery_regs]
@[simp] theorem State.resetRecovery_getN (s : State) (g' : Reg) : (State.resetRecovery s).getN g' = s.getN g' := by
  simp only [State.getN, State.get, State.resetRecovery_regs]
@[simp] theorem State.resetRecovery_freeK (s : State) : (State.resetRecovery s).freeK = s.freeK :=
  (State.moves_resetRecovery ..).frame .freeK (by decide)
@[simp] theorem State.resetRecovery_pending (s : State) : (State.resetRecovery s).pending = s.pending :=
  (State.moves_resetRecovery ..).frame .pending (by decide)
@[simp] theorem State.stopPass_cfg (s : State) (k : Nat) (code : Nat) : (State.stopPass s k code).cfg = s.cfg :=
  (State.moves_stopPass ..).frame .cfg (by decide)
@[simp] theorem State.stopPass_now (s : State) (k : Nat) (code : Nat) : (State.stopPass s k code).now = s.now :=
  (State.moves_stopPass ..).frame .now (by decide)
@[simp] theorem State.stopPass_blk (s : State) (k : Nat) (code : Nat) : (State.stopPass s k code).blk = s.blk :=
  (State.moves_stopPass ..).frame .blk (by decide)
@[simp] theorem State.stopPass_rails (s : State) (k : Nat) (code : Nat) : (State.stopPass s k code).rails = s.rails :=
  (State.moves_stopPass ..).frame .rails (by decide)
@[simp] theorem State.stopPass_rail (s : State) (k : Nat) (code : Nat) (q' : Nat) : (State.stopPass s k code).rail q' = s.rail q' := by
  simp only [State.rail, State.stopPass_rails]
@[simp] theorem State.stopPass_regions (s : State) (k : Nat) (code : Nat) : (State.stopPass s k code).regions = s.regions :=
  (State.moves_stopPass ..).frame .regions (by decide)
@[simp] theorem State.stopPass_region (s : State) (k : Nat) (code : Nat) (r' : Nat) : (State.stopPass s k code).region r' = s.region r' := by
  simp only [State.region, State.stopPass_regions]
@[simp] theorem State.stopPass_strings (s : State) (k : Nat) (code : Nat) : (State.stopPass s k code).strings = s.strings :=
  (State.moves_stopPass ..).frame .strings (by decide)
@[simp] theorem State.stopPass_str (s : State) (k : Nat) (code : Nat) (i' : Nat) : (State.stopPass s k code).str i' = s.str i' := by
  simp only [State.str, State.stopPass_strings]
@[simp] theorem State.stopPass_courses (s : State) (k : Nat) (code : Nat) : (State.stopPass s k code).courses = s.courses :=
  (State.moves_stopPass ..).frame .courses (by decide)
@[simp] theorem State.stopPass_course (s : State) (k : Nat) (code : Nat) (c' : Nat) : (State.stopPass s k code).course c' = s.course c' := by
  simp only [State.course, State.stopPass_courses]
@[simp] theorem State.stopPass_chans (s : State) (k : Nat) (code : Nat) : (State.stopPass s k code).chans = s.chans :=
  (State.moves_stopPass ..).frame .chans (by decide)
@[simp] theorem State.stopPass_chan (s : State) (k : Nat) (code : Nat) (c' : Nat) : (State.stopPass s k code).chan c' = s.chan c' := by
  simp only [State.chan, State.stopPass_chans]
@[simp] theorem State.stopPass_eng (s : State) (k : Nat) (code : Nat) : (State.stopPass s k code).eng = s.eng :=
  (State.moves_stopPass ..).frame .eng (by decide)
@[simp] theorem State.stopPass_used (s : State) (k : Nat) (code : Nat) : (State.stopPass s k code).used = s.used :=
  (State.moves_stopPass ..).frame .used (by decide)
@[simp] theorem State.stopPass_cap (s : State) (k : Nat) (code : Nat) : (State.stopPass s k code).cap = s.cap :=
  (State.moves_stopPass ..).frame .cap (by decide)
@[simp] theorem State.stopPass_telem (s : State) (k : Nat) (code : Nat) : (State.stopPass s k code).telem = s.telem :=
  (State.moves_stopPass ..).frame .telem (by decide)
@[simp] theorem State.stopPass_tune (s : State) (k : Nat) (code : Nat) : (State.stopPass s k code).tune = s.tune :=
  (State.moves_stopPass ..).frame .tune (by decide)
@[simp] theorem State.stopPass_hints (s : State) (k : Nat) (code : Nat) : (State.stopPass s k code).hints = s.hints :=
  (State.moves_stopPass ..).frame .hints (by decide)
@[simp] theorem State.stopPass_therm (s : State) (k : Nat) (code : Nat) : (State.stopPass s k code).therm = s.therm :=
  (State.moves_stopPass ..).frame .therm (by decide)
@[simp] theorem State.stopPass_diode (s : State) (k : Nat) (code : Nat) (r' : Nat) : (State.stopPass s k code).diode r' = s.diode r' := by
  simp only [State.diode, State.stopPass_therm]
@[simp] theorem State.stopPass_convs (s : State) (k : Nat) (code : Nat) : (State.stopPass s k code).convs = s.convs :=
  (State.moves_stopPass ..).frame .convs (by decide)
@[simp] theorem State.stopPass_conv (s : State) (k : Nat) (code : Nat) (n' : Nat) : (State.stopPass s k code).conv n' = s.conv n' := by
  simp only [State.conv, State.stopPass_convs]
@[simp] theorem State.stopPass_cg (s : State) (k : Nat) (code : Nat) : (State.stopPass s k code).cg = s.cg :=
  (State.moves_stopPass ..).frame .cg (by decide)
@[simp] theorem State.stopPass_dict (s : State) (k : Nat) (code : Nat) : (State.stopPass s k code).dict = s.dict :=
  (State.moves_stopPass ..).frame .dict (by decide)
@[simp] theorem State.stopPass_dma (s : State) (k : Nat) (code : Nat) : (State.stopPass s k code).dma = s.dma :=
  (State.moves_stopPass ..).frame .dma (by decide)
@[simp] theorem State.stopPass_clk (s : State) (k : Nat) (code : Nat) : (State.stopPass s k code).clk = s.clk :=
  (State.moves_stopPass ..).frame .clk (by decide)
@[simp] theorem State.stopPass_freeK (s : State) (k : Nat) (code : Nat) : (State.stopPass s k code).freeK = s.freeK :=
  (State.moves_stopPass ..).frame .freeK (by decide)
@[simp] theorem State.stopPass_pending (s : State) (k : Nat) (code : Nat) : (State.stopPass s k code).pending = s.pending :=
  (State.moves_stopPass ..).frame .pending (by decide)
@[simp] theorem State.stopAllPasses_cfg (s : State) (code : Nat) : (State.stopAllPasses s code).cfg = s.cfg :=
  (State.moves_stopAllPasses ..).frame .cfg (by decide)
@[simp] theorem State.stopAllPasses_now (s : State) (code : Nat) : (State.stopAllPasses s code).now = s.now :=
  (State.moves_stopAllPasses ..).frame .now (by decide)
@[simp] theorem State.stopAllPasses_blk (s : State) (code : Nat) : (State.stopAllPasses s code).blk = s.blk :=
  (State.moves_stopAllPasses ..).frame .blk (by decide)
@[simp] theorem State.stopAllPasses_rails (s : State) (code : Nat) : (State.stopAllPasses s code).rails = s.rails :=
  (State.moves_stopAllPasses ..).frame .rails (by decide)
@[simp] theorem State.stopAllPasses_rail (s : State) (code : Nat) (q' : Nat) : (State.stopAllPasses s code).rail q' = s.rail q' := by
  simp only [State.rail, State.stopAllPasses_rails]
@[simp] theorem State.stopAllPasses_regions (s : State) (code : Nat) : (State.stopAllPasses s code).regions = s.regions :=
  (State.moves_stopAllPasses ..).frame .regions (by decide)
@[simp] theorem State.stopAllPasses_region (s : State) (code : Nat) (r' : Nat) : (State.stopAllPasses s code).region r' = s.region r' := by
  simp only [State.region, State.stopAllPasses_regions]
@[simp] theorem State.stopAllPasses_strings (s : State) (code : Nat) : (State.stopAllPasses s code).strings = s.strings :=
  (State.moves_stopAllPasses ..).frame .strings (by decide)
@[simp] theorem State.stopAllPasses_str (s : State) (code : Nat) (i' : Nat) : (State.stopAllPasses s code).str i' = s.str i' := by
  simp only [State.str, State.stopAllPasses_strings]
@[simp] theorem State.stopAllPasses_courses (s : State) (code : Nat) : (State.stopAllPasses s code).courses = s.courses :=
  (State.moves_stopAllPasses ..).frame .courses (by decide)
@[simp] theorem State.stopAllPasses_course (s : State) (code : Nat) (c' : Nat) : (State.stopAllPasses s code).course c' = s.course c' := by
  simp only [State.course, State.stopAllPasses_courses]
@[simp] theorem State.stopAllPasses_chans (s : State) (code : Nat) : (State.stopAllPasses s code).chans = s.chans :=
  (State.moves_stopAllPasses ..).frame .chans (by decide)
@[simp] theorem State.stopAllPasses_chan (s : State) (code : Nat) (c' : Nat) : (State.stopAllPasses s code).chan c' = s.chan c' := by
  simp only [State.chan, State.stopAllPasses_chans]
@[simp] theorem State.stopAllPasses_eng (s : State) (code : Nat) : (State.stopAllPasses s code).eng = s.eng :=
  (State.moves_stopAllPasses ..).frame .eng (by decide)
@[simp] theorem State.stopAllPasses_used (s : State) (code : Nat) : (State.stopAllPasses s code).used = s.used :=
  (State.moves_stopAllPasses ..).frame .used (by decide)
@[simp] theorem State.stopAllPasses_cap (s : State) (code : Nat) : (State.stopAllPasses s code).cap = s.cap :=
  (State.moves_stopAllPasses ..).frame .cap (by decide)
@[simp] theorem State.stopAllPasses_telem (s : State) (code : Nat) : (State.stopAllPasses s code).telem = s.telem :=
  (State.moves_stopAllPasses ..).frame .telem (by decide)
@[simp] theorem State.stopAllPasses_tune (s : State) (code : Nat) : (State.stopAllPasses s code).tune = s.tune :=
  (State.moves_stopAllPasses ..).frame .tune (by decide)
@[simp] theorem State.stopAllPasses_hints (s : State) (code : Nat) : (State.stopAllPasses s code).hints = s.hints :=
  (State.moves_stopAllPasses ..).frame .hints (by decide)
@[simp] theorem State.stopAllPasses_therm (s : State) (code : Nat) : (State.stopAllPasses s code).therm = s.therm :=
  (State.moves_stopAllPasses ..).frame .therm (by decide)
@[simp] theorem State.stopAllPasses_diode (s : State) (code : Nat) (r' : Nat) : (State.stopAllPasses s code).diode r' = s.diode r' := by
  simp only [State.diode, State.stopAllPasses_therm]
@[simp] theorem State.stopAllPasses_convs (s : State) (code : Nat) : (State.stopAllPasses s code).convs = s.convs :=
  (State.moves_stopAllPasses ..).frame .convs (by decide)
@[simp] theorem State.stopAllPasses_conv (s : State) (code : Nat) (n' : Nat) : (State.stopAllPasses s code).conv n' = s.conv n' := by
  simp only [State.conv, State.stopAllPasses_convs]
@[simp] theorem State.stopAllPasses_cg (s : State) (code : Nat) : (State.stopAllPasses s code).cg = s.cg :=
  (State.moves_stopAllPasses ..).frame .cg (by decide)
@[simp] theorem State.stopAllPasses_dict (s : State) (code : Nat) : (State.stopAllPasses s code).dict = s.dict :=
  (State.moves_stopAllPasses ..).frame .dict (by decide)
@[simp] theorem State.stopAllPasses_dma (s : State) (code : Nat) : (State.stopAllPasses s code).dma = s.dma :=
  (State.moves_stopAllPasses ..).frame .dma (by decide)
@[simp] theorem State.stopAllPasses_clk (s : State) (code : Nat) : (State.stopAllPasses s code).clk = s.clk :=
  (State.moves_stopAllPasses ..).frame .clk (by decide)
@[simp] theorem State.stopAllPasses_freeK (s : State) (code : Nat) : (State.stopAllPasses s code).freeK = s.freeK :=
  (State.moves_stopAllPasses ..).frame .freeK (by decide)
@[simp] theorem State.stopAllPasses_pending (s : State) (code : Nat) : (State.stopAllPasses s code).pending = s.pending :=
  (State.moves_stopAllPasses ..).frame .pending (by decide)
@[simp] theorem State.hintsNotFull_cfg (s : State) : (State.hintsNotFull s).cfg = s.cfg :=
  (State.moves_hintsNotFull ..).frame .cfg (by decide)
@[simp] theorem State.hintsNotFull_now (s : State) : (State.hintsNotFull s).now = s.now :=
  (State.moves_hintsNotFull ..).frame .now (by decide)
@[simp] theorem State.hintsNotFull_blk (s : State) : (State.hintsNotFull s).blk = s.blk :=
  (State.moves_hintsNotFull ..).frame .blk (by decide)
@[simp] theorem State.hintsNotFull_rails (s : State) : (State.hintsNotFull s).rails = s.rails :=
  (State.moves_hintsNotFull ..).frame .rails (by decide)
@[simp] theorem State.hintsNotFull_rail (s : State) (q' : Nat) : (State.hintsNotFull s).rail q' = s.rail q' := by
  simp only [State.rail, State.hintsNotFull_rails]
@[simp] theorem State.hintsNotFull_regions (s : State) : (State.hintsNotFull s).regions = s.regions :=
  (State.moves_hintsNotFull ..).frame .regions (by decide)
@[simp] theorem State.hintsNotFull_region (s : State) (r' : Nat) : (State.hintsNotFull s).region r' = s.region r' := by
  simp only [State.region, State.hintsNotFull_regions]
@[simp] theorem State.hintsNotFull_strings (s : State) : (State.hintsNotFull s).strings = s.strings :=
  (State.moves_hintsNotFull ..).frame .strings (by decide)
@[simp] theorem State.hintsNotFull_str (s : State) (i' : Nat) : (State.hintsNotFull s).str i' = s.str i' := by
  simp only [State.str, State.hintsNotFull_strings]
@[simp] theorem State.hintsNotFull_courses (s : State) : (State.hintsNotFull s).courses = s.courses :=
  (State.moves_hintsNotFull ..).frame .courses (by decide)
@[simp] theorem State.hintsNotFull_course (s : State) (c' : Nat) : (State.hintsNotFull s).course c' = s.course c' := by
  simp only [State.course, State.hintsNotFull_courses]
@[simp] theorem State.hintsNotFull_chans (s : State) : (State.hintsNotFull s).chans = s.chans :=
  (State.moves_hintsNotFull ..).frame .chans (by decide)
@[simp] theorem State.hintsNotFull_chan (s : State) (c' : Nat) : (State.hintsNotFull s).chan c' = s.chan c' := by
  simp only [State.chan, State.hintsNotFull_chans]
@[simp] theorem State.hintsNotFull_eng (s : State) : (State.hintsNotFull s).eng = s.eng :=
  (State.moves_hintsNotFull ..).frame .eng (by decide)
@[simp] theorem State.hintsNotFull_used (s : State) : (State.hintsNotFull s).used = s.used :=
  (State.moves_hintsNotFull ..).frame .used (by decide)
@[simp] theorem State.hintsNotFull_cap (s : State) : (State.hintsNotFull s).cap = s.cap :=
  (State.moves_hintsNotFull ..).frame .cap (by decide)
@[simp] theorem State.hintsNotFull_telem (s : State) : (State.hintsNotFull s).telem = s.telem :=
  (State.moves_hintsNotFull ..).frame .telem (by decide)
@[simp] theorem State.hintsNotFull_tune (s : State) : (State.hintsNotFull s).tune = s.tune :=
  (State.moves_hintsNotFull ..).frame .tune (by decide)
@[simp] theorem State.hintsNotFull_learn (s : State) : (State.hintsNotFull s).learn = s.learn :=
  (State.moves_hintsNotFull ..).frame .learn (by decide)
@[simp] theorem State.hintsNotFull_therm (s : State) : (State.hintsNotFull s).therm = s.therm :=
  (State.moves_hintsNotFull ..).frame .therm (by decide)
@[simp] theorem State.hintsNotFull_diode (s : State) (r' : Nat) : (State.hintsNotFull s).diode r' = s.diode r' := by
  simp only [State.diode, State.hintsNotFull_therm]
@[simp] theorem State.hintsNotFull_convs (s : State) : (State.hintsNotFull s).convs = s.convs :=
  (State.moves_hintsNotFull ..).frame .convs (by decide)
@[simp] theorem State.hintsNotFull_conv (s : State) (n' : Nat) : (State.hintsNotFull s).conv n' = s.conv n' := by
  simp only [State.conv, State.hintsNotFull_convs]
@[simp] theorem State.hintsNotFull_cg (s : State) : (State.hintsNotFull s).cg = s.cg :=
  (State.moves_hintsNotFull ..).frame .cg (by decide)
@[simp] theorem State.hintsNotFull_dict (s : State) : (State.hintsNotFull s).dict = s.dict :=
  (State.moves_hintsNotFull ..).frame .dict (by decide)
@[simp] theorem State.hintsNotFull_dma (s : State) : (State.hintsNotFull s).dma = s.dma :=
  (State.moves_hintsNotFull ..).frame .dma (by decide)
@[simp] theorem State.hintsNotFull_clk (s : State) : (State.hintsNotFull s).clk = s.clk :=
  (State.moves_hintsNotFull ..).frame .clk (by decide)
@[simp] theorem State.hintsNotFull_freeK (s : State) : (State.hintsNotFull s).freeK = s.freeK :=
  (State.moves_hintsNotFull ..).frame .freeK (by decide)
@[simp] theorem State.hintsNotFull_pending (s : State) : (State.hintsNotFull s).pending = s.pending :=
  (State.moves_hintsNotFull ..).frame .pending (by decide)
@[simp] theorem State.emptyHints_cfg (s : State) : (State.emptyHints s).cfg = s.cfg :=
  (State.moves_emptyHints ..).frame .cfg (by decide)
@[simp] theorem State.emptyHints_now (s : State) : (State.emptyHints s).now = s.now :=
  (State.moves_emptyHints ..).frame .now (by decide)
@[simp] theorem State.emptyHints_blk (s : State) : (State.emptyHints s).blk = s.blk :=
  (State.moves_emptyHints ..).frame .blk (by decide)
@[simp] theorem State.emptyHints_strings (s : State) : (State.emptyHints s).strings = s.strings :=
  (State.moves_emptyHints ..).frame .strings (by decide)
@[simp] theorem State.emptyHints_str (s : State) (i' : Nat) : (State.emptyHints s).str i' = s.str i' := by
  simp only [State.str, State.emptyHints_strings]
@[simp] theorem State.emptyHints_courses (s : State) : (State.emptyHints s).courses = s.courses :=
  (State.moves_emptyHints ..).frame .courses (by decide)
@[simp] theorem State.emptyHints_course (s : State) (c' : Nat) : (State.emptyHints s).course c' = s.course c' := by
  simp only [State.course, State.emptyHints_courses]
@[simp] theorem State.emptyHints_chans (s : State) : (State.emptyHints s).chans = s.chans :=
  (State.moves_emptyHints ..).frame .chans (by decide)
@[simp] theorem State.emptyHints_chan (s : State) (c' : Nat) : (State.emptyHints s).chan c' = s.chan c' := by
  simp only [State.chan, State.emptyHints_chans]
@[simp] theorem State.emptyHints_eng (s : State) : (State.emptyHints s).eng = s.eng :=
  (State.moves_emptyHints ..).frame .eng (by decide)
@[simp] theorem State.emptyHints_used (s : State) : (State.emptyHints s).used = s.used :=
  (State.moves_emptyHints ..).frame .used (by decide)
@[simp] theorem State.emptyHints_cap (s : State) : (State.emptyHints s).cap = s.cap :=
  (State.moves_emptyHints ..).frame .cap (by decide)
@[simp] theorem State.emptyHints_telem (s : State) : (State.emptyHints s).telem = s.telem :=
  (State.moves_emptyHints ..).frame .telem (by decide)
@[simp] theorem State.emptyHints_tune (s : State) : (State.emptyHints s).tune = s.tune :=
  (State.moves_emptyHints ..).frame .tune (by decide)
@[simp] theorem State.emptyHints_learn (s : State) : (State.emptyHints s).learn = s.learn :=
  (State.moves_emptyHints ..).frame .learn (by decide)
@[simp] theorem State.emptyHints_therm (s : State) : (State.emptyHints s).therm = s.therm :=
  (State.moves_emptyHints ..).frame .therm (by decide)
@[simp] theorem State.emptyHints_diode (s : State) (r' : Nat) : (State.emptyHints s).diode r' = s.diode r' := by
  simp only [State.diode, State.emptyHints_therm]
@[simp] theorem State.emptyHints_convs (s : State) : (State.emptyHints s).convs = s.convs :=
  (State.moves_emptyHints ..).frame .convs (by decide)
@[simp] theorem State.emptyHints_conv (s : State) (n' : Nat) : (State.emptyHints s).conv n' = s.conv n' := by
  simp only [State.conv, State.emptyHints_convs]
@[simp] theorem State.emptyHints_cg (s : State) : (State.emptyHints s).cg = s.cg :=
  (State.moves_emptyHints ..).frame .cg (by decide)
@[simp] theorem State.emptyHints_dict (s : State) : (State.emptyHints s).dict = s.dict :=
  (State.moves_emptyHints ..).frame .dict (by decide)
@[simp] theorem State.emptyHints_dma (s : State) : (State.emptyHints s).dma = s.dma :=
  (State.moves_emptyHints ..).frame .dma (by decide)
@[simp] theorem State.emptyHints_clk (s : State) : (State.emptyHints s).clk = s.clk :=
  (State.moves_emptyHints ..).frame .clk (by decide)
@[simp] theorem State.emptyHints_freeK (s : State) : (State.emptyHints s).freeK = s.freeK :=
  (State.moves_emptyHints ..).frame .freeK (by decide)
@[simp] theorem State.emptyHints_pending (s : State) : (State.emptyHints s).pending = s.pending :=
  (State.moves_emptyHints ..).frame .pending (by decide)
@[simp] theorem State.raiseReq_cfg (s : State) (src : Nat) (k : Nat) (f : Nat → Bool) : (State.raiseReq s src k f).cfg = s.cfg :=
  (State.moves_raiseReq ..).frame .cfg (by decide)
@[simp] theorem State.raiseReq_now (s : State) (src : Nat) (k : Nat) (f : Nat → Bool) : (State.raiseReq s src k f).now = s.now :=
  (State.moves_raiseReq ..).frame .now (by decide)
@[simp] theorem State.raiseReq_blk (s : State) (src : Nat) (k : Nat) (f : Nat → Bool) : (State.raiseReq s src k f).blk = s.blk :=
  (State.moves_raiseReq ..).frame .blk (by decide)
@[simp] theorem State.raiseReq_rails (s : State) (src : Nat) (k : Nat) (f : Nat → Bool) : (State.raiseReq s src k f).rails = s.rails :=
  (State.moves_raiseReq ..).frame .rails (by decide)
@[simp] theorem State.raiseReq_rail (s : State) (src : Nat) (k : Nat) (f : Nat → Bool) (q' : Nat) : (State.raiseReq s src k f).rail q' = s.rail q' := by
  simp only [State.rail, State.raiseReq_rails]
@[simp] theorem State.raiseReq_regions (s : State) (src : Nat) (k : Nat) (f : Nat → Bool) : (State.raiseReq s src k f).regions = s.regions :=
  (State.moves_raiseReq ..).frame .regions (by decide)
@[simp] theorem State.raiseReq_region (s : State) (src : Nat) (k : Nat) (f : Nat → Bool) (r' : Nat) : (State.raiseReq s src k f).region r' = s.region r' := by
  simp only [State.region, State.raiseReq_regions]
@[simp] theorem State.raiseReq_strings (s : State) (src : Nat) (k : Nat) (f : Nat → Bool) : (State.raiseReq s src k f).strings = s.strings :=
  (State.moves_raiseReq ..).frame .strings (by decide)
@[simp] theorem State.raiseReq_str (s : State) (src : Nat) (k : Nat) (f : Nat → Bool) (i' : Nat) : (State.raiseReq s src k f).str i' = s.str i' := by
  simp only [State.str, State.raiseReq_strings]
@[simp] theorem State.raiseReq_courses (s : State) (src : Nat) (k : Nat) (f : Nat → Bool) : (State.raiseReq s src k f).courses = s.courses :=
  (State.moves_raiseReq ..).frame .courses (by decide)
@[simp] theorem State.raiseReq_course (s : State) (src : Nat) (k : Nat) (f : Nat → Bool) (c' : Nat) : (State.raiseReq s src k f).course c' = s.course c' := by
  simp only [State.course, State.raiseReq_courses]
@[simp] theorem State.raiseReq_chans (s : State) (src : Nat) (k : Nat) (f : Nat → Bool) : (State.raiseReq s src k f).chans = s.chans :=
  (State.moves_raiseReq ..).frame .chans (by decide)
@[simp] theorem State.raiseReq_chan (s : State) (src : Nat) (k : Nat) (f : Nat → Bool) (c' : Nat) : (State.raiseReq s src k f).chan c' = s.chan c' := by
  simp only [State.chan, State.raiseReq_chans]
@[simp] theorem State.raiseReq_eng (s : State) (src : Nat) (k : Nat) (f : Nat → Bool) : (State.raiseReq s src k f).eng = s.eng :=
  (State.moves_raiseReq ..).frame .eng (by decide)
@[simp] theorem State.raiseReq_used (s : State) (src : Nat) (k : Nat) (f : Nat → Bool) : (State.raiseReq s src k f).used = s.used :=
  (State.moves_raiseReq ..).frame .used (by decide)
@[simp] theorem State.raiseReq_cap (s : State) (src : Nat) (k : Nat) (f : Nat → Bool) : (State.raiseReq s src k f).cap = s.cap :=
  (State.moves_raiseReq ..).frame .cap (by decide)
@[simp] theorem State.raiseReq_telem (s : State) (src : Nat) (k : Nat) (f : Nat → Bool) : (State.raiseReq s src k f).telem = s.telem :=
  (State.moves_raiseReq ..).frame .telem (by decide)
@[simp] theorem State.raiseReq_tune (s : State) (src : Nat) (k : Nat) (f : Nat → Bool) : (State.raiseReq s src k f).tune = s.tune :=
  (State.moves_raiseReq ..).frame .tune (by decide)
@[simp] theorem State.raiseReq_hints (s : State) (src : Nat) (k : Nat) (f : Nat → Bool) : (State.raiseReq s src k f).hints = s.hints :=
  (State.moves_raiseReq ..).frame .hints (by decide)
@[simp] theorem State.raiseReq_learn (s : State) (src : Nat) (k : Nat) (f : Nat → Bool) : (State.raiseReq s src k f).learn = s.learn :=
  (State.moves_raiseReq ..).frame .learn (by decide)
@[simp] theorem State.raiseReq_therm (s : State) (src : Nat) (k : Nat) (f : Nat → Bool) : (State.raiseReq s src k f).therm = s.therm :=
  (State.moves_raiseReq ..).frame .therm (by decide)
@[simp] theorem State.raiseReq_diode (s : State) (src : Nat) (k : Nat) (f : Nat → Bool) (r' : Nat) : (State.raiseReq s src k f).diode r' = s.diode r' := by
  simp only [State.diode, State.raiseReq_therm]
@[simp] theorem State.raiseReq_convs (s : State) (src : Nat) (k : Nat) (f : Nat → Bool) : (State.raiseReq s src k f).convs = s.convs :=
  (State.moves_raiseReq ..).frame .convs (by decide)
@[simp] theorem State.raiseReq_conv (s : State) (src : Nat) (k : Nat) (f : Nat → Bool) (n' : Nat) : (State.raiseReq s src k f).conv n' = s.conv n' := by
  simp only [State.conv, State.raiseReq_convs]
@[simp] theorem State.raiseReq_cg (s : State) (src : Nat) (k : Nat) (f : Nat → Bool) : (State.raiseReq s src k f).cg = s.cg :=
  (State.moves_raiseReq ..).frame .cg (by decide)
@[simp] theorem State.raiseReq_dict (s : State) (src : Nat) (k : Nat) (f : Nat → Bool) : (State.raiseReq s src k f).dict = s.dict :=
  (State.moves_raiseReq ..).frame .dict (by decide)
@[simp] theorem State.raiseReq_recd (s : State) (src : Nat) (k : Nat) (f : Nat → Bool) : (State.raiseReq s src k f).recd = s.recd :=
  (State.moves_raiseReq ..).frame .recd (by decide)
@[simp] theorem State.raiseReq_clk (s : State) (src : Nat) (k : Nat) (f : Nat → Bool) : (State.raiseReq s src k f).clk = s.clk :=
  (State.moves_raiseReq ..).frame .clk (by decide)
@[simp] theorem State.raiseReq_regs (s : State) (src : Nat) (k : Nat) (f : Nat → Bool) : (State.raiseReq s src k f).regs = s.regs :=
  (State.moves_raiseReq ..).frame .regs (by decide)
@[simp] theorem State.raiseReq_get (s : State) (src : Nat) (k : Nat) (f : Nat → Bool) (g' : Reg) : (State.raiseReq s src k f).get g' = s.get g' := by
  simp only [State.get, State.raiseReq_regs]
@[simp] theorem State.raiseReq_getN (s : State) (src : Nat) (k : Nat) (f : Nat → Bool) (g' : Reg) : (State.raiseReq s src k f).getN g' = s.getN g' := by
  simp only [State.getN, State.get, State.raiseReq_regs]
@[simp] theorem State.raiseReq_freeK (s : State) (src : Nat) (k : Nat) (f : Nat → Bool) : (State.raiseReq s src k f).freeK = s.freeK :=
  (State.moves_raiseReq ..).frame .freeK (by decide)
@[simp] theorem State.raiseReq_pending (s : State) (src : Nat) (k : Nat) (f : Nat → Bool) : (State.raiseReq s src k f).pending = s.pending :=
  (State.moves_raiseReq ..).frame .pending (by decide)
@[simp] theorem State.dropReq_cfg (s : State) (src : Nat) : (State.dropReq s src).cfg = s.cfg :=
  (State.moves_dropReq ..).frame .cfg (by decide)
@[simp] theorem State.dropReq_now (s : State) (src : Nat) : (State.dropReq s src).now = s.now :=
  (State.moves_dropReq ..).frame .now (by decide)
@[simp] theorem State.dropReq_blk (s : State) (src : Nat) : (State.dropReq s src).blk = s.blk :=
  (State.moves_dropReq ..).frame .blk (by decide)
@[simp] theorem State.dropReq_rails (s : State) (src : Nat) : (State.dropReq s src).rails = s.rails :=
  (State.moves_dropReq ..).frame .rails (by decide)
@[simp] theorem State.dropReq_rail (s : State) (src : Nat) (q' : Nat) : (State.dropReq s src).rail q' = s.rail q' := by
  simp only [State.rail, State.dropReq_rails]
@[simp] theorem State.dropReq_regions (s : State) (src : Nat) : (State.dropReq s src).regions = s.regions :=
  (State.moves_dropReq ..).frame .regions (by decide)
@[simp] theorem State.dropReq_region (s : State) (src : Nat) (r' : Nat) : (State.dropReq s src).region r' = s.region r' := by
  simp only [State.region, State.dropReq_regions]
@[simp] theorem State.dropReq_strings (s : State) (src : Nat) : (State.dropReq s src).strings = s.strings :=
  (State.moves_dropReq ..).frame .strings (by decide)
@[simp] theorem State.dropReq_str (s : State) (src : Nat) (i' : Nat) : (State.dropReq s src).str i' = s.str i' := by
  simp only [State.str, State.dropReq_strings]
@[simp] theorem State.dropReq_courses (s : State) (src : Nat) : (State.dropReq s src).courses = s.courses :=
  (State.moves_dropReq ..).frame .courses (by decide)
@[simp] theorem State.dropReq_course (s : State) (src : Nat) (c' : Nat) : (State.dropReq s src).course c' = s.course c' := by
  simp only [State.course, State.dropReq_courses]
@[simp] theorem State.dropReq_chans (s : State) (src : Nat) : (State.dropReq s src).chans = s.chans :=
  (State.moves_dropReq ..).frame .chans (by decide)
@[simp] theorem State.dropReq_chan (s : State) (src : Nat) (c' : Nat) : (State.dropReq s src).chan c' = s.chan c' := by
  simp only [State.chan, State.dropReq_chans]
@[simp] theorem State.dropReq_eng (s : State) (src : Nat) : (State.dropReq s src).eng = s.eng :=
  (State.moves_dropReq ..).frame .eng (by decide)
@[simp] theorem State.dropReq_used (s : State) (src : Nat) : (State.dropReq s src).used = s.used :=
  (State.moves_dropReq ..).frame .used (by decide)
@[simp] theorem State.dropReq_cap (s : State) (src : Nat) : (State.dropReq s src).cap = s.cap :=
  (State.moves_dropReq ..).frame .cap (by decide)
@[simp] theorem State.dropReq_telem (s : State) (src : Nat) : (State.dropReq s src).telem = s.telem :=
  (State.moves_dropReq ..).frame .telem (by decide)
@[simp] theorem State.dropReq_tune (s : State) (src : Nat) : (State.dropReq s src).tune = s.tune :=
  (State.moves_dropReq ..).frame .tune (by decide)
@[simp] theorem State.dropReq_hints (s : State) (src : Nat) : (State.dropReq s src).hints = s.hints :=
  (State.moves_dropReq ..).frame .hints (by decide)
@[simp] theorem State.dropReq_learn (s : State) (src : Nat) : (State.dropReq s src).learn = s.learn :=
  (State.moves_dropReq ..).frame .learn (by decide)
@[simp] theorem State.dropReq_therm (s : State) (src : Nat) : (State.dropReq s src).therm = s.therm :=
  (State.moves_dropReq ..).frame .therm (by decide)
@[simp] theorem State.dropReq_diode (s : State) (src : Nat) (r' : Nat) : (State.dropReq s src).diode r' = s.diode r' := by
  simp only [State.diode, State.dropReq_therm]
@[simp] theorem State.dropReq_convs (s : State) (src : Nat) : (State.dropReq s src).convs = s.convs :=
  (State.moves_dropReq ..).frame .convs (by decide)
@[simp] theorem State.dropReq_conv (s : State) (src : Nat) (n' : Nat) : (State.dropReq s src).conv n' = s.conv n' := by
  simp only [State.conv, State.dropReq_convs]
@[simp] theorem State.dropReq_cg (s : State) (src : Nat) : (State.dropReq s src).cg = s.cg :=
  (State.moves_dropReq ..).frame .cg (by decide)
@[simp] theorem State.dropReq_dict (s : State) (src : Nat) : (State.dropReq s src).dict = s.dict :=
  (State.moves_dropReq ..).frame .dict (by decide)
@[simp] theorem State.dropReq_recd (s : State) (src : Nat) : (State.dropReq s src).recd = s.recd :=
  (State.moves_dropReq ..).frame .recd (by decide)
@[simp] theorem State.dropReq_clk (s : State) (src : Nat) : (State.dropReq s src).clk = s.clk :=
  (State.moves_dropReq ..).frame .clk (by decide)
@[simp] theorem State.dropReq_regs (s : State) (src : Nat) : (State.dropReq s src).regs = s.regs :=
  (State.moves_dropReq ..).frame .regs (by decide)
@[simp] theorem State.dropReq_get (s : State) (src : Nat) (g' : Reg) : (State.dropReq s src).get g' = s.get g' := by
  simp only [State.get, State.dropReq_regs]
@[simp] theorem State.dropReq_getN (s : State) (src : Nat) (g' : Reg) : (State.dropReq s src).getN g' = s.getN g' := by
  simp only [State.getN, State.get, State.dropReq_regs]
@[simp] theorem State.dropReq_freeK (s : State) (src : Nat) : (State.dropReq s src).freeK = s.freeK :=
  (State.moves_dropReq ..).frame .freeK (by decide)
@[simp] theorem State.dropReq_pending (s : State) (src : Nat) : (State.dropReq s src).pending = s.pending :=
  (State.moves_dropReq ..).frame .pending (by decide)
@[simp] theorem State.askUrgent_cfg (s : State) (n : Nat) (u : Urgent) : (State.askUrgent s n u).cfg = s.cfg :=
  (State.moves_askUrgent ..).frame .cfg (by decide)
@[simp] theorem State.askUrgent_now (s : State) (n : Nat) (u : Urgent) : (State.askUrgent s n u).now = s.now :=
  (State.moves_askUrgent ..).frame .now (by decide)
@[simp] theorem State.askUrgent_blk (s : State) (n : Nat) (u : Urgent) : (State.askUrgent s n u).blk = s.blk :=
  (State.moves_askUrgent ..).frame .blk (by decide)
@[simp] theorem State.askUrgent_rails (s : State) (n : Nat) (u : Urgent) : (State.askUrgent s n u).rails = s.rails :=
  (State.moves_askUrgent ..).frame .rails (by decide)
@[simp] theorem State.askUrgent_rail (s : State) (n : Nat) (u : Urgent) (q' : Nat) : (State.askUrgent s n u).rail q' = s.rail q' := by
  simp only [State.rail, State.askUrgent_rails]
@[simp] theorem State.askUrgent_regions (s : State) (n : Nat) (u : Urgent) : (State.askUrgent s n u).regions = s.regions :=
  (State.moves_askUrgent ..).frame .regions (by decide)
@[simp] theorem State.askUrgent_region (s : State) (n : Nat) (u : Urgent) (r' : Nat) : (State.askUrgent s n u).region r' = s.region r' := by
  simp only [State.region, State.askUrgent_regions]
@[simp] theorem State.askUrgent_strings (s : State) (n : Nat) (u : Urgent) : (State.askUrgent s n u).strings = s.strings :=
  (State.moves_askUrgent ..).frame .strings (by decide)
@[simp] theorem State.askUrgent_str (s : State) (n : Nat) (u : Urgent) (i' : Nat) : (State.askUrgent s n u).str i' = s.str i' := by
  simp only [State.str, State.askUrgent_strings]
@[simp] theorem State.askUrgent_courses (s : State) (n : Nat) (u : Urgent) : (State.askUrgent s n u).courses = s.courses :=
  (State.moves_askUrgent ..).frame .courses (by decide)
@[simp] theorem State.askUrgent_course (s : State) (n : Nat) (u : Urgent) (c' : Nat) : (State.askUrgent s n u).course c' = s.course c' := by
  simp only [State.course, State.askUrgent_courses]
@[simp] theorem State.askUrgent_chans (s : State) (n : Nat) (u : Urgent) : (State.askUrgent s n u).chans = s.chans :=
  (State.moves_askUrgent ..).frame .chans (by decide)
@[simp] theorem State.askUrgent_chan (s : State) (n : Nat) (u : Urgent) (c' : Nat) : (State.askUrgent s n u).chan c' = s.chan c' := by
  simp only [State.chan, State.askUrgent_chans]
@[simp] theorem State.askUrgent_eng (s : State) (n : Nat) (u : Urgent) : (State.askUrgent s n u).eng = s.eng :=
  (State.moves_askUrgent ..).frame .eng (by decide)
@[simp] theorem State.askUrgent_used (s : State) (n : Nat) (u : Urgent) : (State.askUrgent s n u).used = s.used :=
  (State.moves_askUrgent ..).frame .used (by decide)
@[simp] theorem State.askUrgent_cap (s : State) (n : Nat) (u : Urgent) : (State.askUrgent s n u).cap = s.cap :=
  (State.moves_askUrgent ..).frame .cap (by decide)
@[simp] theorem State.askUrgent_telem (s : State) (n : Nat) (u : Urgent) : (State.askUrgent s n u).telem = s.telem :=
  (State.moves_askUrgent ..).frame .telem (by decide)
@[simp] theorem State.askUrgent_tune (s : State) (n : Nat) (u : Urgent) : (State.askUrgent s n u).tune = s.tune :=
  (State.moves_askUrgent ..).frame .tune (by decide)
@[simp] theorem State.askUrgent_hints (s : State) (n : Nat) (u : Urgent) : (State.askUrgent s n u).hints = s.hints :=
  (State.moves_askUrgent ..).frame .hints (by decide)
@[simp] theorem State.askUrgent_learn (s : State) (n : Nat) (u : Urgent) : (State.askUrgent s n u).learn = s.learn :=
  (State.moves_askUrgent ..).frame .learn (by decide)
@[simp] theorem State.askUrgent_therm (s : State) (n : Nat) (u : Urgent) : (State.askUrgent s n u).therm = s.therm :=
  (State.moves_askUrgent ..).frame .therm (by decide)
@[simp] theorem State.askUrgent_diode (s : State) (n : Nat) (u : Urgent) (r' : Nat) : (State.askUrgent s n u).diode r' = s.diode r' := by
  simp only [State.diode, State.askUrgent_therm]
@[simp] theorem State.askUrgent_cg (s : State) (n : Nat) (u : Urgent) : (State.askUrgent s n u).cg = s.cg :=
  (State.moves_askUrgent ..).frame .cg (by decide)
@[simp] theorem State.askUrgent_dict (s : State) (n : Nat) (u : Urgent) : (State.askUrgent s n u).dict = s.dict :=
  (State.moves_askUrgent ..).frame .dict (by decide)
@[simp] theorem State.askUrgent_dma (s : State) (n : Nat) (u : Urgent) : (State.askUrgent s n u).dma = s.dma :=
  (State.moves_askUrgent ..).frame .dma (by decide)
@[simp] theorem State.askUrgent_recd (s : State) (n : Nat) (u : Urgent) : (State.askUrgent s n u).recd = s.recd :=
  (State.moves_askUrgent ..).frame .recd (by decide)
@[simp] theorem State.askUrgent_clk (s : State) (n : Nat) (u : Urgent) : (State.askUrgent s n u).clk = s.clk :=
  (State.moves_askUrgent ..).frame .clk (by decide)
@[simp] theorem State.askUrgent_regs (s : State) (n : Nat) (u : Urgent) : (State.askUrgent s n u).regs = s.regs :=
  (State.moves_askUrgent ..).frame .regs (by decide)
@[simp] theorem State.askUrgent_get (s : State) (n : Nat) (u : Urgent) (g' : Reg) : (State.askUrgent s n u).get g' = s.get g' := by
  simp only [State.get, State.askUrgent_regs]
@[simp] theorem State.askUrgent_getN (s : State) (n : Nat) (u : Urgent) (g' : Reg) : (State.askUrgent s n u).getN g' = s.getN g' := by
  simp only [State.getN, State.get, State.askUrgent_regs]
@[simp] theorem State.askUrgent_freeK (s : State) (n : Nat) (u : Urgent) : (State.askUrgent s n u).freeK = s.freeK :=
  (State.moves_askUrgent ..).frame .freeK (by decide)
@[simp] theorem State.askUrgent_pending (s : State) (n : Nat) (u : Urgent) : (State.askUrgent s n u).pending = s.pending :=
  (State.moves_askUrgent ..).frame .pending (by decide)
@[simp] theorem State.convLow_cfg (s : State) : (State.convLow s).cfg = s.cfg :=
  (State.moves_convLow ..).frame .cfg (by decide)
@[simp] theorem State.convLow_now (s : State) : (State.convLow s).now = s.now :=
  (State.moves_convLow ..).frame .now (by decide)
@[simp] theorem State.convLow_rails (s : State) : (State.convLow s).rails = s.rails :=
  (State.moves_convLow ..).frame .rails (by decide)
@[simp] theorem State.convLow_rail (s : State) (q' : Nat) : (State.convLow s).rail q' = s.rail q' := by
  simp only [State.rail, State.convLow_rails]
@[simp] theorem State.convLow_regions (s : State) : (State.convLow s).regions = s.regions :=
  (State.moves_convLow ..).frame .regions (by decide)
@[simp] theorem State.convLow_region (s : State) (r' : Nat) : (State.convLow s).region r' = s.region r' := by
  simp only [State.region, State.convLow_regions]
@[simp] theorem State.convLow_strings (s : State) : (State.convLow s).strings = s.strings :=
  (State.moves_convLow ..).frame .strings (by decide)
@[simp] theorem State.convLow_str (s : State) (i' : Nat) : (State.convLow s).str i' = s.str i' := by
  simp only [State.str, State.convLow_strings]
@[simp] theorem State.convLow_courses (s : State) : (State.convLow s).courses = s.courses :=
  (State.moves_convLow ..).frame .courses (by decide)
@[simp] theorem State.convLow_course (s : State) (c' : Nat) : (State.convLow s).course c' = s.course c' := by
  simp only [State.course, State.convLow_courses]
@[simp] theorem State.convLow_chans (s : State) : (State.convLow s).chans = s.chans :=
  (State.moves_convLow ..).frame .chans (by decide)
@[simp] theorem State.convLow_chan (s : State) (c' : Nat) : (State.convLow s).chan c' = s.chan c' := by
  simp only [State.chan, State.convLow_chans]
@[simp] theorem State.convLow_eng (s : State) : (State.convLow s).eng = s.eng :=
  (State.moves_convLow ..).frame .eng (by decide)
@[simp] theorem State.convLow_used (s : State) : (State.convLow s).used = s.used :=
  (State.moves_convLow ..).frame .used (by decide)
@[simp] theorem State.convLow_cap (s : State) : (State.convLow s).cap = s.cap :=
  (State.moves_convLow ..).frame .cap (by decide)
@[simp] theorem State.convLow_telem (s : State) : (State.convLow s).telem = s.telem :=
  (State.moves_convLow ..).frame .telem (by decide)
@[simp] theorem State.convLow_tune (s : State) : (State.convLow s).tune = s.tune :=
  (State.moves_convLow ..).frame .tune (by decide)
@[simp] theorem State.convLow_hints (s : State) : (State.convLow s).hints = s.hints :=
  (State.moves_convLow ..).frame .hints (by decide)
@[simp] theorem State.convLow_learn (s : State) : (State.convLow s).learn = s.learn :=
  (State.moves_convLow ..).frame .learn (by decide)
@[simp] theorem State.convLow_therm (s : State) : (State.convLow s).therm = s.therm :=
  (State.moves_convLow ..).frame .therm (by decide)
@[simp] theorem State.convLow_diode (s : State) (r' : Nat) : (State.convLow s).diode r' = s.diode r' := by
  simp only [State.diode, State.convLow_therm]
@[simp] theorem State.convLow_dict (s : State) : (State.convLow s).dict = s.dict :=
  (State.moves_convLow ..).frame .dict (by decide)
@[simp] theorem State.convLow_dma (s : State) : (State.convLow s).dma = s.dma :=
  (State.moves_convLow ..).frame .dma (by decide)
@[simp] theorem State.convLow_recd (s : State) : (State.convLow s).recd = s.recd :=
  (State.moves_convLow ..).frame .recd (by decide)
@[simp] theorem State.convLow_clk (s : State) : (State.convLow s).clk = s.clk :=
  (State.moves_convLow ..).frame .clk (by decide)
@[simp] theorem State.convLow_freeK (s : State) : (State.convLow s).freeK = s.freeK :=
  (State.moves_convLow ..).frame .freeK (by decide)
@[simp] theorem State.convLow_pending (s : State) : (State.convLow s).pending = s.pending :=
  (State.moves_convLow ..).frame .pending (by decide)
@[simp] theorem State.convLow_st (s : State) : (State.convLow s).blk.st = s.blk.st :=
  (State.moves_convLow ..).frame .st (by decide)
@[simp] theorem State.leaveRun_cfg (s : State) : (State.leaveRun s).cfg = s.cfg :=
  (State.moves_leaveRun ..).frame .cfg (by decide)
@[simp] theorem State.leaveRun_now (s : State) : (State.leaveRun s).now = s.now :=
  (State.moves_leaveRun ..).frame .now (by decide)
@[simp] theorem State.leaveRun_courses (s : State) : (State.leaveRun s).courses = s.courses :=
  (State.moves_leaveRun ..).frame .courses (by decide)
@[simp] theorem State.leaveRun_course (s : State) (c' : Nat) : (State.leaveRun s).course c' = s.course c' := by
  simp only [State.course, State.leaveRun_courses]
@[simp] theorem State.leaveRun_chans (s : State) : (State.leaveRun s).chans = s.chans :=
  (State.moves_leaveRun ..).frame .chans (by decide)
@[simp] theorem State.leaveRun_chan (s : State) (c' : Nat) : (State.leaveRun s).chan c' = s.chan c' := by
  simp only [State.chan, State.leaveRun_chans]
@[simp] theorem State.leaveRun_eng (s : State) : (State.leaveRun s).eng = s.eng :=
  (State.moves_leaveRun ..).frame .eng (by decide)
@[simp] theorem State.leaveRun_used (s : State) : (State.leaveRun s).used = s.used :=
  (State.moves_leaveRun ..).frame .used (by decide)
@[simp] theorem State.leaveRun_telem (s : State) : (State.leaveRun s).telem = s.telem :=
  (State.moves_leaveRun ..).frame .telem (by decide)
@[simp] theorem State.leaveRun_tune (s : State) : (State.leaveRun s).tune = s.tune :=
  (State.moves_leaveRun ..).frame .tune (by decide)
@[simp] theorem State.leaveRun_therm (s : State) : (State.leaveRun s).therm = s.therm :=
  (State.moves_leaveRun ..).frame .therm (by decide)
@[simp] theorem State.leaveRun_diode (s : State) (r' : Nat) : (State.leaveRun s).diode r' = s.diode r' := by
  simp only [State.diode, State.leaveRun_therm]
@[simp] theorem State.leaveRun_convs (s : State) : (State.leaveRun s).convs = s.convs :=
  (State.moves_leaveRun ..).frame .convs (by decide)
@[simp] theorem State.leaveRun_conv (s : State) (n' : Nat) : (State.leaveRun s).conv n' = s.conv n' := by
  simp only [State.conv, State.leaveRun_convs]
@[simp] theorem State.leaveRun_cg (s : State) : (State.leaveRun s).cg = s.cg :=
  (State.moves_leaveRun ..).frame .cg (by decide)
@[simp] theorem State.leaveRun_dict (s : State) : (State.leaveRun s).dict = s.dict :=
  (State.moves_leaveRun ..).frame .dict (by decide)
@[simp] theorem State.leaveRun_dma (s : State) : (State.leaveRun s).dma = s.dma :=
  (State.moves_leaveRun ..).frame .dma (by decide)
@[simp] theorem State.leaveRun_clk (s : State) : (State.leaveRun s).clk = s.clk :=
  (State.moves_leaveRun ..).frame .clk (by decide)
@[simp] theorem State.leaveRun_freeK (s : State) : (State.leaveRun s).freeK = s.freeK :=
  (State.moves_leaveRun ..).frame .freeK (by decide)
@[simp] theorem State.leaveRun_pending (s : State) : (State.leaveRun s).pending = s.pending :=
  (State.moves_leaveRun ..).frame .pending (by decide)
@[simp] theorem State.leaveRun_st (s : State) : (State.leaveRun s).blk.st = s.blk.st :=
  (State.moves_leaveRun ..).frame .st (by decide)
@[simp] theorem State.enterRamp_cfg (s : State) : (State.enterRamp s).cfg = s.cfg :=
  (State.moves_enterRamp ..).frame .cfg (by decide)
@[simp] theorem State.enterRamp_now (s : State) : (State.enterRamp s).now = s.now :=
  (State.moves_enterRamp ..).frame .now (by decide)
@[simp] theorem State.enterRamp_blk (s : State) : (State.enterRamp s).blk = s.blk :=
  (State.moves_enterRamp ..).frame .blk (by decide)
@[simp] theorem State.enterRamp_courses (s : State) : (State.enterRamp s).courses = s.courses :=
  (State.moves_enterRamp ..).frame .courses (by decide)
@[simp] theorem State.enterRamp_course (s : State) (c' : Nat) : (State.enterRamp s).course c' = s.course c' := by
  simp only [State.course, State.enterRamp_courses]
@[simp] theorem State.enterRamp_chans (s : State) : (State.enterRamp s).chans = s.chans :=
  (State.moves_enterRamp ..).frame .chans (by decide)
@[simp] theorem State.enterRamp_chan (s : State) (c' : Nat) : (State.enterRamp s).chan c' = s.chan c' := by
  simp only [State.chan, State.enterRamp_chans]
@[simp] theorem State.enterRamp_used (s : State) : (State.enterRamp s).used = s.used :=
  (State.moves_enterRamp ..).frame .used (by decide)
@[simp] theorem State.enterRamp_cap (s : State) : (State.enterRamp s).cap = s.cap :=
  (State.moves_enterRamp ..).frame .cap (by decide)
@[simp] theorem State.enterRamp_telem (s : State) : (State.enterRamp s).telem = s.telem :=
  (State.moves_enterRamp ..).frame .telem (by decide)
@[simp] theorem State.enterRamp_tune (s : State) : (State.enterRamp s).tune = s.tune :=
  (State.moves_enterRamp ..).frame .tune (by decide)
@[simp] theorem State.enterRamp_hints (s : State) : (State.enterRamp s).hints = s.hints :=
  (State.moves_enterRamp ..).frame .hints (by decide)
@[simp] theorem State.enterRamp_learn (s : State) : (State.enterRamp s).learn = s.learn :=
  (State.moves_enterRamp ..).frame .learn (by decide)
@[simp] theorem State.enterRamp_convs (s : State) : (State.enterRamp s).convs = s.convs :=
  (State.moves_enterRamp ..).frame .convs (by decide)
@[simp] theorem State.enterRamp_conv (s : State) (n' : Nat) : (State.enterRamp s).conv n' = s.conv n' := by
  simp only [State.conv, State.enterRamp_convs]
@[simp] theorem State.enterRamp_dict (s : State) : (State.enterRamp s).dict = s.dict :=
  (State.moves_enterRamp ..).frame .dict (by decide)
@[simp] theorem State.enterRamp_dma (s : State) : (State.enterRamp s).dma = s.dma :=
  (State.moves_enterRamp ..).frame .dma (by decide)
@[simp] theorem State.enterRamp_recd (s : State) : (State.enterRamp s).recd = s.recd :=
  (State.moves_enterRamp ..).frame .recd (by decide)
@[simp] theorem State.enterRamp_clk (s : State) : (State.enterRamp s).clk = s.clk :=
  (State.moves_enterRamp ..).frame .clk (by decide)
@[simp] theorem State.enterRamp_regs (s : State) : (State.enterRamp s).regs = s.regs :=
  (State.moves_enterRamp ..).frame .regs (by decide)
@[simp] theorem State.enterRamp_get (s : State) (g' : Reg) : (State.enterRamp s).get g' = s.get g' := by
  simp only [State.get, State.enterRamp_regs]
@[simp] theorem State.enterRamp_getN (s : State) (g' : Reg) : (State.enterRamp s).getN g' = s.getN g' := by
  simp only [State.getN, State.get, State.enterRamp_regs]
@[simp] theorem State.enterRamp_freeK (s : State) : (State.enterRamp s).freeK = s.freeK :=
  (State.moves_enterRamp ..).frame .freeK (by decide)
@[simp] theorem State.enterRamp_pending (s : State) : (State.enterRamp s).pending = s.pending :=
  (State.moves_enterRamp ..).frame .pending (by decide)
@[simp] theorem State.stStartFlush_cfg (s : State) : (State.stStartFlush s).cfg = s.cfg :=
  (State.moves_stStartFlush ..).frame .cfg (by decide)
@[simp] theorem State.stStartFlush_now (s : State) : (State.stStartFlush s).now = s.now :=
  (State.moves_stStartFlush ..).frame .now (by decide)
@[simp] theorem State.stStartFlush_blk (s : State) : (State.stStartFlush s).blk = s.blk :=
  (State.moves_stStartFlush ..).frame .blk (by decide)
@[simp] theorem State.stStartFlush_rails (s : State) : (State.stStartFlush s).rails = s.rails :=
  (State.moves_stStartFlush ..).frame .rails (by decide)
@[simp] theorem State.stStartFlush_rail (s : State) (q' : Nat) : (State.stStartFlush s).rail q' = s.rail q' := by
  simp only [State.rail, State.stStartFlush_rails]
@[simp] theorem State.stStartFlush_regions (s : State) : (State.stStartFlush s).regions = s.regions :=
  (State.moves_stStartFlush ..).frame .regions (by decide)
@[simp] theorem State.stStartFlush_region (s : State) (r' : Nat) : (State.stStartFlush s).region r' = s.region r' := by
  simp only [State.region, State.stStartFlush_regions]
@[simp] theorem State.stStartFlush_strings (s : State) : (State.stStartFlush s).strings = s.strings :=
  (State.moves_stStartFlush ..).frame .strings (by decide)
@[simp] theorem State.stStartFlush_str (s : State) (i' : Nat) : (State.stStartFlush s).str i' = s.str i' := by
  simp only [State.str, State.stStartFlush_strings]
@[simp] theorem State.stStartFlush_courses (s : State) : (State.stStartFlush s).courses = s.courses :=
  (State.moves_stStartFlush ..).frame .courses (by decide)
@[simp] theorem State.stStartFlush_course (s : State) (c' : Nat) : (State.stStartFlush s).course c' = s.course c' := by
  simp only [State.course, State.stStartFlush_courses]
@[simp] theorem State.stStartFlush_chans (s : State) : (State.stStartFlush s).chans = s.chans :=
  (State.moves_stStartFlush ..).frame .chans (by decide)
@[simp] theorem State.stStartFlush_chan (s : State) (c' : Nat) : (State.stStartFlush s).chan c' = s.chan c' := by
  simp only [State.chan, State.stStartFlush_chans]
@[simp] theorem State.stStartFlush_eng (s : State) : (State.stStartFlush s).eng = s.eng :=
  (State.moves_stStartFlush ..).frame .eng (by decide)
@[simp] theorem State.stStartFlush_used (s : State) : (State.stStartFlush s).used = s.used :=
  (State.moves_stStartFlush ..).frame .used (by decide)
@[simp] theorem State.stStartFlush_cap (s : State) : (State.stStartFlush s).cap = s.cap :=
  (State.moves_stStartFlush ..).frame .cap (by decide)
@[simp] theorem State.stStartFlush_telem (s : State) : (State.stStartFlush s).telem = s.telem :=
  (State.moves_stStartFlush ..).frame .telem (by decide)
@[simp] theorem State.stStartFlush_tune (s : State) : (State.stStartFlush s).tune = s.tune :=
  (State.moves_stStartFlush ..).frame .tune (by decide)
@[simp] theorem State.stStartFlush_hints (s : State) : (State.stStartFlush s).hints = s.hints :=
  (State.moves_stStartFlush ..).frame .hints (by decide)
@[simp] theorem State.stStartFlush_learn (s : State) : (State.stStartFlush s).learn = s.learn :=
  (State.moves_stStartFlush ..).frame .learn (by decide)
@[simp] theorem State.stStartFlush_therm (s : State) : (State.stStartFlush s).therm = s.therm :=
  (State.moves_stStartFlush ..).frame .therm (by decide)
@[simp] theorem State.stStartFlush_diode (s : State) (r' : Nat) : (State.stStartFlush s).diode r' = s.diode r' := by
  simp only [State.diode, State.stStartFlush_therm]
@[simp] theorem State.stStartFlush_convs (s : State) : (State.stStartFlush s).convs = s.convs :=
  (State.moves_stStartFlush ..).frame .convs (by decide)
@[simp] theorem State.stStartFlush_conv (s : State) (n' : Nat) : (State.stStartFlush s).conv n' = s.conv n' := by
  simp only [State.conv, State.stStartFlush_convs]
@[simp] theorem State.stStartFlush_cg (s : State) : (State.stStartFlush s).cg = s.cg :=
  (State.moves_stStartFlush ..).frame .cg (by decide)
@[simp] theorem State.stStartFlush_dict (s : State) : (State.stStartFlush s).dict = s.dict :=
  (State.moves_stStartFlush ..).frame .dict (by decide)
@[simp] theorem State.stStartFlush_recd (s : State) : (State.stStartFlush s).recd = s.recd :=
  (State.moves_stStartFlush ..).frame .recd (by decide)
@[simp] theorem State.stStartFlush_clk (s : State) : (State.stStartFlush s).clk = s.clk :=
  (State.moves_stStartFlush ..).frame .clk (by decide)
@[simp] theorem State.stStartFlush_freeK (s : State) : (State.stStartFlush s).freeK = s.freeK :=
  (State.moves_stStartFlush ..).frame .freeK (by decide)
@[simp] theorem State.stStartFlush_pending (s : State) : (State.stStartFlush s).pending = s.pending :=
  (State.moves_stStartFlush ..).frame .pending (by decide)
@[simp] theorem State.enter_cfg (s : State) (b : BState) : (State.enter s b).cfg = s.cfg :=
  (State.moves_enter ..).frame .cfg (by decide)
@[simp] theorem State.enter_now (s : State) (b : BState) : (State.enter s b).now = s.now :=
  (State.moves_enter ..).frame .now (by decide)
@[simp] theorem State.enter_courses (s : State) (b : BState) : (State.enter s b).courses = s.courses :=
  (State.moves_enter ..).frame .courses (by decide)
@[simp] theorem State.enter_course (s : State) (b : BState) (c' : Nat) : (State.enter s b).course c' = s.course c' := by
  simp only [State.course, State.enter_courses]
@[simp] theorem State.enter_chans (s : State) (b : BState) : (State.enter s b).chans = s.chans :=
  (State.moves_enter ..).frame .chans (by decide)
@[simp] theorem State.enter_chan (s : State) (b : BState) (c' : Nat) : (State.enter s b).chan c' = s.chan c' := by
  simp only [State.chan, State.enter_chans]
@[simp] theorem State.enter_used (s : State) (b : BState) : (State.enter s b).used = s.used :=
  (State.moves_enter ..).frame .used (by decide)
@[simp] theorem State.enter_telem (s : State) (b : BState) : (State.enter s b).telem = s.telem :=
  (State.moves_enter ..).frame .telem (by decide)
@[simp] theorem State.enter_tune (s : State) (b : BState) : (State.enter s b).tune = s.tune :=
  (State.moves_enter ..).frame .tune (by decide)
@[simp] theorem State.enter_dict (s : State) (b : BState) : (State.enter s b).dict = s.dict :=
  (State.moves_enter ..).frame .dict (by decide)
@[simp] theorem State.enter_clk (s : State) (b : BState) : (State.enter s b).clk = s.clk :=
  (State.moves_enter ..).frame .clk (by decide)
@[simp] theorem State.enter_freeK (s : State) (b : BState) : (State.enter s b).freeK = s.freeK :=
  (State.moves_enter ..).frame .freeK (by decide)
@[simp] theorem State.enter_pending (s : State) (b : BState) : (State.enter s b).pending = s.pending :=
  (State.moves_enter ..).frame .pending (by decide)
@[simp] theorem State.applyIsland_cfg (s : State) : (State.applyIsland s).cfg = s.cfg :=
  (State.moves_applyIsland ..).frame .cfg (by decide)
@[simp] theorem State.applyIsland_now (s : State) : (State.applyIsland s).now = s.now :=
  (State.moves_applyIsland ..).frame .now (by decide)
@[simp] theorem State.applyIsland_blk (s : State) : (State.applyIsland s).blk = s.blk :=
  (State.moves_applyIsland ..).frame .blk (by decide)
@[simp] theorem State.applyIsland_rails (s : State) : (State.applyIsland s).rails = s.rails :=
  (State.moves_applyIsland ..).frame .rails (by decide)
@[simp] theorem State.applyIsland_rail (s : State) (q' : Nat) : (State.applyIsland s).rail q' = s.rail q' := by
  simp only [State.rail, State.applyIsland_rails]
@[simp] theorem State.applyIsland_strings (s : State) : (State.applyIsland s).strings = s.strings :=
  (State.moves_applyIsland ..).frame .strings (by decide)
@[simp] theorem State.applyIsland_str (s : State) (i' : Nat) : (State.applyIsland s).str i' = s.str i' := by
  simp only [State.str, State.applyIsland_strings]
@[simp] theorem State.applyIsland_courses (s : State) : (State.applyIsland s).courses = s.courses :=
  (State.moves_applyIsland ..).frame .courses (by decide)
@[simp] theorem State.applyIsland_course (s : State) (c' : Nat) : (State.applyIsland s).course c' = s.course c' := by
  simp only [State.course, State.applyIsland_courses]
@[simp] theorem State.applyIsland_chans (s : State) : (State.applyIsland s).chans = s.chans :=
  (State.moves_applyIsland ..).frame .chans (by decide)
@[simp] theorem State.applyIsland_chan (s : State) (c' : Nat) : (State.applyIsland s).chan c' = s.chan c' := by
  simp only [State.chan, State.applyIsland_chans]
@[simp] theorem State.applyIsland_eng (s : State) : (State.applyIsland s).eng = s.eng :=
  (State.moves_applyIsland ..).frame .eng (by decide)
@[simp] theorem State.applyIsland_cap (s : State) : (State.applyIsland s).cap = s.cap :=
  (State.moves_applyIsland ..).frame .cap (by decide)
@[simp] theorem State.applyIsland_telem (s : State) : (State.applyIsland s).telem = s.telem :=
  (State.moves_applyIsland ..).frame .telem (by decide)
@[simp] theorem State.applyIsland_tune (s : State) : (State.applyIsland s).tune = s.tune :=
  (State.moves_applyIsland ..).frame .tune (by decide)
@[simp] theorem State.applyIsland_hints (s : State) : (State.applyIsland s).hints = s.hints :=
  (State.moves_applyIsland ..).frame .hints (by decide)
@[simp] theorem State.applyIsland_learn (s : State) : (State.applyIsland s).learn = s.learn :=
  (State.moves_applyIsland ..).frame .learn (by decide)
@[simp] theorem State.applyIsland_therm (s : State) : (State.applyIsland s).therm = s.therm :=
  (State.moves_applyIsland ..).frame .therm (by decide)
@[simp] theorem State.applyIsland_diode (s : State) (r' : Nat) : (State.applyIsland s).diode r' = s.diode r' := by
  simp only [State.diode, State.applyIsland_therm]
@[simp] theorem State.applyIsland_convs (s : State) : (State.applyIsland s).convs = s.convs :=
  (State.moves_applyIsland ..).frame .convs (by decide)
@[simp] theorem State.applyIsland_conv (s : State) (n' : Nat) : (State.applyIsland s).conv n' = s.conv n' := by
  simp only [State.conv, State.applyIsland_convs]
@[simp] theorem State.applyIsland_cg (s : State) : (State.applyIsland s).cg = s.cg :=
  (State.moves_applyIsland ..).frame .cg (by decide)
@[simp] theorem State.applyIsland_dict (s : State) : (State.applyIsland s).dict = s.dict :=
  (State.moves_applyIsland ..).frame .dict (by decide)
@[simp] theorem State.applyIsland_dma (s : State) : (State.applyIsland s).dma = s.dma :=
  (State.moves_applyIsland ..).frame .dma (by decide)
@[simp] theorem State.applyIsland_recd (s : State) : (State.applyIsland s).recd = s.recd :=
  (State.moves_applyIsland ..).frame .recd (by decide)
@[simp] theorem State.applyIsland_clk (s : State) : (State.applyIsland s).clk = s.clk :=
  (State.moves_applyIsland ..).frame .clk (by decide)
@[simp] theorem State.applyIsland_regs (s : State) : (State.applyIsland s).regs = s.regs :=
  (State.moves_applyIsland ..).frame .regs (by decide)
@[simp] theorem State.applyIsland_get (s : State) (g' : Reg) : (State.applyIsland s).get g' = s.get g' := by
  simp only [State.get, State.applyIsland_regs]
@[simp] theorem State.applyIsland_getN (s : State) (g' : Reg) : (State.applyIsland s).getN g' = s.getN g' := by
  simp only [State.getN, State.get, State.applyIsland_regs]
@[simp] theorem State.applyIsland_freeK (s : State) : (State.applyIsland s).freeK = s.freeK :=
  (State.moves_applyIsland ..).frame .freeK (by decide)
@[simp] theorem State.applyIsland_pending (s : State) : (State.applyIsland s).pending = s.pending :=
  (State.moves_applyIsland ..).frame .pending (by decide)
@[simp] theorem State.takeGroup_cfg (s : State) (g : Nat) : (State.takeGroup s g).cfg = s.cfg :=
  (State.moves_takeGroup ..).frame .cfg (by decide)
@[simp] theorem State.takeGroup_now (s : State) (g : Nat) : (State.takeGroup s g).now = s.now :=
  (State.moves_takeGroup ..).frame .now (by decide)
@[simp] theorem State.takeGroup_blk (s : State) (g : Nat) : (State.takeGroup s g).blk = s.blk :=
  (State.moves_takeGroup ..).frame .blk (by decide)
@[simp] theorem State.takeGroup_rails (s : State) (g : Nat) : (State.takeGroup s g).rails = s.rails :=
  (State.moves_takeGroup ..).frame .rails (by decide)
@[simp] theorem State.takeGroup_rail (s : State) (g : Nat) (q' : Nat) : (State.takeGroup s g).rail q' = s.rail q' := by
  simp only [State.rail, State.takeGroup_rails]
@[simp] theorem State.takeGroup_regions (s : State) (g : Nat) : (State.takeGroup s g).regions = s.regions :=
  (State.moves_takeGroup ..).frame .regions (by decide)
@[simp] theorem State.takeGroup_region (s : State) (g : Nat) (r' : Nat) : (State.takeGroup s g).region r' = s.region r' := by
  simp only [State.region, State.takeGroup_regions]
@[simp] theorem State.takeGroup_strings (s : State) (g : Nat) : (State.takeGroup s g).strings = s.strings :=
  (State.moves_takeGroup ..).frame .strings (by decide)
@[simp] theorem State.takeGroup_str (s : State) (g : Nat) (i' : Nat) : (State.takeGroup s g).str i' = s.str i' := by
  simp only [State.str, State.takeGroup_strings]
@[simp] theorem State.takeGroup_courses (s : State) (g : Nat) : (State.takeGroup s g).courses = s.courses :=
  (State.moves_takeGroup ..).frame .courses (by decide)
@[simp] theorem State.takeGroup_course (s : State) (g : Nat) (c' : Nat) : (State.takeGroup s g).course c' = s.course c' := by
  simp only [State.course, State.takeGroup_courses]
@[simp] theorem State.takeGroup_chans (s : State) (g : Nat) : (State.takeGroup s g).chans = s.chans :=
  (State.moves_takeGroup ..).frame .chans (by decide)
@[simp] theorem State.takeGroup_chan (s : State) (g : Nat) (c' : Nat) : (State.takeGroup s g).chan c' = s.chan c' := by
  simp only [State.chan, State.takeGroup_chans]
@[simp] theorem State.takeGroup_eng (s : State) (g : Nat) : (State.takeGroup s g).eng = s.eng :=
  (State.moves_takeGroup ..).frame .eng (by decide)
@[simp] theorem State.takeGroup_cap (s : State) (g : Nat) : (State.takeGroup s g).cap = s.cap :=
  (State.moves_takeGroup ..).frame .cap (by decide)
@[simp] theorem State.takeGroup_telem (s : State) (g : Nat) : (State.takeGroup s g).telem = s.telem :=
  (State.moves_takeGroup ..).frame .telem (by decide)
@[simp] theorem State.takeGroup_tune (s : State) (g : Nat) : (State.takeGroup s g).tune = s.tune :=
  (State.moves_takeGroup ..).frame .tune (by decide)
@[simp] theorem State.takeGroup_hints (s : State) (g : Nat) : (State.takeGroup s g).hints = s.hints :=
  (State.moves_takeGroup ..).frame .hints (by decide)
@[simp] theorem State.takeGroup_learn (s : State) (g : Nat) : (State.takeGroup s g).learn = s.learn :=
  (State.moves_takeGroup ..).frame .learn (by decide)
@[simp] theorem State.takeGroup_therm (s : State) (g : Nat) : (State.takeGroup s g).therm = s.therm :=
  (State.moves_takeGroup ..).frame .therm (by decide)
@[simp] theorem State.takeGroup_diode (s : State) (g : Nat) (r' : Nat) : (State.takeGroup s g).diode r' = s.diode r' := by
  simp only [State.diode, State.takeGroup_therm]
@[simp] theorem State.takeGroup_convs (s : State) (g : Nat) : (State.takeGroup s g).convs = s.convs :=
  (State.moves_takeGroup ..).frame .convs (by decide)
@[simp] theorem State.takeGroup_conv (s : State) (g : Nat) (n' : Nat) : (State.takeGroup s g).conv n' = s.conv n' := by
  simp only [State.conv, State.takeGroup_convs]
@[simp] theorem State.takeGroup_cg (s : State) (g : Nat) : (State.takeGroup s g).cg = s.cg :=
  (State.moves_takeGroup ..).frame .cg (by decide)
@[simp] theorem State.takeGroup_dma (s : State) (g : Nat) : (State.takeGroup s g).dma = s.dma :=
  (State.moves_takeGroup ..).frame .dma (by decide)
@[simp] theorem State.takeGroup_recd (s : State) (g : Nat) : (State.takeGroup s g).recd = s.recd :=
  (State.moves_takeGroup ..).frame .recd (by decide)
@[simp] theorem State.takeGroup_clk (s : State) (g : Nat) : (State.takeGroup s g).clk = s.clk :=
  (State.moves_takeGroup ..).frame .clk (by decide)
@[simp] theorem State.takeGroup_regs (s : State) (g : Nat) : (State.takeGroup s g).regs = s.regs :=
  (State.moves_takeGroup ..).frame .regs (by decide)
@[simp] theorem State.takeGroup_get (s : State) (g : Nat) (g' : Reg) : (State.takeGroup s g).get g' = s.get g' := by
  simp only [State.get, State.takeGroup_regs]
@[simp] theorem State.takeGroup_getN (s : State) (g : Nat) (g' : Reg) : (State.takeGroup s g).getN g' = s.getN g' := by
  simp only [State.getN, State.get, State.takeGroup_regs]
@[simp] theorem State.takeGroup_freeK (s : State) (g : Nat) : (State.takeGroup s g).freeK = s.freeK :=
  (State.moves_takeGroup ..).frame .freeK (by decide)
@[simp] theorem State.takeGroup_pending (s : State) (g : Nat) : (State.takeGroup s g).pending = s.pending :=
  (State.moves_takeGroup ..).frame .pending (by decide)
@[simp] theorem State.startDiscover_cfg (s : State) : (State.startDiscover s).cfg = s.cfg :=
  (State.moves_startDiscover ..).frame .cfg (by decide)
@[simp] theorem State.startDiscover_now (s : State) : (State.startDiscover s).now = s.now :=
  (State.moves_startDiscover ..).frame .now (by decide)
@[simp] theorem State.startDiscover_chans (s : State) : (State.startDiscover s).chans = s.chans :=
  (State.moves_startDiscover ..).frame .chans (by decide)
@[simp] theorem State.startDiscover_chan (s : State) (c' : Nat) : (State.startDiscover s).chan c' = s.chan c' := by
  simp only [State.chan, State.startDiscover_chans]
@[simp] theorem State.startDiscover_used (s : State) : (State.startDiscover s).used = s.used :=
  (State.moves_startDiscover ..).frame .used (by decide)
@[simp] theorem State.startDiscover_telem (s : State) : (State.startDiscover s).telem = s.telem :=
  (State.moves_startDiscover ..).frame .telem (by decide)
@[simp] theorem State.startDiscover_tune (s : State) : (State.startDiscover s).tune = s.tune :=
  (State.moves_startDiscover ..).frame .tune (by decide)
@[simp] theorem State.startDiscover_dict (s : State) : (State.startDiscover s).dict = s.dict :=
  (State.moves_startDiscover ..).frame .dict (by decide)
@[simp] theorem State.startDiscover_clk (s : State) : (State.startDiscover s).clk = s.clk :=
  (State.moves_startDiscover ..).frame .clk (by decide)
@[simp] theorem State.startDiscover_freeK (s : State) : (State.startDiscover s).freeK = s.freeK :=
  (State.moves_startDiscover ..).frame .freeK (by decide)
@[simp] theorem State.startDiscover_pending (s : State) : (State.startDiscover s).pending = s.pending :=
  (State.moves_startDiscover ..).frame .pending (by decide)
@[simp] theorem State.railEnLow_cfg (s : State) (q : Nat) : (State.railEnLow s q).cfg = s.cfg :=
  (State.moves_railEnLow ..).frame .cfg (by decide)
@[simp] theorem State.railEnLow_now (s : State) (q : Nat) : (State.railEnLow s q).now = s.now :=
  (State.moves_railEnLow ..).frame .now (by decide)
@[simp] theorem State.railEnLow_blk (s : State) (q : Nat) : (State.railEnLow s q).blk = s.blk :=
  (State.moves_railEnLow ..).frame .blk (by decide)
@[simp] theorem State.railEnLow_rails (s : State) (q : Nat) : (State.railEnLow s q).rails = s.rails :=
  (State.moves_railEnLow ..).frame .rails (by decide)
@[simp] theorem State.railEnLow_rail (s : State) (q : Nat) (q' : Nat) : (State.railEnLow s q).rail q' = s.rail q' := by
  simp only [State.rail, State.railEnLow_rails]
@[simp] theorem State.railEnLow_chans (s : State) (q : Nat) : (State.railEnLow s q).chans = s.chans :=
  (State.moves_railEnLow ..).frame .chans (by decide)
@[simp] theorem State.railEnLow_chan (s : State) (q : Nat) (c' : Nat) : (State.railEnLow s q).chan c' = s.chan c' := by
  simp only [State.chan, State.railEnLow_chans]
@[simp] theorem State.railEnLow_eng (s : State) (q : Nat) : (State.railEnLow s q).eng = s.eng :=
  (State.moves_railEnLow ..).frame .eng (by decide)
@[simp] theorem State.railEnLow_used (s : State) (q : Nat) : (State.railEnLow s q).used = s.used :=
  (State.moves_railEnLow ..).frame .used (by decide)
@[simp] theorem State.railEnLow_cap (s : State) (q : Nat) : (State.railEnLow s q).cap = s.cap :=
  (State.moves_railEnLow ..).frame .cap (by decide)
@[simp] theorem State.railEnLow_telem (s : State) (q : Nat) : (State.railEnLow s q).telem = s.telem :=
  (State.moves_railEnLow ..).frame .telem (by decide)
@[simp] theorem State.railEnLow_tune (s : State) (q : Nat) : (State.railEnLow s q).tune = s.tune :=
  (State.moves_railEnLow ..).frame .tune (by decide)
@[simp] theorem State.railEnLow_hints (s : State) (q : Nat) : (State.railEnLow s q).hints = s.hints :=
  (State.moves_railEnLow ..).frame .hints (by decide)
@[simp] theorem State.railEnLow_learn (s : State) (q : Nat) : (State.railEnLow s q).learn = s.learn :=
  (State.moves_railEnLow ..).frame .learn (by decide)
@[simp] theorem State.railEnLow_therm (s : State) (q : Nat) : (State.railEnLow s q).therm = s.therm :=
  (State.moves_railEnLow ..).frame .therm (by decide)
@[simp] theorem State.railEnLow_diode (s : State) (q : Nat) (r' : Nat) : (State.railEnLow s q).diode r' = s.diode r' := by
  simp only [State.diode, State.railEnLow_therm]
@[simp] theorem State.railEnLow_convs (s : State) (q : Nat) : (State.railEnLow s q).convs = s.convs :=
  (State.moves_railEnLow ..).frame .convs (by decide)
@[simp] theorem State.railEnLow_conv (s : State) (q : Nat) (n' : Nat) : (State.railEnLow s q).conv n' = s.conv n' := by
  simp only [State.conv, State.railEnLow_convs]
@[simp] theorem State.railEnLow_cg (s : State) (q : Nat) : (State.railEnLow s q).cg = s.cg :=
  (State.moves_railEnLow ..).frame .cg (by decide)
@[simp] theorem State.railEnLow_dict (s : State) (q : Nat) : (State.railEnLow s q).dict = s.dict :=
  (State.moves_railEnLow ..).frame .dict (by decide)
@[simp] theorem State.railEnLow_dma (s : State) (q : Nat) : (State.railEnLow s q).dma = s.dma :=
  (State.moves_railEnLow ..).frame .dma (by decide)
@[simp] theorem State.railEnLow_recd (s : State) (q : Nat) : (State.railEnLow s q).recd = s.recd :=
  (State.moves_railEnLow ..).frame .recd (by decide)
@[simp] theorem State.railEnLow_clk (s : State) (q : Nat) : (State.railEnLow s q).clk = s.clk :=
  (State.moves_railEnLow ..).frame .clk (by decide)
@[simp] theorem State.railEnLow_regs (s : State) (q : Nat) : (State.railEnLow s q).regs = s.regs :=
  (State.moves_railEnLow ..).frame .regs (by decide)
@[simp] theorem State.railEnLow_get (s : State) (q : Nat) (g' : Reg) : (State.railEnLow s q).get g' = s.get g' := by
  simp only [State.get, State.railEnLow_regs]
@[simp] theorem State.railEnLow_getN (s : State) (q : Nat) (g' : Reg) : (State.railEnLow s q).getN g' = s.getN g' := by
  simp only [State.getN, State.get, State.railEnLow_regs]
@[simp] theorem State.railEnLow_freeK (s : State) (q : Nat) : (State.railEnLow s q).freeK = s.freeK :=
  (State.moves_railEnLow ..).frame .freeK (by decide)
@[simp] theorem State.railEnLow_pending (s : State) (q : Nat) : (State.railEnLow s q).pending = s.pending :=
  (State.moves_railEnLow ..).frame .pending (by decide)
@[simp] theorem State.orderFull_cfg (s : State) : s.orderFull.cfg = s.cfg := rfl
@[simp] theorem State.orderFull_now (s : State) : s.orderFull.now = s.now := rfl
@[simp] theorem State.orderFull_rails (s : State) : s.orderFull.rails = s.rails := rfl
@[simp] theorem State.orderFull_regions (s : State) : s.orderFull.regions = s.regions := rfl
@[simp] theorem State.orderFull_strings (s : State) : s.orderFull.strings = s.strings := rfl
@[simp] theorem State.orderFull_courses (s : State) : s.orderFull.courses = s.courses := rfl
@[simp] theorem State.orderFull_chans (s : State) : s.orderFull.chans = s.chans := rfl
@[simp] theorem State.orderFull_eng (s : State) : s.orderFull.eng = s.eng := rfl
@[simp] theorem State.orderFull_used (s : State) : s.orderFull.used = s.used := rfl
@[simp] theorem State.orderFull_cap (s : State) : s.orderFull.cap = s.cap := rfl
@[simp] theorem State.orderFull_telem (s : State) : s.orderFull.telem = s.telem := rfl
@[simp] theorem State.orderFull_tune (s : State) : s.orderFull.tune = s.tune := rfl
@[simp] theorem State.orderFull_hints (s : State) : s.orderFull.hints = s.hints := rfl
@[simp] theorem State.orderFull_learn (s : State) : s.orderFull.learn = s.learn := rfl
@[simp] theorem State.orderFull_therm (s : State) : s.orderFull.therm = s.therm := rfl
@[simp] theorem State.orderFull_convs (s : State) : s.orderFull.convs = s.convs := rfl
@[simp] theorem State.orderFull_cg (s : State) : s.orderFull.cg = s.cg := rfl
@[simp] theorem State.orderFull_dict (s : State) : s.orderFull.dict = s.dict := rfl
@[simp] theorem State.orderFull_dma (s : State) : s.orderFull.dma = s.dma := rfl
@[simp] theorem State.orderFull_recd (s : State) : s.orderFull.recd = s.recd := rfl
@[simp] theorem State.orderFull_clk (s : State) : s.orderFull.clk = s.clk := rfl
@[simp] theorem State.orderFull_regs (s : State) : s.orderFull.regs = s.regs := rfl
@[simp] theorem State.orderFull_freeK (s : State) : s.orderFull.freeK = s.freeK := rfl
@[simp] theorem State.orderFull_pending (s : State) : s.orderFull.pending = s.pending := rfl
@[simp] theorem State.orderFull_get (s : State) (g : Reg) : s.orderFull.get g = s.get g := rfl
@[simp] theorem State.freshCap_cfg (s : State) : s.freshCap.cfg = s.cfg := rfl
@[simp] theorem State.freshCap_now (s : State) : s.freshCap.now = s.now := rfl
@[simp] theorem State.freshCap_blk (s : State) : s.freshCap.blk = s.blk := rfl
@[simp] theorem State.freshCap_rails (s : State) : s.freshCap.rails = s.rails := rfl
@[simp] theorem State.freshCap_regions (s : State) : s.freshCap.regions = s.regions := rfl
@[simp] theorem State.freshCap_strings (s : State) : s.freshCap.strings = s.strings := rfl
@[simp] theorem State.freshCap_courses (s : State) : s.freshCap.courses = s.courses := rfl
@[simp] theorem State.freshCap_chans (s : State) : s.freshCap.chans = s.chans := rfl
@[simp] theorem State.freshCap_eng (s : State) : s.freshCap.eng = s.eng := rfl
@[simp] theorem State.freshCap_used (s : State) : s.freshCap.used = s.used := rfl
@[simp] theorem State.freshCap_telem (s : State) : s.freshCap.telem = s.telem := rfl
@[simp] theorem State.freshCap_tune (s : State) : s.freshCap.tune = s.tune := rfl
@[simp] theorem State.freshCap_hints (s : State) : s.freshCap.hints = s.hints := rfl
@[simp] theorem State.freshCap_learn (s : State) : s.freshCap.learn = s.learn := rfl
@[simp] theorem State.freshCap_therm (s : State) : s.freshCap.therm = s.therm := rfl
@[simp] theorem State.freshCap_convs (s : State) : s.freshCap.convs = s.convs := rfl
@[simp] theorem State.freshCap_cg (s : State) : s.freshCap.cg = s.cg := rfl
@[simp] theorem State.freshCap_dict (s : State) : s.freshCap.dict = s.dict := rfl
@[simp] theorem State.freshCap_dma (s : State) : s.freshCap.dma = s.dma := rfl
@[simp] theorem State.freshCap_recd (s : State) : s.freshCap.recd = s.recd := rfl
@[simp] theorem State.freshCap_clk (s : State) : s.freshCap.clk = s.clk := rfl
@[simp] theorem State.freshCap_regs (s : State) : s.freshCap.regs = s.regs := rfl
@[simp] theorem State.freshCap_freeK (s : State) : s.freshCap.freeK = s.freeK := rfl
@[simp] theorem State.freshCap_pending (s : State) : s.freshCap.pending = s.pending := rfl
@[simp] theorem State.freshCap_get (s : State) (g : Reg) : s.freshCap.get g = s.get g := rfl
@[simp] theorem State.convStart_cfg (s : State) : s.convStart.cfg = s.cfg := rfl
@[simp] theorem State.convStart_now (s : State) : s.convStart.now = s.now := rfl
@[simp] theorem State.convStart_blk (s : State) : s.convStart.blk = s.blk := rfl
@[simp] theorem State.convStart_rails (s : State) : s.convStart.rails = s.rails := rfl
@[simp] theorem State.convStart_regions (s : State) : s.convStart.regions = s.regions := rfl
@[simp] theorem State.convStart_strings (s : State) : s.convStart.strings = s.strings := rfl
@[simp] theorem State.convStart_courses (s : State) : s.convStart.courses = s.courses := rfl
@[simp] theorem State.convStart_chans (s : State) : s.convStart.chans = s.chans := rfl
@[simp] theorem State.convStart_eng (s : State) : s.convStart.eng = s.eng := rfl
@[simp] theorem State.convStart_used (s : State) : s.convStart.used = s.used := rfl
@[simp] theorem State.convStart_cap (s : State) : s.convStart.cap = s.cap := rfl
@[simp] theorem State.convStart_telem (s : State) : s.convStart.telem = s.telem := rfl
@[simp] theorem State.convStart_tune (s : State) : s.convStart.tune = s.tune := rfl
@[simp] theorem State.convStart_hints (s : State) : s.convStart.hints = s.hints := rfl
@[simp] theorem State.convStart_learn (s : State) : s.convStart.learn = s.learn := rfl
@[simp] theorem State.convStart_therm (s : State) : s.convStart.therm = s.therm := rfl
@[simp] theorem State.convStart_cg (s : State) : s.convStart.cg = s.cg := rfl
@[simp] theorem State.convStart_dict (s : State) : s.convStart.dict = s.dict := rfl
@[simp] theorem State.convStart_dma (s : State) : s.convStart.dma = s.dma := rfl
@[simp] theorem State.convStart_recd (s : State) : s.convStart.recd = s.recd := rfl
@[simp] theorem State.convStart_clk (s : State) : s.convStart.clk = s.clk := rfl
@[simp] theorem State.convStart_regs (s : State) : s.convStart.regs = s.regs := rfl
@[simp] theorem State.convStart_freeK (s : State) : s.convStart.freeK = s.freeK := rfl
@[simp] theorem State.convStart_pending (s : State) : s.convStart.pending = s.pending := rfl
@[simp] theorem State.convStart_get (s : State) (g : Reg) : s.convStart.get g = s.get g := rfl
@[simp] theorem State.stopRestart_cfg (s : State) : s.stopRestart.cfg = s.cfg := rfl
@[simp] theorem State.stopRestart_now (s : State) : s.stopRestart.now = s.now := rfl
@[simp] theorem State.stopRestart_blk (s : State) : s.stopRestart.blk = s.blk := rfl
@[simp] theorem State.stopRestart_rails (s : State) : s.stopRestart.rails = s.rails := rfl
@[simp] theorem State.stopRestart_regions (s : State) : s.stopRestart.regions = s.regions := rfl
@[simp] theorem State.stopRestart_strings (s : State) : s.stopRestart.strings = s.strings := rfl
@[simp] theorem State.stopRestart_courses (s : State) : s.stopRestart.courses = s.courses := rfl
@[simp] theorem State.stopRestart_chans (s : State) : s.stopRestart.chans = s.chans := rfl
@[simp] theorem State.stopRestart_eng (s : State) : s.stopRestart.eng = s.eng := rfl
@[simp] theorem State.stopRestart_used (s : State) : s.stopRestart.used = s.used := rfl
@[simp] theorem State.stopRestart_cap (s : State) : s.stopRestart.cap = s.cap := rfl
@[simp] theorem State.stopRestart_telem (s : State) : s.stopRestart.telem = s.telem := rfl
@[simp] theorem State.stopRestart_tune (s : State) : s.stopRestart.tune = s.tune := rfl
@[simp] theorem State.stopRestart_hints (s : State) : s.stopRestart.hints = s.hints := rfl
@[simp] theorem State.stopRestart_learn (s : State) : s.stopRestart.learn = s.learn := rfl
@[simp] theorem State.stopRestart_convs (s : State) : s.stopRestart.convs = s.convs := rfl
@[simp] theorem State.stopRestart_cg (s : State) : s.stopRestart.cg = s.cg := rfl
@[simp] theorem State.stopRestart_dict (s : State) : s.stopRestart.dict = s.dict := rfl
@[simp] theorem State.stopRestart_dma (s : State) : s.stopRestart.dma = s.dma := rfl
@[simp] theorem State.stopRestart_recd (s : State) : s.stopRestart.recd = s.recd := rfl
@[simp] theorem State.stopRestart_clk (s : State) : s.stopRestart.clk = s.clk := rfl
@[simp] theorem State.stopRestart_regs (s : State) : s.stopRestart.regs = s.regs := rfl
@[simp] theorem State.stopRestart_freeK (s : State) : s.stopRestart.freeK = s.freeK := rfl
@[simp] theorem State.stopRestart_pending (s : State) : s.stopRestart.pending = s.pending := rfl
@[simp] theorem State.stopRestart_get (s : State) (g : Reg) : s.stopRestart.get g = s.get g := rfl
@[simp] theorem State.orderFull_blk (s : State) :
    s.orderFull.blk = { s.blk with fullAt := some (s.now + 4000), fullSpeed := false } := rfl

end Sys2Proof.Machine
end

