-- ==== Sys2Proof/Laws/Effects.lean ====
section
/-! SUPPORT. What the shared operations do: the change of block state, the count of a trigger, updates over a list of
units. -/

set_option linter.all false

namespace Sys2Proof.Machine

theorem State.enter_st (s : State) (b : BState) : (s.enter b).blk.st = b := by
  simp [State.enter, State.modBlk]

theorem State.enter_since (s : State) (b : BState) : (s.enter b).blk.since = s.now := by
  simp [State.enter, State.modBlk]

/-- Nothing is attached to most changes of state. -/
theorem State.attached_plain {s : State} {b : BState} (h : (s.blk.st.runs && !b.runs) = false)
    (k : (b.lowPower && !s.blk.st.lowPower) = false) (hs : s.blk.st ≠ .selftest) (hc : s.blk.st ≠ .cooldown)
    (hb : b ≠ .ramp ∧ b ≠ .discover ∧ b ≠ .run ∧ b ≠ .shutdown ∧ b ≠ .halted) (hf : (b.full && !s.blk.st.full) = false) :
    s.attached b = s := by
  simp [State.attached, h, k, hs, hc, hb, hf]

theorem State.enter_plain {s : State} {b : BState} (h : s.attached b = s) :
    s.enter b = (s.modBlk fun x => { x with st := b, since := s.now }).fire 2 b.code (srcState s.blk.st.code) := by
  rw [State.enter, h]

/-- R421: what is attached to an entry into DISCOVER from FUSELOAD. -/
theorem State.attached_discover {s : State} (h : s.blk.st = .fuseload) : s.attached .discover = s.enterDiscover := by
  simp [State.attached, h, BState.runs, BState.lowPower, BState.full]

theorem State.enter_discover {s : State} (h : s.blk.st = .fuseload) :
    s.enter .discover = (s.enterDiscover.modBlk fun b => { b with st := .discover, since := s.now }).fire 2
      BState.discover.code (srcState s.blk.st.code) := by
  rw [State.enter, State.attached_discover h]

/-- R500: a trigger counts, whatever its route. -/
theorem State.fire_count {s : State} (ty d : Nat) (x : Source) (h : rfWf s.regs = true)
    (ht : (Obj.trig_count ty).addr ≠ Obj.rec_lost.addr) :
    (s.fire ty d x).get (Obj.trig_count ty) = (s.get (Obj.trig_count ty) + 1) % 2 ^ 32 := by
  unfold State.fire State.enqueue
  split
  · rw [State.get_count_same _ _ _ h]; rfl
  · split
    · unfold State.countSat; rw [State.get_set_other _ _ ht, State.get_count_same _ _ _ h]; rfl
    · exact (State.get_count_same s 32 1 h).trans rfl

/-- R500: a trigger changes no other register than its count and the count of lost records. -/
theorem State.fire_get_other {s : State} (ty d : Nat) (x : Source) {g : Reg} (h : g.addr ≠ (Obj.trig_count ty).addr)
    (hl : g.addr ≠ Obj.rec_lost.addr) : (s.fire ty d x).get g = s.get g := by
  unfold State.fire State.enqueue
  split
  · exact State.get_count_other _ _ _ h
  · split
    · unfold State.countSat; rw [State.get_set_other _ _ hl, State.get_count_other _ _ _ h]
    · exact State.get_count_other s 32 1 h

/-! ## Updates over a list of units -/

theorem overAll_nil {α : Type} (s : State) (f : State → α → State) : overAll s [] f = s := rfl
theorem overAll_cons {α : Type} (s : State) (x : α) (l : List α) (f : State → α → State) :
    overAll s (x :: l) f = overAll (f s x) l f := rfl

theorem overAll_modCourse {f : Course → Course} (hf : ∀ x, f (f x) = f x) (l : List Nat) (s : State) (c : Nat)
    (hc : c < s.courses.length) :
    (overAll s l fun s c => s.modCourse c f).course c = if c ∈ l then f (s.course c) else s.course c := by
  induction l generalizing s with
  | nil => rfl
  | cons a l ih =>
    rw [overAll_cons, ih _ (by simpa [State.modCourse] using hc)]
    by_cases h : c = a
    · subst h
      rw [show (s.modCourse c f).course c = f (s.course c) by
        simp only [State.course, State.modCourse]; exact getD_modify_same f {} hc]
      simp [hf]
    · rw [show (s.modCourse a f).course c = s.course c by
        simp only [State.course, State.modCourse]; exact getD_modify_other _ f {} h]
      simp [h]

theorem overAll_modRegion {f : Region → Region} (hf : ∀ x, f (f x) = f x) (l : List Nat) (s : State) (c : Nat)
    (hc : c < s.regions.length) :
    (overAll s l fun s c => s.modRegion c f).region c = if c ∈ l then f (s.region c) else s.region c := by
  induction l generalizing s with
  | nil => rfl
  | cons a l ih =>
    rw [overAll_cons, ih _ (by simpa [State.modRegion] using hc)]
    by_cases h : c = a
    · subst h
      rw [show (s.modRegion c f).region c = f (s.region c) by
        simp only [State.region, State.modRegion]; exact getD_modify_same f {} hc]
      simp [hf]
    · rw [show (s.modRegion a f).region c = s.region c by
        simp only [State.region, State.modRegion]; exact getD_modify_other _ f {} h]
      simp [h]

/-- Updates that agree on the unit they meet are the same update. -/
theorem modify_congr {α : Type} {l : List α} {i : Nat} {f g : α → α} (d : α) (h : f (l.getD i d) = g (l.getD i d)) :
    l.modify i f = l.modify i g := by
  apply List.ext_getElem?
  intro j
  rw [List.getElem?_modify, List.getElem?_modify]
  by_cases hj : i = j
  · subst hj
    cases hl : l[i]? with
    | none => rfl
    | some x =>
      rw [List.getD_eq_getElem?_getD, hl] at h
      simpa using h
  · simp [hj]

theorem State.modCourse_congr {s : State} {c : Nat} {f g : Course → Course} (h : f (s.course c) = g (s.course c)) :
    s.modCourse c f = s.modCourse c g := by unfold State.modCourse; rw [modify_congr {} h]
theorem State.modRegion_congr {s : State} {r : Nat} {f g : Region → Region} (h : f (s.region r) = g (s.region r)) :
    s.modRegion r f = s.modRegion r g := by unfold State.modRegion; rw [modify_congr {} h]
theorem State.modStr_congr {s : State} {i : Nat} {f g : Str → Str} (h : f (s.str i) = g (s.str i)) :
    s.modStr i f = s.modStr i g := by unfold State.modStr; rw [modify_congr {} h]

/-- A part that every single update keeps is kept. -/
theorem overAll_keep {α β : Type} {f : State → α → State} (g : State → β) (h : ∀ u x, g (f u x) = g u) (s : State)
    (l : List α) : g (overAll s l f) = g s := by
  induction l generalizing s with
  | nil => rfl
  | cons a l ih => rw [overAll_cons, ih, h]

/-! ## Leaving RUN and SERVICE, and the parts of a change of state -/

theorem State.clearCapFloor_blk (s : State) : s.clearCapFloor.blk = s.blk := by
  unfold State.clearCapFloor; split <;> simp

theorem State.clearCapFloor_rails (s : State) : s.clearCapFloor.rails = s.rails := by
  unfold State.clearCapFloor; split <;> simp

theorem State.leaveRun_blk' (s : State) : s.leaveRun.blk = { s.blk with pwrGood := false } := by
  have k (l : List Nat) (t : State) : (overAll t l fun s r => s.set (Obj.region_capo r) 0).blk = t.blk :=
    overAll_keep (f := fun s r => s.set (Obj.region_capo r) 0) State.blk (fun _ _ => rfl) _ _
  simp only [State.leaveRun, k, State.stopAllPasses_blk, State.emptyHints_blk, State.clearCapFloor_blk]
  rfl

theorem State.leaveRun_rails' (s : State) : s.leaveRun.rails = s.rails.map fun x => { x with req := none, recov := 0 } := by
  have k (l : List Nat) (t : State) : (overAll t l fun s r => s.set (Obj.region_capo r) 0).rails = t.rails :=
    overAll_keep (f := fun s r => s.set (Obj.region_capo r) 0) State.rails (fun _ _ => rfl) _ _
  simp only [State.leaveRun, k, State.stopAllPasses_rails, State.emptyHints, State.hintsNotFull_rails,
    State.clearCapFloor_rails]
  exact List.map_map

theorem State.convLow_blk' (s : State) : s.convLow.blk = { s.blk with fullAt := none, fullSpeed := false } := by
  simp [State.convLow, State.modBlk]

/-- What is attached to a change of state leaves all of the block's own fields but four. -/
theorem State.attached_keeps {β : Type} (g : Block → β) (hp : ∀ b, g { b with pwrGood := false } = g b)
    (hf : ∀ b x, g { b with fullAt := x, fullSpeed := false } = g b) (s : State) (b : BState) :
    g (s.attached b).blk = g s.blk := by
  have h1 (t : State) (p : Bool) : g (if p then t.leaveRun else t).blk = g t.blk := by
    cases p
    · rfl
    · rw [if_pos rfl, State.leaveRun_blk', hp]
  have h2 (t : State) (p : Bool) : g (if p then t.convLow else t).blk = g t.blk := by
    cases p
    · rfl
    · rw [if_pos rfl, State.convLow_blk', hf]
  have h3 (t : State) (p : Bool) : (if p then t.convStart else t).blk = t.blk := by cases p <;> rfl
  have h4 (t : State) (p : Bool) : g (if p then t.orderFull else t).blk = g t.blk := by
    cases p
    · rfl
    · exact hf ..
  have h5 (t : State) (p : Prop) [Decidable p] : (if p then t.freshCap else t).blk = t.blk := by split <;> rfl
  have h6 (t : State) (p : Prop) [Decidable p] : (if p then t.enterRamp else t).blk = t.blk := by split <;> rfl
  have h9 (t : State) (p : Prop) [Decidable p] : (if p then t.enterDiscover else t).blk = t.blk := by split <;> rfl
  have h7 (t : State) (p : Prop) [Decidable p] : (if p then t.stStartFlush else t).blk = t.blk := by split <;> simp
  have h8 (t : State) (p : Prop) [Decidable p] : (if p then t.stopRestart else t).blk = t.blk := by split <;> rfl
  simp only [State.attached, h8, h7, h9, h6, h5, h4, h3, h2, h1]

/-- A change of state keeps what it does not attach anything to. -/
theorem State.enter_keeps {β : Type} (g : Block → β) (hp : ∀ b, g { b with pwrGood := false } = g b)
    (hf : ∀ b x, g { b with fullAt := x, fullSpeed := false } = g b)
    (hs : ∀ b x n, g { b with st := x, since := n } = g b) (s : State) (b : BState) :
    g (s.enter b).blk = g s.blk := by
  simp only [State.enter, State.fire_blk, State.modBlk, hs, State.attached_keeps g hp hf]

theorem State.enter_irqSafety (s : State) (b : BState) : (s.enter b).blk.irqSafety = s.blk.irqSafety :=
  State.enter_keeps (·.irqSafety) (fun _ => rfl) (fun _ _ => rfl) (fun _ _ _ => rfl) s b
theorem State.enter_tripN (s : State) (b : BState) : (s.enter b).blk.tripN = s.blk.tripN :=
  State.enter_keeps (·.tripN) (fun _ => rfl) (fun _ _ => rfl) (fun _ _ _ => rfl) s b
theorem State.enter_shutCause (s : State) (b : BState) : (s.enter b).blk.shutCause = s.blk.shutCause :=
  State.enter_keeps (·.shutCause) (fun _ => rfl) (fun _ _ => rfl) (fun _ _ _ => rfl) s b

/-! ## Storing a record -/

theorem State.storeFault_recd (s : State) (x : LogRec) :
    (s.storeFault x).recd = { s.recd with fault := s.recd.fault ++ [x] } := by
  unfold State.storeFault
  simp only [apply_ite State.recd, State.stUpdate_recd, State.raiseReq_recd, ite_self]

end Sys2Proof.Machine
end

