-- ==== Sys2Proof/Laws/MovesExec.lean ====
section
/-! SUPPORT. What each command moves when it answers a next state: one lemma for each meaning. -/

set_option linter.all false

namespace Sys2Proof.Machine

/-- Where an outcome is a next state, it is one that `s` moves to within the parts listed. -/
def outMoves (l : List Part) (s : State) (o : Out) : Prop := ∀ t, o = .next t → s.Moves l t

theorem outMoves_next {l : List Part} {s t : State} (h : s.Moves l t) : outMoves l s (.next t) :=
  fun u hu => by injection hu with e; exact e ▸ h

theorem outMoves_within {l : List Part} {s t : State} {n i : Nat} (h : s.Moves l t) : outMoves l s (within s n i t) :=
  outMoves_next (.ite h (.refl l s))
theorem outMoves_onRegion {l : List Part} {s t : State} {r : Nat} (h : s.Moves l t) : outMoves l s (onRegion s r t) :=
  outMoves_within (.ite h (.refl l s))
theorem outMoves_onString {l : List Part} {s t : State} {r : Nat} (h : s.Moves l t) : outMoves l s (onString s r t) :=
  outMoves_within (.ite h (.refl l s))
theorem outMoves_onCourse {l : List Part} {s t : State} {r : Nat} (h : s.Moves l t) : outMoves l s (onCourse s r t) :=
  outMoves_within (.ite h (.refl l s))
theorem outMoves_onConv {l : List Part} {s t : State} {r : Nat} (h : s.Moves l t) : outMoves l s (onConv s r t) :=
  outMoves_within (.ite h (.refl l s))
theorem outMoves_onChannel {l : List Part} {s t : State} {r : Nat} (h : s.Moves l t) :
    outMoves l s (onChannel r s t) := outMoves_within (.ite h (.refl l s))
theorem outMoves_onRail {l : List Part} {s t : State} {q : Nat} (h : s.Moves l t) : outMoves l s (onRail s q t) :=
  outMoves_within h
theorem outMoves_onTxn {l : List Part} {s t : State} {i : Nat} (h : s.Moves l t) : outMoves l s (onTxn i s t) :=
  outMoves_within (.ite h (.refl l s))
theorem State.Moves.onUnit {l : List Part} {s u t : State} {b : Bool} (hu : s.Moves l u) (h : s.Moves l t) :
    s.Moves l (Machine.onUnit u b t) := .ite h hu

theorem moves_ccc (s : State) (b : List Byte) : outMoves [.dict] s (s.ccc b) :=
  outMoves_next (.when (State.moves_modI3c ..))

theorem moves_execRegionCycle (r : Nat) (samples : List Sample) (s : State) :
    outMoves [.blk, .regions, .strings, .cap, .cg, .recd, .regs] s (execRegionCycle r samples s) := by
  unfold execRegionCycle
  repeat' first
    | with_reducible apply outMoves_within
    | with_reducible apply outMoves_onRail
    | with_reducible apply outMoves_onRegion
    | with_reducible apply outMoves_next
    | with_reducible exact State.Moves.refl _ _
    | exact Eq.refl true
    | with_reducible apply State.Moves.step ?_ (State.moves_regionCycle ..) ?_
    | with_reducible apply State.Moves.whenOf
    | with_reducible dsimp only

theorem moves_execFireFallingEdge (i : Nat) (s : State) :
    outMoves [.regions, .strings] s (execFireFallingEdge i s) := by
  unfold execFireFallingEdge
  repeat' first
    | with_reducible apply outMoves_within
    | with_reducible apply outMoves_onRail
    | with_reducible apply outMoves_onString
    | with_reducible apply outMoves_next
    | with_reducible exact State.Moves.refl _ _
    | exact Eq.refl true
    | with_reducible apply State.Moves.ite
    | with_reducible apply State.Moves.step ?_ (State.moves_modStr ..) ?_
    | with_reducible apply State.Moves.step ?_ (State.moves_modStrum ..) ?_
    | with_reducible apply State.Moves.ite
    | with_reducible dsimp only
    | split

theorem moves_execFixedRateFire (r : Nat) (s : State) :
    outMoves [.regions, .strings, .cg] s (execFixedRateFire r s) := by
  unfold execFixedRateFire
  repeat' first
    | with_reducible apply outMoves_within
    | with_reducible apply outMoves_onRail
    | with_reducible apply outMoves_onRegion
    | with_reducible apply outMoves_next
    | with_reducible exact State.Moves.refl _ _
    | exact Eq.refl true
    | with_reducible apply State.Moves.step ?_ (State.moves_fixedRateFire ..) ?_
    | with_reducible dsimp only

theorem moves_execVminSourceChange (r : Nat) (s : State) :
    outMoves [.regions, .recd, .regs] s (execVminSourceChange r s) := by
  unfold execVminSourceChange
  repeat' first
    | with_reducible apply outMoves_within
    | with_reducible apply outMoves_onRail
    | with_reducible apply outMoves_onRegion
    | with_reducible apply outMoves_next
    | with_reducible exact State.Moves.refl _ _
    | exact Eq.refl true
    | with_reducible apply State.Moves.step ?_ (State.moves_sourceChange ..) ?_
    | with_reducible dsimp only

theorem moves_execScoreboardChangeArrival (i : Nat) (s : State) :
    outMoves [.regions, .strings, .convs] s (execScoreboardChangeArrival i s) := by
  unfold execScoreboardChangeArrival
  repeat' first
    | with_reducible apply outMoves_within
    | with_reducible apply outMoves_onRail
    | with_reducible apply outMoves_onString
    | with_reducible apply outMoves_next
    | with_reducible exact State.Moves.refl _ _
    | exact Eq.refl true
    | with_reducible apply State.Moves.ite
    | with_reducible apply State.Moves.step ?_ (State.moves_modStr ..) ?_
    | with_reducible apply State.Moves.step ?_ (State.moves_islandTakes ..) ?_
    | with_reducible apply State.Moves.ite
    | with_reducible dsimp only

theorem moves_execBandChangeArrival (r : Nat) (s : State) :
    outMoves [.regions] s (execBandChangeArrival r s) := by
  unfold execBandChangeArrival
  repeat' first
    | with_reducible apply outMoves_within
    | with_reducible apply outMoves_onRail
    | with_reducible apply outMoves_onRegion
    | with_reducible apply outMoves_next
    | with_reducible exact State.Moves.refl _ _
    | exact Eq.refl true
    | with_reducible apply State.Moves.step ?_ (State.moves_modLoop ..) ?_
    | with_reducible dsimp only

theorem moves_execPickupValidityArrival (r : Nat) (s : State) :
    outMoves [.regions] s (execPickupValidityArrival r s) := by
  unfold execPickupValidityArrival
  repeat' first
    | with_reducible apply outMoves_within
    | with_reducible apply outMoves_onRail
    | with_reducible apply outMoves_onRegion
    | with_reducible apply outMoves_next
    | with_reducible exact State.Moves.refl _ _
    | exact Eq.refl true
    | with_reducible apply State.Moves.step ?_ (State.moves_modRegion ..) ?_
    | with_reducible dsimp only

theorem moves_execStrumDisagreeWindow (s : State) :
    outMoves [.regions] s (execStrumDisagreeWindow s) := by
  unfold execStrumDisagreeWindow
  repeat' first
    | with_reducible apply outMoves_within
    | with_reducible apply outMoves_onRail
    | with_reducible apply outMoves_next
    | with_reducible exact State.Moves.refl _ _
    | exact Eq.refl true
    | with_reducible dsimp only
    | with_reducible apply State.Moves.put_regions
    | exact List.length_map ..
    | exact List.length_modify ..

theorem moves_execTwinOvDisagreement (r : Nat) (s : State) :
    outMoves [.blk, .regions, .recd, .regs] s (execTwinOvDisagreement r s) := by
  unfold execTwinOvDisagreement
  repeat' first
    | with_reducible apply outMoves_within
    | with_reducible apply outMoves_onRail
    | with_reducible apply outMoves_onRegion
    | with_reducible apply outMoves_next
    | with_reducible exact State.Moves.refl _ _
    | exact Eq.refl true
    | with_reducible apply State.Moves.step ?_ (State.moves_set ..) ?_
    | with_reducible apply State.Moves.step ?_ (State.moves_noteReason ..) ?_
    | with_reducible apply State.Moves.step ?_ (State.moves_fire ..) ?_
    | with_reducible apply State.Moves.step ?_ (State.moves_modStrum ..) ?_
    | with_reducible dsimp only
    | split

theorem moves_execTwinParityReload (r : Nat) (t : TwinId) (s : State) :
    outMoves [.blk, .regions, .regs] s (execTwinParityReload r t s) := by
  unfold execTwinParityReload
  repeat' first
    | with_reducible apply outMoves_within
    | with_reducible apply outMoves_onRail
    | with_reducible apply outMoves_onRegion
    | with_reducible apply outMoves_next
    | with_reducible exact State.Moves.refl _ _
    | exact Eq.refl true
    | with_reducible apply State.Moves.step ?_ (State.moves_modStrum ..) ?_
    | with_reducible apply State.Moves.step ?_ (State.moves_parityError ..) ?_
    | with_reducible dsimp only

theorem moves_execTwinReloadComplete (r : Nat) (t : TwinId) (s : State) :
    outMoves [.regions] s (execTwinReloadComplete r t s) := by
  unfold execTwinReloadComplete
  repeat' first
    | with_reducible apply outMoves_within
    | with_reducible apply outMoves_onRail
    | with_reducible apply outMoves_onRegion
    | with_reducible apply outMoves_next
    | with_reducible exact State.Moves.refl _ _
    | exact Eq.refl true
    | with_reducible apply State.Moves.ite
    | with_reducible apply State.Moves.step ?_ (State.moves_modStrum ..) ?_
    | with_reducible apply State.Moves.ite
    | with_reducible dsimp only

theorem moves_execStrumRoundDue (r : Nat) (s : State) :
    outMoves [.regions, .strings, .cg] s (execStrumRoundDue r s) := by
  unfold execStrumRoundDue
  repeat' first
    | with_reducible apply outMoves_within
    | with_reducible apply outMoves_onRail
    | with_reducible apply outMoves_onRegion
    | with_reducible apply outMoves_next
    | with_reducible exact State.Moves.refl _ _
    | exact Eq.refl true
    | with_reducible apply State.Moves.step ?_ (State.moves_strumRoundDue ..) ?_
    | with_reducible dsimp only

theorem moves_execLockoutEnd (r : Nat) (s : State) :
    outMoves [.regions] s (execLockoutEnd r s) := by
  unfold execLockoutEnd
  repeat' first
    | with_reducible apply outMoves_within
    | with_reducible apply outMoves_onRail
    | with_reducible apply outMoves_onRegion
    | with_reducible apply outMoves_next
    | with_reducible exact State.Moves.refl _ _
    | exact Eq.refl true
    | with_reducible apply State.Moves.ite
    | with_reducible apply State.Moves.step ?_ (State.moves_modStrum ..) ?_
    | with_reducible apply State.Moves.ite
    | with_reducible dsimp only

theorem moves_execSpreadStrobe (r : Nat) (froms : List Nat) (s : State) :
    outMoves [.regions] s (execSpreadStrobe r froms s) := by
  unfold execSpreadStrobe
  repeat' first
    | with_reducible apply outMoves_within
    | with_reducible apply outMoves_onRail
    | with_reducible apply outMoves_onRegion
    | with_reducible apply outMoves_next
    | with_reducible exact State.Moves.refl _ _
    | exact Eq.refl true
    | with_reducible apply State.Moves.step ?_ (State.moves_spreadStrobe ..) ?_
    | with_reducible dsimp only

theorem moves_execStrumReport (r : Nat) (s : State) :
    outMoves [.rails, .regions, .learn, .regs] s (execStrumReport r s) := by
  unfold execStrumReport
  repeat' first
    | with_reducible apply outMoves_within
    | with_reducible apply outMoves_onRail
    | with_reducible apply outMoves_onRegion
    | with_reducible apply outMoves_next
    | with_reducible exact State.Moves.refl _ _
    | exact Eq.refl true
    | with_reducible apply State.Moves.step ?_ (State.moves_modRegion ..) ?_
    | with_reducible apply State.Moves.step ?_ (State.moves_strumRecovery ..) ?_
    | with_reducible apply State.Moves.step ?_ (State.moves_set ..) ?_
    | with_reducible dsimp only
    | split

theorem moves_execDamper (r : Nat) (s : State) :
    outMoves [.blk, .st, .rails, .regions, .strings, .courses, .eng, .cap, .hints, .learn, .therm, .convs, .cg, .dma, .recd, .regs] s (execDamper r s) := by
  unfold execDamper
  repeat' first
    | with_reducible apply outMoves_within
    | with_reducible apply outMoves_onRail
    | with_reducible apply outMoves_onRegion
    | with_reducible apply outMoves_next
    | with_reducible exact State.Moves.refl _ _
    | exact Eq.refl true
    | with_reducible apply State.Moves.step ?_ (State.moves_damper ..) ?_
    | with_reducible apply State.Moves.whenOf
    | with_reducible dsimp only

theorem moves_execShedArrival (i : Nat) (s : State) :
    outMoves [.regions, .strings, .cap, .convs, .recd, .regs] s (execShedArrival i s) := by
  unfold execShedArrival
  repeat' first
    | with_reducible apply outMoves_within
    | with_reducible apply outMoves_onRail
    | with_reducible apply outMoves_onString
    | with_reducible apply outMoves_next
    | with_reducible exact State.Moves.refl _ _
    | exact Eq.refl true
    | with_reducible apply State.Moves.ite
    | with_reducible apply State.Moves.step ?_ (State.moves_strTo ..) ?_
    | with_reducible apply State.Moves.step ?_ (State.moves_islandTakes ..) ?_
    | with_reducible apply State.Moves.ite
    | with_reducible dsimp only

theorem moves_execPreStrumStart (r : Nat) (s : State) :
    outMoves [.regions] s (execPreStrumStart r s) := by
  unfold execPreStrumStart
  repeat' first
    | with_reducible apply outMoves_within
    | with_reducible apply outMoves_onRail
    | with_reducible apply outMoves_onRegion
    | with_reducible apply outMoves_next
    | with_reducible exact State.Moves.refl _ _
    | exact Eq.refl true
    | with_reducible apply State.Moves.ite
    | with_reducible apply State.Moves.step ?_ (State.moves_modRegion ..) ?_
    | with_reducible apply State.Moves.ite
    | with_reducible dsimp only
    | split

theorem moves_execPreStrumEnd (r : Nat) (s : State) :
    outMoves [.regions] s (execPreStrumEnd r s) := by
  unfold execPreStrumEnd
  repeat' first
    | with_reducible apply outMoves_within
    | with_reducible apply outMoves_onRail
    | with_reducible apply outMoves_onRegion
    | with_reducible apply outMoves_next
    | with_reducible exact State.Moves.refl _ _
    | exact Eq.refl true
    | with_reducible apply State.Moves.ite
    | with_reducible apply State.Moves.step ?_ (State.moves_modPre ..) ?_
    | with_reducible apply State.Moves.ite
    | with_reducible dsimp only
    | split

theorem moves_execWakeReqRise (r : Nat) (s : State) :
    outMoves [.regions, .recd, .regs] s (execWakeReqRise r s) := by
  unfold execWakeReqRise
  repeat' first
    | with_reducible apply outMoves_within
    | with_reducible apply outMoves_onRail
    | with_reducible apply outMoves_onRegion
    | with_reducible apply outMoves_next
    | with_reducible exact State.Moves.refl _ _
    | exact Eq.refl true
    | with_reducible apply State.Moves.ite
    | with_reducible apply State.Moves.step ?_ (State.moves_breach ..) ?_
    | with_reducible apply State.Moves.step ?_ (State.moves_modWake ..) ?_
    | with_reducible apply State.Moves.step ?_ (State.moves_fire ..) ?_
    | with_reducible apply State.Moves.step ?_ (State.moves_countSat ..) ?_
    | with_reducible apply State.Moves.ite
    | with_reducible dsimp only

theorem moves_execWakeGrant (s : State) :
    outMoves [.regions, .strings, .cap, .recd, .regs] s (execWakeGrant s) := by
  unfold execWakeGrant
  repeat' first
    | with_reducible apply outMoves_within
    | with_reducible apply outMoves_onRail
    | with_reducible apply outMoves_next
    | with_reducible exact State.Moves.refl _ _
    | exact Eq.refl true
    | with_reducible apply State.Moves.ite
    | with_reducible apply State.Moves.step ?_ (State.moves_grant ..) ?_
    | with_reducible apply State.Moves.ite
    | with_reducible dsimp only
    | split

theorem moves_execWakeTimeout (s : State) :
    outMoves [.regions, .strings, .cap, .recd, .regs] s (execWakeTimeout s) := by
  unfold execWakeTimeout
  repeat' first
    | with_reducible apply outMoves_within
    | with_reducible apply outMoves_onRail
    | with_reducible apply outMoves_next
    | with_reducible exact State.Moves.refl _ _
    | exact Eq.refl true
    | with_reducible apply State.Moves.ite
    | with_reducible apply State.Moves.step ?_ (State.moves_armPre ..) ?_
    | with_reducible apply State.Moves.step ?_ (State.moves_modWake ..) ?_
    | with_reducible apply State.Moves.step ?_ (State.moves_grant ..) ?_
    | with_reducible apply State.Moves.step ?_ (State.moves_fire ..) ?_
    | with_reducible apply State.Moves.step ?_ (State.moves_count ..) ?_
    | with_reducible apply State.Moves.ite
    | with_reducible dsimp only
    | split

theorem moves_execRejoinAck (r : Nat) (s : State) :
    outMoves [.regions, .strings, .convs, .regs] s (execRejoinAck r s) := by
  unfold execRejoinAck
  repeat' first
    | with_reducible apply outMoves_within
    | with_reducible apply outMoves_onRail
    | with_reducible apply outMoves_onRegion
    | with_reducible apply outMoves_next
    | with_reducible exact State.Moves.refl _ _
    | exact Eq.refl true
    | with_reducible apply State.Moves.ite
    | with_reducible apply State.Moves.step ?_ (State.moves_islandTakes ..) ?_
    | with_reducible apply State.Moves.step ?_ (State.moves_set ..) ?_
    | with_reducible apply State.Moves.step ?_ (State.moves_modWake ..) ?_
    | with_reducible apply State.Moves.step ?_ (State.moves_armPre ..) ?_
    | with_reducible apply State.Moves.step ?_ (State.moves_modPre ..) ?_
    | with_reducible apply State.Moves.overAll (fun _ _ => ?_)
    | with_reducible apply State.Moves.ite
    | with_reducible dsimp only
    | split

theorem moves_execWakeReqFall (r : Nat) (s : State) :
    outMoves [.regions, .regs] s (execWakeReqFall r s) := by
  unfold execWakeReqFall
  repeat' first
    | with_reducible apply outMoves_within
    | with_reducible apply outMoves_onRail
    | with_reducible apply outMoves_onRegion
    | with_reducible apply outMoves_next
    | with_reducible exact State.Moves.refl _ _
    | exact Eq.refl true
    | with_reducible apply State.Moves.ite
    | with_reducible apply State.Moves.step ?_ (State.moves_modWake ..) ?_
    | with_reducible apply State.Moves.step ?_ (State.moves_breach ..) ?_
    | with_reducible apply State.Moves.ite
    | with_reducible dsimp only

theorem moves_execScoreboardParityError (i : Nat) (islandCopy : Bool) (s : State) :
    outMoves [.blk, .regions, .strings, .dma, .recd, .regs] s (execScoreboardParityError i s islandCopy) := by
  unfold execScoreboardParityError
  repeat' first
    | with_reducible apply outMoves_within
    | with_reducible apply outMoves_onRail
    | with_reducible apply outMoves_onString
    | with_reducible apply outMoves_next
    | with_reducible exact State.Moves.refl _ _
    | exact Eq.refl true
    | with_reducible apply State.Moves.ite
    | with_reducible apply State.Moves.step ?_ (State.moves_modStr ..) ?_
    | with_reducible apply State.Moves.step ?_ (State.moves_parityError ..) ?_
    | with_reducible apply State.Moves.step ?_ (State.moves_rebuildString ..) ?_
    | with_reducible apply State.Moves.ite
    | with_reducible dsimp only

theorem moves_execParityReturnTimer (i : Nat) (s : State) :
    outMoves [.strings] s (execParityReturnTimer i s) := by
  unfold execParityReturnTimer
  repeat' first
    | with_reducible apply outMoves_within
    | with_reducible apply outMoves_onRail
    | with_reducible apply outMoves_onString
    | with_reducible apply outMoves_next
    | with_reducible exact State.Moves.refl _ _
    | exact Eq.refl true
    | with_reducible apply State.Moves.ite
    | with_reducible apply State.Moves.step ?_ (State.moves_modStr ..) ?_
    | with_reducible apply State.Moves.ite
    | with_reducible dsimp only
    | split

theorem moves_execCrsStatFrame (c : Nat) (word : Nat) (codingOk : Bool) (s : State) :
    outMoves [.blk, .st, .rails, .regions, .strings, .courses, .eng, .cap, .hints, .learn, .therm, .convs, .cg, .dma, .recd, .regs] s (execCrsStatFrame c word codingOk s) := by
  unfold execCrsStatFrame
  repeat' first
    | with_reducible apply outMoves_within
    | with_reducible apply outMoves_onRail
    | with_reducible apply outMoves_onCourse
    | with_reducible apply outMoves_next
    | with_reducible exact State.Moves.refl _ _
    | exact Eq.refl true
    | with_reducible apply State.Moves.ite
    | with_reducible apply State.Moves.step ?_ (State.moves_acceptFrame ..) ?_
    | with_reducible apply State.Moves.step ?_ (State.moves_rejectFrame ..) ?_
    | with_reducible apply State.Moves.ite
    | with_reducible dsimp only

theorem moves_execLaneTimeout (c : Nat) (s : State) :
    outMoves [.blk, .regions, .courses, .cap, .recd, .regs] s (execLaneTimeout c s) := by
  unfold execLaneTimeout
  repeat' first
    | with_reducible apply outMoves_within
    | with_reducible apply outMoves_onRail
    | with_reducible apply outMoves_onCourse
    | with_reducible apply outMoves_next
    | with_reducible exact State.Moves.refl _ _
    | exact Eq.refl true
    | with_reducible apply State.Moves.step ?_ (State.moves_laneLost ..) ?_
    | with_reducible apply State.Moves.whenOf
    | with_reducible dsimp only

theorem moves_execLaneFltDamper (c : Nat) (s : State) :
    outMoves [.blk, .st, .rails, .regions, .strings, .courses, .eng, .cap, .hints, .learn, .therm, .convs, .cg, .dma, .recd, .regs] s (execLaneFltDamper c s) := by
  unfold execLaneFltDamper
  repeat' first
    | with_reducible apply outMoves_within
    | with_reducible apply outMoves_onRail
    | with_reducible apply outMoves_onCourse
    | with_reducible apply outMoves_next
    | with_reducible exact State.Moves.refl _ _
    | exact Eq.refl true
    | with_reducible apply State.Moves.step ?_ (State.moves_damper ..) ?_
    | with_reducible apply State.Moves.whenOf
    | with_reducible dsimp only

theorem moves_execLaneVminDamper (c : Nat) (s : State) :
    outMoves [.blk, .st, .rails, .regions, .strings, .courses, .eng, .cap, .hints, .learn, .therm, .convs, .cg, .dma, .recd, .regs] s (execLaneVminDamper c s) := by
  unfold execLaneVminDamper
  repeat' first
    | with_reducible apply outMoves_within
    | with_reducible apply outMoves_onRail
    | with_reducible apply outMoves_onCourse
    | with_reducible apply outMoves_next
    | with_reducible exact State.Moves.refl _ _
    | exact Eq.refl true
    | with_reducible apply State.Moves.step ?_ (State.moves_damper ..) ?_
    | with_reducible apply State.Moves.whenOf
    | with_reducible dsimp only
    | split

theorem moves_execCrsFltNFall (c : Nat) (s : State) :
    outMoves [.courses] s (execCrsFltNFall c s) := by
  unfold execCrsFltNFall
  repeat' first
    | with_reducible apply outMoves_within
    | with_reducible apply outMoves_onRail
    | with_reducible apply outMoves_onCourse
    | with_reducible apply outMoves_next
    | with_reducible exact State.Moves.refl _ _
    | exact Eq.refl true
    | with_reducible apply State.Moves.step ?_ (State.moves_followCause ..) ?_
    | with_reducible apply State.Moves.step ?_ (State.moves_modCourse ..) ?_
    | with_reducible apply State.Moves.whenOf
    | with_reducible dsimp only

theorem moves_execCrsFltNRise (c : Nat) (s : State) :
    outMoves [.regions, .strings, .courses, .cap, .recd, .regs] s (execCrsFltNRise c s) := by
  unfold execCrsFltNRise
  repeat' first
    | with_reducible apply outMoves_within
    | with_reducible apply outMoves_onRail
    | with_reducible apply outMoves_onCourse
    | with_reducible apply outMoves_next
    | with_reducible exact State.Moves.refl _ _
    | exact Eq.refl true
    | with_reducible apply State.Moves.ite
    | with_reducible apply State.Moves.step ?_ (State.moves_modCourse ..) ?_
    | with_reducible apply State.Moves.step ?_ (State.moves_strTo ..) ?_
    | with_reducible apply State.Moves.overAll (fun _ _ => ?_)
    | with_reducible apply State.Moves.ite
    | with_reducible dsimp only

theorem moves_execFollowUp (c : Nat) (statusWord : Nat) (iout : List (Nat × Nat)) (s : State) :
    outMoves [.courses, .recd, .regs] s (execFollowUp c statusWord s iout) := by
  unfold execFollowUp
  repeat' first
    | with_reducible apply outMoves_within
    | with_reducible apply outMoves_onRail
    | with_reducible apply outMoves_onCourse
    | with_reducible apply outMoves_next
    | with_reducible exact State.Moves.refl _ _
    | exact Eq.refl true
    | with_reducible apply State.Moves.ite
    | with_reducible apply State.Moves.step ?_ (State.moves_modCourse ..) ?_
    | with_reducible apply State.Moves.step ?_ (State.moves_fire ..) ?_
    | with_reducible apply State.Moves.step ?_ (State.moves_courseFault ..) ?_
    | with_reducible apply State.Moves.ite
    | with_reducible dsimp only

theorem moves_execCourseRecordCopy (c : Nat) (first : List Byte) (second : List Byte) (ident : List Byte) (s : State) :
    outMoves [.courses, .recd, .regs] s (execCourseRecordCopy c first second s ident) := by
  unfold execCourseRecordCopy
  repeat' first
    | with_reducible apply outMoves_within
    | with_reducible apply outMoves_onRail
    | with_reducible apply outMoves_onCourse
    | with_reducible apply outMoves_next
    | with_reducible exact State.Moves.refl _ _
    | exact Eq.refl true
    | with_reducible apply State.Moves.ite
    | with_reducible apply State.Moves.step ?_ (State.moves_recordCopy ..) ?_
    | with_reducible apply State.Moves.step ?_ (State.moves_readIdent ..) ?_
    | with_reducible apply State.Moves.whenOf
    | with_reducible apply State.Moves.ite
    | with_reducible dsimp only

theorem moves_execSmbusAlert (seg : Nat) (addr : Option Nat) (s : State) :
    outMoves [.courses, .recd, .regs] s (execSmbusAlert seg addr s) := by
  unfold execSmbusAlert
  repeat' first
    | with_reducible apply outMoves_within
    | with_reducible apply outMoves_onRail
    | with_reducible apply outMoves_next
    | with_reducible exact State.Moves.refl _ _
    | exact Eq.refl true
    | with_reducible apply State.Moves.ite
    | with_reducible apply State.Moves.step ?_ (State.moves_followCause ..) ?_
    | with_reducible apply State.Moves.step ?_ (State.moves_fire ..) ?_
    | with_reducible apply State.Moves.ite
    | with_reducible dsimp only
    | split

theorem moves_execHourWindow (s : State) :
    outMoves [.blk, .regs] s (execHourWindow s) := by
  unfold execHourWindow
  repeat' first
    | with_reducible apply outMoves_within
    | with_reducible apply outMoves_onRail
    | with_reducible apply outMoves_next
    | with_reducible exact State.Moves.refl _ _
    | exact Eq.refl true
    | with_reducible apply State.Moves.step ?_ (State.moves_modBlk _ _ ?_) ?_
    | with_reducible apply State.Moves.step ?_ (State.moves_set ..) ?_
    | with_reducible apply State.Moves.overAll (fun _ _ => ?_)
    | with_reducible dsimp only
    | exact fun _ => rfl

theorem moves_execSuppliesGood (s : State) : outMoves [.now, .blk, .st, .rails, .regions, .strings, .courses, .chans, .eng, .used, .cap, .telem, .tune, .hints,
    .learn, .therm, .convs, .cg, .dict, .dma, .recd, .clk, .regs] s (execSuppliesGood s) := by
  unfold execSuppliesGood
  refine outMoves_next (.ite ⟨fun p hp => by cases p <;> first | exact absurd (by decide) hp | rfl, rfl,
    fun _ => ⟨(State.units_initial s.cfg).1, (State.units_initial s.cfg).2, (State.units_initial s.cfg).3,
      (State.units_initial s.cfg).4, (State.units_initial s.cfg).5, (State.units_initial s.cfg).6⟩,
    fun _ => Nat.two_pow_pos 64, fun _ => rfl, fun _ => rfl, fun _ => State.railsOk_initial s.cfg⟩ (.refl _ _))

theorem moves_execSuppliesLost (s : State) : outMoves [.now, .blk, .st, .rails, .regions, .strings, .courses, .chans, .eng, .used, .cap, .telem, .tune, .hints,
    .learn, .therm, .convs, .cg, .dict, .dma, .recd, .clk, .regs] s (execSuppliesLost s) :=
  outMoves_next (State.moves_powerOff s)

theorem moves_execResetNLow (logs : List LogCheck) (s : State) : outMoves [.now, .blk, .st, .rails, .regions, .strings, .courses, .chans, .eng, .used, .cap, .telem, .tune, .hints,
    .learn, .therm, .convs, .cg, .dict, .dma, .recd, .clk, .regs] s (execResetNLow s logs) := by
  unfold execResetNLow
  extract_lets lost t _ _ _ u v
  have hu : s.Moves [.now, .blk, .st, .rails, .regions, .strings, .courses, .chans, .eng, .used, .cap, .telem, .tune, .hints,
    .learn, .therm, .convs, .cg, .dict, .dma, .recd, .clk, .regs] u :=
   ⟨fun p hp => by cases p <;> first | exact absurd (by decide) hp | rfl, rfl,
    fun _ => ⟨(State.units_initial s.cfg).1, (State.units_initial s.cfg).2, (State.units_initial s.cfg).3,
      (State.units_initial s.cfg).4, (State.units_initial s.cfg).5, (State.units_initial s.cfg).6⟩,
    fun _ => Nat.two_pow_pos 64, fun _ => rfl, fun _ => rfl, fun _ => State.railsOk_initial s.cfg⟩
  clear_value u
  have hv : s.Moves [.now, .blk, .st, .rails, .regions, .strings, .courses, .chans, .eng, .used, .cap, .telem, .tune, .hints,
    .learn, .therm, .convs, .cg, .dict, .dma, .recd, .clk, .regs] v := .overAll (fun _ _ => (State.moves_parityError ..).mono rfl) hu
  clear_value v
  exact outMoves_next (.ite (.refl _ _) (hv.step (State.moves_set ..) rfl))

theorem moves_execResetExit (riseAt : Nat) (s : State) :
    outMoves [.blk, .st, .rails, .regions, .strings, .eng, .cap, .hints, .learn, .therm, .convs, .cg, .dma, .recd, .clk, .regs] s (execResetExit riseAt s) := by
  unfold execResetExit
  repeat' first
    | with_reducible apply outMoves_within
    | with_reducible apply outMoves_onRail
    | with_reducible apply outMoves_next
    | with_reducible exact State.Moves.refl _ _
    | exact Eq.refl true
    | with_reducible apply State.Moves.step ?_ (State.moves_enterSelftest ..) ?_
    | with_reducible apply State.Moves.whenOf
    | with_reducible dsimp only

theorem moves_execSelftestComplete (memFail : Bool) (twinFail : Bool) (refs : List RefCheck) (s : State) :
    outMoves [.blk, .st, .rails, .regions, .strings, .eng, .cap, .hints, .learn, .therm, .convs, .cg, .dma, .recd, .regs] s (execSelftestComplete memFail twinFail refs s) := by
  unfold execSelftestComplete
  repeat' first
    | with_reducible apply outMoves_within
    | with_reducible apply outMoves_onRail
    | with_reducible apply outMoves_next
    | with_reducible exact State.Moves.refl _ _
    | exact Eq.refl true
    | with_reducible apply State.Moves.ite
    | with_reducible apply State.Moves.step ?_ (State.moves_set ..) ?_
    | with_reducible apply State.Moves.step ?_ (State.moves_fire ..) ?_
    | with_reducible apply State.Moves.step ?_ (State.moves_setReason ..) ?_
    | with_reducible apply State.Moves.step ?_ (State.moves_enter ..) ?_
    | with_reducible apply State.Moves.step ?_ (State.moves_failConverter ..) ?_
    | with_reducible apply State.Moves.overAll (fun _ _ => ?_)
    | with_reducible apply State.Moves.ite
    | with_reducible dsimp only

theorem moves_execCourseDiscovery (c : Nat) (res : PmbResult) (ident : List Byte) (s : State) :
    outMoves [.regions, .strings, .courses, .dma, .recd, .regs] s (execCourseDiscovery c res ident s) := by
  unfold execCourseDiscovery
  repeat' first
    | with_reducible apply outMoves_within
    | with_reducible apply outMoves_onRail
    | with_reducible apply outMoves_onCourse
    | with_reducible apply outMoves_next
    | with_reducible exact State.Moves.refl _ _
    | exact Eq.refl true
    | with_reducible apply State.Moves.step ?_ (State.moves_attempt ..) ?_
    | with_reducible apply State.Moves.whenOf
    | with_reducible dsimp only

theorem moves_execPmbusRetry (c : Nat) (res : PmbResult) (ident : List Byte) (s : State) :
    outMoves [.regions, .strings, .courses, .dma, .recd, .regs] s (execPmbusRetry c res ident s) := by
  unfold execPmbusRetry
  repeat' first
    | with_reducible apply outMoves_within
    | with_reducible apply outMoves_onRail
    | with_reducible apply outMoves_onCourse
    | with_reducible apply outMoves_next
    | with_reducible exact State.Moves.refl _ _
    | exact Eq.refl true
    | with_reducible apply State.Moves.step ?_ (State.moves_attempt ..) ?_
    | with_reducible apply State.Moves.whenOf
    | with_reducible dsimp only
    | split

theorem moves_execDiscoverEnd (vinOk : Bool) (s : State) :
    outMoves [.blk, .st, .rails, .regions, .strings, .chans, .eng, .cap, .hints, .learn, .therm, .convs, .cg, .dma, .recd, .regs] s (execDiscoverEnd vinOk s) := by
  unfold execDiscoverEnd
  repeat' first
    | with_reducible apply outMoves_within
    | with_reducible apply outMoves_onRail
    | with_reducible apply outMoves_next
    | with_reducible exact State.Moves.refl _ _
    | exact Eq.refl true
    | with_reducible apply State.Moves.ite
    | with_reducible apply State.Moves.step ?_ (State.moves_enter ..) ?_
    | with_reducible apply State.Moves.step ?_ (State.moves_modBlkSt _ _) ?_
    | with_reducible apply State.Moves.step ?_ (State.moves_startRamp ..) ?_
    | with_reducible apply State.Moves.ite
    | with_reducible dsimp only
    | exact fun _ => rfl

theorem moves_execRailRampStart (s : State) :
    outMoves [.blk, .st, .rails, .regions, .strings, .courses, .eng, .cap, .hints, .learn, .therm, .convs, .cg, .dma, .recd, .regs] s (execRailRampStart s) := by
  unfold execRailRampStart
  repeat' first
    | with_reducible apply outMoves_within
    | with_reducible apply outMoves_onRail
    | with_reducible apply outMoves_next
    | with_reducible exact State.Moves.refl _ _
    | exact Eq.refl true
    | with_reducible apply State.Moves.ite
    | with_reducible apply State.Moves.step ?_ (State.moves_railRampStart ..) ?_
    | with_reducible apply State.Moves.ite
    | with_reducible dsimp only
    | split

theorem moves_execRampReferenceStart (q : Nat) (s : State) :
    outMoves [.rails, .courses, .regs] s (execRampReferenceStart q s) := by
  unfold execRampReferenceStart
  repeat' first
    | with_reducible apply outMoves_within
    | with_reducible apply outMoves_onRail
    | with_reducible apply outMoves_onRail
    | with_reducible apply outMoves_next
    | with_reducible exact State.Moves.refl _ _
    | exact Eq.refl true
    | with_reducible apply State.Moves.ite
    | with_reducible apply State.Moves.step ?_ (State.moves_modRail _ _ _ ?_) ?_
    | with_reducible apply State.Moves.step ?_ (State.moves_set ..) ?_
    | with_reducible apply State.Moves.step ?_ (State.moves_modCourse ..) ?_
    | with_reducible apply State.Moves.overAll (fun _ _ => ?_)
    | with_reducible apply State.Moves.ite
    | with_reducible dsimp only
    | split
    | exact fun _ => ⟨rfl, rfl⟩

theorem moves_execPositionJoin (q : Nat) (p : Nat) (s : State) :
    outMoves [.rails] s (execPositionJoin q p s) := by
  unfold execPositionJoin
  repeat' first
    | with_reducible apply outMoves_within
    | with_reducible apply outMoves_onRail
    | with_reducible apply outMoves_onRail
    | with_reducible apply outMoves_next
    | with_reducible exact State.Moves.refl _ _
    | exact Eq.refl true
    | with_reducible apply State.Moves.ite
    | with_reducible apply State.Moves.step ?_ (State.moves_modRail _ _ _ ?_) ?_
    | with_reducible apply State.Moves.whenOf
    | with_reducible apply State.Moves.ite
    | with_reducible dsimp only
    | split
    | exact fun _ => ⟨rfl, rfl⟩

theorem moves_execRailPowerGood (q : Nat) (s : State) :
    outMoves [.blk, .st, .rails, .regions, .strings, .eng, .cap, .hints, .learn, .therm, .convs, .cg, .dma, .recd, .regs] s (execRailPowerGood q s) := by
  unfold execRailPowerGood
  repeat' first
    | with_reducible apply outMoves_within
    | with_reducible apply outMoves_onRail
    | with_reducible apply outMoves_onRail
    | with_reducible apply outMoves_next
    | with_reducible exact State.Moves.refl _ _
    | exact Eq.refl true
    | with_reducible apply State.Moves.step ?_ (State.moves_nextRail ..) ?_
    | with_reducible apply State.Moves.step ?_ (State.moves_set ..) ?_
    | with_reducible apply State.Moves.step ?_ (State.moves_modRail _ _ _ ?_) ?_
    | with_reducible apply State.Moves.whenOf
    | with_reducible dsimp only
    | exact fun _ => ⟨rfl, rfl⟩

theorem moves_execRailFailed (q : Nat) (s : State) :
    outMoves [.blk, .st, .rails, .regions, .strings, .courses, .eng, .cap, .hints, .learn, .therm, .convs, .cg, .dma, .recd, .regs] s (execRailFailed q s) := by
  unfold execRailFailed
  repeat' first
    | with_reducible apply outMoves_within
    | with_reducible apply outMoves_onRail
    | with_reducible apply outMoves_onRail
    | with_reducible apply outMoves_next
    | with_reducible exact State.Moves.refl _ _
    | exact Eq.refl true
    | with_reducible apply State.Moves.step ?_ (State.moves_nextRail ..) ?_
    | with_reducible apply State.Moves.step ?_ (State.moves_fire ..) ?_
    | with_reducible apply State.Moves.step ?_ (State.moves_modRail _ _ _ ?_) ?_
    | with_reducible apply State.Moves.step ?_ (State.moves_railEnLow ..) ?_
    | with_reducible apply State.Moves.whenOf
    | with_reducible dsimp only
    | split
    | exact fun _ => ⟨rfl, rfl⟩

theorem moves_execRampDownStart (s : State) :
    outMoves [.blk, .rails, .regions] s (execRampDownStart s) := by
  unfold execRampDownStart
  repeat' first
    | with_reducible apply outMoves_within
    | with_reducible apply outMoves_onRail
    | with_reducible apply outMoves_next
    | with_reducible exact State.Moves.refl _ _
    | exact Eq.refl true
    | with_reducible apply State.Moves.ite
    | with_reducible apply State.Moves.step ?_ (State.moves_beginDown ..) ?_
    | with_reducible apply State.Moves.step ?_ (State.moves_modBlk _ _ ?_) ?_
    | with_reducible apply State.Moves.ite
    | with_reducible dsimp only
    | split
    | exact fun _ => rfl

theorem moves_execRailRampDownEnd (q : Nat) (s : State) :
    outMoves [.blk, .rails, .regions, .strings, .courses] s (execRailRampDownEnd q s) := by
  unfold execRailRampDownEnd
  repeat' first
    | with_reducible apply outMoves_within
    | with_reducible apply outMoves_onRail
    | with_reducible apply outMoves_onRail
    | with_reducible apply outMoves_next
    | with_reducible exact State.Moves.refl _ _
    | exact Eq.refl true
    | with_reducible apply State.Moves.ite
    | with_reducible apply State.Moves.step ?_ (State.moves_modRail _ _ _ ?_) ?_
    | with_reducible apply State.Moves.step ?_ (State.moves_railEnLow ..) ?_
    | with_reducible apply State.Moves.step ?_ (State.moves_modStrum ..) ?_
    | with_reducible apply State.Moves.step ?_ (State.moves_modBlk _ _ ?_) ?_
    | with_reducible apply State.Moves.step ?_ (State.moves_beginDown ..) ?_
    | with_reducible apply State.Moves.overAll (fun _ _ => ?_)
    | with_reducible apply State.Moves.ite
    | with_reducible dsimp only
    | split
    | exact fun _ => ⟨rfl, rfl⟩
    | exact fun _ => rfl

theorem moves_execVinOkLoss (s : State) :
    outMoves [.blk, .st, .rails, .regions, .strings, .courses, .eng, .cap, .hints, .learn, .therm, .convs, .cg, .dma, .recd, .regs] s (execVinOkLoss s) := by
  unfold execVinOkLoss
  repeat' first
    | with_reducible apply outMoves_within
    | with_reducible apply outMoves_onRail
    | with_reducible apply outMoves_next
    | with_reducible exact State.Moves.refl _ _
    | exact Eq.refl true
    | with_reducible apply State.Moves.ite
    | with_reducible apply State.Moves.step ?_ (State.moves_fire ..) ?_
    | with_reducible apply State.Moves.step ?_ (State.moves_count ..) ?_
    | with_reducible apply State.Moves.step ?_ (State.moves_railsOff ..) ?_
    | with_reducible apply State.Moves.step ?_ (State.moves_allEnLow ..) ?_
    | with_reducible apply State.Moves.step ?_ (State.moves_haltAll ..) ?_
    | with_reducible apply State.Moves.step ?_ (State.moves_modBlkSt _ _) ?_
    | with_reducible apply State.Moves.step ?_ (State.moves_enter ..) ?_
    | with_reducible apply State.Moves.ite
    | with_reducible dsimp only
    | split
    | exact fun _ => rfl

theorem moves_execVinRestart (s : State) :
    outMoves [.blk, .st, .rails, .regions, .strings, .courses, .eng, .cap, .hints, .learn, .therm, .convs, .cg, .dma, .recd, .regs] s (execVinRestart s) := by
  unfold execVinRestart
  repeat' first
    | with_reducible apply outMoves_within
    | with_reducible apply outMoves_onRail
    | with_reducible apply outMoves_next
    | with_reducible exact State.Moves.refl _ _
    | exact Eq.refl true
    | with_reducible apply State.Moves.step ?_ (State.moves_startDiscover ..) ?_
    | with_reducible apply State.Moves.step ?_ (State.moves_fire ..) ?_
    | with_reducible apply State.Moves.step ?_ (State.moves_count ..) ?_
    | with_reducible apply State.Moves.whenOf
    | with_reducible dsimp only

theorem moves_execScanReading (r : Nat) (value : Int) (parityOk : Bool) (s : State) :
    outMoves [.blk, .used, .therm, .dict, .recd, .regs] s (execScanReading r value parityOk s) := by
  unfold execScanReading
  repeat' first
    | with_reducible apply outMoves_within
    | with_reducible apply outMoves_onRail
    | with_reducible apply outMoves_onRegion
    | with_reducible apply outMoves_next
    | with_reducible exact State.Moves.refl _ _
    | exact Eq.refl true
    | with_reducible apply State.Moves.step ?_ (State.moves_scanReading ..) ?_
    | with_reducible apply State.Moves.whenOf
    | with_reducible dsimp only

theorem moves_execCalibrationSlot (q : Nat) (value : Int) (s : State) :
    outMoves [.blk, .therm, .recd, .regs] s (execCalibrationSlot q value s) := by
  unfold execCalibrationSlot
  repeat' first
    | with_reducible apply outMoves_within
    | with_reducible apply outMoves_onRail
    | with_reducible apply outMoves_next
    | with_reducible exact State.Moves.refl _ _
    | exact Eq.refl true
    | with_reducible apply State.Moves.step ?_ (State.moves_calibration ..) ?_
    | with_reducible apply State.Moves.whenOf
    | with_reducible dsimp only

theorem moves_execConfirmationRead (q : Nat) (value : Int) (parityOk : Bool) (s : State) :
    outMoves [.blk, .st, .rails, .regions, .strings, .courses, .eng, .cap, .hints, .learn, .therm, .convs, .cg, .dma, .recd, .regs] s (execConfirmationRead q value parityOk s) := by
  unfold execConfirmationRead
  repeat' first
    | with_reducible apply outMoves_within
    | with_reducible apply outMoves_onRail
    | with_reducible apply outMoves_next
    | with_reducible exact State.Moves.refl _ _
    | exact Eq.refl true
    | with_reducible apply State.Moves.step ?_ (State.moves_confirmationRead ..) ?_
    | with_reducible apply State.Moves.whenOf
    | with_reducible dsimp only

theorem moves_execRestartTimerExpiry (s : State) :
    outMoves [.blk, .st, .rails, .regions, .strings, .courses, .eng, .cap, .hints, .learn, .therm, .convs, .cg, .dma, .recd, .regs] s (execRestartTimerExpiry s) := by
  unfold execRestartTimerExpiry
  repeat' first
    | with_reducible apply outMoves_within
    | with_reducible apply outMoves_onRail
    | with_reducible apply outMoves_next
    | with_reducible exact State.Moves.refl _ _
    | exact Eq.refl true
    | with_reducible apply State.Moves.step ?_ (State.moves_startDiscover ..) ?_
    | with_reducible apply State.Moves.step ?_ (State.moves_count ..) ?_
    | with_reducible apply State.Moves.step ?_ (State.moves_modBlkSt _ _) ?_
    | with_reducible apply State.Moves.whenOf
    | with_reducible dsimp only
    | split
    | with_reducible apply State.Moves.put_blk
    | with_reducible apply State.Moves.put_therm
    | refine .put ?_ rfl (fun p hp => by cases p <;> first | exact absurd (by decide) hp | rfl)
        (.of (by first | rfl | simp [State.sizes] | (simp only [State.sizes, List.length_map, List.length_modify]; rfl)) rfl rfl rfl)
    | exact fun _ => rfl

theorem moves_execThermalDecision (s : State) :
    outMoves [.rails, .regions, .used, .therm, .recd, .regs] s (execThermalDecision s) := by
  unfold execThermalDecision
  repeat' first
    | with_reducible apply outMoves_within
    | with_reducible apply outMoves_onRail
    | with_reducible apply outMoves_next
    | with_reducible exact State.Moves.refl _ _
    | exact Eq.refl true
    | with_reducible apply State.Moves.step ?_ (State.moves_thermalDecision ..) ?_
    | with_reducible apply State.Moves.whenOf
    | with_reducible dsimp only

theorem moves_execRecoveryStep (s : State) :
    outMoves [.regions, .therm] s (execRecoveryStep s) := by
  unfold execRecoveryStep
  repeat' first
    | with_reducible apply outMoves_within
    | with_reducible apply outMoves_onRail
    | with_reducible apply outMoves_next
    | with_reducible exact State.Moves.refl _ _
    | exact Eq.refl true
    | with_reducible apply State.Moves.whenOf
    | with_reducible dsimp only
    | with_reducible apply State.Moves.put_therm
    | with_reducible apply State.Moves.put_regions
    | exact List.length_map ..
    | exact List.length_modify ..
    | refine .put ?_ rfl (fun p hp => by cases p <;> first | exact absurd (by decide) hp | rfl)
        (.of (by first | rfl | simp [State.sizes] | (simp only [State.sizes, List.length_map, List.length_modify]; rfl)) rfl rfl rfl)

theorem moves_execFireStrobe (n : Nat) (s : State) :
    outMoves [.convs] s (execFireStrobe n s) := by
  unfold execFireStrobe
  repeat' first
    | with_reducible apply outMoves_within
    | with_reducible apply outMoves_onRail
    | with_reducible apply outMoves_onConv
    | with_reducible apply outMoves_next
    | with_reducible exact State.Moves.refl _ _
    | exact Eq.refl true
    | with_reducible apply State.Moves.step ?_ (State.moves_modConv ..) ?_
    | with_reducible apply State.Moves.whenOf
    | with_reducible dsimp only
    | split

theorem moves_execFireWaitTimeout (n : Nat) (s : State) :
    outMoves [.convs] s (execFireWaitTimeout n s) := by
  unfold execFireWaitTimeout
  repeat' first
    | with_reducible apply outMoves_within
    | with_reducible apply outMoves_onRail
    | with_reducible apply outMoves_onConv
    | with_reducible apply outMoves_next
    | with_reducible exact State.Moves.refl _ _
    | exact Eq.refl true
    | with_reducible apply State.Moves.step ?_ (State.moves_modConv ..) ?_
    | with_reducible apply State.Moves.whenOf
    | with_reducible dsimp only

theorem moves_execConversionTimeout (n : Nat) (s : State) :
    outMoves [.convs, .cg, .recd, .regs] s (execConversionTimeout n s) := by
  unfold execConversionTimeout
  repeat' first
    | with_reducible apply outMoves_within
    | with_reducible apply outMoves_onRail
    | with_reducible apply outMoves_onConv
    | with_reducible apply outMoves_next
    | with_reducible exact State.Moves.refl _ _
    | exact Eq.refl true
    | with_reducible apply State.Moves.step ?_ (State.moves_failConverter ..) ?_
    | with_reducible apply State.Moves.whenOf
    | with_reducible dsimp only

theorem moves_execSlopeTestEnd (i : Nat) (s : State) :
    outMoves [.strings] s (execSlopeTestEnd i s) := by
  unfold execSlopeTestEnd
  repeat' first
    | with_reducible apply outMoves_within
    | with_reducible apply outMoves_onRail
    | with_reducible apply outMoves_onString
    | with_reducible apply outMoves_next
    | with_reducible exact State.Moves.refl _ _
    | exact Eq.refl true
    | with_reducible apply State.Moves.step ?_ (State.moves_modStr ..) ?_
    | with_reducible apply State.Moves.whenOf
    | with_reducible dsimp only
    | split

theorem moves_execUrgentRequest (n : Nat) (s : State) :
    outMoves [.convs, .cg, .regs] s (execUrgentRequest n s) := by
  unfold execUrgentRequest
  repeat' first
    | with_reducible apply outMoves_within
    | with_reducible apply outMoves_onRail
    | with_reducible apply outMoves_onConv
    | with_reducible apply outMoves_next
    | with_reducible exact State.Moves.refl _ _
    | exact Eq.refl true
    | with_reducible apply State.Moves.step ?_ (State.moves_urgentArrives ..) ?_
    | with_reducible dsimp only

theorem moves_execSyncTrigger (s : State) :
    outMoves [.convs, .cg, .regs] s (execSyncTrigger s) := by
  unfold execSyncTrigger
  repeat' first
    | with_reducible apply outMoves_within
    | with_reducible apply outMoves_onRail
    | with_reducible apply outMoves_next
    | with_reducible exact State.Moves.refl _ _
    | exact Eq.refl true
    | with_reducible apply State.Moves.step ?_ (State.moves_useTriggers ..) ?_
    | with_reducible apply State.Moves.step ?_ (State.moves_syncTrigger ..) ?_
    | with_reducible apply State.Moves.whenOf
    | with_reducible dsimp only

theorem moves_execFullSpeedStart (s : State) :
    outMoves [.blk, .convs] s (execFullSpeedStart s) := by
  unfold execFullSpeedStart
  repeat' first
    | with_reducible apply outMoves_within
    | with_reducible apply outMoves_onRail
    | with_reducible apply outMoves_next
    | with_reducible exact State.Moves.refl _ _
    | exact Eq.refl true
    | with_reducible apply State.Moves.ite
    | with_reducible apply State.Moves.step ?_ (State.moves_modBlk _ _ ?_) ?_
    | with_reducible apply State.Moves.ite
    | with_reducible dsimp only
    | split
    | with_reducible apply State.Moves.put_convs
    | with_reducible apply State.Moves.put_blk
    | exact List.length_map ..
    | exact List.length_modify ..
    | refine .put ?_ rfl (fun p hp => by cases p <;> first | exact absurd (by decide) hp | rfl)
        (.of (by first | rfl | simp [State.sizes] | (simp only [State.sizes, List.length_map, List.length_modify]; rfl)) rfl rfl rfl)
    | exact fun _ => rfl

theorem moves_execEnergyQuarter (vs : Int) (s : State) :
    outMoves [.cap, .regs] s (execEnergyQuarter vs s) := by
  unfold execEnergyQuarter
  repeat' first
    | with_reducible apply outMoves_within
    | with_reducible apply outMoves_onRail
    | with_reducible apply outMoves_next
    | with_reducible exact State.Moves.refl _ _
    | exact Eq.refl true
    | with_reducible apply State.Moves.step ?_ (State.moves_energyQuarter ..) ?_
    | with_reducible apply State.Moves.whenOf
    | with_reducible dsimp only

theorem moves_execHint (word : Nat) (par : Nat) (s : State) :
    outMoves [.blk, .regions, .strings, .cap, .hints, .recd, .regs] s (execHint word par s) := by
  unfold execHint
  repeat' first
    | with_reducible apply outMoves_within
    | with_reducible apply outMoves_onRail
    | with_reducible apply outMoves_next
    | with_reducible exact State.Moves.refl _ _
    | exact Eq.refl true
    | with_reducible apply State.Moves.step ?_ (State.moves_takeHint ..) ?_
    | with_reducible apply State.Moves.whenOf
    | with_reducible dsimp only

theorem moves_execPreparationTime (id : Nat) (s : State) :
    outMoves [.regions, .strings, .cap, .hints, .recd, .regs] s (execPreparationTime id s) := by
  unfold execPreparationTime
  repeat' first
    | with_reducible apply outMoves_within
    | with_reducible apply outMoves_onRail
    | with_reducible apply outMoves_next
    | with_reducible exact State.Moves.refl _ _
    | exact Eq.refl true
    | with_reducible apply State.Moves.step ?_ (State.moves_prepare ..) ?_
    | with_reducible apply State.Moves.whenOf
    | with_reducible dsimp only
    | split

theorem moves_execBumpHoldEnd (id : Nat) (s : State) :
    outMoves [.hints] s (execBumpHoldEnd id s) := by
  unfold execBumpHoldEnd
  repeat' first
    | with_reducible apply outMoves_within
    | with_reducible apply outMoves_onRail
    | with_reducible apply outMoves_next
    | with_reducible exact State.Moves.refl _ _
    | exact Eq.refl true
    | with_reducible apply State.Moves.step ?_ (State.moves_modHint ..) ?_
    | with_reducible apply State.Moves.whenOf
    | with_reducible dsimp only
    | split
    | with_reducible apply State.Moves.put_hints

theorem moves_execHintRetire (id : Nat) (s : State) :
    outMoves [.hints, .recd, .regs] s (execHintRetire id s) := by
  unfold execHintRetire
  repeat' first
    | with_reducible apply outMoves_within
    | with_reducible apply outMoves_onRail
    | with_reducible apply outMoves_next
    | with_reducible exact State.Moves.refl _ _
    | exact Eq.refl true
    | with_reducible apply State.Moves.step ?_ (State.moves_retireHint ..) ?_
    | with_reducible apply State.Moves.whenOf
    | with_reducible dsimp only
    | split

theorem moves_execScoreboardEntryParity (id : Nat) (s : State) :
    outMoves [.blk, .regions, .hints, .recd, .regs] s (execScoreboardEntryParity id s) := by
  unfold execScoreboardEntryParity
  repeat' first
    | with_reducible apply outMoves_within
    | with_reducible apply outMoves_onRail
    | with_reducible apply outMoves_next
    | with_reducible exact State.Moves.refl _ _
    | exact Eq.refl true
    | with_reducible apply State.Moves.step ?_ (State.moves_discardHint ..) ?_
    | with_reducible apply State.Moves.step ?_ (State.moves_disarmHint ..) ?_
    | with_reducible apply State.Moves.step ?_ (State.moves_fire ..) ?_
    | with_reducible apply State.Moves.step ?_ (State.moves_parityError ..) ?_
    | with_reducible dsimp only
    | split

theorem moves_execStaticTableParity (s : State) :
    outMoves [.blk, .hints, .recd, .regs] s (execStaticTableParity s) := by
  unfold execStaticTableParity
  repeat' first
    | with_reducible apply outMoves_within
    | with_reducible apply outMoves_onRail
    | with_reducible apply outMoves_next
    | with_reducible exact State.Moves.refl _ _
    | exact Eq.refl true
    | with_reducible apply State.Moves.step ?_ (State.moves_fire ..) ?_
    | with_reducible apply State.Moves.step ?_ (State.moves_parityError ..) ?_
    | with_reducible apply State.Moves.whenOf
    | with_reducible dsimp only
    | with_reducible apply State.Moves.put_hints

theorem moves_execDroopObservation (id : Nat) (s : State) :
    outMoves [.hints, .learn] s (execDroopObservation id s) := by
  unfold execDroopObservation
  repeat' first
    | with_reducible apply outMoves_within
    | with_reducible apply outMoves_onRail
    | with_reducible apply outMoves_next
    | with_reducible exact State.Moves.refl _ _
    | exact Eq.refl true
    | with_reducible apply State.Moves.step ?_ (State.moves_droopObservation ..) ?_
    | with_reducible apply State.Moves.whenOf
    | with_reducible dsimp only
    | split

theorem moves_execFretStepStart (r : Nat) (s : State) :
    outMoves [.regions] s (execFretStepStart r s) := by
  unfold execFretStepStart
  repeat' first
    | with_reducible apply outMoves_within
    | with_reducible apply outMoves_onRail
    | with_reducible apply outMoves_onRegion
    | with_reducible apply outMoves_next
    | with_reducible exact State.Moves.refl _ _
    | exact Eq.refl true
    | with_reducible apply State.Moves.step ?_ (State.moves_fretStepStart ..) ?_
    | with_reducible dsimp only

theorem moves_execFretCmdReqRaise (r : Nat) (s : State) :
    outMoves [.regions] s (execFretCmdReqRaise r s) := by
  unfold execFretCmdReqRaise
  repeat' first
    | with_reducible apply outMoves_within
    | with_reducible apply outMoves_onRail
    | with_reducible apply outMoves_onRegion
    | with_reducible apply outMoves_next
    | with_reducible exact State.Moves.refl _ _
    | exact Eq.refl true
    | with_reducible apply State.Moves.step ?_ (State.moves_abandonFret ..) ?_
    | with_reducible apply State.Moves.step ?_ (State.moves_modFret ..) ?_
    | with_reducible apply State.Moves.whenOf
    | with_reducible dsimp only

theorem moves_execFretCmdAckRise (r : Nat) (s : State) :
    outMoves [.regions, .regs] s (execFretCmdAckRise r s) := by
  unfold execFretCmdAckRise
  repeat' first
    | with_reducible apply outMoves_within
    | with_reducible apply outMoves_onRail
    | with_reducible apply outMoves_onRegion
    | with_reducible apply outMoves_next
    | with_reducible exact State.Moves.refl _ _
    | exact Eq.refl true
    | with_reducible apply State.Moves.ite
    | with_reducible apply State.Moves.step ?_ (State.moves_breach ..) ?_
    | with_reducible apply State.Moves.step ?_ (State.moves_modFret ..) ?_
    | with_reducible apply State.Moves.step ?_ (State.moves_modSup ..) ?_
    | with_reducible apply State.Moves.ite
    | with_reducible dsimp only

theorem moves_execFretCmdAckFall (r : Nat) (s : State) :
    outMoves [.regions, .regs] s (execFretCmdAckFall r s) := by
  unfold execFretCmdAckFall
  repeat' first
    | with_reducible apply outMoves_within
    | with_reducible apply outMoves_onRail
    | with_reducible apply outMoves_onRegion
    | with_reducible apply outMoves_next
    | with_reducible exact State.Moves.refl _ _
    | exact Eq.refl true
    | with_reducible apply State.Moves.ite
    | with_reducible apply State.Moves.step ?_ (State.moves_breach ..) ?_
    | with_reducible apply State.Moves.step ?_ (State.moves_count ..) ?_
    | with_reducible apply State.Moves.step ?_ (State.moves_modFret ..) ?_
    | with_reducible apply State.Moves.ite
    | with_reducible dsimp only

theorem moves_execFretAckLate (r : Nat) (s : State) :
    outMoves [.regions, .recd, .regs] s (execFretAckLate r s) := by
  unfold execFretAckLate
  repeat' first
    | with_reducible apply outMoves_within
    | with_reducible apply outMoves_onRail
    | with_reducible apply outMoves_onRegion
    | with_reducible apply outMoves_next
    | with_reducible exact State.Moves.refl _ _
    | exact Eq.refl true
    | with_reducible apply State.Moves.step ?_ (State.moves_fire ..) ?_
    | with_reducible apply State.Moves.step ?_ (State.moves_count ..) ?_
    | with_reducible apply State.Moves.step ?_ (State.moves_modFret ..) ?_
    | with_reducible apply State.Moves.whenOf
    | with_reducible dsimp only

theorem moves_execRecoveryHoldExpiry (q : Nat) (s : State) :
    outMoves [.rails] s (execRecoveryHoldExpiry q s) := by
  unfold execRecoveryHoldExpiry
  repeat' first
    | with_reducible apply outMoves_within
    | with_reducible apply outMoves_onRail
    | with_reducible apply outMoves_onRail
    | with_reducible apply outMoves_next
    | with_reducible exact State.Moves.refl _ _
    | exact Eq.refl true
    | with_reducible apply State.Moves.step ?_ (State.moves_modRail _ _ _ ?_) ?_
    | with_reducible apply State.Moves.whenOf
    | with_reducible dsimp only
    | split
    | exact fun _ => ⟨rfl, rfl⟩

theorem moves_execFrameReady (s : State) :
    outMoves [.telem, .dma, .regs] s (execFrameReady s) := by
  unfold execFrameReady
  repeat' first
    | with_reducible apply outMoves_within
    | with_reducible apply outMoves_onRail
    | with_reducible apply outMoves_next
    | with_reducible exact State.Moves.refl _ _
    | exact Eq.refl true
    | with_reducible apply State.Moves.step ?_ (State.moves_frameReady ..) ?_
    | with_reducible dsimp only
    | split

theorem moves_execMillisecondBoundary (s : State) :
    outMoves [.rails, .regions, .used, .cap, .telem, .learn, .dict, .recd, .regs] s (execMillisecondBoundary s) := by
  unfold execMillisecondBoundary
  repeat' first
    | with_reducible apply outMoves_within
    | with_reducible apply outMoves_onRail
    | with_reducible apply outMoves_next
    | with_reducible exact State.Moves.refl _ _
    | exact Eq.refl true
    | with_reducible apply State.Moves.step ?_ (State.moves_millisecond ..) ?_
    | with_reducible apply State.Moves.whenOf
    | with_reducible dsimp only

theorem moves_execCapStep (s : State) :
    outMoves [.rails, .regions, .used, .cap, .dict, .regs] s (execCapStep s) := by
  unfold execCapStep
  repeat' first
    | with_reducible apply outMoves_within
    | with_reducible apply outMoves_onRail
    | with_reducible apply outMoves_next
    | with_reducible exact State.Moves.refl _ _
    | exact Eq.refl true
    | with_reducible apply State.Moves.ite
    | with_reducible apply State.Moves.step ?_ (State.moves_capStep ..) ?_
    | with_reducible apply State.Moves.step ?_ (State.moves_stepClear ..) ?_
    | with_reducible apply State.Moves.ite
    | with_reducible dsimp only

theorem moves_execCapoDelivery (s : State) :
    outMoves [.regions, .cap, .regs] s (execCapoDelivery s) := by
  unfold execCapoDelivery
  repeat' first
    | with_reducible apply outMoves_within
    | with_reducible apply outMoves_onRail
    | with_reducible apply outMoves_next
    | with_reducible exact State.Moves.refl _ _
    | exact Eq.refl true
    | with_reducible apply State.Moves.step ?_ (State.moves_capoDelivery ..) ?_
    | with_reducible apply State.Moves.whenOf
    | with_reducible dsimp only
    | split

theorem moves_execActivityFrame (r : Nat) (data : Nat) (par : Nat) (s : State) :
    outMoves [.regions, .regs] s (execActivityFrame r data par s) := by
  unfold execActivityFrame
  repeat' first
    | with_reducible apply outMoves_within
    | with_reducible apply outMoves_onRail
    | with_reducible apply outMoves_next
    | with_reducible exact State.Moves.refl _ _
    | exact Eq.refl true
    | with_reducible apply State.Moves.step ?_ (State.moves_activityFrame ..) ?_
    | with_reducible apply State.Moves.whenOf
    | with_reducible dsimp only

theorem moves_execLivePredictions (s : State) :
    outMoves [.regions, .learn, .regs] s (execLivePredictions s) := by
  unfold execLivePredictions
  repeat' first
    | with_reducible apply outMoves_within
    | with_reducible apply outMoves_onRail
    | with_reducible apply outMoves_next
    | with_reducible exact State.Moves.refl _ _
    | exact Eq.refl true
    | with_reducible apply State.Moves.step ?_ (State.moves_liveRegion ..) ?_
    | with_reducible apply State.Moves.whenOf
    | with_reducible apply State.Moves.overAll (fun _ _ => ?_)
    | with_reducible dsimp only

theorem moves_execForwardRefresh (s : State) :
    outMoves [.learn] s (execForwardRefresh s) := by
  unfold execForwardRefresh
  repeat' first
    | with_reducible apply outMoves_within
    | with_reducible apply outMoves_onRail
    | with_reducible apply outMoves_next
    | with_reducible exact State.Moves.refl _ _
    | exact Eq.refl true
    | with_reducible apply State.Moves.whenOf
    | with_reducible dsimp only
    | with_reducible apply State.Moves.put_learn

theorem moves_execLearnerStep (badCounters : List Nat) (s : State) :
    outMoves [.blk, .learn, .dma, .recd, .regs] s (execLearnerStep s badCounters) := by
  unfold execLearnerStep
  repeat' first
    | with_reducible apply outMoves_within
    | with_reducible apply outMoves_onRail
    | with_reducible apply outMoves_next
    | with_reducible exact State.Moves.refl _ _
    | exact Eq.refl true
    | with_reducible apply State.Moves.step ?_ (State.moves_learnerStep ..) ?_
    | with_reducible apply State.Moves.whenOf
    | with_reducible dsimp only

theorem moves_execPassCommit (k : Nat) (s : State) :
    outMoves [.learn, .dma, .regs] s (execPassCommit k s) := by
  unfold execPassCommit
  repeat' first
    | with_reducible apply outMoves_within
    | with_reducible apply outMoves_onRail
    | with_reducible apply outMoves_next
    | with_reducible exact State.Moves.refl _ _
    | exact Eq.refl true
    | with_reducible apply State.Moves.step ?_ (State.moves_passCommit ..) ?_
    | with_reducible apply State.Moves.whenOf
    | with_reducible dsimp only

theorem moves_execPassDiscard (k : Nat) (parityIn : Option (Nat × Nat)) (s : State) :
    outMoves [.blk, .regions, .learn, .recd, .regs] s (execPassDiscard k parityIn s) := by
  unfold execPassDiscard
  repeat' first
    | with_reducible apply outMoves_within
    | with_reducible apply outMoves_onRail
    | with_reducible apply outMoves_next
    | with_reducible exact State.Moves.refl _ _
    | exact Eq.refl true
    | with_reducible apply State.Moves.step ?_ (State.moves_passDiscard ..) ?_
    | with_reducible apply State.Moves.whenOf
    | with_reducible dsimp only

theorem moves_execCellParityError (t : CellTarget) (s : State) :
    outMoves [.blk, .regions, .learn, .recd, .regs] s (execCellParityError t s) := by
  unfold execCellParityError
  repeat' first
    | with_reducible apply outMoves_within
    | with_reducible apply outMoves_onRail
    | with_reducible apply outMoves_onRegion
    | with_reducible apply outMoves_onRail
    | with_reducible apply outMoves_next
    | with_reducible exact State.Moves.refl _ _
    | exact Eq.refl true
    | with_reducible apply State.Moves.step ?_ (State.moves_cellParity ..) ?_
    | with_reducible apply State.Moves.whenOf
    | with_reducible dsimp only
    | split

theorem moves_execSlotBuildEnd (slot : Nat) (s : State) :
    outMoves [.learn] s (execSlotBuildEnd slot s) := by
  unfold execSlotBuildEnd
  repeat' first
    | with_reducible apply outMoves_within
    | with_reducible apply outMoves_onRail
    | with_reducible apply outMoves_next
    | with_reducible exact State.Moves.refl _ _
    | exact Eq.refl true
    | with_reducible apply State.Moves.step ?_ (State.moves_modSlot ..) ?_
    | with_reducible dsimp only
    | split

theorem moves_execControlPeriod (s : State) :
    outMoves [.blk, .st, .rails, .regions, .strings, .chans, .eng, .used, .cap, .hints, .learn, .therm, .convs, .cg, .dict, .dma, .recd, .regs, .freeK] s (execControlPeriod s) := by
  unfold execControlPeriod
  repeat' first
    | with_reducible apply outMoves_within
    | with_reducible apply outMoves_onRail
    | with_reducible apply outMoves_next
    | with_reducible exact State.Moves.refl _ _
    | exact Eq.refl true
    | with_reducible apply State.Moves.step ?_ (State.moves_controlPeriod ..) ?_
    | with_reducible apply State.Moves.whenOf
    | with_reducible dsimp only

theorem moves_execEngineOutputs (s : State) :
    outMoves [.rails, .regions, .strings, .chans, .eng] s (execEngineOutputs s) := by
  unfold execEngineOutputs
  repeat' first
    | with_reducible apply outMoves_within
    | with_reducible apply outMoves_onRail
    | with_reducible apply outMoves_next
    | with_reducible exact State.Moves.refl _ _
    | exact Eq.refl true
    | with_reducible apply State.Moves.step ?_ (State.moves_engineOutputs ..) ?_
    | with_reducible apply State.Moves.whenOf
    | with_reducible dsimp only

theorem moves_execOutputsArrival (s : State) :
    outMoves [.regions, .strings, .chans, .eng, .used, .convs, .recd, .regs] s (execOutputsArrival s) := by
  unfold execOutputsArrival
  repeat' first
    | with_reducible apply outMoves_within
    | with_reducible apply outMoves_onRail
    | with_reducible apply outMoves_next
    | with_reducible exact State.Moves.refl _ _
    | exact Eq.refl true
    | with_reducible apply State.Moves.step ?_ (State.moves_outputsArrival ..) ?_
    | with_reducible apply State.Moves.whenOf
    | with_reducible dsimp only

theorem moves_execSwapSample (s : State) :
    outMoves [.chans, .eng] s (execSwapSample s) := by
  unfold execSwapSample
  repeat' first
    | with_reducible apply outMoves_within
    | with_reducible apply outMoves_onRail
    | with_reducible apply outMoves_next
    | with_reducible exact State.Moves.refl _ _
    | exact Eq.refl true
    | with_reducible apply State.Moves.whenOf
    | with_reducible dsimp only
    | with_reducible apply State.Moves.put_eng
    | with_reducible apply State.Moves.put_chans
    | exact List.length_map ..
    | exact List.length_modify ..
    | refine .put ?_ rfl (fun p hp => by cases p <;> first | exact absurd (by decide) hp | rfl)
        (.of (by first | rfl | simp [State.sizes] | (simp only [State.sizes, List.length_map, List.length_modify]; rfl)) rfl rfl rfl)

theorem moves_execBankCopyEnd (s : State) :
    outMoves [.chans, .eng] s (execBankCopyEnd s) := by
  unfold execBankCopyEnd
  repeat' first
    | with_reducible apply outMoves_within
    | with_reducible apply outMoves_onRail
    | with_reducible apply outMoves_next
    | with_reducible exact State.Moves.refl _ _
    | exact Eq.refl true
    | with_reducible dsimp only
    | with_reducible apply State.Moves.put_eng
    | with_reducible apply State.Moves.put_chans
    | exact List.length_map ..
    | exact List.length_modify ..
    | refine .put ?_ rfl (fun p hp => by cases p <;> first | exact absurd (by decide) hp | rfl)
        (.of (by first | rfl | simp [State.sizes] | (simp only [State.sizes, List.length_map, List.length_modify]; rfl)) rfl rfl rfl)

theorem moves_execBankParityError (ch : Nat) (t : ParityTarget) (s : State) :
    outMoves [.blk, .rails, .regions, .strings, .chans, .recd, .regs] s (execBankParityError ch t s) := by
  unfold execBankParityError
  repeat' first
    | with_reducible apply outMoves_within
    | with_reducible apply outMoves_onRail
    | with_reducible apply outMoves_next
    | with_reducible exact State.Moves.refl _ _
    | exact Eq.refl true
    | with_reducible apply State.Moves.step ?_ (State.moves_bankParity ..) ?_
    | with_reducible apply State.Moves.whenOf
    | with_reducible dsimp only

theorem moves_execTrimPwmPeriod (high : Nat) (low : Nat) (s : State) :
    outMoves [.eng, .recd, .regs] s (execTrimPwmPeriod high low s) := by
  unfold execTrimPwmPeriod
  repeat' first
    | with_reducible apply outMoves_within
    | with_reducible apply outMoves_onRail
    | with_reducible apply outMoves_next
    | with_reducible exact State.Moves.refl _ _
    | exact Eq.refl true
    | with_reducible apply State.Moves.step ?_ (State.moves_pwmPeriod ..) ?_
    | with_reducible apply State.Moves.whenOf
    | with_reducible dsimp only

theorem moves_execTrimInputLost (s : State) :
    outMoves [.eng, .recd, .regs] s (execTrimInputLost s) := by
  unfold execTrimInputLost
  repeat' first
    | with_reducible apply outMoves_within
    | with_reducible apply outMoves_onRail
    | with_reducible apply outMoves_next
    | with_reducible exact State.Moves.refl _ _
    | exact Eq.refl true
    | with_reducible apply State.Moves.step ?_ (State.moves_fire ..) ?_
    | with_reducible apply State.Moves.whenOf
    | with_reducible dsimp only
    | with_reducible apply State.Moves.put_eng

theorem moves_execTrimHoldExpiry (s : State) :
    outMoves [.eng] s (execTrimHoldExpiry s) := by
  unfold execTrimHoldExpiry
  repeat' first
    | with_reducible apply outMoves_within
    | with_reducible apply outMoves_onRail
    | with_reducible apply outMoves_next
    | with_reducible exact State.Moves.refl _ _
    | exact Eq.refl true
    | with_reducible apply State.Moves.whenOf
    | with_reducible dsimp only
    | with_reducible apply State.Moves.put_eng

theorem moves_execBoardAnalogConversion (i : BaInput) (res : Option (Int × Bool)) (s : State) :
    outMoves [.blk, .eng, .convs, .cg, .recd, .regs] s (execBoardAnalogConversion i res s) := by
  unfold execBoardAnalogConversion
  repeat' first
    | with_reducible apply outMoves_within
    | with_reducible apply outMoves_onRail
    | with_reducible apply outMoves_next
    | with_reducible exact State.Moves.refl _ _
    | exact Eq.refl true
    | with_reducible apply State.Moves.step ?_ (State.moves_boardConversion ..) ?_
    | with_reducible apply State.Moves.whenOf
    | with_reducible dsimp only

theorem moves_execFuseloadComplete (image : List Byte) (s : State) :
    outMoves [.blk, .st, .rails, .regions, .strings, .courses, .eng, .cap, .tune, .hints, .learn, .therm, .convs, .cg, .dict, .dma, .recd, .regs] s (execFuseloadComplete image s) := by
  unfold execFuseloadComplete
  repeat' first
    | with_reducible apply outMoves_within
    | with_reducible apply outMoves_onRail
    | with_reducible apply outMoves_next
    | with_reducible exact State.Moves.refl _ _
    | exact Eq.refl true
    | with_reducible apply State.Moves.step ?_ (State.moves_startDiscover ..) ?_
    | with_reducible apply State.Moves.step ?_ (State.moves_tuneCheck ..) ?_
    | with_reducible apply State.Moves.step ?_ (State.moves_loadImage ..) ?_
    | with_reducible apply State.Moves.whenOf
    | with_reducible dsimp only

theorem moves_execStaticTableReloaded (image : List Byte) (s : State) :
    outMoves [.hints] s (execStaticTableReloaded image s) := by
  unfold execStaticTableReloaded
  repeat' first
    | with_reducible apply outMoves_within
    | with_reducible apply outMoves_onRail
    | with_reducible apply outMoves_next
    | with_reducible exact State.Moves.refl _ _
    | exact Eq.refl true
    | with_reducible apply State.Moves.whenOf
    | with_reducible dsimp only
    | with_reducible apply State.Moves.put_hints

theorem moves_execRecordFormed (s : State) :
    outMoves [.dma, .recd, .regs] s (execRecordFormed s) := by
  unfold execRecordFormed
  repeat' first
    | with_reducible apply outMoves_within
    | with_reducible apply outMoves_onRail
    | with_reducible apply outMoves_next
    | with_reducible exact State.Moves.refl _ _
    | exact Eq.refl true
    | with_reducible apply State.Moves.step ?_ (State.moves_recordFormed ..) ?_
    | with_reducible apply State.Moves.whenOf
    | with_reducible dsimp only

theorem moves_execFreezeExpired (s : State) :
    outMoves [.dma, .recd, .regs] s (execFreezeExpired s) := by
  unfold execFreezeExpired
  repeat' first
    | with_reducible apply outMoves_within
    | with_reducible apply outMoves_onRail
    | with_reducible apply outMoves_next
    | with_reducible exact State.Moves.refl _ _
    | exact Eq.refl true
    | with_reducible apply State.Moves.step ?_ (State.moves_fire ..) ?_
    | with_reducible apply State.Moves.step ?_ (State.moves_endFreeze ..) ?_
    | with_reducible apply State.Moves.whenOf
    | with_reducible dsimp only
    | split

theorem moves_execDescriptorComplete (ch : Nat) (s : State) :
    outMoves [.dma, .regs] s (execDescriptorComplete ch s) := by
  unfold execDescriptorComplete
  repeat' first
    | with_reducible apply outMoves_within
    | with_reducible apply outMoves_onRail
    | with_reducible apply outMoves_onChannel
    | with_reducible apply outMoves_next
    | with_reducible exact State.Moves.refl _ _
    | exact Eq.refl true
    | with_reducible apply State.Moves.step ?_ (State.moves_descComplete ..) ?_
    | with_reducible dsimp only

theorem moves_execDescriptorFetch (ch : Nat) (s : State) :
    outMoves [.cg, .dict, .dma, .regs] s (execDescriptorFetch ch s) := by
  unfold execDescriptorFetch
  repeat' first
    | with_reducible apply outMoves_within
    | with_reducible apply outMoves_onRail
    | with_reducible apply outMoves_onChannel
    | with_reducible apply outMoves_next
    | with_reducible exact State.Moves.refl _ _
    | exact Eq.refl true
    | with_reducible apply State.Moves.step ?_ (State.moves_descFetched ..) ?_
    | with_reducible dsimp only

theorem moves_execOwnPoll (ch : Nat) (s : State) :
    outMoves [.dma, .regs] s (execOwnPoll ch s) := by
  unfold execOwnPoll
  repeat' first
    | with_reducible apply outMoves_within
    | with_reducible apply outMoves_onRail
    | with_reducible apply outMoves_onChannel
    | with_reducible apply outMoves_next
    | with_reducible exact State.Moves.refl _ _
    | exact Eq.refl true
    | with_reducible apply State.Moves.step ?_ (State.moves_fetchDesc ..) ?_
    | with_reducible apply State.Moves.whenOf
    | with_reducible dsimp only

theorem moves_execPaceTimeout (ch : Nat) (s : State) :
    outMoves [.dma] s (execPaceTimeout ch s) := by
  unfold execPaceTimeout
  repeat' first
    | with_reducible apply outMoves_within
    | with_reducible apply outMoves_onRail
    | with_reducible apply outMoves_onChannel
    | with_reducible apply outMoves_next
    | with_reducible exact State.Moves.refl _ _
    | exact Eq.refl true
    | with_reducible apply State.Moves.step ?_ (State.moves_dataFault ..) ?_
    | with_reducible apply State.Moves.whenOf
    | with_reducible dsimp only

theorem moves_execDmaBurst (ch : Nat) (holdOk : Bool) (s : State) :
    outMoves [.blk, .telem, .learn, .cg, .dma, .regs] s (execDmaBurst ch s holdOk) := by
  unfold execDmaBurst
  repeat' first
    | with_reducible apply outMoves_within
    | with_reducible apply outMoves_onRail
    | with_reducible apply outMoves_onChannel
    | with_reducible apply outMoves_next
    | with_reducible exact State.Moves.refl _ _
    | exact Eq.refl true
    | with_reducible apply State.Moves.step ?_ (State.moves_dmaBurst ..) ?_
    | with_reducible dsimp only

theorem moves_execStSweepEnd (s : State) :
    outMoves [.dma] s (execStSweepEnd s) := by
  unfold execStSweepEnd
  repeat' first
    | with_reducible apply outMoves_within
    | with_reducible apply outMoves_onRail
    | with_reducible apply outMoves_next
    | with_reducible exact State.Moves.refl _ _
    | exact Eq.refl true
    | with_reducible apply State.Moves.ite
    | with_reducible apply State.Moves.step ?_ (State.moves_modDmaCh ..) ?_
    | with_reducible apply State.Moves.step ?_ (State.moves_modTab ..) ?_
    | with_reducible apply State.Moves.whenOf
    | with_reducible apply State.Moves.ite
    | with_reducible dsimp only

theorem moves_execStWritebackDue (i : Nat) (s : State) :
    outMoves [.dma, .regs] s (execStWritebackDue i s) := by
  unfold execStWritebackDue
  repeat' first
    | with_reducible apply outMoves_within
    | with_reducible apply outMoves_onRail
    | with_reducible apply outMoves_onString
    | with_reducible apply outMoves_next
    | with_reducible exact State.Moves.refl _ _
    | exact Eq.refl true
    | with_reducible apply State.Moves.step ?_ (State.moves_stWrite ..) ?_
    | with_reducible apply State.Moves.whenOf
    | with_reducible dsimp only
    | split

theorem moves_execStCacheParity (i : Nat) (s : State) :
    outMoves [.blk, .dma, .recd, .regs] s (execStCacheParity i s) := by
  unfold execStCacheParity
  repeat' first
    | with_reducible apply outMoves_within
    | with_reducible apply outMoves_onRail
    | with_reducible apply outMoves_onString
    | with_reducible apply outMoves_next
    | with_reducible exact State.Moves.refl _ _
    | exact Eq.refl true
    | with_reducible apply State.Moves.step ?_ (State.moves_modTab ..) ?_
    | with_reducible apply State.Moves.step ?_ (State.moves_stFetch ..) ?_
    | with_reducible apply State.Moves.step ?_ (State.moves_fire ..) ?_
    | with_reducible apply State.Moves.step ?_ (State.moves_count ..) ?_
    | with_reducible apply State.Moves.step ?_ (State.moves_parityError ..) ?_
    | with_reducible dsimp only
    | split

theorem moves_execConversionResult (n : Nat) (nv : Int) (parityOk : Bool) (storeOk : Bool) (s : State) :
    outMoves [.blk, .regions, .strings, .courses, .cap, .convs, .cg, .dma, .recd, .regs] s (execConversionResult n nv parityOk s storeOk) := by
  unfold execConversionResult
  repeat' first
    | with_reducible apply outMoves_within
    | with_reducible apply outMoves_onRail
    | with_reducible apply outMoves_onConv
    | with_reducible apply outMoves_next
    | with_reducible exact State.Moves.refl _ _
    | exact Eq.refl true
    | with_reducible apply State.Moves.step ?_ (State.moves_conversionResult ..) ?_
    | with_reducible apply State.Moves.step ?_ (State.moves_correctionParity ..) ?_
    | with_reducible apply State.Moves.whenOf
    | with_reducible dsimp only

theorem moves_execMemoryWriteResponse (id : Nat) (err : Bool) (s : State) :
    outMoves [.cg, .dict, .dma, .recd, .regs] s (execMemoryWriteResponse id err s) := by
  unfold execMemoryWriteResponse
  repeat' first
    | with_reducible apply outMoves_within
    | with_reducible apply outMoves_onRail
    | with_reducible apply outMoves_onTxn
    | with_reducible apply outMoves_next
    | with_reducible exact State.Moves.refl _ _
    | exact Eq.refl true
    | with_reducible apply State.Moves.step ?_ (State.moves_writeResponse ..) ?_
    | with_reducible dsimp only

theorem moves_execMemoryReadBeat (id : Nat) (data : List Byte) (parityOk : Bool) (last : Bool) (err : Bool) (s : State) :
    outMoves [.blk, .cg, .dict, .dma, .recd, .regs] s (execMemoryReadBeat id data parityOk last err s) := by
  unfold execMemoryReadBeat
  repeat' first
    | with_reducible apply outMoves_within
    | with_reducible apply outMoves_onRail
    | with_reducible apply outMoves_onTxn
    | with_reducible apply outMoves_next
    | with_reducible exact State.Moves.refl _ _
    | exact Eq.refl true
    | with_reducible apply State.Moves.step ?_ (State.moves_readBeat ..) ?_
    | with_reducible dsimp only

theorem moves_execMemoryTimeout (id : Nat) (s : State) :
    outMoves [.cg, .dict, .dma, .recd, .regs] s (execMemoryTimeout id s) := by
  unfold execMemoryTimeout
  repeat' first
    | with_reducible apply outMoves_within
    | with_reducible apply outMoves_onRail
    | with_reducible apply outMoves_onTxn
    | with_reducible apply outMoves_next
    | with_reducible exact State.Moves.refl _ _
    | exact Eq.refl true
    | with_reducible apply State.Moves.step ?_ (State.moves_issueWaiting ..) ?_
    | with_reducible apply State.Moves.step ?_ (State.moves_txnFault ..) ?_
    | with_reducible apply State.Moves.whenOf
    | with_reducible dsimp only
    | split

theorem moves_execBlockCmdShutdown (p : Path) (sess : Nat) (s : State) :
    outMoves [.blk, .st, .rails, .regions, .strings, .courses, .chans, .eng, .cap, .hints, .learn, .therm, .convs, .cg, .dict, .dma, .recd, .regs] s (execBlockCmdShutdown p sess s) := by
  unfold execBlockCmdShutdown
  repeat' first
    | with_reducible apply outMoves_within
    | with_reducible apply outMoves_onRail
    | with_reducible apply outMoves_next
    | with_reducible exact State.Moves.refl _ _
    | exact Eq.refl true
    | with_reducible apply State.Moves.step ?_ (State.moves_putNum ..) ?_
    | with_reducible dsimp only

theorem moves_execBlockCmdStart (p : Path) (sess : Nat) (s : State) :
    outMoves [.blk, .st, .rails, .regions, .strings, .courses, .chans, .eng, .cap, .hints, .learn, .therm, .convs, .cg, .dict, .dma, .recd, .regs] s (execBlockCmdStart p sess s) := by
  unfold execBlockCmdStart
  repeat' first
    | with_reducible apply outMoves_within
    | with_reducible apply outMoves_onRail
    | with_reducible apply outMoves_next
    | with_reducible exact State.Moves.refl _ _
    | exact Eq.refl true
    | with_reducible apply State.Moves.step ?_ (State.moves_putNum ..) ?_
    | with_reducible dsimp only

theorem moves_execServiceClear (p : Path) (sess : Nat) (mask : Nat) (s : State) :
    outMoves [.blk, .st, .rails, .regions, .strings, .courses, .chans, .eng, .cap, .hints, .learn, .therm, .convs, .cg, .dict, .dma, .recd, .regs] s (execServiceClear p sess mask s) := by
  unfold execServiceClear
  repeat' first
    | with_reducible apply outMoves_within
    | with_reducible apply outMoves_onRail
    | with_reducible apply outMoves_next
    | with_reducible exact State.Moves.refl _ _
    | exact Eq.refl true
    | with_reducible apply State.Moves.step ?_ (State.moves_putNum ..) ?_
    | with_reducible dsimp only

theorem moves_execBankSwap (p : Path) (sess : Nat) (mask : Nat) (s : State) :
    outMoves [.blk, .st, .rails, .regions, .strings, .courses, .chans, .eng, .cap, .hints, .learn, .therm, .convs, .cg, .dict, .dma, .recd, .regs] s (execBankSwap p sess mask s) := by
  unfold execBankSwap
  repeat' first
    | with_reducible apply outMoves_within
    | with_reducible apply outMoves_onRail
    | with_reducible apply outMoves_next
    | with_reducible exact State.Moves.refl _ _
    | exact Eq.refl true
    | with_reducible apply State.Moves.step ?_ (State.moves_putBytes ..) ?_
    | with_reducible dsimp only

theorem moves_execShadowWrite (p : Path) (sess : Nat) (ch : Nat) (sub : Nat) (value : Int) (s : State) :
    outMoves [.blk, .st, .rails, .regions, .strings, .courses, .chans, .eng, .cap, .hints, .learn, .therm, .convs, .cg, .dict, .dma, .recd, .regs] s (execShadowWrite p sess ch sub value s) := by
  unfold execShadowWrite
  repeat' first
    | with_reducible apply outMoves_within
    | with_reducible apply outMoves_onRail
    | with_reducible apply outMoves_next
    | with_reducible exact State.Moves.refl _ _
    | exact Eq.refl true
    | with_reducible apply State.Moves.step ?_ (State.moves_putNum ..) ?_
    | with_reducible dsimp only

theorem moves_execChFlagsClear (p : Path) (sess : Nat) (ch : Nat) (mask : Nat) (s : State) :
    outMoves [.blk, .st, .rails, .regions, .strings, .courses, .chans, .eng, .cap, .hints, .learn, .therm, .convs, .cg, .dict, .dma, .recd, .regs] s (execChFlagsClear p sess ch mask s) := by
  unfold execChFlagsClear
  repeat' first
    | with_reducible apply outMoves_within
    | with_reducible apply outMoves_onRail
    | with_reducible apply outMoves_next
    | with_reducible exact State.Moves.refl _ _
    | exact Eq.refl true
    | with_reducible apply State.Moves.step ?_ (State.moves_putNum ..) ?_
    | with_reducible dsimp only

theorem moves_execMatchedEnableWrite (p : Path) (sess : Nat) (v : Nat) (s : State) :
    outMoves [.blk, .st, .rails, .regions, .strings, .courses, .chans, .eng, .cap, .hints, .learn, .therm, .convs, .cg, .dict, .dma, .recd, .regs] s (execMatchedEnableWrite p sess v s) := by
  unfold execMatchedEnableWrite
  repeat' first
    | with_reducible apply outMoves_within
    | with_reducible apply outMoves_onRail
    | with_reducible apply outMoves_next
    | with_reducible exact State.Moves.refl _ _
    | exact Eq.refl true
    | with_reducible apply State.Moves.step ?_ (State.moves_putNum ..) ?_
    | with_reducible dsimp only

theorem moves_execCapIrqClear (p : Path) (sess : Nat) (mask : Nat) (s : State) :
    outMoves [.blk, .st, .rails, .regions, .strings, .courses, .chans, .eng, .cap, .hints, .learn, .therm, .convs, .cg, .dict, .dma, .recd, .regs] s (execCapIrqClear p sess mask s) := by
  unfold execCapIrqClear
  repeat' first
    | with_reducible apply outMoves_within
    | with_reducible apply outMoves_onRail
    | with_reducible apply outMoves_next
    | with_reducible exact State.Moves.refl _ _
    | exact Eq.refl true
    | with_reducible apply State.Moves.step ?_ (State.moves_putNum ..) ?_
    | with_reducible dsimp only

theorem moves_execHintIrqClear (p : Path) (sess : Nat) (mask : Nat) (s : State) :
    outMoves [.blk, .st, .rails, .regions, .strings, .courses, .chans, .eng, .cap, .hints, .learn, .therm, .convs, .cg, .dict, .dma, .recd, .regs] s (execHintIrqClear p sess mask s) := by
  unfold execHintIrqClear
  repeat' first
    | with_reducible apply outMoves_within
    | with_reducible apply outMoves_onRail
    | with_reducible apply outMoves_next
    | with_reducible exact State.Moves.refl _ _
    | exact Eq.refl true
    | with_reducible apply State.Moves.step ?_ (State.moves_putNum ..) ?_
    | with_reducible dsimp only

theorem moves_execHintEntriesMaxRead (p : Path) (sess : Nat) (s : State) :
    outMoves [.blk, .st, .rails, .regions, .strings, .courses, .chans, .eng, .cap, .hints, .learn, .therm, .convs, .cg, .dict, .dma, .recd, .regs] s (execHintEntriesMaxRead p sess s) := by
  unfold execHintEntriesMaxRead
  repeat' first
    | with_reducible apply outMoves_within
    | with_reducible apply outMoves_onRail
    | with_reducible apply outMoves_next
    | with_reducible exact State.Moves.refl _ _
    | exact Eq.refl true
    | with_reducible apply State.Moves.step ?_ (State.moves_getObj ..) ?_
    | with_reducible dsimp only

theorem moves_execGroupEtaWrite (p : Path) (sess : Nat) (g : Nat) (v : Int) (s : State) :
    outMoves [.blk, .st, .rails, .regions, .strings, .courses, .chans, .eng, .cap, .hints, .learn, .therm, .convs, .cg, .dict, .dma, .recd, .regs] s (execGroupEtaWrite p sess g v s) := by
  unfold execGroupEtaWrite
  repeat' first
    | with_reducible apply outMoves_within
    | with_reducible apply outMoves_onRail
    | with_reducible apply outMoves_next
    | with_reducible exact State.Moves.refl _ _
    | exact Eq.refl true
    | with_reducible apply State.Moves.step ?_ (State.moves_putNum ..) ?_
    | with_reducible dsimp only

theorem moves_execGroupFrozenWrite (p : Path) (sess : Nat) (g : Nat) (v : Nat) (s : State) :
    outMoves [.blk, .st, .rails, .regions, .strings, .courses, .chans, .eng, .cap, .hints, .learn, .therm, .convs, .cg, .dict, .dma, .recd, .regs] s (execGroupFrozenWrite p sess g v s) := by
  unfold execGroupFrozenWrite
  repeat' first
    | with_reducible apply outMoves_within
    | with_reducible apply outMoves_onRail
    | with_reducible apply outMoves_next
    | with_reducible exact State.Moves.refl _ _
    | exact Eq.refl true
    | with_reducible apply State.Moves.step ?_ (State.moves_putNum ..) ?_
    | with_reducible dsimp only

theorem moves_execSlotApply (p : Path) (sess : Nat) (slot : Nat) (s : State) :
    outMoves [.blk, .st, .rails, .regions, .strings, .courses, .chans, .eng, .cap, .hints, .learn, .therm, .convs, .cg, .dict, .dma, .recd, .regs] s (execSlotApply p sess slot s) := by
  unfold execSlotApply
  repeat' first
    | with_reducible apply outMoves_within
    | with_reducible apply outMoves_onRail
    | with_reducible apply outMoves_next
    | with_reducible exact State.Moves.refl _ _
    | exact Eq.refl true
    | with_reducible apply State.Moves.step ?_ (State.moves_putNum ..) ?_
    | with_reducible dsimp only

theorem moves_execShardHalt (p : Path) (sess : Nat) (k : Nat) (s : State) :
    outMoves [.blk, .st, .rails, .regions, .strings, .courses, .chans, .eng, .cap, .hints, .learn, .therm, .convs, .cg, .dict, .dma, .recd, .regs] s (execShardHalt p sess k s) := by
  unfold execShardHalt
  repeat' first
    | with_reducible apply outMoves_within
    | with_reducible apply outMoves_onRail
    | with_reducible apply outMoves_next
    | with_reducible exact State.Moves.refl _ _
    | exact Eq.refl true
    | with_reducible apply State.Moves.step ?_ (State.moves_putNum ..) ?_
    | with_reducible dsimp only

theorem moves_execShardResume (p : Path) (sess : Nat) (k : Nat) (s : State) :
    outMoves [.blk, .st, .rails, .regions, .strings, .courses, .chans, .eng, .cap, .hints, .learn, .therm, .convs, .cg, .dict, .dma, .recd, .regs] s (execShardResume p sess k s) := by
  unfold execShardResume
  repeat' first
    | with_reducible apply outMoves_within
    | with_reducible apply outMoves_onRail
    | with_reducible apply outMoves_next
    | with_reducible exact State.Moves.refl _ _
    | exact Eq.refl true
    | with_reducible apply State.Moves.step ?_ (State.moves_putNum ..) ?_
    | with_reducible dsimp only

theorem moves_execShardExport (p : Path) (sess : Nat) (k : Nat) (s : State) :
    outMoves [.blk, .st, .rails, .regions, .strings, .courses, .chans, .eng, .cap, .hints, .learn, .therm, .convs, .cg, .dict, .dma, .recd, .regs] s (execShardExport p sess k s) := by
  unfold execShardExport
  repeat' first
    | with_reducible apply outMoves_within
    | with_reducible apply outMoves_onRail
    | with_reducible apply outMoves_next
    | with_reducible exact State.Moves.refl _ _
    | exact Eq.refl true
    | with_reducible apply State.Moves.step ?_ (State.moves_putNum ..) ?_
    | with_reducible dsimp only

theorem moves_execShardImport (p : Path) (sess : Nat) (k : Nat) (s : State) :
    outMoves [.blk, .st, .rails, .regions, .strings, .courses, .chans, .eng, .cap, .hints, .learn, .therm, .convs, .cg, .dict, .dma, .recd, .regs] s (execShardImport p sess k s) := by
  unfold execShardImport
  repeat' first
    | with_reducible apply outMoves_within
    | with_reducible apply outMoves_onRail
    | with_reducible apply outMoves_next
    | with_reducible exact State.Moves.refl _ _
    | exact Eq.refl true
    | with_reducible apply State.Moves.step ?_ (State.moves_putNum ..) ?_
    | with_reducible dsimp only

theorem moves_execLearnCellWrite (p : Path) (sess : Nat) (rec : List Byte) (s : State) :
    outMoves [.blk, .st, .rails, .regions, .strings, .courses, .chans, .eng, .cap, .hints, .learn, .therm, .convs, .cg, .dict, .dma, .recd, .regs] s (execLearnCellWrite p sess rec s) := by
  unfold execLearnCellWrite
  repeat' first
    | with_reducible apply outMoves_within
    | with_reducible apply outMoves_onRail
    | with_reducible apply outMoves_next
    | with_reducible exact State.Moves.refl _ _
    | exact Eq.refl true
    | with_reducible apply State.Moves.step ?_ (State.moves_putBytes ..) ?_
    | with_reducible dsimp only

theorem moves_execLearnIrqClear (p : Path) (sess : Nat) (mask : Nat) (s : State) :
    outMoves [.blk, .st, .rails, .regions, .strings, .courses, .chans, .eng, .cap, .hints, .learn, .therm, .convs, .cg, .dict, .dma, .recd, .regs] s (execLearnIrqClear p sess mask s) := by
  unfold execLearnIrqClear
  repeat' first
    | with_reducible apply outMoves_within
    | with_reducible apply outMoves_onRail
    | with_reducible apply outMoves_next
    | with_reducible exact State.Moves.refl _ _
    | exact Eq.refl true
    | with_reducible apply State.Moves.step ?_ (State.moves_putNum ..) ?_
    | with_reducible dsimp only

theorem moves_execDiodeClear (p : Path) (sess : Nat) (mask : Nat) (s : State) :
    outMoves [.blk, .st, .rails, .regions, .strings, .courses, .chans, .eng, .cap, .hints, .learn, .therm, .convs, .cg, .dict, .dma, .recd, .regs] s (execDiodeClear p sess mask s) := by
  unfold execDiodeClear
  repeat' first
    | with_reducible apply outMoves_within
    | with_reducible apply outMoves_onRail
    | with_reducible apply outMoves_next
    | with_reducible exact State.Moves.refl _ _
    | exact Eq.refl true
    | with_reducible apply State.Moves.step ?_ (State.moves_putBytes ..) ?_
    | with_reducible dsimp only

theorem moves_execDiodeForceWrite (p : Path) (sess : Nat) (mask : Nat) (s : State) :
    outMoves [.blk, .st, .rails, .regions, .strings, .courses, .chans, .eng, .cap, .hints, .learn, .therm, .convs, .cg, .dict, .dma, .recd, .regs] s (execDiodeForceWrite p sess mask s) := by
  unfold execDiodeForceWrite
  repeat' first
    | with_reducible apply outMoves_within
    | with_reducible apply outMoves_onRail
    | with_reducible apply outMoves_next
    | with_reducible exact State.Moves.refl _ _
    | exact Eq.refl true
    | with_reducible apply State.Moves.step ?_ (State.moves_putBytes ..) ?_
    | with_reducible dsimp only

theorem moves_execThermalIrqClear (p : Path) (sess : Nat) (mask : Nat) (s : State) :
    outMoves [.blk, .st, .rails, .regions, .strings, .courses, .chans, .eng, .cap, .hints, .learn, .therm, .convs, .cg, .dict, .dma, .recd, .regs] s (execThermalIrqClear p sess mask s) := by
  unfold execThermalIrqClear
  repeat' first
    | with_reducible apply outMoves_within
    | with_reducible apply outMoves_onRail
    | with_reducible apply outMoves_next
    | with_reducible exact State.Moves.refl _ _
    | exact Eq.refl true
    | with_reducible apply State.Moves.step ?_ (State.moves_putNum ..) ?_
    | with_reducible dsimp only

theorem moves_execPickupClear (p : Path) (sess : Nat) (r : Nat) (mask : Nat) (s : State) :
    outMoves [.blk, .st, .rails, .regions, .strings, .courses, .chans, .eng, .cap, .hints, .learn, .therm, .convs, .cg, .dict, .dma, .recd, .regs] s (execPickupClear p sess r mask s) := by
  unfold execPickupClear
  repeat' first
    | with_reducible apply outMoves_within
    | with_reducible apply outMoves_onRail
    | with_reducible apply outMoves_next
    | with_reducible exact State.Moves.refl _ _
    | exact Eq.refl true
    | with_reducible apply State.Moves.step ?_ (State.moves_putNum ..) ?_
    | with_reducible dsimp only

theorem moves_execPickupForceWrite (p : Path) (sess : Nat) (r : Nat) (mask : Nat) (s : State) :
    outMoves [.blk, .st, .rails, .regions, .strings, .courses, .chans, .eng, .cap, .hints, .learn, .therm, .convs, .cg, .dict, .dma, .recd, .regs] s (execPickupForceWrite p sess r mask s) := by
  unfold execPickupForceWrite
  repeat' first
    | with_reducible apply outMoves_within
    | with_reducible apply outMoves_onRail
    | with_reducible apply outMoves_next
    | with_reducible exact State.Moves.refl _ _
    | exact Eq.refl true
    | with_reducible apply State.Moves.step ?_ (State.moves_putNum ..) ?_
    | with_reducible dsimp only

theorem moves_execSyncArmSingle (p : Path) (sess : Nat) (s : State) :
    outMoves [.blk, .st, .rails, .regions, .strings, .courses, .chans, .eng, .cap, .hints, .learn, .therm, .convs, .cg, .dict, .dma, .recd, .regs] s (execSyncArmSingle p sess s) := by
  unfold execSyncArmSingle
  repeat' first
    | with_reducible apply outMoves_within
    | with_reducible apply outMoves_onRail
    | with_reducible apply outMoves_next
    | with_reducible exact State.Moves.refl _ _
    | exact Eq.refl true
    | with_reducible apply State.Moves.step ?_ (State.moves_putNum ..) ?_
    | with_reducible dsimp only

theorem moves_execSyncArmSweeps (p : Path) (sess : Nat) (s : State) :
    outMoves [.blk, .st, .rails, .regions, .strings, .courses, .chans, .eng, .cap, .hints, .learn, .therm, .convs, .cg, .dict, .dma, .recd, .regs] s (execSyncArmSweeps p sess s) := by
  unfold execSyncArmSweeps
  repeat' first
    | with_reducible apply outMoves_within
    | with_reducible apply outMoves_onRail
    | with_reducible apply outMoves_next
    | with_reducible exact State.Moves.refl _ _
    | exact Eq.refl true
    | with_reducible apply State.Moves.step ?_ (State.moves_putNum ..) ?_
    | with_reducible dsimp only

theorem moves_execSyncCancel (p : Path) (sess : Nat) (s : State) :
    outMoves [.blk, .st, .rails, .regions, .strings, .courses, .chans, .eng, .cap, .hints, .learn, .therm, .convs, .cg, .dict, .dma, .recd, .regs] s (execSyncCancel p sess s) := by
  unfold execSyncCancel
  repeat' first
    | with_reducible apply outMoves_within
    | with_reducible apply outMoves_onRail
    | with_reducible apply outMoves_next
    | with_reducible exact State.Moves.refl _ _
    | exact Eq.refl true
    | with_reducible apply State.Moves.step ?_ (State.moves_putNum ..) ?_
    | with_reducible dsimp only

theorem moves_execConvUrgent (p : Path) (sess : Nat) (n : Nat) (v : Nat) (s : State) :
    outMoves [.blk, .st, .rails, .regions, .strings, .courses, .chans, .eng, .cap, .hints, .learn, .therm, .convs, .cg, .dict, .dma, .recd, .regs] s (execConvUrgent p sess n v s) := by
  unfold execConvUrgent
  repeat' first
    | with_reducible apply outMoves_within
    | with_reducible apply outMoves_onRail
    | with_reducible apply outMoves_next
    | with_reducible exact State.Moves.refl _ _
    | exact Eq.refl true
    | with_reducible apply State.Moves.step ?_ (State.moves_putNum ..) ?_
    | with_reducible dsimp only

theorem moves_execConvTableWrite (p : Path) (sess : Nat) (n : Nat) (t : TableObj) (data : List Byte) (s : State) :
    outMoves [.blk, .st, .rails, .regions, .strings, .courses, .chans, .eng, .cap, .hints, .learn, .therm, .convs, .cg, .dict, .dma, .recd, .regs] s (execConvTableWrite p sess n t data s) := by
  unfold execConvTableWrite
  repeat' first
    | with_reducible apply outMoves_within
    | with_reducible apply outMoves_onRail
    | with_reducible apply outMoves_next
    | with_reducible exact State.Moves.refl _ _
    | exact Eq.refl true
    | with_reducible apply State.Moves.step ?_ (State.moves_putBytes ..) ?_
    | with_reducible dsimp only

theorem moves_execStringCmdMute (p : Path) (sess : Nat) (i : Nat) (s : State) :
    outMoves [.blk, .st, .rails, .regions, .strings, .courses, .chans, .eng, .cap, .hints, .learn, .therm, .convs, .cg, .dict, .dma, .recd, .regs] s (execStringCmdMute p sess i s) := by
  unfold execStringCmdMute
  repeat' first
    | with_reducible apply outMoves_within
    | with_reducible apply outMoves_onRail
    | with_reducible apply outMoves_next
    | with_reducible exact State.Moves.refl _ _
    | exact Eq.refl true
    | with_reducible apply State.Moves.step ?_ (State.moves_putNum ..) ?_
    | with_reducible dsimp only

theorem moves_execStringCmdReturn (p : Path) (sess : Nat) (i : Nat) (s : State) :
    outMoves [.blk, .st, .rails, .regions, .strings, .courses, .chans, .eng, .cap, .hints, .learn, .therm, .convs, .cg, .dict, .dma, .recd, .regs] s (execStringCmdReturn p sess i s) := by
  unfold execStringCmdReturn
  repeat' first
    | with_reducible apply outMoves_within
    | with_reducible apply outMoves_onRail
    | with_reducible apply outMoves_next
    | with_reducible exact State.Moves.refl _ _
    | exact Eq.refl true
    | with_reducible apply State.Moves.step ?_ (State.moves_putNum ..) ?_
    | with_reducible dsimp only

theorem moves_execStringCmdSetBlind (p : Path) (sess : Nat) (i : Nat) (s : State) :
    outMoves [.blk, .st, .rails, .regions, .strings, .courses, .chans, .eng, .cap, .hints, .learn, .therm, .convs, .cg, .dict, .dma, .recd, .regs] s (execStringCmdSetBlind p sess i s) := by
  unfold execStringCmdSetBlind
  repeat' first
    | with_reducible apply outMoves_within
    | with_reducible apply outMoves_onRail
    | with_reducible apply outMoves_next
    | with_reducible exact State.Moves.refl _ _
    | exact Eq.refl true
    | with_reducible apply State.Moves.step ?_ (State.moves_putNum ..) ?_
    | with_reducible dsimp only

theorem moves_execStringCmdClearBlind (p : Path) (sess : Nat) (i : Nat) (s : State) :
    outMoves [.blk, .st, .rails, .regions, .strings, .courses, .chans, .eng, .cap, .hints, .learn, .therm, .convs, .cg, .dict, .dma, .recd, .regs] s (execStringCmdClearBlind p sess i s) := by
  unfold execStringCmdClearBlind
  repeat' first
    | with_reducible apply outMoves_within
    | with_reducible apply outMoves_onRail
    | with_reducible apply outMoves_next
    | with_reducible exact State.Moves.refl _ _
    | exact Eq.refl true
    | with_reducible apply State.Moves.step ?_ (State.moves_putNum ..) ?_
    | with_reducible dsimp only

theorem moves_execOpen (p : Path) (sess : Nat) (s : State) :
    outMoves [.blk, .st, .rails, .regions, .strings, .courses, .chans, .eng, .cap, .hints, .learn, .therm, .convs, .cg, .dict, .dma, .recd, .regs] s (execOpen p sess s) := by
  unfold execOpen
  repeat' first
    | with_reducible apply outMoves_within
    | with_reducible apply outMoves_onRail
    | with_reducible apply outMoves_next
    | with_reducible exact State.Moves.refl _ _
    | exact Eq.refl true
    | with_reducible apply State.Moves.step ?_ (State.moves_request ..) ?_
    | with_reducible dsimp only

theorem moves_execClose (p : Path) (sess : Nat) (s : State) :
    outMoves [.blk, .st, .rails, .regions, .strings, .courses, .chans, .eng, .cap, .hints, .learn, .therm, .convs, .cg, .dict, .dma, .recd, .regs] s (execClose p sess s) := by
  unfold execClose
  repeat' first
    | with_reducible apply outMoves_within
    | with_reducible apply outMoves_onRail
    | with_reducible apply outMoves_next
    | with_reducible exact State.Moves.refl _ _
    | exact Eq.refl true
    | with_reducible apply State.Moves.step ?_ (State.moves_request ..) ?_
    | with_reducible dsimp only

theorem moves_execRead (p : Path) (sess : Nat) (idx : Nat) (sub : Nat) (off : Nat) (s : State) :
    outMoves [.blk, .st, .rails, .regions, .strings, .courses, .chans, .eng, .cap, .hints, .learn, .therm, .convs, .cg, .dict, .dma, .recd, .regs] s (execRead p sess idx sub off s) := by
  unfold execRead
  repeat' first
    | with_reducible apply outMoves_within
    | with_reducible apply outMoves_onRail
    | with_reducible apply outMoves_next
    | with_reducible exact State.Moves.refl _ _
    | exact Eq.refl true
    | with_reducible apply State.Moves.step ?_ (State.moves_request ..) ?_
    | with_reducible dsimp only

theorem moves_execWrite (p : Path) (sess : Nat) (idx : Nat) (sub : Nat) (flags : Nat) (off : Nat) (data : List Byte) (s : State) :
    outMoves [.blk, .st, .rails, .regions, .strings, .courses, .chans, .eng, .cap, .hints, .learn, .therm, .convs, .cg, .dict, .dma, .recd, .regs] s (execWrite p sess idx sub flags off data s) := by
  unfold execWrite
  repeat' first
    | with_reducible apply outMoves_within
    | with_reducible apply outMoves_onRail
    | with_reducible apply outMoves_next
    | with_reducible exact State.Moves.refl _ _
    | exact Eq.refl true
    | with_reducible apply State.Moves.step ?_ (State.moves_request ..) ?_
    | with_reducible dsimp only

theorem moves_execRegisterWrite (p : Path) (sess : Nat) (idx : Nat) (sub : Nat) (v : Int) (s : State) :
    outMoves [.blk, .st, .rails, .regions, .strings, .courses, .chans, .eng, .cap, .hints, .learn, .therm, .convs, .cg, .dict, .dma, .recd, .regs] s (execRegisterWrite p sess idx sub v s) := by
  unfold execRegisterWrite
  repeat' first
    | with_reducible apply outMoves_within
    | with_reducible apply outMoves_onRail
    | with_reducible apply outMoves_next
    | with_reducible exact State.Moves.refl _ _
    | exact Eq.refl true
    | with_reducible apply State.Moves.step ?_ (State.moves_putNum ..) ?_
    | with_reducible dsimp only

theorem moves_execSessionExpiry (slot : Nat) (s : State) :
    outMoves [.dict, .regs] s (execSessionExpiry slot s) := by
  unfold execSessionExpiry
  repeat' first
    | with_reducible apply outMoves_within
    | with_reducible apply outMoves_onRail
    | with_reducible apply outMoves_next
    | with_reducible exact State.Moves.refl _ _
    | exact Eq.refl true
    | with_reducible apply State.Moves.step ?_ (State.moves_count ..) ?_
    | with_reducible apply State.Moves.step ?_ (State.moves_closeSession ..) ?_
    | with_reducible apply State.Moves.whenOf
    | with_reducible dsimp only

theorem moves_execCommit (p : Path) (sess : Nat) (mask : Nat) (s : State) :
    outMoves [.blk, .st, .rails, .regions, .strings, .courses, .chans, .eng, .cap, .hints, .learn, .therm, .convs, .cg, .dict, .dma, .recd, .regs] s (execCommit p sess mask s) := by
  unfold execCommit
  repeat' first
    | with_reducible apply outMoves_within
    | with_reducible apply outMoves_onRail
    | with_reducible apply outMoves_next
    | with_reducible exact State.Moves.refl _ _
    | exact Eq.refl true
    | with_reducible apply State.Moves.step ?_ (State.moves_putNum ..) ?_
    | with_reducible dsimp only

theorem moves_execCommitDiscard (p : Path) (sess : Nat) (mask : Nat) (s : State) :
    outMoves [.blk, .st, .rails, .regions, .strings, .courses, .chans, .eng, .cap, .hints, .learn, .therm, .convs, .cg, .dict, .dma, .recd, .regs] s (execCommitDiscard p sess mask s) := by
  unfold execCommitDiscard
  repeat' first
    | with_reducible apply outMoves_within
    | with_reducible apply outMoves_onRail
    | with_reducible apply outMoves_next
    | with_reducible exact State.Moves.refl _ _
    | exact Eq.refl true
    | with_reducible apply State.Moves.step ?_ (State.moves_putNum ..) ?_
    | with_reducible dsimp only

theorem moves_execCommitGroupTaken (g : Nat) (s : State) :
    outMoves [.rails, .regions, .eng, .used, .telem, .dict] s (execCommitGroupTaken g s) := by
  unfold execCommitGroupTaken
  repeat' first
    | with_reducible apply outMoves_within
    | with_reducible apply outMoves_onRail
    | with_reducible apply outMoves_next
    | with_reducible exact State.Moves.refl _ _
    | exact Eq.refl true
    | with_reducible apply State.Moves.step ?_ (State.moves_groupTaken ..) ?_
    | with_reducible apply State.Moves.whenOf
    | with_reducible dsimp only

theorem moves_execKeeperChallenge (p : Path) (sess : Nat) (s : State) :
    outMoves [.blk, .st, .rails, .regions, .strings, .courses, .chans, .eng, .cap, .hints, .learn, .therm, .convs, .cg, .dict, .dma, .recd, .regs] s (execKeeperChallenge p sess s) := by
  unfold execKeeperChallenge
  repeat' first
    | with_reducible apply outMoves_within
    | with_reducible apply outMoves_onRail
    | with_reducible apply outMoves_next
    | with_reducible exact State.Moves.refl _ _
    | exact Eq.refl true
    | with_reducible apply State.Moves.step ?_ (State.moves_getObj ..) ?_
    | with_reducible dsimp only

theorem moves_execKeeperResponse (p : Path) (sess : Nat) (resp : List Byte) (s : State) :
    outMoves [.blk, .st, .rails, .regions, .strings, .courses, .chans, .eng, .cap, .hints, .learn, .therm, .convs, .cg, .dict, .dma, .recd, .regs] s (execKeeperResponse p sess resp s) := by
  unfold execKeeperResponse
  repeat' first
    | with_reducible apply outMoves_within
    | with_reducible apply outMoves_onRail
    | with_reducible apply outMoves_next
    | with_reducible exact State.Moves.refl _ _
    | exact Eq.refl true
    | with_reducible apply State.Moves.step ?_ (State.moves_putBytes ..) ?_
    | with_reducible dsimp only

theorem moves_execChallengeLapse (slot : Nat) (s : State) :
    outMoves [.dict] s (execChallengeLapse slot s) := by
  unfold execChallengeLapse
  repeat' first
    | with_reducible apply outMoves_within
    | with_reducible apply outMoves_onRail
    | with_reducible apply outMoves_next
    | with_reducible exact State.Moves.refl _ _
    | exact Eq.refl true
    | with_reducible apply State.Moves.step ?_ (State.moves_modSession ..) ?_
    | with_reducible apply State.Moves.whenOf
    | with_reducible dsimp only
    | split

theorem moves_execKeeperLockoutEnd (s : State) :
    outMoves [.dict] s (execKeeperLockoutEnd s) := by
  unfold execKeeperLockoutEnd
  repeat' first
    | with_reducible apply outMoves_within
    | with_reducible apply outMoves_onRail
    | with_reducible apply outMoves_next
    | with_reducible exact State.Moves.refl _ _
    | exact Eq.refl true
    | with_reducible apply State.Moves.whenOf
    | with_reducible dsimp only
    | split
    | with_reducible apply State.Moves.put_dict

theorem moves_execKeeperDrop (p : Path) (sess : Nat) (s : State) :
    outMoves [.blk, .st, .rails, .regions, .strings, .courses, .chans, .eng, .cap, .hints, .learn, .therm, .convs, .cg, .dict, .dma, .recd, .regs] s (execKeeperDrop p sess s) := by
  unfold execKeeperDrop
  repeat' first
    | with_reducible apply outMoves_within
    | with_reducible apply outMoves_onRail
    | with_reducible apply outMoves_next
    | with_reducible exact State.Moves.refl _ _
    | exact Eq.refl true
    | with_reducible apply State.Moves.step ?_ (State.moves_putNum ..) ?_
    | with_reducible dsimp only

theorem moves_execSessionEvict (p : Path) (sess : Nat) (slot : Nat) (s : State) :
    outMoves [.blk, .st, .rails, .regions, .strings, .courses, .chans, .eng, .cap, .hints, .learn, .therm, .convs, .cg, .dict, .dma, .recd, .regs] s (execSessionEvict p sess slot s) := by
  unfold execSessionEvict
  repeat' first
    | with_reducible apply outMoves_within
    | with_reducible apply outMoves_onRail
    | with_reducible apply outMoves_next
    | with_reducible exact State.Moves.refl _ _
    | exact Eq.refl true
    | with_reducible apply State.Moves.step ?_ (State.moves_putNum ..) ?_
    | with_reducible dsimp only

theorem moves_execDmaStart (p : Path) (sess : Nat) (ch : Nat) (s : State) :
    outMoves [.blk, .st, .rails, .regions, .strings, .courses, .chans, .eng, .cap, .hints, .learn, .therm, .convs, .cg, .dict, .dma, .recd, .regs] s (execDmaStart p sess ch s) := by
  unfold execDmaStart
  repeat' first
    | with_reducible apply outMoves_within
    | with_reducible apply outMoves_onRail
    | with_reducible apply outMoves_next
    | with_reducible exact State.Moves.refl _ _
    | exact Eq.refl true
    | with_reducible apply State.Moves.step ?_ (State.moves_putNum ..) ?_
    | with_reducible dsimp only

theorem moves_execDmaAbort (p : Path) (sess : Nat) (ch : Nat) (s : State) :
    outMoves [.blk, .st, .rails, .regions, .strings, .courses, .chans, .eng, .cap, .hints, .learn, .therm, .convs, .cg, .dict, .dma, .recd, .regs] s (execDmaAbort p sess ch s) := by
  unfold execDmaAbort
  repeat' first
    | with_reducible apply outMoves_within
    | with_reducible apply outMoves_onRail
    | with_reducible apply outMoves_next
    | with_reducible exact State.Moves.refl _ _
    | exact Eq.refl true
    | with_reducible apply State.Moves.step ?_ (State.moves_putNum ..) ?_
    | with_reducible dsimp only

theorem moves_execDmaKick (p : Path) (sess : Nat) (ch : Nat) (s : State) :
    outMoves [.blk, .st, .rails, .regions, .strings, .courses, .chans, .eng, .cap, .hints, .learn, .therm, .convs, .cg, .dict, .dma, .recd, .regs] s (execDmaKick p sess ch s) := by
  unfold execDmaKick
  repeat' first
    | with_reducible apply outMoves_within
    | with_reducible apply outMoves_onRail
    | with_reducible apply outMoves_next
    | with_reducible exact State.Moves.refl _ _
    | exact Eq.refl true
    | with_reducible apply State.Moves.step ?_ (State.moves_putNum ..) ?_
    | with_reducible dsimp only

theorem moves_execDmaIrqClear (p : Path) (sess : Nat) (ch : Nat) (mask : Nat) (s : State) :
    outMoves [.blk, .st, .rails, .regions, .strings, .courses, .chans, .eng, .cap, .hints, .learn, .therm, .convs, .cg, .dict, .dma, .recd, .regs] s (execDmaIrqClear p sess ch mask s) := by
  unfold execDmaIrqClear
  repeat' first
    | with_reducible apply outMoves_within
    | with_reducible apply outMoves_onRail
    | with_reducible apply outMoves_next
    | with_reducible exact State.Moves.refl _ _
    | exact Eq.refl true
    | with_reducible apply State.Moves.step ?_ (State.moves_putNum ..) ?_
    | with_reducible dsimp only

theorem moves_execStEnable (p : Path) (sess : Nat) (s : State) :
    outMoves [.blk, .st, .rails, .regions, .strings, .courses, .chans, .eng, .cap, .hints, .learn, .therm, .convs, .cg, .dict, .dma, .recd, .regs] s (execStEnable p sess s) := by
  unfold execStEnable
  repeat' first
    | with_reducible apply outMoves_within
    | with_reducible apply outMoves_onRail
    | with_reducible apply outMoves_next
    | with_reducible exact State.Moves.refl _ _
    | exact Eq.refl true
    | with_reducible apply State.Moves.step ?_ (State.moves_putNum ..) ?_
    | with_reducible dsimp only

theorem moves_execStDisable (p : Path) (sess : Nat) (s : State) :
    outMoves [.blk, .st, .rails, .regions, .strings, .courses, .chans, .eng, .cap, .hints, .learn, .therm, .convs, .cg, .dict, .dma, .recd, .regs] s (execStDisable p sess s) := by
  unfold execStDisable
  repeat' first
    | with_reducible apply outMoves_within
    | with_reducible apply outMoves_onRail
    | with_reducible apply outMoves_next
    | with_reducible exact State.Moves.refl _ _
    | exact Eq.refl true
    | with_reducible apply State.Moves.step ?_ (State.moves_putNum ..) ?_
    | with_reducible dsimp only

theorem moves_execStFlush (p : Path) (sess : Nat) (s : State) :
    outMoves [.blk, .st, .rails, .regions, .strings, .courses, .chans, .eng, .cap, .hints, .learn, .therm, .convs, .cg, .dict, .dma, .recd, .regs] s (execStFlush p sess s) := by
  unfold execStFlush
  repeat' first
    | with_reducible apply outMoves_within
    | with_reducible apply outMoves_onRail
    | with_reducible apply outMoves_next
    | with_reducible exact State.Moves.refl _ _
    | exact Eq.refl true
    | with_reducible apply State.Moves.step ?_ (State.moves_putNum ..) ?_
    | with_reducible dsimp only

theorem moves_execStHostFieldsWrite (p : Path) (sess : Nat) (fields : List Byte) (s : State) :
    outMoves [.blk, .st, .rails, .regions, .strings, .courses, .chans, .eng, .cap, .hints, .learn, .therm, .convs, .cg, .dict, .dma, .recd, .regs] s (execStHostFieldsWrite p sess fields s) := by
  unfold execStHostFieldsWrite
  repeat' first
    | with_reducible apply outMoves_within
    | with_reducible apply outMoves_onRail
    | with_reducible apply outMoves_next
    | with_reducible exact State.Moves.refl _ _
    | exact Eq.refl true
    | with_reducible apply State.Moves.step ?_ (State.moves_putBytes ..) ?_
    | with_reducible dsimp only

theorem moves_execStEntryFetched (i : Nat) (s : State) :
    outMoves [.strings, .dict, .dma, .recd, .regs] s (execStEntryFetched i s) := by
  unfold execStEntryFetched
  repeat' first
    | with_reducible apply outMoves_within
    | with_reducible apply outMoves_onRail
    | with_reducible apply outMoves_onString
    | with_reducible apply outMoves_next
    | with_reducible exact State.Moves.refl _ _
    | exact Eq.refl true
    | with_reducible apply State.Moves.step ?_ (State.moves_answerReads ..) ?_
    | with_reducible apply State.Moves.step ?_ (State.moves_entryFetched ..) ?_
    | with_reducible dsimp only
    | split

theorem moves_execTrigSnapCountWrite (p : Path) (sess : Nat) (t : Nat) (v : Nat) (s : State) :
    outMoves [.blk, .st, .rails, .regions, .strings, .courses, .chans, .eng, .cap, .hints, .learn, .therm, .convs, .cg, .dict, .dma, .recd, .regs] s (execTrigSnapCountWrite p sess t v s) := by
  unfold execTrigSnapCountWrite
  repeat' first
    | with_reducible apply outMoves_within
    | with_reducible apply outMoves_onRail
    | with_reducible apply outMoves_next
    | with_reducible exact State.Moves.refl _ _
    | exact Eq.refl true
    | with_reducible apply State.Moves.step ?_ (State.moves_putNum ..) ?_
    | with_reducible dsimp only

theorem moves_execFaultFreeze (p : Path) (sess : Nat) (s : State) :
    outMoves [.blk, .st, .rails, .regions, .strings, .courses, .chans, .eng, .cap, .hints, .learn, .therm, .convs, .cg, .dict, .dma, .recd, .regs] s (execFaultFreeze p sess s) := by
  unfold execFaultFreeze
  repeat' first
    | with_reducible apply outMoves_within
    | with_reducible apply outMoves_onRail
    | with_reducible apply outMoves_next
    | with_reducible exact State.Moves.refl _ _
    | exact Eq.refl true
    | with_reducible apply State.Moves.step ?_ (State.moves_putNum ..) ?_
    | with_reducible dsimp only

theorem moves_execFaultUnfreeze (p : Path) (sess : Nat) (s : State) :
    outMoves [.blk, .st, .rails, .regions, .strings, .courses, .chans, .eng, .cap, .hints, .learn, .therm, .convs, .cg, .dict, .dma, .recd, .regs] s (execFaultUnfreeze p sess s) := by
  unfold execFaultUnfreeze
  repeat' first
    | with_reducible apply outMoves_within
    | with_reducible apply outMoves_onRail
    | with_reducible apply outMoves_next
    | with_reducible exact State.Moves.refl _ _
    | exact Eq.refl true
    | with_reducible apply State.Moves.step ?_ (State.moves_putNum ..) ?_
    | with_reducible dsimp only

theorem moves_execFaultClear (p : Path) (sess : Nat) (s : State) :
    outMoves [.blk, .st, .rails, .regions, .strings, .courses, .chans, .eng, .cap, .hints, .learn, .therm, .convs, .cg, .dict, .dma, .recd, .regs] s (execFaultClear p sess s) := by
  unfold execFaultClear
  repeat' first
    | with_reducible apply outMoves_within
    | with_reducible apply outMoves_onRail
    | with_reducible apply outMoves_next
    | with_reducible exact State.Moves.refl _ _
    | exact Eq.refl true
    | with_reducible apply State.Moves.step ?_ (State.moves_putNum ..) ?_
    | with_reducible dsimp only

theorem moves_execTraceClear (p : Path) (sess : Nat) (s : State) :
    outMoves [.blk, .st, .rails, .regions, .strings, .courses, .chans, .eng, .cap, .hints, .learn, .therm, .convs, .cg, .dict, .dma, .recd, .regs] s (execTraceClear p sess s) := by
  unfold execTraceClear
  repeat' first
    | with_reducible apply outMoves_within
    | with_reducible apply outMoves_onRail
    | with_reducible apply outMoves_next
    | with_reducible exact State.Moves.refl _ _
    | exact Eq.refl true
    | with_reducible apply State.Moves.step ?_ (State.moves_putNum ..) ?_
    | with_reducible dsimp only

theorem moves_execRecQueueMaxRead (p : Path) (sess : Nat) (s : State) :
    outMoves [.blk, .st, .rails, .regions, .strings, .courses, .chans, .eng, .cap, .hints, .learn, .therm, .convs, .cg, .dict, .dma, .recd, .regs] s (execRecQueueMaxRead p sess s) := by
  unfold execRecQueueMaxRead
  repeat' first
    | with_reducible apply outMoves_within
    | with_reducible apply outMoves_onRail
    | with_reducible apply outMoves_next
    | with_reducible exact State.Moves.refl _ _
    | exact Eq.refl true
    | with_reducible apply State.Moves.step ?_ (State.moves_getObj ..) ?_
    | with_reducible dsimp only

theorem moves_execI3cPrivateRead (s : State) :
    outMoves [.dict] s (execI3cPrivateRead s) := by
  unfold execI3cPrivateRead
  repeat' first
    | with_reducible apply outMoves_within
    | with_reducible apply outMoves_onRail
    | with_reducible apply outMoves_next
    | with_reducible exact State.Moves.refl _ _
    | exact Eq.refl true
    | with_reducible apply State.Moves.step ?_ (State.moves_modI3c ..) ?_
    | with_reducible apply State.Moves.whenOf
    | with_reducible dsimp only

theorem moves_execI3cFrameDiscard (s : State) :
    outMoves [.dict, .freeK] s (execI3cFrameDiscard s) := by
  unfold execI3cFrameDiscard
  repeat' first
    | with_reducible apply outMoves_within
    | with_reducible apply outMoves_onRail
    | with_reducible apply outMoves_next
    | with_reducible exact State.Moves.refl _ _
    | exact Eq.refl true
    | with_reducible apply State.Moves.step ?_ (State.moves_takeFree ..) ?_
    | with_reducible apply State.Moves.step ?_ (State.moves_deliver ..) ?_
    | with_reducible apply State.Moves.whenOf
    | with_reducible dsimp only

theorem moves_execEntdaa (addr : Nat) (s : State) :
    outMoves [.dict] s (execEntdaa addr s) := by
  unfold execEntdaa
  repeat' first
    | with_reducible apply outMoves_within
    | with_reducible apply outMoves_onRail
    | with_reducible apply outMoves_next
    | with_reducible exact State.Moves.refl _ _
    | exact Eq.refl true
    | with_reducible apply State.Moves.step ?_ (State.moves_setDynamic ..) ?_
    | with_reducible apply State.Moves.whenOf
    | with_reducible dsimp only

theorem moves_execSetdasa (static : Nat) (addr : Nat) (s : State) :
    outMoves [.dict] s (execSetdasa static addr s) := by
  unfold execSetdasa
  repeat' first
    | with_reducible apply outMoves_within
    | with_reducible apply outMoves_onRail
    | with_reducible apply outMoves_next
    | with_reducible exact State.Moves.refl _ _
    | exact Eq.refl true
    | with_reducible apply State.Moves.step ?_ (State.moves_setDynamic ..) ?_
    | with_reducible apply State.Moves.whenOf
    | with_reducible dsimp only

theorem moves_execRstdaa (s : State) :
    outMoves [.dict] s (execRstdaa s) := by
  unfold execRstdaa
  repeat' first
    | with_reducible apply outMoves_within
    | with_reducible apply outMoves_onRail
    | with_reducible apply outMoves_next
    | with_reducible exact State.Moves.refl _ _
    | exact Eq.refl true
    | with_reducible apply State.Moves.step ?_ (State.moves_setDynamic ..) ?_
    | with_reducible apply State.Moves.step ?_ (State.moves_closeSession ..) ?_
    | with_reducible apply State.Moves.whenOf
    | with_reducible apply State.Moves.overAll (fun _ _ => ?_)
    | with_reducible dsimp only

theorem moves_execGetpid (s : State) :
    outMoves [.dict] s (execGetpid s) := by
  unfold execGetpid
  repeat' first
    | with_reducible apply outMoves_within
    | with_reducible apply outMoves_onRail
    | exact moves_ccc _ _
    | exact moves_ccc _ _
    | with_reducible apply outMoves_next
    | with_reducible exact State.Moves.refl _ _
    | exact Eq.refl true
    | with_reducible dsimp only

theorem moves_execGetbcr (s : State) :
    outMoves [.dict] s (execGetbcr s) := by
  unfold execGetbcr
  repeat' first
    | with_reducible apply outMoves_within
    | with_reducible apply outMoves_onRail
    | exact moves_ccc _ _
    | exact moves_ccc _ _
    | with_reducible apply outMoves_next
    | with_reducible exact State.Moves.refl _ _
    | exact Eq.refl true
    | with_reducible dsimp only

theorem moves_execGetdcr (s : State) :
    outMoves [.dict] s (execGetdcr s) := by
  unfold execGetdcr
  repeat' first
    | with_reducible apply outMoves_within
    | with_reducible apply outMoves_onRail
    | exact moves_ccc _ _
    | exact moves_ccc _ _
    | with_reducible apply outMoves_next
    | with_reducible exact State.Moves.refl _ _
    | exact Eq.refl true
    | with_reducible dsimp only

theorem moves_execGetstatus (s : State) :
    outMoves [.dict] s (execGetstatus s) := by
  unfold execGetstatus
  repeat' first
    | with_reducible apply outMoves_within
    | with_reducible apply outMoves_onRail
    | exact moves_ccc _ _
    | exact moves_ccc _ _
    | with_reducible apply outMoves_next
    | with_reducible exact State.Moves.refl _ _
    | exact Eq.refl true
    | with_reducible dsimp only

theorem moves_execEnec (events : Nat) (s : State) :
    outMoves [.dict] s (execEnec events s) := by
  unfold execEnec
  repeat' first
    | with_reducible apply outMoves_within
    | with_reducible apply outMoves_onRail
    | with_reducible apply outMoves_next
    | with_reducible exact State.Moves.refl _ _
    | exact Eq.refl true
    | with_reducible apply State.Moves.step ?_ (State.moves_modI3c ..) ?_
    | with_reducible apply State.Moves.whenOf
    | with_reducible dsimp only

theorem moves_execDisec (events : Nat) (s : State) :
    outMoves [.dict] s (execDisec events s) := by
  unfold execDisec
  repeat' first
    | with_reducible apply outMoves_within
    | with_reducible apply outMoves_onRail
    | with_reducible apply outMoves_next
    | with_reducible exact State.Moves.refl _ _
    | exact Eq.refl true
    | with_reducible apply State.Moves.step ?_ (State.moves_modI3c ..) ?_
    | with_reducible apply State.Moves.whenOf
    | with_reducible dsimp only

theorem moves_execInBandInterrupt (won : Bool) (s : State) :
    outMoves [.dict] s (execInBandInterrupt won s) := by
  unfold execInBandInterrupt
  repeat' first
    | with_reducible apply outMoves_within
    | with_reducible apply outMoves_onRail
    | with_reducible apply outMoves_next
    | with_reducible exact State.Moves.refl _ _
    | exact Eq.refl true
    | with_reducible apply State.Moves.ite
    | with_reducible apply State.Moves.step ?_ (State.moves_modI3c ..) ?_
    | with_reducible apply State.Moves.whenOf
    | with_reducible apply State.Moves.ite
    | with_reducible dsimp only

theorem moves_execMbxGo (m : Nat) (s : State) :
    outMoves [.blk, .st, .rails, .regions, .strings, .courses, .chans, .eng, .cap, .hints, .learn, .therm, .convs, .cg, .dict, .dma, .recd, .regs] s (execMbxGo m s) := by
  unfold execMbxGo
  repeat' first
    | with_reducible apply outMoves_within
    | with_reducible apply outMoves_onRail
    | with_reducible apply outMoves_next
    | with_reducible exact State.Moves.refl _ _
    | exact Eq.refl true
    | with_reducible apply State.Moves.step ?_ (State.moves_go ..) ?_
    | with_reducible dsimp only

theorem moves_execRegisterPortAccess (wr : Bool) (addr : Nat) (wdata : Nat) (wpar : Nat) (s : State) :
    outMoves [.blk, .st, .rails, .regions, .strings, .courses, .chans, .eng, .cap, .hints, .learn, .therm, .convs, .cg, .dict, .dma, .recd, .clk, .regs, .freeK] s (execRegisterPortAccess wr addr wdata wpar s) := by
  unfold execRegisterPortAccess
  repeat' first
    | with_reducible apply outMoves_within
    | with_reducible apply outMoves_onRail
    | with_reducible apply outMoves_next
    | with_reducible exact State.Moves.refl _ _
    | exact Eq.refl true
    | with_reducible apply State.Moves.ite
    | with_reducible apply State.Moves.step ?_ (State.moves_hregDone ..) ?_
    | with_reducible apply State.Moves.step ?_ (State.moves_parityError ..) ?_
    | with_reducible apply State.Moves.step ?_ (State.moves_hregWrite ..) ?_
    | with_reducible apply State.Moves.step ?_ (State.moves_hregRead ..) ?_
    | with_reducible apply State.Moves.whenOf
    | with_reducible apply State.Moves.ite
    | with_reducible dsimp only
    | split

theorem moves_execRingRecord (s : State) :
    outMoves [.blk, .st, .rails, .regions, .strings, .courses, .chans, .eng, .cap, .hints, .learn, .therm, .convs, .cg, .dict, .dma, .recd, .regs] s (execRingRecord s) := by
  unfold execRingRecord
  repeat' first
    | with_reducible apply outMoves_within
    | with_reducible apply outMoves_onRail
    | with_reducible apply outMoves_next
    | with_reducible exact State.Moves.refl _ _
    | exact Eq.refl true
    | with_reducible apply State.Moves.step ?_ (State.moves_ringRecord ..) ?_
    | with_reducible apply State.Moves.whenOf
    | with_reducible dsimp only

theorem moves_execRefclkLost (s : State) :
    outMoves [.clk, .regs] s (execRefclkLost s) := by
  unfold execRefclkLost
  repeat' first
    | with_reducible apply outMoves_within
    | with_reducible apply outMoves_onRail
    | with_reducible apply outMoves_next
    | with_reducible exact State.Moves.refl _ _
    | exact Eq.refl true
    | with_reducible apply State.Moves.step ?_ (State.moves_count ..) ?_
    | with_reducible apply State.Moves.whenOf
    | with_reducible dsimp only
    | with_reducible apply State.Moves.put_clk

theorem moves_execRefclkRegained (s : State) :
    outMoves [.blk, .clk] s (execRefclkRegained s) := by
  unfold execRefclkRegained
  repeat' first
    | with_reducible apply outMoves_within
    | with_reducible apply outMoves_onRail
    | with_reducible apply outMoves_next
    | with_reducible exact State.Moves.refl _ _
    | exact Eq.refl true
    | with_reducible apply State.Moves.step ?_ (State.moves_modBlk _ _ ?_) ?_
    | with_reducible apply State.Moves.whenOf
    | with_reducible dsimp only
    | with_reducible apply State.Moves.put_clk
    | with_reducible apply State.Moves.put_blk
    | refine .put ?_ rfl (fun p hp => by cases p <;> first | exact absurd (by decide) hp | rfl)
        (.of (by first | rfl | simp [State.sizes] | (simp only [State.sizes, List.length_map, List.length_modify]; rfl)) rfl rfl rfl)
    | exact fun _ => rfl

theorem moves_execClockCheck (faulty : List Nat) (hmemMhz : Nat) (s : State) :
    outMoves [.clk] s (execClockCheck faulty hmemMhz s) := by
  unfold execClockCheck
  repeat' first
    | with_reducible apply outMoves_within
    | with_reducible apply outMoves_onRail
    | with_reducible apply outMoves_next
    | with_reducible exact State.Moves.refl _ _
    | exact Eq.refl true
    | with_reducible apply State.Moves.whenOf
    | with_reducible dsimp only
    | with_reducible apply State.Moves.put_clk

theorem moves_execTrstNLow (s : State) :
    outMoves [.clk] s (execTrstNLow s) := by
  unfold execTrstNLow
  repeat' first
    | with_reducible apply outMoves_within
    | with_reducible apply outMoves_onRail
    | with_reducible apply outMoves_next
    | with_reducible exact State.Moves.refl _ _
    | exact Eq.refl true
    | with_reducible apply State.Moves.step ?_ (State.moves_tapReset ..) ?_
    | with_reducible apply State.Moves.whenOf
    | with_reducible dsimp only

theorem moves_execTestLogicReset (s : State) :
    outMoves [.clk] s (execTestLogicReset s) := by
  unfold execTestLogicReset
  repeat' first
    | with_reducible apply outMoves_within
    | with_reducible apply outMoves_onRail
    | with_reducible apply outMoves_next
    | with_reducible exact State.Moves.refl _ _
    | exact Eq.refl true
    | with_reducible apply State.Moves.step ?_ (State.moves_tapReset ..) ?_
    | with_reducible apply State.Moves.whenOf
    | with_reducible dsimp only

theorem moves_execTestModeFall (s : State) :
    outMoves [.clk] s (execTestModeFall s) := by
  unfold execTestModeFall
  repeat' first
    | with_reducible apply outMoves_within
    | with_reducible apply outMoves_onRail
    | with_reducible apply outMoves_next
    | with_reducible exact State.Moves.refl _ _
    | exact Eq.refl true
    | with_reducible apply State.Moves.step ?_ (State.moves_setTestMode ..) ?_
    | with_reducible apply State.Moves.whenOf
    | with_reducible dsimp only

theorem moves_execBypass (s : State) :
    outMoves [.clk] s (execBypass s) := by
  unfold execBypass
  repeat' first
    | with_reducible apply outMoves_within
    | with_reducible apply outMoves_onRail
    | with_reducible apply outMoves_next
    | with_reducible exact State.Moves.refl _ _
    | exact Eq.refl true
    | with_reducible apply State.Moves.step ?_ (State.moves_selectBypass ..) ?_
    | with_reducible apply State.Moves.whenOf
    | with_reducible dsimp only

theorem moves_execIdcode (s : State) :
    outMoves [.clk] s (execIdcode s) := by
  unfold execIdcode
  repeat' first
    | with_reducible apply outMoves_within
    | with_reducible apply outMoves_onRail
    | with_reducible apply outMoves_next
    | with_reducible exact State.Moves.refl _ _
    | exact Eq.refl true
    | with_reducible apply State.Moves.whenOf
    | with_reducible dsimp only
    | with_reducible apply State.Moves.put_clk

theorem moves_execSamplePreload (pins : Nat) (shiftIn : Nat) (s : State) :
    outMoves [.clk] s (execSamplePreload pins shiftIn s) := by
  unfold execSamplePreload
  repeat' first
    | with_reducible apply outMoves_within
    | with_reducible apply outMoves_onRail
    | with_reducible apply outMoves_next
    | with_reducible exact State.Moves.refl _ _
    | exact Eq.refl true
    | with_reducible apply State.Moves.whenOf
    | with_reducible dsimp only
    | with_reducible apply State.Moves.put_clk

theorem moves_execExtest (testMode : Bool) (s : State) :
    outMoves [.clk] s (execExtest testMode s) := by
  unfold execExtest
  repeat' first
    | with_reducible apply outMoves_within
    | with_reducible apply outMoves_onRail
    | with_reducible apply outMoves_next
    | with_reducible exact State.Moves.refl _ _
    | exact Eq.refl true
    | with_reducible apply State.Moves.ite
    | with_reducible apply State.Moves.step ?_ (State.moves_setTestMode ..) ?_
    | with_reducible apply State.Moves.step ?_ (State.moves_selectBypass ..) ?_
    | with_reducible apply State.Moves.whenOf
    | with_reducible apply State.Moves.ite
    | with_reducible dsimp only
    | with_reducible apply State.Moves.put_clk

theorem moves_execTestctrl (bitsIn : Nat) (testMode : Bool) (s : State) :
    outMoves [.clk] s (execTestctrl bitsIn testMode s) := by
  unfold execTestctrl
  repeat' first
    | with_reducible apply outMoves_within
    | with_reducible apply outMoves_onRail
    | with_reducible apply outMoves_next
    | with_reducible exact State.Moves.refl _ _
    | exact Eq.refl true
    | with_reducible apply State.Moves.ite
    | with_reducible apply State.Moves.step ?_ (State.moves_setTestMode ..) ?_
    | with_reducible apply State.Moves.whenOf
    | with_reducible apply State.Moves.ite
    | with_reducible dsimp only
    | with_reducible apply State.Moves.put_clk

end Sys2Proof.Machine
end

