-- ==== Sys2Proof/Laws/Objects.lean ====
section
/-! SUPPORT. The objects that the dictionary commands name, each as its index and sub-index find it (R426, R431). -/

set_option linter.all false
set_option maxRecDepth 4000
set_option Elab.async false

namespace Sys2Proof.Machine

theorem find_block_cmd (c : Config) :
    findObj c 0x1100 0x02 = .ok ⟨.u8, .rwk, .only 1 2, 0, Obj.block_cmd, 0x1100, 0, 0x02⟩ := by
  rw [findObj_row (lo := 0x1100) (n := 1) (by decide +kernel) rfl (by omega) (by omega) (by unfold mirrorIndex; omega)
    (by decide) rfl rfl rfl]
  rfl

theorem find_service_reasons (c : Config) :
    findObj c 0x1100 0x05 = .ok ⟨.u32, .rwk, .bits 1023, 0, Obj.service_clear, 0x1100, 0, 0x05⟩ := by
  rw [findObj_row (lo := 0x1100) (n := 1) (by decide +kernel) rfl (by omega) (by omega) (by unfold mirrorIndex; omega)
    (by decide) rfl rfl rfl]
  rfl

theorem find_commit (c : Config) :
    findObj c 0x1200 0x01 = .ok ⟨.u8, .cmd, .bits 254, 0, Obj.commit, 0x1200, 0, 0x01⟩ := by
  rw [findObj_row (lo := 0x1200) (n := 1) (by decide +kernel) rfl (by omega) (by omega) (by unfold mirrorIndex; omega)
    (by decide) rfl rfl rfl]
  rfl

theorem find_commit_discard (c : Config) :
    findObj c 0x1200 0x03 = .ok ⟨.u8, .cmd, .bits 254, 0, Obj.commit_discard, 0x1200, 0, 0x03⟩ := by
  rw [findObj_row (lo := 0x1200) (n := 1) (by decide +kernel) rfl (by omega) (by omega) (by unfold mirrorIndex; omega)
    (by decide) rfl rfl rfl]
  rfl

theorem find_pickup_clear {c : Config} {r : Nat} (h : r < 76) (hp : Config.popRegion c r = true) :
    findObj c (0x2100 + r) 0x17 = .ok ⟨.u16, .cmd, .bits 511, 0, Obj.region_pickup_clear r, 0x2100, r, 0x17⟩ := by
  have hu : Config.unpopulated c (0x2100 + r) = false := by
    unfold Config.unpopulated
    repeat first | rw [if_neg (by omega)] | rw [if_pos (by omega)]
    simp only [Nat.add_sub_cancel_left, hp, Bool.not_true]
  have he : subExists (0x2100 + r) 0x17 = true := by
    unfold subExists
    repeat' split
    all_goals (simp_all; try omega)
  rw [findObj_row (lo := 0x2100) (n := 76) (by decide +kernel) rfl (by omega) (by omega) (by unfold mirrorIndex; omega)
    (by decide) hu rfl he]
  simp [ObjRow.obj, tyOf, Nat.add_sub_cancel_left]

theorem find_pickup_force {c : Config} {r : Nat} (h : r < 76) (hp : Config.popRegion c r = true) :
    findObj c (0x2100 + r) 0x18 = .ok ⟨.u16, .rw, .bits 511, 0, Obj.region_pickup_force r, 0x2100, r, 0x18⟩ := by
  have hu : Config.unpopulated c (0x2100 + r) = false := by
    unfold Config.unpopulated
    repeat first | rw [if_neg (by omega)] | rw [if_pos (by omega)]
    simp only [Nat.add_sub_cancel_left, hp, Bool.not_true]
  have he : subExists (0x2100 + r) 0x18 = true := by
    unfold subExists
    repeat' split
    all_goals (simp_all; try omega)
  rw [findObj_row (lo := 0x2100) (n := 76) (by decide +kernel) rfl (by omega) (by omega) (by unfold mirrorIndex; omega)
    (by decide) hu rfl he]
  simp [ObjRow.obj, tyOf, Nat.add_sub_cancel_left]

theorem find_string_cmd {c : Config} {i : Nat} (h : i < 1120) (hp : Config.popString c i = true) :
    findObj c (0x3000 + i) 0x0C = .ok ⟨.u8, .cmd, .only 1 4, 0, Obj.string_cmd i, 0x3000, i, 0x0C⟩ := by
  have hu : Config.unpopulated c (0x3000 + i) = false := by
    unfold Config.unpopulated
    repeat first | rw [if_neg (by omega)] | rw [if_pos (by omega)]
    simp only [Nat.add_sub_cancel_left, hp, Bool.not_true]
  have he : subExists (0x3000 + i) 0x0C = true := by
    unfold subExists
    repeat' split
    all_goals (simp_all; try omega)
  rw [findObj_row (lo := 0x3000) (n := 1120) (by decide +kernel) rfl (by omega) (by omega) (by unfold mirrorIndex; omega)
    (by decide) hu rfl he]
  simp [ObjRow.obj, tyOf, Nat.add_sub_cancel_left]

theorem find_bank_swap (c : Config) :
    findObj c 0x4000 0x02 = .ok ⟨.blob 10, .cmd, .bits 1208925819614629174706175, 0, Obj.bank_swap, 0x4000, 0, 0x02⟩ := by
  rw [findObj_row (lo := 0x4000) (n := 1) (by decide +kernel) rfl (by omega) (by omega) (by unfold mirrorIndex; omega)
    (by decide) rfl rfl rfl]
  rfl

theorem find_ch_flags {c : Config} {ch : Nat} (h : ch < 79) (hp : Config.popChan c ch = true) :
    findObj c (0x4100 + ch) 0x06 = .ok ⟨.u8, .cmd, .bits 31, 0, Obj.ch_flags_clear ch, 0x4100, ch, 0x06⟩ := by
  have hu : Config.unpopulated c (0x4100 + ch) = false := by
    unfold Config.unpopulated
    repeat first | rw [if_neg (by omega)] | rw [if_pos (by omega)]
    simp only [Nat.add_sub_cancel_left, hp, Bool.not_true]
  have he : subExists (0x4100 + ch) 0x06 = true := by
    unfold subExists
    repeat' split
    all_goals (simp_all; try omega)
  rw [findObj_row (lo := 0x4100) (n := 79) (by decide +kernel) rfl (by omega) (by omega) (by unfold mirrorIndex; omega)
    (by decide) hu rfl he]
  simp [ObjRow.obj, tyOf, Nat.add_sub_cancel_left]

theorem find_matched_enable (c : Config) :
    findObj c 0x4800 0x2B = .ok ⟨.u8, .rwk, .clamp 0 1, 0, Obj.matched_enable, 0x4800, 0, 0x2B⟩ := by
  rw [findObj_row (lo := 0x4800) (n := 1) (by decide +kernel) rfl (by omega) (by omega) (by unfold mirrorIndex; omega)
    (by decide) rfl rfl rfl]
  rfl

theorem find_cap_irq (c : Config) :
    findObj c 0x5000 0x1C = .ok ⟨.u8, .cmd, .bits 31, 0, Obj.cap_irq_clear, 0x5000, 0, 0x1C⟩ := by
  rw [findObj_row (lo := 0x5000) (n := 1) (by decide +kernel) rfl (by omega) (by omega) (by unfold mirrorIndex; omega)
    (by decide) rfl rfl rfl]
  rfl

theorem find_diode_clear (c : Config) :
    findObj c 0x5800 0x05 = .ok ⟨.blob 10, .cmd, .bits 75557863725914323419135, 0, Obj.diode_clear, 0x5800, 0, 0x05⟩ := by
  rw [findObj_row (lo := 0x5800) (n := 1) (by decide +kernel) rfl (by omega) (by omega) (by unfold mirrorIndex; omega)
    (by decide) rfl rfl rfl]
  rfl

theorem find_diode_force (c : Config) :
    findObj c 0x5800 0x06 = .ok ⟨.blob 10, .rw, .bits 75557863725914323419135, 0, Obj.diode_force, 0x5800, 0, 0x06⟩ := by
  rw [findObj_row (lo := 0x5800) (n := 1) (by decide +kernel) rfl (by omega) (by omega) (by unfold mirrorIndex; omega)
    (by decide) rfl rfl rfl]
  rfl

theorem find_thermal_irq (c : Config) :
    findObj c 0x5800 0x1E = .ok ⟨.u8, .cmd, .bits 7, 0, Obj.thermal_irq_clear, 0x5800, 0, 0x1E⟩ := by
  rw [findObj_row (lo := 0x5800) (n := 1) (by decide +kernel) rfl (by omega) (by omega) (by unfold mirrorIndex; omega)
    (by decide) rfl rfl rfl]
  rfl

theorem find_learn_cell {c : Config} (hl : Config.hasLearner c = true) :
    findObj c 0x6000 0x16 = .ok ⟨.blob 192, .rw, .whole, 0, Obj.learn_cell, 0x6000, 0, 0x16⟩ := by
  rw [findObj_row (lo := 0x6000) (n := 1) (by decide +kernel) rfl (by omega) (by omega) (by unfold mirrorIndex; omega)
    (by decide) rfl (by exact hl) rfl]
  rfl

theorem find_learn_irq {c : Config} (hl : Config.hasLearner c = true) :
    findObj c 0x6000 0x1B = .ok ⟨.u8, .cmd, .bits 7, 0, Obj.learn_irq_clear, 0x6000, 0, 0x1B⟩ := by
  rw [findObj_row (lo := 0x6000) (n := 1) (by decide +kernel) rfl (by omega) (by omega) (by unfold mirrorIndex; omega)
    (by decide) rfl (by exact hl) rfl]
  rfl

theorem find_group_eta {c : Config} {g : Nat} (h : g < 64) (hl : Config.hasLearner c = true) :
    findObj c (0x6100 + g) 0x01 = .ok ⟨.q15, .rw, .clamp 0 32767, 0, Obj.group_eta g, 0x6100, g, 0x01⟩ := by
  have hu : Config.unpopulated c (0x6100 + g) = false := by
    unfold Config.unpopulated
    repeat first | rw [if_neg (by omega)] | rw [if_pos (by omega)]
  have he : subExists (0x6100 + g) 0x01 = true := by
    unfold subExists
    repeat' split
    all_goals (simp_all; try omega)
  rw [findObj_row (lo := 0x6100) (n := 64) (by decide +kernel) rfl (by omega) (by omega) (by unfold mirrorIndex; omega)
    (by decide) hu (by exact hl) he]
  simp [ObjRow.obj, tyOf, Nat.add_sub_cancel_left]

theorem find_group_frozen {c : Config} {g : Nat} (h : g < 64) (hl : Config.hasLearner c = true) :
    findObj c (0x6100 + g) 0x04 = .ok ⟨.u8, .rw, .clamp 0 1, 0, Obj.group_frozen g, 0x6100, g, 0x04⟩ := by
  have hu : Config.unpopulated c (0x6100 + g) = false := by
    unfold Config.unpopulated
    repeat first | rw [if_neg (by omega)] | rw [if_pos (by omega)]
  have he : subExists (0x6100 + g) 0x04 = true := by
    unfold subExists
    repeat' split
    all_goals (simp_all; try omega)
  rw [findObj_row (lo := 0x6100) (n := 64) (by decide +kernel) rfl (by omega) (by omega) (by unfold mirrorIndex; omega)
    (by decide) hu (by exact hl) he]
  simp [ObjRow.obj, tyOf, Nat.add_sub_cancel_left]

theorem find_slot_apply {c : Config} {k : Nat} (h : k < 8) (hl : Config.hasLearner c = true) :
    findObj c (0x6200 + k) 0x09 = .ok ⟨.u8, .cmd, .clamp 1 1, 0, Obj.slot_apply k, 0x6200, k, 0x09⟩ := by
  have hu : Config.unpopulated c (0x6200 + k) = false := by
    unfold Config.unpopulated
    repeat first | rw [if_neg (by omega)] | rw [if_pos (by omega)]
  have he : subExists (0x6200 + k) 0x09 = true := by
    unfold subExists
    repeat' split
    all_goals (simp_all; try omega)
  rw [findObj_row (lo := 0x6200) (n := 11) (by decide +kernel) rfl (by omega) (by omega) (by unfold mirrorIndex; omega)
    (by decide) hu (by exact hl) he]
  simp [ObjRow.obj, tyOf, Nat.add_sub_cancel_left]

theorem find_shard_halt {c : Config} {k : Nat} (h : k < 8) (hl : Config.hasLearner c = true) :
    findObj c (0x6300 + k) 0x03 = .ok ⟨.u8, .rw, .clamp 0 1, 0, Obj.shard_halt k, 0x6300, k, 0x03⟩ := by
  have hu : Config.unpopulated c (0x6300 + k) = false := by
    unfold Config.unpopulated
    repeat first | rw [if_neg (by omega)] | rw [if_pos (by omega)]
  have he : subExists (0x6300 + k) 0x03 = true := by
    unfold subExists
    repeat' split
    all_goals (simp_all; try omega)
  rw [findObj_row (lo := 0x6300) (n := 8) (by decide +kernel) rfl (by omega) (by omega) (by unfold mirrorIndex; omega)
    (by decide) hu (by exact hl) he]
  simp [ObjRow.obj, tyOf, Nat.add_sub_cancel_left]

theorem find_shard_xfer {c : Config} {k : Nat} (h : k < 8) (hl : Config.hasLearner c = true) :
    findObj c (0x6300 + k) 0x0D = .ok ⟨.u8, .cmd, .clamp 1 2, 0, Obj.shard_xfer k, 0x6300, k, 0x0D⟩ := by
  have hu : Config.unpopulated c (0x6300 + k) = false := by
    unfold Config.unpopulated
    repeat first | rw [if_neg (by omega)] | rw [if_pos (by omega)]
  have he : subExists (0x6300 + k) 0x0D = true := by
    unfold subExists
    repeat' split
    all_goals (simp_all; try omega)
  rw [findObj_row (lo := 0x6300) (n := 8) (by decide +kernel) rfl (by omega) (by omega) (by unfold mirrorIndex; omega)
    (by decide) hu (by exact hl) he]
  simp [ObjRow.obj, tyOf, Nat.add_sub_cancel_left]

theorem find_hint_irq (c : Config) :
    findObj c 0x6400 0x11 = .ok ⟨.u8, .cmd, .bits 7, 0, Obj.hint_irq_clear, 0x6400, 0, 0x11⟩ := by
  rw [findObj_row (lo := 0x6400) (n := 1) (by decide +kernel) rfl (by omega) (by omega) (by unfold mirrorIndex; omega)
    (by decide) rfl rfl rfl]
  rfl

theorem find_hint_entries_max (c : Config) :
    findObj c 0x6400 0x03 = .ok ⟨.u16, .ro, .clamp 0 16384, 0, Obj.hint_entries_max, 0x6400, 0, 0x03⟩ := by
  rw [findObj_row (lo := 0x6400) (n := 1) (by decide +kernel) rfl (by omega) (by omega) (by unfold mirrorIndex; omega)
    (by decide) rfl rfl rfl]
  rfl

theorem find_conv_table_a {c : Config} {n : Nat} (h : n < 70) (hp : Config.popConv c n = true) :
    findObj c (0x7000 + n) 0x01 = .ok ⟨.blob 32, .rw, .whole, 0, Obj.conv_table_a n, 0x7000, n, 0x01⟩ := by
  have hu : Config.unpopulated c (0x7000 + n) = false := by
    unfold Config.unpopulated
    repeat first | rw [if_neg (by omega)] | rw [if_pos (by omega)]
    simp only [Nat.add_sub_cancel_left, hp, Bool.not_true]
  have he : subExists (0x7000 + n) 0x01 = true := by
    unfold subExists
    repeat' split
    all_goals (simp_all; try omega)
  rw [findObj_row (lo := 0x7000) (n := 70) (by decide +kernel) rfl (by omega) (by omega) (by unfold mirrorIndex; omega)
    (by decide) hu rfl he]
  simp [ObjRow.obj, tyOf, Nat.add_sub_cancel_left]

theorem find_conv_len_a {c : Config} {n : Nat} (h : n < 70) (hp : Config.popConv c n = true) :
    findObj c (0x7000 + n) 0x02 = .ok ⟨.u8, .rw, .clamp 1 16, 0, Obj.conv_table_a_len n, 0x7000, n, 0x02⟩ := by
  have hu : Config.unpopulated c (0x7000 + n) = false := by
    unfold Config.unpopulated
    repeat first | rw [if_neg (by omega)] | rw [if_pos (by omega)]
    simp only [Nat.add_sub_cancel_left, hp, Bool.not_true]
  have he : subExists (0x7000 + n) 0x02 = true := by
    unfold subExists
    repeat' split
    all_goals (simp_all; try omega)
  rw [findObj_row (lo := 0x7000) (n := 70) (by decide +kernel) rfl (by omega) (by omega) (by unfold mirrorIndex; omega)
    (by decide) hu rfl he]
  simp [ObjRow.obj, tyOf, Nat.add_sub_cancel_left]

theorem find_conv_table_b {c : Config} {n : Nat} (h : n < 70) (hp : Config.popConv c n = true) :
    findObj c (0x7000 + n) 0x03 = .ok ⟨.blob 32, .rw, .whole, 0, Obj.conv_table_b n, 0x7000, n, 0x03⟩ := by
  have hu : Config.unpopulated c (0x7000 + n) = false := by
    unfold Config.unpopulated
    repeat first | rw [if_neg (by omega)] | rw [if_pos (by omega)]
    simp only [Nat.add_sub_cancel_left, hp, Bool.not_true]
  have he : subExists (0x7000 + n) 0x03 = true := by
    unfold subExists
    repeat' split
    all_goals (simp_all; try omega)
  rw [findObj_row (lo := 0x7000) (n := 70) (by decide +kernel) rfl (by omega) (by omega) (by unfold mirrorIndex; omega)
    (by decide) hu rfl he]
  simp [ObjRow.obj, tyOf, Nat.add_sub_cancel_left]

theorem find_conv_len_b {c : Config} {n : Nat} (h : n < 70) (hp : Config.popConv c n = true) :
    findObj c (0x7000 + n) 0x04 = .ok ⟨.u8, .rw, .clamp 1 16, 0, Obj.conv_table_b_len n, 0x7000, n, 0x04⟩ := by
  have hu : Config.unpopulated c (0x7000 + n) = false := by
    unfold Config.unpopulated
    repeat first | rw [if_neg (by omega)] | rw [if_pos (by omega)]
    simp only [Nat.add_sub_cancel_left, hp, Bool.not_true]
  have he : subExists (0x7000 + n) 0x04 = true := by
    unfold subExists
    repeat' split
    all_goals (simp_all; try omega)
  rw [findObj_row (lo := 0x7000) (n := 70) (by decide +kernel) rfl (by omega) (by omega) (by unfold mirrorIndex; omega)
    (by decide) hu rfl he]
  simp [ObjRow.obj, tyOf, Nat.add_sub_cancel_left]

theorem find_conv_urgent {c : Config} {n : Nat} (h : n < 70) (hp : Config.popConv c n = true) :
    findObj c (0x7000 + n) 0x0C = .ok ⟨.u32, .cmd, .whole, 0, Obj.conv_urgent n, 0x7000, n, 0x0C⟩ := by
  have hu : Config.unpopulated c (0x7000 + n) = false := by
    unfold Config.unpopulated
    repeat first | rw [if_neg (by omega)] | rw [if_pos (by omega)]
    simp only [Nat.add_sub_cancel_left, hp, Bool.not_true]
  have he : subExists (0x7000 + n) 0x0C = true := by
    unfold subExists
    repeat' split
    all_goals (simp_all; try omega)
  rw [findObj_row (lo := 0x7000) (n := 70) (by decide +kernel) rfl (by omega) (by omega) (by unfold mirrorIndex; omega)
    (by decide) hu rfl he]
  simp [ObjRow.obj, tyOf, Nat.add_sub_cancel_left]

theorem find_sync_arm (c : Config) :
    findObj c 0x7060 0x0B = .ok ⟨.u8, .cmd, .clamp 0 2, 0, Obj.sync_arm, 0x7060, 0, 0x0B⟩ := by
  rw [findObj_row (lo := 0x7060) (n := 1) (by decide +kernel) rfl (by omega) (by omega) (by unfold mirrorIndex; omega)
    (by decide) rfl rfl rfl]
  rfl

theorem find_dma_cmd {c : Config} {ch : Nat} (h : ch < 8) (hp : ch ≠ 1) (hl : Config.hasDma c = true) :
    findObj c (0x7800 + ch) 0x02 = .ok ⟨.u8, .cmd, .only 1 3, 0, Obj.dma_cmd ch, 0x7800, ch, 0x02⟩ := by
  have hu : Config.unpopulated c (0x7800 + ch) = false := by
    unfold Config.unpopulated
    repeat first | rw [if_neg (by omega)] | rw [if_pos (by omega)]
  have he : subExists (0x7800 + ch) 0x02 = true := by
    unfold subExists
    repeat' split
    all_goals (simp_all; try omega)
  rw [findObj_row (lo := 0x7800) (n := 8) (by decide +kernel) rfl (by omega) (by omega) (by unfold mirrorIndex; omega)
    (by decide) hu (by exact hl) he]
  simp [ObjRow.obj, tyOf, Nat.add_sub_cancel_left]

theorem find_dma_irq {c : Config} {ch : Nat} (h : ch < 8) (hl : Config.hasDma c = true) :
    findObj c (0x7800 + ch) 0x10 = .ok ⟨.u8, .cmd, .bits 7, 0, Obj.dma_irq_clear ch, 0x7800, ch, 0x10⟩ := by
  have hu : Config.unpopulated c (0x7800 + ch) = false := by
    unfold Config.unpopulated
    repeat first | rw [if_neg (by omega)] | rw [if_pos (by omega)]
  have he : subExists (0x7800 + ch) 0x10 = true := by
    unfold subExists
    repeat' split
    all_goals (simp_all; try omega)
  rw [findObj_row (lo := 0x7800) (n := 8) (by decide +kernel) rfl (by omega) (by omega) (by unfold mirrorIndex; omega)
    (by decide) hu (by exact hl) he]
  simp [ObjRow.obj, tyOf, Nat.add_sub_cancel_left]

theorem find_st_enable {c : Config} (hl : Config.hasDma c = true) :
    findObj c 0x7810 0x02 = .ok ⟨.u8, .rw, .clamp 0 1, 0, Obj.st_enable, 0x7810, 0, 0x02⟩ := by
  rw [findObj_row (lo := 0x7810) (n := 1) (by decide +kernel) rfl (by omega) (by omega) (by unfold mirrorIndex; omega)
    (by decide) rfl (by exact hl) rfl]
  rfl

theorem find_st_flush {c : Config} (hl : Config.hasDma c = true) :
    findObj c 0x7810 0x08 = .ok ⟨.u8, .cmd, .clamp 1 1, 0, Obj.st_flush, 0x7810, 0, 0x08⟩ := by
  rw [findObj_row (lo := 0x7810) (n := 1) (by decide +kernel) rfl (by omega) (by omega) (by unfold mirrorIndex; omega)
    (by decide) rfl (by exact hl) rfl]
  rfl

theorem find_st_host_fields {c : Config} (hl : Config.hasDma c = true) :
    findObj c 0x7810 0x0B = .ok ⟨.blob 21, .rw, .whole, 0, Obj.st_host_fields, 0x7810, 0, 0x0B⟩ := by
  rw [findObj_row (lo := 0x7810) (n := 1) (by decide +kernel) rfl (by omega) (by omega) (by unfold mirrorIndex; omega)
    (by decide) rfl (by exact hl) rfl]
  rfl

theorem find_fault_freeze (c : Config) :
    findObj c 0x8000 0x05 = .ok ⟨.u8, .rw, .clamp 0 1, 0, Obj.fault_freeze, 0x8000, 0, 0x05⟩ := by
  rw [findObj_row (lo := 0x8000) (n := 1) (by decide +kernel) rfl (by omega) (by omega) (by unfold mirrorIndex; omega)
    (by decide) rfl rfl rfl]
  rfl

theorem find_fault_clear (c : Config) :
    findObj c 0x8000 0x0C = .ok ⟨.u8, .cmd, .clamp 1 1, 0, Obj.fault_clear, 0x8000, 0, 0x0C⟩ := by
  rw [findObj_row (lo := 0x8000) (n := 1) (by decide +kernel) rfl (by omega) (by omega) (by unfold mirrorIndex; omega)
    (by decide) rfl rfl rfl]
  rfl

theorem find_rec_queue_max (c : Config) :
    findObj c 0x8000 0x11 = .ok ⟨.u16, .ro, .clamp 0 2048, 0, Obj.rec_queue_max, 0x8000, 0, 0x11⟩ := by
  rw [findObj_row (lo := 0x8000) (n := 1) (by decide +kernel) rfl (by omega) (by omega) (by unfold mirrorIndex; omega)
    (by decide) rfl rfl rfl]
  rfl

theorem find_trace_clear {c : Config} (hl : Config.hasTrace c = true) :
    findObj c 0x8100 0x04 = .ok ⟨.u8, .cmd, .clamp 1 1, 0, Obj.trace_clear, 0x8100, 0, 0x04⟩ := by
  rw [findObj_row (lo := 0x8100) (n := 1) (by decide +kernel) rfl (by omega) (by omega) (by unfold mirrorIndex; omega)
    (by decide) rfl (by exact hl) rfl]
  rfl

theorem find_trig_snap_count {c : Config} {t : Nat} (h : t < 64) :
    findObj c (0x8200 + t) 0x03 = .ok ⟨.u8, .rw, .clamp 0 12, 0, Obj.trig_snap_count t, 0x8200, t, 0x03⟩ := by
  have hu : Config.unpopulated c (0x8200 + t) = false := by
    unfold Config.unpopulated
    repeat first | rw [if_neg (by omega)] | rw [if_pos (by omega)]
  have he : subExists (0x8200 + t) 0x03 = true := by
    unfold subExists
    repeat' split
    all_goals (simp_all; try omega)
  rw [findObj_row (lo := 0x8200) (n := 64) (by decide +kernel) rfl (by omega) (by omega) (by unfold mirrorIndex; omega)
    (by decide) hu rfl he]
  simp [ObjRow.obj, tyOf, Nat.add_sub_cancel_left]

theorem find_keeper_challenge (c : Config) :
    findObj c 0x9000 0x01 = .ok ⟨.blob 8, .ro, .whole, 0, Obj.keeper_challenge, 0x9000, 0, 0x01⟩ := by
  rw [findObj_row (lo := 0x9000) (n := 1) (by decide +kernel) rfl (by omega) (by omega) (by unfold mirrorIndex; omega)
    (by decide) rfl rfl rfl]
  rfl

theorem find_keeper_response (c : Config) :
    findObj c 0x9000 0x02 = .ok ⟨.blob 8, .wo, .whole, 0, Obj.keeper_response, 0x9000, 0, 0x02⟩ := by
  rw [findObj_row (lo := 0x9000) (n := 1) (by decide +kernel) rfl (by omega) (by omega) (by unfold mirrorIndex; omega)
    (by decide) rfl rfl rfl]
  rfl

theorem find_keeper_drop (c : Config) :
    findObj c 0x9000 0x06 = .ok ⟨.u8, .cmd, .clamp 1 1, 0, Obj.keeper_drop, 0x9000, 0, 0x06⟩ := by
  rw [findObj_row (lo := 0x9000) (n := 1) (by decide +kernel) rfl (by omega) (by omega) (by unfold mirrorIndex; omega)
    (by decide) rfl rfl rfl]
  rfl

theorem find_session_evict (c : Config) :
    findObj c 0x9100 0x06 = .ok ⟨.u8, .rwk, .only 0 9, 0, Obj.session_evict, 0x9100, 0, 0x06⟩ := by
  rw [findObj_row (lo := 0x9100) (n := 1) (by decide +kernel) rfl (by omega) (by omega) (by unfold mirrorIndex; omega)
    (by decide) rfl rfl rfl]
  rfl

/-- R197, R201: a coefficient and a shift of a shadow bank, found by their sub-index. -/
theorem find_coef {c : Config} {ch sub : Nat} (h : ch < 79) (hp : Config.popChan c ch = true) (h1 : 1 ≤ sub)
    (h2 : sub ≤ 24) : ∃ w : ObjRow, w.ty = .s32 ∧ w.acc = .rw ∧ w.rng = .whole ∧ w.grp = 0 ∧ w.base = 0x4200 ∧
      findObj c (0x4200 + ch) sub = .ok (w.obj (0x4200 + ch) sub) := by
  have hk : ∀ k < 25, 1 ≤ k → (rowAt 0x4200 k).any (fun w => w.ty == .s32 && w.acc == .rw && w.rng == .whole && w.grp == 0
      && w.base == 0x4200 && w.own == .always) = true := by decide +kernel
  have hs := hk sub (by omega) h1
  cases hw : rowAt 0x4200 sub with
  | none => simp [hw] at hs
  | some w =>
    simp only [hw, Option.any_some, Bool.and_eq_true, beq_iff_eq] at hs
    have hu : Config.unpopulated c (0x4200 + ch) = false := by
      unfold Config.unpopulated
      repeat first | rw [if_neg (by omega)] | rw [if_pos (by omega)]
      simp only [Nat.add_sub_cancel_left, hp, Bool.not_true]
    have he : subExists (0x4200 + ch) sub = true := by
      unfold subExists
      repeat' split
      all_goals (simp_all; try omega)
    exact ⟨w, hs.1.1.1.1.1, hs.1.1.1.1.2, hs.1.1.1.2, hs.1.1.2, hs.1.2,
      findObj_row (lo := 0x4200) (n := 79) (by decide +kernel) hw (by omega) (by omega) (by unfold mirrorIndex; omega)
        (by omega) hu (by rw [hs.2]; rfl) he⟩

theorem find_shift {c : Config} {ch sub : Nat} (h : ch < 79) (hp : Config.popChan c ch = true) (h1 : 0x21 ≤ sub)
    (h2 : sub ≤ 0x38) : ∃ w : ObjRow, w.ty = .u8 ∧ w.acc = .rw ∧ w.rng = .clamp 0 31 ∧ w.grp = 0 ∧ w.base = 0x4200 ∧
      findObj c (0x4200 + ch) sub = .ok (w.obj (0x4200 + ch) sub) := by
  have hk : ∀ k < 0x39, 0x21 ≤ k → (rowAt 0x4200 k).any (fun w => w.ty == .u8 && w.acc == .rw && w.rng == .clamp 0 31
      && w.grp == 0 && w.base == 0x4200 && w.own == .always) = true := by decide +kernel
  have hs := hk sub (by omega) h1
  cases hw : rowAt 0x4200 sub with
  | none => simp [hw] at hs
  | some w =>
    simp only [hw, Option.any_some, Bool.and_eq_true, beq_iff_eq] at hs
    have hu : Config.unpopulated c (0x4200 + ch) = false := by
      unfold Config.unpopulated
      repeat first | rw [if_neg (by omega)] | rw [if_pos (by omega)]
      simp only [Nat.add_sub_cancel_left, hp, Bool.not_true]
    have he : subExists (0x4200 + ch) sub = true := by
      unfold subExists
      repeat' split
      all_goals (simp_all; try omega)
    exact ⟨w, hs.1.1.1.1.1, hs.1.1.1.1.2, hs.1.1.1.2, hs.1.1.2, hs.1.2,
      findObj_row (lo := 0x4200) (n := 79) (by decide +kernel) hw (by omega) (by omega) (by unfold mirrorIndex; omega)
        (by omega) hu (by rw [hs.2]; rfl) he⟩

/-! ## Written values in their ranges (R429) -/

theorem apply_bits_num {t : Ty} (n : Nat) {m : Nat} (ht : t.signed = false) (hm : m < 2 ^ (8 * t.length)) :
    (Rng.bits (2 ^ n - 1)).apply (t.decode (t.encode m)) = some ((m % 2 ^ n : Nat) : Int) := by
  rw [decode_encode ht hm]; simp only [Rng.apply, Int.toNat_natCast, Nat.and_two_pow_sub_one_eq_mod]

theorem encode_blob {l m : Nat} (hm : m < 2 ^ (8 * l)) : (Ty.blob l).encode m = leBytes l m := by
  unfold Ty.encode ofSigned
  show leBytes l _ = leBytes l m
  congr 1
  rw [← Int.natCast_emod, Int.toNat_natCast]
  exact Nat.mod_eq_of_lt hm

theorem apply_bits_blob {l n : Nat} {m : Nat} (hm : m < 2 ^ (8 * l)) :
    (Rng.bits (2 ^ n - 1)).apply ((Ty.blob l).decode (leBytes l m)) = some ((m % 2 ^ n : Nat) : Int) := by
  rw [← encode_blob hm, apply_bits_num n rfl hm]

theorem apply_clamp_num {t : Ty} {lo hi : Int} {m : Nat} (ht : t.signed = false) (hm : m < 2 ^ (8 * t.length)) :
    (Rng.clamp lo hi).apply (t.decode (t.encode m)) = some (clampI lo hi m) := by
  rw [decode_encode ht hm]; rfl

theorem apply_whole_num {t : Ty} {m : Nat} (ht : t.signed = false) (hm : m < 2 ^ (8 * t.length)) :
    Rng.whole.apply (t.decode (t.encode m)) = some (m : Int) := by
  rw [decode_encode ht hm]; rfl

/-! ## Populated indices lie in their ranges -/

theorem popRegion_lt {c : Config} {r : Nat} (h : Config.popRegion c r = true) : r < 76 := by
  unfold Config.popRegion at h; simp at h; exact h.1

theorem popString_lt {c : Config} {i : Nat} (h : Config.popString c i = true) : i < 1120 := by
  unfold Config.popString at h; simp at h; exact h.1.1

theorem popCourse_lt {c : Config} {k : Nat} (h : Config.popCourse c k = true) : k < 140 := by
  unfold Config.popCourse at h; simp at h; exact h.1

theorem popConv_lt {c : Config} {n : Nat} (h : Config.popConv c n = true) : n < 70 := by
  unfold Config.popConv at h; simp at h; exact h.1

theorem popChan_lt {c : Config} {ch : Nat} (h : Config.popChan c ch = true) : ch < 79 := by
  unfold Config.popChan at h; simp at h; exact h.1

end Sys2Proof.Machine
end

