-- ==== Sys2Proof/Laws/PerInstr.lean ====
section
/-! SUPPORT. Of every command: the session byte that a well-formed one names is a byte (R434). -/

namespace Sys2Proof

/-- The session byte of a dictionary request. -/
def Instr.sessionByte : Instr → Option Nat
  | .blockCmdShutdown _ b => some b
  | .blockCmdStart _ b => some b
  | .bankSwap _ b _ => some b
  | .shadowWrite _ b _ _ _ => some b
  | .chFlagsClear _ b _ _ => some b
  | .matchedEnableWrite _ b _ => some b
  | .capIrqClear _ b _ => some b
  | .hintIrqClear _ b _ => some b
  | .hintEntriesMaxRead _ b => some b
  | .groupEtaWrite _ b _ _ => some b
  | .groupFrozenWrite _ b _ _ => some b
  | .slotApply _ b _ => some b
  | .shardHalt _ b _ => some b
  | .shardResume _ b _ => some b
  | .shardExport _ b _ => some b
  | .shardImport _ b _ => some b
  | .learnCellWrite _ b _ => some b
  | .learnIrqClear _ b _ => some b
  | .diodeClear _ b _ => some b
  | .diodeForceWrite _ b _ => some b
  | .thermalIrqClear _ b _ => some b
  | .pickupClear _ b _ _ => some b
  | .pickupForceWrite _ b _ _ => some b
  | .syncArmSingle _ b => some b
  | .syncArmSweeps _ b => some b
  | .syncCancel _ b => some b
  | .convUrgent _ b _ _ => some b
  | .convTableWrite _ b _ _ _ => some b
  | .stringCmdMute _ b _ => some b
  | .stringCmdReturn _ b _ => some b
  | .stringCmdSetBlind _ b _ => some b
  | .stringCmdClearBlind _ b _ => some b
  | .serviceClear _ b _ => some b
  | .open_ _ b => some b
  | .close _ b => some b
  | .read _ b _ _ _ => some b
  | .write _ b _ _ _ _ _ => some b
  | .registerWrite _ b _ _ _ => some b
  | .commit _ b _ => some b
  | .commitDiscard _ b _ => some b
  | .keeperChallenge _ b => some b
  | .keeperResponse _ b _ => some b
  | .keeperDrop _ b => some b
  | .sessionEvict _ b _ => some b
  | .dmaStart _ b _ => some b
  | .dmaAbort _ b _ => some b
  | .dmaKick _ b _ => some b
  | .dmaIrqClear _ b _ _ => some b
  | .stEnable _ b => some b
  | .stDisable _ b => some b
  | .stFlush _ b => some b
  | .stHostFieldsWrite _ b _ => some b
  | .trigSnapCountWrite _ b _ _ => some b
  | .faultFreeze _ b => some b
  | .faultUnfreeze _ b => some b
  | .faultClear _ b => some b
  | .traceClear _ b => some b
  | .recQueueMaxRead _ b => some b
  | _ => none

namespace Laws

/-- A well-formed command names its session by one byte. -/
def SessionByte.Statement (i : Instr) : Prop := i.wf = true → ∀ b, i.sessionByte = some b → b < 256

theorem SessionByte.left {a b : Bool} (h : (a && b) = true) : a = true := by
  cases a
  · exact absurd h (by simp)
  · rfl

/-- A command that names no session. -/
theorem SessionByte.of_none {i : Instr} (h : i.sessionByte = none) : SessionByte.Statement i :=
  fun _ b e => by rw [h] at e; cases e

/-- A command that names the session `b`, which its well-formedness checks. -/
theorem SessionByte.of_some {i : Instr} {b : Nat} (h : i.sessionByte = some b) (hw : i.wf = true → sessOk b = true) :
    SessionByte.Statement i :=
  fun w c e => by rw [h] at e; cases e; exact of_decide_eq_true (hw w)

theorem SessionByte.suppliesGood : SessionByte.Statement .suppliesGood := SessionByte.of_none rfl
theorem SessionByte.suppliesLost : SessionByte.Statement .suppliesLost := SessionByte.of_none rfl
theorem SessionByte.resetNLow : ∀ x0, SessionByte.Statement (.resetNLow x0) := fun _ => SessionByte.of_none rfl
theorem SessionByte.resetExit : ∀ x0, SessionByte.Statement (.resetExit x0) := fun _ => SessionByte.of_none rfl
theorem SessionByte.selftestComplete : ∀ x0 x1 x2, SessionByte.Statement (.selftestComplete x0 x1 x2) := fun _ _ _ => SessionByte.of_none rfl
theorem SessionByte.fuseloadComplete : ∀ x0, SessionByte.Statement (.fuseloadComplete x0) := fun _ => SessionByte.of_none rfl
theorem SessionByte.courseDiscovery : ∀ x0 x1 x2, SessionByte.Statement (.courseDiscovery x0 x1 x2) := fun _ _ _ => SessionByte.of_none rfl
theorem SessionByte.pmbusRetry : ∀ x0 x1 x2, SessionByte.Statement (.pmbusRetry x0 x1 x2) := fun _ _ _ => SessionByte.of_none rfl
theorem SessionByte.discoverEnd : ∀ x0, SessionByte.Statement (.discoverEnd x0) := fun _ => SessionByte.of_none rfl
theorem SessionByte.railRampStart : SessionByte.Statement .railRampStart := SessionByte.of_none rfl
theorem SessionByte.rampReferenceStart : ∀ x0, SessionByte.Statement (.rampReferenceStart x0) := fun _ => SessionByte.of_none rfl
theorem SessionByte.positionJoin : ∀ x0 x1, SessionByte.Statement (.positionJoin x0 x1) := fun _ _ => SessionByte.of_none rfl
theorem SessionByte.railPowerGood : ∀ x0, SessionByte.Statement (.railPowerGood x0) := fun _ => SessionByte.of_none rfl
theorem SessionByte.railFailed : ∀ x0, SessionByte.Statement (.railFailed x0) := fun _ => SessionByte.of_none rfl
theorem SessionByte.blockCmdShutdown : ∀ x0 x1, SessionByte.Statement (.blockCmdShutdown x0 x1) := fun _ _ => SessionByte.of_some rfl fun h => h
theorem SessionByte.blockCmdStart : ∀ x0 x1, SessionByte.Statement (.blockCmdStart x0 x1) := fun _ _ => SessionByte.of_some rfl fun h => h
theorem SessionByte.rampDownStart : SessionByte.Statement .rampDownStart := SessionByte.of_none rfl
theorem SessionByte.railRampDownEnd : ∀ x0, SessionByte.Statement (.railRampDownEnd x0) := fun _ => SessionByte.of_none rfl
theorem SessionByte.vinOkLoss : SessionByte.Statement .vinOkLoss := SessionByte.of_none rfl
theorem SessionByte.vinRestart : SessionByte.Statement .vinRestart := SessionByte.of_none rfl
theorem SessionByte.regionCycle : ∀ x0 x1, SessionByte.Statement (.regionCycle x0 x1) := fun _ _ => SessionByte.of_none rfl
theorem SessionByte.fireFallingEdge : ∀ x0, SessionByte.Statement (.fireFallingEdge x0) := fun _ => SessionByte.of_none rfl
theorem SessionByte.fixedRateFire : ∀ x0, SessionByte.Statement (.fixedRateFire x0) := fun _ => SessionByte.of_none rfl
theorem SessionByte.vminSourceChange : ∀ x0, SessionByte.Statement (.vminSourceChange x0) := fun _ => SessionByte.of_none rfl
theorem SessionByte.strumDisagreeWindow : SessionByte.Statement .strumDisagreeWindow := SessionByte.of_none rfl
theorem SessionByte.twinOvDisagreement : ∀ x0, SessionByte.Statement (.twinOvDisagreement x0) := fun _ => SessionByte.of_none rfl
theorem SessionByte.twinParityReload : ∀ x0 x1, SessionByte.Statement (.twinParityReload x0 x1) := fun _ _ => SessionByte.of_none rfl
theorem SessionByte.strumRoundDue : ∀ x0, SessionByte.Statement (.strumRoundDue x0) := fun _ => SessionByte.of_none rfl
theorem SessionByte.lockoutEnd : ∀ x0, SessionByte.Statement (.lockoutEnd x0) := fun _ => SessionByte.of_none rfl
theorem SessionByte.spreadStrobe : ∀ x0 x1, SessionByte.Statement (.spreadStrobe x0 x1) := fun _ _ => SessionByte.of_none rfl
theorem SessionByte.strumReport : ∀ x0, SessionByte.Statement (.strumReport x0) := fun _ => SessionByte.of_none rfl
theorem SessionByte.damper : ∀ x0, SessionByte.Statement (.damper x0) := fun _ => SessionByte.of_none rfl
theorem SessionByte.shedArrival : ∀ x0, SessionByte.Statement (.shedArrival x0) := fun _ => SessionByte.of_none rfl
theorem SessionByte.scoreboardChangeArrival : ∀ x0, SessionByte.Statement (.scoreboardChangeArrival x0) := fun _ => SessionByte.of_none rfl
theorem SessionByte.pickupValidityArrival : ∀ x0, SessionByte.Statement (.pickupValidityArrival x0) := fun _ => SessionByte.of_none rfl
theorem SessionByte.bandChangeArrival : ∀ x0, SessionByte.Statement (.bandChangeArrival x0) := fun _ => SessionByte.of_none rfl
theorem SessionByte.preparationTime : ∀ x0, SessionByte.Statement (.preparationTime x0) := fun _ => SessionByte.of_none rfl
theorem SessionByte.preStrumStart : ∀ x0, SessionByte.Statement (.preStrumStart x0) := fun _ => SessionByte.of_none rfl
theorem SessionByte.preStrumEnd : ∀ x0, SessionByte.Statement (.preStrumEnd x0) := fun _ => SessionByte.of_none rfl
theorem SessionByte.bumpHoldEnd : ∀ x0, SessionByte.Statement (.bumpHoldEnd x0) := fun _ => SessionByte.of_none rfl
theorem SessionByte.wakeReqRise : ∀ x0, SessionByte.Statement (.wakeReqRise x0) := fun _ => SessionByte.of_none rfl
theorem SessionByte.wakeGrant : SessionByte.Statement .wakeGrant := SessionByte.of_none rfl
theorem SessionByte.wakeTimeout : SessionByte.Statement .wakeTimeout := SessionByte.of_none rfl
theorem SessionByte.rejoinAck : ∀ x0, SessionByte.Statement (.rejoinAck x0) := fun _ => SessionByte.of_none rfl
theorem SessionByte.wakeReqFall : ∀ x0, SessionByte.Statement (.wakeReqFall x0) := fun _ => SessionByte.of_none rfl
theorem SessionByte.crsStatFrame : ∀ x0 x1 x2, SessionByte.Statement (.crsStatFrame x0 x1 x2) := fun _ _ _ => SessionByte.of_none rfl
theorem SessionByte.laneTimeout : ∀ x0, SessionByte.Statement (.laneTimeout x0) := fun _ => SessionByte.of_none rfl
theorem SessionByte.laneFltDamper : ∀ x0, SessionByte.Statement (.laneFltDamper x0) := fun _ => SessionByte.of_none rfl
theorem SessionByte.laneVminDamper : ∀ x0, SessionByte.Statement (.laneVminDamper x0) := fun _ => SessionByte.of_none rfl
theorem SessionByte.crsFltNFall : ∀ x0, SessionByte.Statement (.crsFltNFall x0) := fun _ => SessionByte.of_none rfl
theorem SessionByte.crsFltNRise : ∀ x0, SessionByte.Statement (.crsFltNRise x0) := fun _ => SessionByte.of_none rfl
theorem SessionByte.followUp : ∀ x0 x1 x2, SessionByte.Statement (.followUp x0 x1 x2) := fun _ _ _ => SessionByte.of_none rfl
theorem SessionByte.courseRecordCopy : ∀ x0 x1 x2 x3, SessionByte.Statement (.courseRecordCopy x0 x1 x2 x3) := fun _ _ _ _ => SessionByte.of_none rfl
theorem SessionByte.smbusAlert : ∀ x0 x1, SessionByte.Statement (.smbusAlert x0 x1) := fun _ _ => SessionByte.of_none rfl
theorem SessionByte.controlPeriod : SessionByte.Statement .controlPeriod := SessionByte.of_none rfl
theorem SessionByte.engineOutputs : SessionByte.Statement .engineOutputs := SessionByte.of_none rfl
theorem SessionByte.outputsArrival : SessionByte.Statement .outputsArrival := SessionByte.of_none rfl
theorem SessionByte.swapSample : SessionByte.Statement .swapSample := SessionByte.of_none rfl
theorem SessionByte.bankCopyEnd : SessionByte.Statement .bankCopyEnd := SessionByte.of_none rfl
theorem SessionByte.bankSwap : ∀ x0 x1 x2, SessionByte.Statement (.bankSwap x0 x1 x2) := fun _ _ _ => SessionByte.of_some rfl fun h => SessionByte.left h
theorem SessionByte.shadowWrite : ∀ x0 x1 x2 x3 x4, SessionByte.Statement (.shadowWrite x0 x1 x2 x3 x4) := fun _ _ _ _ _ => SessionByte.of_some rfl fun h => SessionByte.left (SessionByte.left h)
theorem SessionByte.chFlagsClear : ∀ x0 x1 x2 x3, SessionByte.Statement (.chFlagsClear x0 x1 x2 x3) := fun _ _ _ _ => SessionByte.of_some rfl fun h => SessionByte.left (SessionByte.left h)
theorem SessionByte.bankParityError : ∀ x0 x1, SessionByte.Statement (.bankParityError x0 x1) := fun _ _ => SessionByte.of_none rfl
theorem SessionByte.trimPwmPeriod : ∀ x0 x1, SessionByte.Statement (.trimPwmPeriod x0 x1) := fun _ _ => SessionByte.of_none rfl
theorem SessionByte.trimInputLost : SessionByte.Statement .trimInputLost := SessionByte.of_none rfl
theorem SessionByte.trimHoldExpiry : SessionByte.Statement .trimHoldExpiry := SessionByte.of_none rfl
theorem SessionByte.fretStepStart : ∀ x0, SessionByte.Statement (.fretStepStart x0) := fun _ => SessionByte.of_none rfl
theorem SessionByte.fretCmdReqRaise : ∀ x0, SessionByte.Statement (.fretCmdReqRaise x0) := fun _ => SessionByte.of_none rfl
theorem SessionByte.fretCmdAckRise : ∀ x0, SessionByte.Statement (.fretCmdAckRise x0) := fun _ => SessionByte.of_none rfl
theorem SessionByte.fretCmdAckFall : ∀ x0, SessionByte.Statement (.fretCmdAckFall x0) := fun _ => SessionByte.of_none rfl
theorem SessionByte.fretAckLate : ∀ x0, SessionByte.Statement (.fretAckLate x0) := fun _ => SessionByte.of_none rfl
theorem SessionByte.recoveryHoldExpiry : ∀ x0, SessionByte.Statement (.recoveryHoldExpiry x0) := fun _ => SessionByte.of_none rfl
theorem SessionByte.matchedEnableWrite : ∀ x0 x1 x2, SessionByte.Statement (.matchedEnableWrite x0 x1 x2) := fun _ _ _ => SessionByte.of_some rfl fun h => SessionByte.left h
theorem SessionByte.millisecondBoundary : SessionByte.Statement .millisecondBoundary := SessionByte.of_none rfl
theorem SessionByte.frameReady : SessionByte.Statement .frameReady := SessionByte.of_none rfl
theorem SessionByte.capStep : SessionByte.Statement .capStep := SessionByte.of_none rfl
theorem SessionByte.capoDelivery : SessionByte.Statement .capoDelivery := SessionByte.of_none rfl
theorem SessionByte.thermalDecision : SessionByte.Statement .thermalDecision := SessionByte.of_none rfl
theorem SessionByte.recoveryStep : SessionByte.Statement .recoveryStep := SessionByte.of_none rfl
theorem SessionByte.capIrqClear : ∀ x0 x1 x2, SessionByte.Statement (.capIrqClear x0 x1 x2) := fun _ _ _ => SessionByte.of_some rfl fun h => SessionByte.left h
theorem SessionByte.hint : ∀ x0 x1, SessionByte.Statement (.hint x0 x1) := fun _ _ => SessionByte.of_none rfl
theorem SessionByte.hintRetire : ∀ x0, SessionByte.Statement (.hintRetire x0) := fun _ => SessionByte.of_none rfl
theorem SessionByte.hintIrqClear : ∀ x0 x1 x2, SessionByte.Statement (.hintIrqClear x0 x1 x2) := fun _ _ _ => SessionByte.of_some rfl fun h => SessionByte.left h
theorem SessionByte.hintEntriesMaxRead : ∀ x0 x1, SessionByte.Statement (.hintEntriesMaxRead x0 x1) := fun _ _ => SessionByte.of_some rfl fun h => h
theorem SessionByte.scoreboardEntryParity : ∀ x0, SessionByte.Statement (.scoreboardEntryParity x0) := fun _ => SessionByte.of_none rfl
theorem SessionByte.staticTableParity : SessionByte.Statement .staticTableParity := SessionByte.of_none rfl
theorem SessionByte.staticTableReloaded : ∀ x0, SessionByte.Statement (.staticTableReloaded x0) := fun _ => SessionByte.of_none rfl
theorem SessionByte.activityFrame : ∀ x0 x1 x2, SessionByte.Statement (.activityFrame x0 x1 x2) := fun _ _ _ => SessionByte.of_none rfl
theorem SessionByte.livePredictions : SessionByte.Statement .livePredictions := SessionByte.of_none rfl
theorem SessionByte.forwardRefresh : SessionByte.Statement .forwardRefresh := SessionByte.of_none rfl
theorem SessionByte.droopObservation : ∀ x0, SessionByte.Statement (.droopObservation x0) := fun _ => SessionByte.of_none rfl
theorem SessionByte.learnerStep : ∀ x0, SessionByte.Statement (.learnerStep x0) := fun _ => SessionByte.of_none rfl
theorem SessionByte.passCommit : ∀ x0, SessionByte.Statement (.passCommit x0) := fun _ => SessionByte.of_none rfl
theorem SessionByte.passDiscard : ∀ x0 x1, SessionByte.Statement (.passDiscard x0 x1) := fun _ _ => SessionByte.of_none rfl
theorem SessionByte.cellParityError : ∀ x0, SessionByte.Statement (.cellParityError x0) := fun _ => SessionByte.of_none rfl
theorem SessionByte.groupEtaWrite : ∀ x0 x1 x2 x3, SessionByte.Statement (.groupEtaWrite x0 x1 x2 x3) := fun _ _ _ _ => SessionByte.of_some rfl fun h => SessionByte.left h
theorem SessionByte.groupFrozenWrite : ∀ x0 x1 x2 x3, SessionByte.Statement (.groupFrozenWrite x0 x1 x2 x3) := fun _ _ _ _ => SessionByte.of_some rfl fun h => SessionByte.left (SessionByte.left h)
theorem SessionByte.slotApply : ∀ x0 x1 x2, SessionByte.Statement (.slotApply x0 x1 x2) := fun _ _ _ => SessionByte.of_some rfl fun h => SessionByte.left h
theorem SessionByte.slotBuildEnd : ∀ x0, SessionByte.Statement (.slotBuildEnd x0) := fun _ => SessionByte.of_none rfl
theorem SessionByte.shardHalt : ∀ x0 x1 x2, SessionByte.Statement (.shardHalt x0 x1 x2) := fun _ _ _ => SessionByte.of_some rfl fun h => SessionByte.left h
theorem SessionByte.shardResume : ∀ x0 x1 x2, SessionByte.Statement (.shardResume x0 x1 x2) := fun _ _ _ => SessionByte.of_some rfl fun h => SessionByte.left h
theorem SessionByte.shardExport : ∀ x0 x1 x2, SessionByte.Statement (.shardExport x0 x1 x2) := fun _ _ _ => SessionByte.of_some rfl fun h => SessionByte.left h
theorem SessionByte.shardImport : ∀ x0 x1 x2, SessionByte.Statement (.shardImport x0 x1 x2) := fun _ _ _ => SessionByte.of_some rfl fun h => SessionByte.left h
theorem SessionByte.learnCellWrite : ∀ x0 x1 x2, SessionByte.Statement (.learnCellWrite x0 x1 x2) := fun _ _ _ => SessionByte.of_some rfl fun h => SessionByte.left (SessionByte.left h)
theorem SessionByte.learnIrqClear : ∀ x0 x1 x2, SessionByte.Statement (.learnIrqClear x0 x1 x2) := fun _ _ _ => SessionByte.of_some rfl fun h => SessionByte.left h
theorem SessionByte.scanReading : ∀ x0 x1 x2, SessionByte.Statement (.scanReading x0 x1 x2) := fun _ _ _ => SessionByte.of_none rfl
theorem SessionByte.calibrationSlot : ∀ x0 x1, SessionByte.Statement (.calibrationSlot x0 x1) := fun _ _ => SessionByte.of_none rfl
theorem SessionByte.confirmationRead : ∀ x0 x1 x2, SessionByte.Statement (.confirmationRead x0 x1 x2) := fun _ _ _ => SessionByte.of_none rfl
theorem SessionByte.restartTimerExpiry : SessionByte.Statement .restartTimerExpiry := SessionByte.of_none rfl
theorem SessionByte.diodeClear : ∀ x0 x1 x2, SessionByte.Statement (.diodeClear x0 x1 x2) := fun _ _ _ => SessionByte.of_some rfl fun h => SessionByte.left h
theorem SessionByte.diodeForceWrite : ∀ x0 x1 x2, SessionByte.Statement (.diodeForceWrite x0 x1 x2) := fun _ _ _ => SessionByte.of_some rfl fun h => SessionByte.left h
theorem SessionByte.thermalIrqClear : ∀ x0 x1 x2, SessionByte.Statement (.thermalIrqClear x0 x1 x2) := fun _ _ _ => SessionByte.of_some rfl fun h => SessionByte.left h
theorem SessionByte.pickupClear : ∀ x0 x1 x2 x3, SessionByte.Statement (.pickupClear x0 x1 x2 x3) := fun _ _ _ _ => SessionByte.of_some rfl fun h => SessionByte.left (SessionByte.left h)
theorem SessionByte.pickupForceWrite : ∀ x0 x1 x2 x3, SessionByte.Statement (.pickupForceWrite x0 x1 x2 x3) := fun _ _ _ _ => SessionByte.of_some rfl fun h => SessionByte.left (SessionByte.left h)
theorem SessionByte.conversionResult : ∀ x0 x1 x2 x3, SessionByte.Statement (.conversionResult x0 x1 x2 x3) := fun _ _ _ _ => SessionByte.of_none rfl
theorem SessionByte.slopeTestEnd : ∀ x0, SessionByte.Statement (.slopeTestEnd x0) := fun _ => SessionByte.of_none rfl
theorem SessionByte.fireStrobe : ∀ x0, SessionByte.Statement (.fireStrobe x0) := fun _ => SessionByte.of_none rfl
theorem SessionByte.fireWaitTimeout : ∀ x0, SessionByte.Statement (.fireWaitTimeout x0) := fun _ => SessionByte.of_none rfl
theorem SessionByte.conversionTimeout : ∀ x0, SessionByte.Statement (.conversionTimeout x0) := fun _ => SessionByte.of_none rfl
theorem SessionByte.syncArmSingle : ∀ x0 x1, SessionByte.Statement (.syncArmSingle x0 x1) := fun _ _ => SessionByte.of_some rfl fun h => h
theorem SessionByte.syncArmSweeps : ∀ x0 x1, SessionByte.Statement (.syncArmSweeps x0 x1) := fun _ _ => SessionByte.of_some rfl fun h => h
theorem SessionByte.syncCancel : ∀ x0 x1, SessionByte.Statement (.syncCancel x0 x1) := fun _ _ => SessionByte.of_some rfl fun h => h
theorem SessionByte.syncTrigger : SessionByte.Statement .syncTrigger := SessionByte.of_none rfl
theorem SessionByte.convUrgent : ∀ x0 x1 x2 x3, SessionByte.Statement (.convUrgent x0 x1 x2 x3) := fun _ _ _ _ => SessionByte.of_some rfl fun h => SessionByte.left (SessionByte.left h)
theorem SessionByte.urgentRequest : ∀ x0, SessionByte.Statement (.urgentRequest x0) := fun _ => SessionByte.of_none rfl
theorem SessionByte.convTableWrite : ∀ x0 x1 x2 x3 x4, SessionByte.Statement (.convTableWrite x0 x1 x2 x3 x4) := fun _ _ _ _ _ => SessionByte.of_some rfl fun h => SessionByte.left (SessionByte.left h)
theorem SessionByte.boardAnalogConversion : ∀ x0 x1, SessionByte.Statement (.boardAnalogConversion x0 x1) := fun _ _ => SessionByte.of_none rfl
theorem SessionByte.energyQuarter : ∀ x0, SessionByte.Statement (.energyQuarter x0) := fun _ => SessionByte.of_none rfl
theorem SessionByte.scoreboardParityError : ∀ x0 x1, SessionByte.Statement (.scoreboardParityError x0 x1) := fun _ _ => SessionByte.of_none rfl
theorem SessionByte.parityReturnTimer : ∀ x0, SessionByte.Statement (.parityReturnTimer x0) := fun _ => SessionByte.of_none rfl
theorem SessionByte.stringCmdMute : ∀ x0 x1 x2, SessionByte.Statement (.stringCmdMute x0 x1 x2) := fun _ _ _ => SessionByte.of_some rfl fun h => SessionByte.left h
theorem SessionByte.stringCmdReturn : ∀ x0 x1 x2, SessionByte.Statement (.stringCmdReturn x0 x1 x2) := fun _ _ _ => SessionByte.of_some rfl fun h => SessionByte.left h
theorem SessionByte.stringCmdSetBlind : ∀ x0 x1 x2, SessionByte.Statement (.stringCmdSetBlind x0 x1 x2) := fun _ _ _ => SessionByte.of_some rfl fun h => SessionByte.left h
theorem SessionByte.stringCmdClearBlind : ∀ x0 x1 x2, SessionByte.Statement (.stringCmdClearBlind x0 x1 x2) := fun _ _ _ => SessionByte.of_some rfl fun h => SessionByte.left h
theorem SessionByte.serviceClear : ∀ x0 x1 x2, SessionByte.Statement (.serviceClear x0 x1 x2) := fun _ _ _ => SessionByte.of_some rfl fun h => SessionByte.left h
theorem SessionByte.open_ : ∀ x0 x1, SessionByte.Statement (.open_ x0 x1) := fun _ _ => SessionByte.of_some rfl fun h => h
theorem SessionByte.close : ∀ x0 x1, SessionByte.Statement (.close x0 x1) := fun _ _ => SessionByte.of_some rfl fun h => h
theorem SessionByte.read : ∀ x0 x1 x2 x3 x4, SessionByte.Statement (.read x0 x1 x2 x3 x4) := fun _ _ _ _ _ => SessionByte.of_some rfl fun h => SessionByte.left (SessionByte.left (SessionByte.left h))
theorem SessionByte.write : ∀ x0 x1 x2 x3 x4 x5 x6, SessionByte.Statement (.write x0 x1 x2 x3 x4 x5 x6) := fun _ _ _ _ _ _ _ => SessionByte.of_some rfl fun h => SessionByte.left (SessionByte.left (SessionByte.left (SessionByte.left (SessionByte.left (SessionByte.left h)))))
theorem SessionByte.registerWrite : ∀ x0 x1 x2 x3 x4, SessionByte.Statement (.registerWrite x0 x1 x2 x3 x4) := fun _ _ _ _ _ => SessionByte.of_some rfl fun h => SessionByte.left (SessionByte.left h)
theorem SessionByte.sessionExpiry : ∀ x0, SessionByte.Statement (.sessionExpiry x0) := fun _ => SessionByte.of_none rfl
theorem SessionByte.i3cPrivateRead : SessionByte.Statement .i3cPrivateRead := SessionByte.of_none rfl
theorem SessionByte.i3cFrameDiscard : SessionByte.Statement .i3cFrameDiscard := SessionByte.of_none rfl
theorem SessionByte.entdaa : ∀ x0, SessionByte.Statement (.entdaa x0) := fun _ => SessionByte.of_none rfl
theorem SessionByte.setdasa : ∀ x0 x1, SessionByte.Statement (.setdasa x0 x1) := fun _ _ => SessionByte.of_none rfl
theorem SessionByte.rstdaa : SessionByte.Statement .rstdaa := SessionByte.of_none rfl
theorem SessionByte.getpid : SessionByte.Statement .getpid := SessionByte.of_none rfl
theorem SessionByte.getbcr : SessionByte.Statement .getbcr := SessionByte.of_none rfl
theorem SessionByte.getdcr : SessionByte.Statement .getdcr := SessionByte.of_none rfl
theorem SessionByte.getstatus : SessionByte.Statement .getstatus := SessionByte.of_none rfl
theorem SessionByte.enec : ∀ x0, SessionByte.Statement (.enec x0) := fun _ => SessionByte.of_none rfl
theorem SessionByte.disec : ∀ x0, SessionByte.Statement (.disec x0) := fun _ => SessionByte.of_none rfl
theorem SessionByte.inBandInterrupt : ∀ x0, SessionByte.Statement (.inBandInterrupt x0) := fun _ => SessionByte.of_none rfl
theorem SessionByte.mbxGo : ∀ x0, SessionByte.Statement (.mbxGo x0) := fun _ => SessionByte.of_none rfl
theorem SessionByte.ringRecord : SessionByte.Statement .ringRecord := SessionByte.of_none rfl
theorem SessionByte.commit : ∀ x0 x1 x2, SessionByte.Statement (.commit x0 x1 x2) := fun _ _ _ => SessionByte.of_some rfl fun h => SessionByte.left h
theorem SessionByte.commitDiscard : ∀ x0 x1 x2, SessionByte.Statement (.commitDiscard x0 x1 x2) := fun _ _ _ => SessionByte.of_some rfl fun h => SessionByte.left h
theorem SessionByte.commitGroupTaken : ∀ x0, SessionByte.Statement (.commitGroupTaken x0) := fun _ => SessionByte.of_none rfl
theorem SessionByte.keeperChallenge : ∀ x0 x1, SessionByte.Statement (.keeperChallenge x0 x1) := fun _ _ => SessionByte.of_some rfl fun h => h
theorem SessionByte.keeperResponse : ∀ x0 x1 x2, SessionByte.Statement (.keeperResponse x0 x1 x2) := fun _ _ _ => SessionByte.of_some rfl fun h => SessionByte.left (SessionByte.left h)
theorem SessionByte.challengeLapse : ∀ x0, SessionByte.Statement (.challengeLapse x0) := fun _ => SessionByte.of_none rfl
theorem SessionByte.keeperLockoutEnd : SessionByte.Statement .keeperLockoutEnd := SessionByte.of_none rfl
theorem SessionByte.keeperDrop : ∀ x0 x1, SessionByte.Statement (.keeperDrop x0 x1) := fun _ _ => SessionByte.of_some rfl fun h => h
theorem SessionByte.sessionEvict : ∀ x0 x1 x2, SessionByte.Statement (.sessionEvict x0 x1 x2) := fun _ _ _ => SessionByte.of_some rfl fun h => SessionByte.left h
theorem SessionByte.dmaStart : ∀ x0 x1 x2, SessionByte.Statement (.dmaStart x0 x1 x2) := fun _ _ _ => SessionByte.of_some rfl fun h => SessionByte.left h
theorem SessionByte.dmaAbort : ∀ x0 x1 x2, SessionByte.Statement (.dmaAbort x0 x1 x2) := fun _ _ _ => SessionByte.of_some rfl fun h => SessionByte.left h
theorem SessionByte.dmaKick : ∀ x0 x1 x2, SessionByte.Statement (.dmaKick x0 x1 x2) := fun _ _ _ => SessionByte.of_some rfl fun h => SessionByte.left h
theorem SessionByte.descriptorFetch : ∀ x0, SessionByte.Statement (.descriptorFetch x0) := fun _ => SessionByte.of_none rfl
theorem SessionByte.dmaBurst : ∀ x0 x1, SessionByte.Statement (.dmaBurst x0 x1) := fun _ _ => SessionByte.of_none rfl
theorem SessionByte.memoryWriteResponse : ∀ x0 x1, SessionByte.Statement (.memoryWriteResponse x0 x1) := fun _ _ => SessionByte.of_none rfl
theorem SessionByte.memoryReadBeat : ∀ x0 x1 x2 x3 x4, SessionByte.Statement (.memoryReadBeat x0 x1 x2 x3 x4) := fun _ _ _ _ _ => SessionByte.of_none rfl
theorem SessionByte.descriptorComplete : ∀ x0, SessionByte.Statement (.descriptorComplete x0) := fun _ => SessionByte.of_none rfl
theorem SessionByte.ownPoll : ∀ x0, SessionByte.Statement (.ownPoll x0) := fun _ => SessionByte.of_none rfl
theorem SessionByte.paceTimeout : ∀ x0, SessionByte.Statement (.paceTimeout x0) := fun _ => SessionByte.of_none rfl
theorem SessionByte.memoryTimeout : ∀ x0, SessionByte.Statement (.memoryTimeout x0) := fun _ => SessionByte.of_none rfl
theorem SessionByte.dmaIrqClear : ∀ x0 x1 x2 x3, SessionByte.Statement (.dmaIrqClear x0 x1 x2 x3) := fun _ _ _ _ => SessionByte.of_some rfl fun h => SessionByte.left (SessionByte.left h)
theorem SessionByte.stEnable : ∀ x0 x1, SessionByte.Statement (.stEnable x0 x1) := fun _ _ => SessionByte.of_some rfl fun h => h
theorem SessionByte.stDisable : ∀ x0 x1, SessionByte.Statement (.stDisable x0 x1) := fun _ _ => SessionByte.of_some rfl fun h => h
theorem SessionByte.stSweepEnd : SessionByte.Statement .stSweepEnd := SessionByte.of_none rfl
theorem SessionByte.stEntryFetched : ∀ x0, SessionByte.Statement (.stEntryFetched x0) := fun _ => SessionByte.of_none rfl
theorem SessionByte.stWritebackDue : ∀ x0, SessionByte.Statement (.stWritebackDue x0) := fun _ => SessionByte.of_none rfl
theorem SessionByte.stFlush : ∀ x0 x1, SessionByte.Statement (.stFlush x0 x1) := fun _ _ => SessionByte.of_some rfl fun h => h
theorem SessionByte.stHostFieldsWrite : ∀ x0 x1 x2, SessionByte.Statement (.stHostFieldsWrite x0 x1 x2) := fun _ _ _ => SessionByte.of_some rfl fun h => SessionByte.left (SessionByte.left h)
theorem SessionByte.stCacheParity : ∀ x0, SessionByte.Statement (.stCacheParity x0) := fun _ => SessionByte.of_none rfl
theorem SessionByte.recordFormed : SessionByte.Statement .recordFormed := SessionByte.of_none rfl
theorem SessionByte.trigSnapCountWrite : ∀ x0 x1 x2 x3, SessionByte.Statement (.trigSnapCountWrite x0 x1 x2 x3) := fun _ _ _ _ => SessionByte.of_some rfl fun h => SessionByte.left (SessionByte.left h)
theorem SessionByte.faultFreeze : ∀ x0 x1, SessionByte.Statement (.faultFreeze x0 x1) := fun _ _ => SessionByte.of_some rfl fun h => h
theorem SessionByte.faultUnfreeze : ∀ x0 x1, SessionByte.Statement (.faultUnfreeze x0 x1) := fun _ _ => SessionByte.of_some rfl fun h => h
theorem SessionByte.freezeExpired : SessionByte.Statement .freezeExpired := SessionByte.of_none rfl
theorem SessionByte.faultClear : ∀ x0 x1, SessionByte.Statement (.faultClear x0 x1) := fun _ _ => SessionByte.of_some rfl fun h => h
theorem SessionByte.traceClear : ∀ x0 x1, SessionByte.Statement (.traceClear x0 x1) := fun _ _ => SessionByte.of_some rfl fun h => h
theorem SessionByte.recQueueMaxRead : ∀ x0 x1, SessionByte.Statement (.recQueueMaxRead x0 x1) := fun _ _ => SessionByte.of_some rfl fun h => h
theorem SessionByte.refclkLost : SessionByte.Statement .refclkLost := SessionByte.of_none rfl
theorem SessionByte.refclkRegained : SessionByte.Statement .refclkRegained := SessionByte.of_none rfl
theorem SessionByte.clockCheck : ∀ x0 x1, SessionByte.Statement (.clockCheck x0 x1) := fun _ _ => SessionByte.of_none rfl
theorem SessionByte.registerPortAccess : ∀ x0 x1 x2 x3, SessionByte.Statement (.registerPortAccess x0 x1 x2 x3) := fun _ _ _ _ => SessionByte.of_none rfl
theorem SessionByte.trstNLow : SessionByte.Statement .trstNLow := SessionByte.of_none rfl
theorem SessionByte.testModeFall : SessionByte.Statement .testModeFall := SessionByte.of_none rfl
theorem SessionByte.bypass : SessionByte.Statement .bypass := SessionByte.of_none rfl
theorem SessionByte.idcode : SessionByte.Statement .idcode := SessionByte.of_none rfl
theorem SessionByte.samplePreload : ∀ x0 x1, SessionByte.Statement (.samplePreload x0 x1) := fun _ _ => SessionByte.of_none rfl
theorem SessionByte.extest : ∀ x0, SessionByte.Statement (.extest x0) := fun _ => SessionByte.of_none rfl
theorem SessionByte.testctrl : ∀ x0 x1, SessionByte.Statement (.testctrl x0 x1) := fun _ _ => SessionByte.of_none rfl
theorem SessionByte.twinReloadComplete : ∀ x0 x1, SessionByte.Statement (.twinReloadComplete x0 x1) := fun _ _ => SessionByte.of_none rfl
theorem SessionByte.hourWindow : SessionByte.Statement .hourWindow := SessionByte.of_none rfl
theorem SessionByte.fullSpeedStart : SessionByte.Statement .fullSpeedStart := SessionByte.of_none rfl
theorem SessionByte.testLogicReset : SessionByte.Statement .testLogicReset := SessionByte.of_none rfl

end Laws

end Sys2Proof
end

