-- ==== Sys2Proof/Laws/Segments.lean ====
section
/-! SUPPORT. A BLOB write in several segments (R441): what a segment leaves of the session, and what the last one does.
With `mid_start`, `mid_step` and `mid_last` a write of any length reaches its object's own rule. -/

set_option Elab.async false
set_option linter.all false

namespace Sys2Proof.Machine

/-- A state in the middle of the segments of a BLOB write in session `k`: the first `m` bytes of `b` have come. -/
structure State.Mid (s : State) (p : Path) (sess k : Nat) (o : Obj') (b : List Byte) (m : Nat) (t : State) : Prop where
  frame : State.Frame [.dict, .regs] s t
  slot : t.slotOf p sess = some k
  keeper : (t.session k).keeper = (s.session k).keeper
  buf : (t.session k).wbuf = if m = 0 then none else some (o.addr, slice b 0 m)
  regs : ∀ g : Reg, g.addr ≠ Obj.request_count.addr → t.get g = s.get g

theorem session_mod {s : State} {k : Nat} (f : Session → Session) (h : k < s.dict.sessions.length) :
    (s.modSession k f).session k = f (s.session k) := by
  simp only [State.session, State.modSession]; exact getD_modify_same f {} h

theorem ite_some {f : Nat → Bool} {j k : Nat} : (if f j = true then some j else none) = some k ↔ j = k ∧ f k = true := by
  by_cases h : f j = true
  · rw [if_pos h]
    constructor
    · intro e; cases e; exact ⟨rfl, h⟩
    · rintro ⟨rfl, _⟩; rfl
  · rw [if_neg h]
    constructor
    · intro e; cases e
    · rintro ⟨rfl, h2⟩; exact absurd h2 h

theorem slotOf_some {s : State} {p : Path} {b k : Nat} : s.slotOf p b = some k ↔
    ((match p with | .ring => 10 | _ => b % 16) = k ∧ ((pathSlots p).contains k && (s.session k).isOpen &&
      (p == .ring || (s.session k).gen == b / 16)) = true) := by
  cases p
  case ring => exact ite_some (f := fun k => (pathSlots .ring).contains k && (s.session k).isOpen && (Path.ring == .ring || (s.session k).gen == b / 16))
  case i3c => exact ite_some (f := fun k => (pathSlots .i3c).contains k && (s.session k).isOpen && (Path.i3c == .ring || (s.session k).gen == b / 16))
  case mbx0 => exact ite_some (f := fun k => (pathSlots .mbx0).contains k && (s.session k).isOpen && (Path.mbx0 == .ring || (s.session k).gen == b / 16))
  case mbx1 => exact ite_some (f := fun k => (pathSlots .mbx1).contains k && (s.session k).isOpen && (Path.mbx1 == .ring || (s.session k).gen == b / 16))

theorem tabGet_tabPut_same {α : Type} (d : α) (l : List (Nat × α)) (a : Nat) (x : α) : tabGet d (tabPut l a x) a = x := by
  induction l with
  | nil => simp [tabPut, tabGet]
  | cons y l ih =>
    unfold tabPut
    split
    · simp [tabGet]
    · split
      · simp [tabGet]
      · rename_i h1 h2; rw [tabGet, if_neg h2]; exact ih

theorem slotOf_lt {s : State} {p : Path} {b k : Nat} (h : s.slotOf p b = some k) : k < s.dict.sessions.length := by
  have hc := (slotOf_some.mp h).2
  apply Nat.lt_of_not_le
  intro hl
  have : s.session k = {} := by
    simp [State.session, List.getD_eq_getElem?_getD, List.getElem?_eq_none hl]
  rw [this] at hc; simp at hc

/-- The slot that a byte names depends on whether it is open and its generation. -/
theorem slotOf_congr {s t : State} {p : Path} {b k : Nat} (h : s.slotOf p b = some k)
    (ho : (t.session k).isOpen = (s.session k).isOpen) (hg : (t.session k).gen = (s.session k).gen) :
    t.slotOf p b = some k := by
  rw [slotOf_some] at h ⊢
  rw [ho, hg]; exact h

theorem answered_session {u : State} {p : Path} {sess k op st len : Nat} {d : List Byte} (h : u.slotOf p sess = some k) :
    (u.answered p sess op st len d).session k = { u.session k with last := u.now } := by
  have hl := slotOf_lt h
  have hs : (u.answered p sess op st len d).dict.sessions = (u.modSession k fun x => { x with last := u.now }).dict.sessions := by
    unfold State.answered State.complete
    rw [h]
    cases p <;> rfl
  rw [show (u.answered p sess op st len d).session k = (u.modSession k fun x => { x with last := u.now }).session k by
    simp only [State.session, hs]]
  exact session_mod _ hl

theorem answered_frame (u : State) (p : Path) (sess op st len : Nat) (d : List Byte) :
    State.Frame [.dict, .regs] u (u.answered p sess op st len d) := by
  have : State.Frame [.dict, .regs] u (u.complete p { op, sess }) := by
    unfold State.complete
    intro q hq; cases q <;> first | exact absurd (by decide) hq | (split <;> rfl)
  intro q hq
  refine State.same_trans (this q hq) ?_
  show State.same _ (State.noteLines (State.deliver _ p _)) q
  generalize u.complete p _ = v
  unfold State.noteLines State.deliver
  cases q <;> first | exact absurd (by decide) hq | (cases p <;> rfl)

theorem answered_get {u : State} {p : Path} {sess op st len : Nat} {d : List Byte} {g : Reg}
    (h : g.addr ≠ Obj.request_count.addr) : (u.answered p sess op st len d).get g = u.get g := by
  have : (u.complete p { op, sess }).get g = u.get g := by
    unfold State.complete; rw [State.get_count_other _ _ _ h]; split <;> rfl
  rw [← this]
  have hr : (u.answered p sess op st len d).regs = (u.complete p { op, sess }).regs := by
    unfold State.answered
    generalize u.complete p _ = v
    cases p <;> rfl
  unfold State.get; rw [hr]

theorem slice_append (b : List Byte) (m n : Nat) : slice b 0 m ++ slice b m n = slice b 0 (m + n) := by
  simp only [slice, ← List.map_append]
  congr 1
  have := @List.range'_append_1 0 m n
  simpa using this

theorem fit_seg {sess idx sub fl off : Nat} {b : List Byte} (hb : ∀ x ∈ b, x < 256) (h : sess < 256) (hi : idx < 65536)
    (hs : sub < 256) (hf : fl < 256) (ho : off < 65536) : ({ op := opWrite, sess, idx, sub, flags := fl, off, data := b } : Req).fit =
      { op := opWrite, sess, idx, sub, flags := fl, off, data := b } := by
  have : b.map (· % 256) = b := by
    conv => rhs; rw [← List.map_id b]
    exact List.map_congr_left fun x hx => Nat.mod_eq_of_lt (hb x hx)
  simp only [Req.fit, this, Nat.mod_eq_of_lt h, Nat.mod_eq_of_lt hi, Nat.mod_eq_of_lt hs, Nat.mod_eq_of_lt hf, Nat.mod_eq_of_lt ho]
  rfl

theorem slice_lt {b : List Byte} (hb : ∀ x ∈ b, x < 256) (m n : Nat) : ∀ x ∈ slice b m n, x < 256 := by
  intro x hx
  simp only [slice, List.mem_map] at hx
  obtain ⟨i, _, rfl⟩ := hx
  rw [List.getD_eq_getElem?_getD]
  by_cases h : i < b.length
  · rw [List.getElem?_eq_getElem h]; exact hb _ (List.getElem_mem h)
  · rw [List.getElem?_eq_none (by omega)]; decide

/-- What a lookup depends on. -/
theorem lookup_congr {s t : State} {w kp : Bool} {idx sub : Nat} (hc : t.cfg = s.cfg)
    (hr : ∀ g : Reg, g.addr ≠ Obj.request_count.addr → t.get g = s.get g) : t.lookup w kp idx sub = s.lookup w kp idx sub := by
  have : ∀ o, t.selectionAbsent o = s.selectionAbsent o := by
    intro o; unfold State.selectionAbsent State.cellSel State.getN
    rw [hc, hr Obj.st_sel (by decide), hr Obj.learn_cell_sel (by decide)]
  unfold State.lookup; rw [hc]; simp only [this]

theorem mid_start {s : State} {p : Path} {sess k : Nat} (o : Obj') (b : List Byte) (h : s.Serves p sess k) : State.Mid s p sess k o b 0 s :=
  ⟨fun q _ => s.same_refl q, h.slot, rfl, h.fresh, fun _ _ => rfl⟩

theorem mid_step {s t : State} {p : Path} {sess k idx sub m n : Nat} {o : Obj'} {b : List Byte} (h : s.Serves p sess k)
    (ht : State.Mid s p sess k o b m t) (hb : ∀ x ∈ b, x < 256) (hi : idx < 65536) (hs : sub < 256)
    (ho : s.lookup true (s.session k).keeper idx sub = .ok o) (hbl : o.ty.isBlob = true) (hl : b.length = o.ty.length)
    (hn : 0 < n) (hn64 : n ≤ 64) (hm : m + n ≤ b.length) (hsz : b.length < 65536) :
    State.Mid s p sess k o b (m + n) (t.request p { op := opWrite, sess, idx, sub, flags := 0, off := m, data := slice b m n }) := by
  have hll := slotOf_lt ht.slot
  have hbk : t.blk = s.blk := ht.frame .blk (by decide)
  have hidle : t.pathBusy p = false := by
    have : t.dma = s.dma := ht.frame .dma (by decide)
    unfold State.pathBusy; rw [this]; exact h.idle
  have hlk : t.lookup true (t.session k).keeper idx sub = .ok o := by
    rw [lookup_congr (ht.frame .cfg (by decide)) ht.regs, ht.keeper]; exact ho
  have hg : gather (t.session k).wbuf o.addr o.ty.length m false (slice b m n) = .more (slice b 0 (m + n)) := by
    rw [ht.buf]
    unfold gather
    by_cases hm0 : m = 0
    · subst hm0; simp [slice, show ¬ 64 < n by omega, show ¬ o.ty.length < n by omega]
    · simp only [hm0, if_false, beq_self_eq_true, Bool.not_true, slice_append]
      simp [slice, show ¬ 64 < n by omega, show ¬ o.ty.length < m + n by omega]
  have hserve : t.serve p { op := opWrite, sess, idx, sub, flags := 0, off := m, data := slice b m n } =
      (some { op := opWrite, sess, status := 0, objLen := o.ty.length },
       t.modSession k fun x => { x with wbuf := some (o.addr, slice b 0 (m + n)) }) := by
    have hbit : bit 0 0 = false := by decide
    unfold State.serve
    simp only [opWrite, opOpen, opClose, opRead, State.serveWrite, ht.slot, hlk, hbl, State.writeBlob, hbit, hg]
    simp
  rw [request_served (fit_seg (slice_lt hb m n) h.byte hi hs (by decide) (by omega)) (by rw [hbk]; exact h.serves) hidle (by cases p <;> rfl) hserve]
  generalize hu : (t.modSession k fun x => { x with wbuf := some (o.addr, slice b 0 (m + n)) }) = u
  have hus : u.session k = { t.session k with wbuf := some (o.addr, slice b 0 (m + n)) } := by rw [← hu]; exact session_mod _ hll
  have hsl : u.slotOf p sess = some k := slotOf_congr ht.slot (by rw [hus]) (by rw [hus])
  have huf : State.Frame [.dict, .regs] s u := by
    intro q hq; rw [← hu]; have := ht.frame q hq
    cases q <;> first | exact absurd (by decide) hq | exact this
  show State.Mid s p sess k o b (m + n) (u.answered p sess opWrite 0 o.ty.length)
  have hses := answered_session (op := opWrite) (st := 0) (len := o.ty.length) (d := []) hsl
  refine ⟨fun q hq => State.same_trans (huf q hq) (answered_frame u p sess opWrite 0 o.ty.length [] q hq), slotOf_congr hsl (by rw [hses]) (by rw [hses]), ?_, ?_, ?_⟩
  · rw [hses, hus]; exact ht.keeper
  · rw [hses, hus]; rw [if_neg (by omega)]
  · intro g hg; rw [answered_get hg, ← ht.regs g hg, ← hu]; rfl

theorem mid_last {s t : State} {p : Path} {sess k idx sub m n : Nat} {o : Obj'} {b : List Byte} (h : s.Serves p sess k)
    (ht : State.Mid s p sess k o b m t) (hb : ∀ x ∈ b, x < 256) (hi : idx < 65536) (hs : sub < 256)
    (ho : s.lookup true (s.session k).keeper idx sub = .ok o) (hbl : o.ty.isBlob = true) (hl : b.length = o.ty.length)
    (hn64 : n ≤ 64) (hm : m + n = b.length) (hsz : b.length < 65536) :
    ∃ u, u = (t.modSession k fun x => { x with wbuf := none }) ∧
    t.request p { op := opWrite, sess, idx, sub, flags := 1, off := m, data := slice b m n } =
      (u.writeWhole p k o b).2.answered p sess opWrite (u.writeWhole p k o b).1
        (if (u.writeWhole p k o b).1 = 0 then o.ty.length else 0) := by
  have hbk : t.blk = s.blk := ht.frame .blk (by decide)
  have hidle : t.pathBusy p = false := by
    have : t.dma = s.dma := ht.frame .dma (by decide)
    unfold State.pathBusy; rw [this]; exact h.idle
  have hlk : t.lookup true (t.session k).keeper idx sub = .ok o := by
    rw [lookup_congr (ht.frame .cfg (by decide)) ht.regs, ht.keeper]; exact ho
  have hall : slice b 0 (m + n) = b := by rw [hm]; exact slice_all b
  have hg : gather (t.session k).wbuf o.addr o.ty.length m true (slice b m n) = .whole b := by
    rw [ht.buf]
    unfold gather
    by_cases hm0 : m = 0
    · subst hm0
      have : slice b 0 n = b := by simpa using hall
      simp only [if_true, List.length_nil, ne_eq, not_true_eq_false, Bool.not_true, Bool.false_eq_true, false_or, List.nil_append, this]
      have hb64 : b.length ≤ 64 := by omega
      simp [← hl, show ¬ 64 < b.length by omega]
    · simp only [hm0, if_false, beq_self_eq_true, Bool.not_true, slice_append, hall]
      have h1 : (slice b 0 m).length = m := by simp [slice]
      have h2 : (slice b m n).length = n := by simp [slice]
      simp [h1, h2, hl, show ¬ 64 < n by omega]
  refine ⟨_, rfl, ?_⟩
  generalize hu : (t.modSession k fun x => { x with wbuf := none }) = u
  have hserve : t.serve p { op := opWrite, sess, idx, sub, flags := 1, off := m, data := slice b m n } =
      (some { op := opWrite, sess, status := (u.writeWhole p k o b).1, objLen := if (u.writeWhole p k o b).1 = 0 then o.ty.length else 0 },
       (u.writeWhole p k o b).2) := by
    have hbit : bit 1 0 = true := by decide
    unfold State.serve
    simp only [opWrite, opOpen, opClose, opRead, State.serveWrite, ht.slot, hlk, hbl, State.writeBlob, hbit, hg, hu]
    simp
  rw [request_served (fit_seg (slice_lt hb m n) h.byte hi hs (by decide) (by omega)) (by rw [hbk]; exact h.serves) hidle (by cases p <;> rfl) hserve]
  rfl

end Sys2Proof.Machine
end

