-- ==== Sys2Proof/Tests/Slice0.lean ====
section
/-! SUPPORT. The model's own tests: ill-formed commands that WellFormed refuses, results that the manual's worked
examples and tables give, and, for every statement, states and operands that meet its hypotheses (`test_meets_…`). -/

set_option Elab.async false

namespace Sys2Proof.Tests
open Sys2Proof.Machine

/-! ## Well-formed commands: an ill-formed term for each check -/

theorem test_wf_region : (Instr.damper 76).wf = false ∧ (Instr.damper 75).wf = true := by decide
theorem test_wf_string : (Instr.shedArrival 1120).wf = false ∧ (Instr.shedArrival 1119).wf = true := by decide
theorem test_wf_course : (Instr.laneTimeout 140).wf = false ∧ (Instr.laneTimeout 139).wf = true := by decide
theorem test_wf_rail : (Instr.railFailed 3).wf = false ∧ (Instr.positionJoin 0 16).wf = false := by decide
theorem test_wf_conv : (Instr.fireStrobe 70).wf = false ∧ (Instr.conversionResult 70 0 true true).wf = false ∧
    (Instr.convUrgent .i3c 0 0 (2 ^ 32)).wf = false := by decide
theorem test_wf_front : (Instr.calibrationSlot 4 0).wf = false ∧ (Instr.smbusAlert 10 none).wf = false := by decide
theorem test_wf_shard : (Instr.passCommit 8).wf = false ∧ (Instr.passDiscard 0 (some (0, 32))).wf = false := by decide
theorem test_wf_slot : (Instr.slotApply .i3c 0 11).wf = false ∧ (Instr.slotBuildEnd 8).wf = false := by decide
theorem test_wf_session : (Instr.open_ .i3c 256).wf = false ∧ (Instr.sessionExpiry 11).wf = false := by decide
theorem test_wf_write : (Instr.write .i3c 0 65536 0 0 0 []).wf = false ∧
    (Instr.write .i3c 0 0 0 0 0 [256]).wf = false ∧ (Instr.write .i3c 0 0 0 0 0 (List.replicate 65 0)).wf = false := by
  decide
theorem test_wf_channel : (Instr.chFlagsClear .i3c 0 79 0).wf = false ∧ (Instr.dmaBurst 8 true).wf = false := by decide
theorem test_wf_txn : (Instr.memoryWriteResponse 64 false).wf = false ∧ (Instr.mbxGo 2).wf = false := by decide
theorem test_wf_group : (Instr.commitGroupTaken 0).wf = false ∧ (Instr.groupFrozenWrite .i3c 0 64 0).wf = false := by decide
theorem test_wf_bytes : (Instr.keeperResponse .i3c 0 [1, 2]).wf = false ∧
    (Instr.memoryReadBeat 0 (List.replicate 16 256) true true false).wf = false := by decide
theorem test_wf_cell : (Instr.cellParityError (.cell 76 0)).wf = false ∧
    (Instr.cellParityError (.droop 0 3)).wf = false ∧ (Instr.bankParityError 79 .kff).wf = false := by decide
theorem test_wf_port : (Instr.registerPortAccess true 1024 0 0).wf = false ∧ (Instr.entdaa 128).wf = false ∧
    (Instr.hint (2 ^ 128) 0).wf = false ∧ (Instr.activityFrame 0 0 65536).wf = false ∧
    (Instr.samplePreload 0 (2 ^ 1742)).wf = false ∧ (Instr.clockCheck [76] 0).wf = false := by decide +kernel
theorem test_wf_checks : (Instr.selftestComplete false false [⟨71, 0, 0⟩]).wf = false ∧
    (Instr.selftestComplete false false [⟨70, 0, 65521⟩]).wf = false ∧
    (Instr.resetNLow [⟨false, [2 ^ 32]⟩]).wf = false ∧ (Instr.learnerStep [8]).wf = false ∧
    (Instr.spreadStrobe 0 [76]).wf = false ∧ (Instr.regionCycle 0 [⟨256, true⟩]).wf = false := by decide
theorem test_wf_course_bytes : (Instr.followUp 0 0 [(8, 0)]).wf = false ∧ (Instr.courseRecordCopy 0 [] [] []).wf = false ∧
    (Instr.courseDiscovery 0 .ok (List.replicate 33 0)).wf = false ∧ (Instr.fuseloadComplete []).wf = false ∧
    (Instr.staticTableReloaded []).wf = false ∧ (Instr.registerWrite .i3c 0 0 256 0).wf = false := by decide

/-! ## States to work on -/

/-- RUN, with session 0 of I3C open as a keeper session. -/
def base : State :=
  { State.reset with
    now := 10000000
    blk := { st := .run }
    dict := { sessions := { isOpen := true, keeper := true } :: List.replicate 10 {} } }

/-- The same in another block state. -/
def inState (b : BState) : State := { base with blk := { st := b } }

/-- String 0 as `x`. -/
def withStr (x : Str) : State := { base with strings := x :: List.replicate 1119 {} }

/-- Region 0 as `x`, the others at their reset values. -/
def withRegion (x : Region) : State := { base with regions := x :: State.reset.regions.drop 1 }

/-- Course 0 as `x`, in the block state `b`. -/
def withCourse (b : BState) (x : Course) : State := { inState b with courses := x :: List.replicate 139 {} }

theorem base_serves : base.Serves .i3c 0 0 := ⟨by decide, rfl, rfl, rfl, rfl⟩
theorem inState_serves {b : BState} (h : b.serves = true) : (inState b).Serves .i3c 0 0 := ⟨by decide, h, rfl, rfl, rfl⟩
theorem withStr_serves (x : Str) : (withStr x).Serves .i3c 0 0 := ⟨by decide, rfl, rfl, rfl, rfl⟩

/-! ## The manual's worked examples and tables -/

/-- Session 0x53 of 14_dictionary.md's example: slot 3 in generation 5. -/
def session53 : State :=
  { base with dict := { sessions := List.replicate 3 {} ++ [{ gen := 5, isOpen := true }] ++ List.replicate 7 {} } }

/-- The state that a command answers; the state itself where it answers none. -/
def after (c : Instr) (s : State) : State := match exec c s with | .next t => t | _ => s

/-- R451's example: the write of 88 to `release_depth` is staged, and the response is `04 53 00 01 00 00`. -/
def widened : State := after (.write .i3c 0x53 0x2200 0x22 1 0 [0x58]) session53
theorem test_staged_write_response : widened.dict.i3c.resp = some [0x04, 0x53, 0, 1, 0, 0] := by decide +kernel
theorem test_staged_write_pending :
    widened.dict.pending = 0x10 ∧ widened.getN Obj.release_depth = 48 := by decide +kernel
/-- R102 in that example: the commit raises `ov_offset` to 104. -/
theorem test_commit_raises_ov_offset :
    let t := after (.write .i3c 0x53 0x1200 0x01 1 0 [0x10]) widened
    t.getN Obj.release_depth = 88 ∧ t.getN Obj.ov_offset = 104 ∧ t.dict.pending = 0 := by decide +kernel

/-- 05_control_engine.md, a PWM trim: 250 kHz at 62.5% gives 15.375 mV, 123 in `trim_raw`. -/
theorem test_pwm_trim_raw :
    (after (.trimPwmPeriod 625 375)
      { base with used := { g6 := { mode := 1 } } }).eng.raw = 123 := by decide +kernel
/-- The same example: 16 periods reach 15.375 mV, 1 mV a period. -/
theorem test_trim_first_period : slewTo 0 15375 1000 1000 = 1000 ∧ slewTo 15000 15375 1000 1000 = 15375 := by decide

/-- 08_learner.md, one prediction in region 27: y_raw = 2,600. -/
def cell27 : Cell :=
  { w := List.replicate 8 6 ++ List.replicate 8 1, e := -2, b := 120
    xbar := List.replicate 8 (200 * 256) ++ List.replicate 8 (40 * 256) }
theorem test_prediction_raw : cell27.raw (List.replicate 8 200 ++ List.replicate 8 40) = 2600 := by decide +kernel
/-- 09_learner_update.md: cell (27, 7) lies in shard 3. -/
theorem test_shard_of_region : shardOf 27 = 3 ∧ shardOf 67 = 3 ∧ shardOf 75 = 3 := by decide
/-- 10_thermal.md: diode 27 is on front end 2, 19 and 26 on 1, 28 and 35 on 3. -/
theorem test_front_of_region :
    [27, 19, 26, 28, 35].map frontOf = [2, 1, 1, 3, 3] := by decide

/-- 03_transients.md, a strum in region 27: 5818 is past 6016 − 192, 5824 is not. -/
theorem test_strum_threshold :
    ({ hist := [5818] } : Twin).triggers 6016 = true ∧ ({ hist := [5824] } : Twin).triggers 6016 = false := by decide

/-- 13_startup.md: VCORE ramps down from 940 mV to 500 mV in 440 µs, VMEM from 800 mV to 650 mV in 150 µs. -/
theorem test_ramp_down :
    downRefAt (mvUnits 940) 0 440000 = mvUnits 500 ∧ mvUnits 500 < downRefAt (mvUnits 940) 0 439000 ∧
      downRefAt (mvUnits 800) 1 150000 = mvUnits 650 := by decide
/-- 13_startup.md: V0 of VCORE is 680 + 15 + 45 + 5 = 745 mV. -/
theorem test_v0 :
    ({ base with tune := { chip := 544 :: List.replicate 15 704, gAge := 12 } } : State).v0Of 0 = 745 * 32 / 5 := by
  decide +kernel
/-- 05_control_engine.md: 940.00 mV is 6016 units. -/
theorem test_units : mvUnits 940 = 6016 := by decide

/-- 17_ports.md: the control word 0xC104_4000 is OWN, IRQ, DIR = 1, SRC_W = DST_W = 4. -/
theorem test_control_word :
    let c : DmaCh := { words := [0xC1044000] }
    c.own = true ∧ c.irqBit = true ∧ c.last = false ∧ c.dir = 1 ∧ c.srcW = 4 ∧ c.dstW = 4 := by decide
/-- R541: the IDCODE. -/
theorem test_idcode : (after .idcode base).clk.shift = 0x30F3D157 := by decide
/-- R442: BCR 0x06. -/
theorem test_getbcr : (after .getbcr base).dict.i3c.out = some [0x06] := by decide
/-- 10_thermal.md, two throttle steps: n = 1 at `cap_w` 2,400 W and 2.0% gives 2,352 W, n = 2 2,304 W. -/
theorem test_throttle_limit :
    let s : State := base.set Obj.cap_w 2400
    (after .capStep { s with therm := { n := 1 } }).cap.pLim = 2352000 ∧
      (after .capStep { s with therm := { n := 2 } }).cap.pLim = 2304000 := by decide +kernel
/-- The same example: the limit of a hot region at fret 13 becomes 12. -/
theorem test_throttle_step :
    let s : State := { withRegion { fret := { fret := 13 } } with
      therm := { diodes := { temp := 842, hasTemp := true } :: List.replicate 75 {} } }
    let t := after .thermalDecision s
    t.therm.n = 1 ∧ (t.region 0).sup.limit = 12 ∧ (t.region 1).sup.limit = 15 := by decide +kernel
/-- R399 and R396: out of RESET only after 10 µs. -/
theorem test_reset_exit :
    (after (.resetExit 0) State.reset).blk.st = .reset ∧
      (after (.resetExit 0) { State.reset with now := 10000 }).blk.st = .selftest := by decide +kernel
/-- R546: block time stands at 0 on entry into RESET. -/
theorem test_supplies : (after .suppliesGood (after .suppliesLost base)).now = 0 ∧
    (after .suppliesLost base).blk.st = .off := by decide +kernel
/-- R24, log 11: a region that no configuration has is no region; nothing can happen to it. -/
theorem test_no_region : exec (.damper 76) base = .next base := rfl
/-- R10: an unpopulated string of a reduced configuration is ignored (00_scope.md, region 47 with 12 strings). -/
theorem test_unpopulated :
    Config.popString { variant := 1, nVcore := 48, nStr := 12, staticAddr := 0x2A } 763 = true ∧
      Config.popString { variant := 1, nVcore := 48, nStr := 12, staticAddr := 0x2A } 764 = false := by decide
/-- R4 and R5 in the same example: `units` reads 0x0C in Farod-3L. -/
theorem test_units_of_variant :
    Config.units { variant := 1, nVcore := 48, nStr := 12, staticAddr := 0x2A } = 0x0C := by decide
theorem test_decode_none : decodeTableWord 32 0 = none := rfl


/-! ## States that meet the statements' hypotheses -/

theorem serves_of {s : State} (b : s.blk.st.serves = true) (d : s.dict = base.dict)
    (r : s.dma.tab.reads = []) : s.Serves .i3c 0 0 where
  byte := by decide
  serves := b
  idle := by simp [State.pathBusy, r]
  slot := by simp only [State.slotOf, State.session, d]; rfl
  fresh := by simp only [State.session, d]; rfl

/-- RUN with the rails `l`. -/
def withRails (b : BState) (l : List Rail) : State := { inState b with rails := l }

theorem test_meets_EmptyQueueAdvancesTime :
    (base.pending = [] ∧ base.blk.st ≠ .off ∧ ∃ t, Host.Core.run core 1 base = .next t) ∧
      (inState .off).pending = [] ∧ (inState .off).blk.st = .off :=
  ⟨⟨rfl, by decide, _, rfl⟩, rfl, rfl⟩
theorem base_units : base.Units where
  rails := by decide +kernel
  regions := by decide +kernel
  strings := by decide +kernel
  courses := by decide +kernel
  chans := by decide +kernel
  convs := by decide +kernel
theorem test_meets_EveryCommandAnswersAndKeepsTheQueue :
    (∃ t, exec .idcode base = .next t) ∧ base.Units ∧ rfWf base.regs = true :=
  ⟨⟨_, rfl⟩, base_units, rfl⟩
theorem test_meets_EveryStepKeepsTheStateSound : base.Sound ∧ ∃ t, step base = .next t :=
  ⟨⟨rfl, base_units, by decide, rfl, rfl, by unfold State.RailsOk spRange; decide⟩, _, rfl⟩
theorem test_meets_BlockStateFollowsTheTransitions : ∃ t, exec .suppliesLost base = .next t ∧ t.blk.st ≠ base.blk.st :=
  ⟨_, rfl, by decide⟩
theorem test_meets_TriggersJoinTheQueue :
    rfWf base.regs = true ∧ base.routeOf 63 = 0 ∧ base.routeOf 1 ≠ 0 ∧ base.recd.queue.length < 2048 ∧
      2048 ≤ { base with recd := { queue := List.replicate 2048 ⟨1, 0, {}, none, none, 3, 0⟩ } : State }.recd.queue.length ∧
      (let q : List Trig := [⟨1, 0, {}, none, none, 3, 0⟩, ⟨1, 0, {}, none, none, 3, 1⟩]
       (∀ y ∈ q, y.part = none) ∧ q.Pairwise fun y z => y.cyc < z.cyc ∨ y.cyc = z.cyc ∧
          (y.ty < z.ty ∨ y.ty = z.ty ∧ y.src.word ≤ z.src.word)) := by decide +kernel
/-- In RESET long after power-on, with the test port's instruction `x`. -/
def resetting (x : TapInstr) : State := { State.reset with now := 10000, clk := { tap := x } }

theorem test_meets_SuppliesResetAndSelftest :
    (inState .off).blk.st = .off ∧ base.blk.st ≠ .off ∧
      (let s : State := { base with recd := { fault := [⟨5, 0, 0, [], 0⟩, ⟨6, 0, 0, [], 0⟩] } }
       (∀ x ∈ s.recd.fault, x.seq ∉ [6] → x.seq ≤ 5) ∧ ∃ x ∈ s.recd.fault, x.seq ∉ [6] ∧ x.seq = 5) ∧
      (∀ x ∈ [TapInstr.bypass, .extest], let s := resetting x
       s.blk.st = .reset ∧ s.clk.refLost = false ∧ max s.blk.holdUntil s.blk.refUntil ≤ s.now ∧ 9970 + 30 ≤ s.now) ∧
      (resetting .bypass).clk.tap ≠ .extest ∧ (resetting .extest).clk.tap = .extest ∧
      base.blk.st ≠ .reset ∧ ({ base with clk := { refLost := true } } : State).clk.refLost = true ∧
      State.reset.now < State.reset.blk.holdUntil ∧ State.reset.now < State.reset.blk.refUntil ∧
      (resetting .bypass).now < 9971 + 30 ∧
      (let s := inState .selftest
       s.blk.st = .selftest ∧ Config.popConv s.cfg 69 = true ∧ (s.conv 69).failed = false ∧ s.cg.baFailed = false ∧
         (((16000 : Nat) : Int) - (16 * 1000 : Nat)).natAbs ≤ 16 * s.getN Obj.ref_tolerance ∧
         16 * s.getN Obj.ref_tolerance < (((65520 : Nat) : Int) - (16 * 1000 : Nat)).natAbs) := by decide +kernel

set_option maxRecDepth 8000 in
theorem test_meets_FuseImageIsLoaded :
    (inState .fuseload).blk.st = .fuseload ∧
      (let b : List Byte := List.replicate 0x11C 0 ++ leBytes 4 (crc32c (List.replicate 0x10C 0))
       fieldAt b 0x11C 4 = crc32c (slice b 0x10 0x10C)) ∧
      fieldAt [] 0x11C 4 ≠ crc32c (slice [] 0x10 0x10C) := by decide +kernel

/-- DISCOVER with course 139 as `x`, the others done. -/
def discovering (pending : Bool) (x : Course) : State :=
  { inState .discover with
    blk := { st := .discover, shutPending := pending }
    courses := List.replicate 139 { done := true, present := true, outcome := 1 } ++ [x] }

theorem test_meets_DiscoveryOutcomesAndEnd :
    (let s := inState .discover
     s.blk.st = .discover ∧ Config.popCourse s.cfg 139 = true ∧ (s.course 139).done = false ∧
       (s.course 139).fail = none ∧ ∃ k ∈ Config.courses s.cfg, segmentOf k = segmentOf 139 ∧ k < 139 ∧
         (s.course k).done = false) ∧
    (let s := discovering false {}
     s.blk.st = .discover ∧ Config.popCourse s.cfg 139 = true ∧ (s.course 139).done = false ∧
       (s.course 139).fail = none ∧
       ∀ k ∈ Config.courses s.cfg, segmentOf k = segmentOf 139 → k < 139 → (s.course k).done = true) ∧
    (let s := discovering false { fail := some (.noAck, 1, 0) }
     (s.course 139).done = false ∧ (s.course 139).fail = some (.noAck, 1, 0) ∧ 0 + 100000 ≤ s.now) ∧
    (let s := discovering false { fail := some (.clockLow, 1, 9900000) }
     (s.course 139).fail = some (.clockLow, 1, 9900000) ∧ 9900000 + 100000 ≤ s.now) ∧
    (discovering false { fail := some (.badPec, 1, 0) }).course 139 = { fail := some (.badPec, 1, 0) } ∧
    (discovering false { fail := some (.badPec, 2, 0) }).course 139 = { fail := some (.badPec, 2, 0) } ∧
    (∀ q, let s := discovering q { done := true, outcome := 2 }
     s.blk.st = .discover ∧ s.blk.shutPending = q ∧ ∀ c ∈ Config.courses s.cfg, (s.course c).done = true) := by
  decide +kernel

/-- RAMP, turn 2 in the default order, with rail `q` as `x`, the others good. -/
def ramping (i q : Nat) (x : Rail) : State :=
  { inState .ramp with
    blk := { st := .ramp, rampIdx := i }
    rails := (List.replicate 3 { st := .good }).set q x }

theorem test_meets_RailRampsStartAndEnd :
    (let s := ramping 0 0 {}
     s.turnRail = some 0 ∧ (s.rail 0).st = .off ∧ s.blk.rampIdx + 1 < 3 ∧
       (let strs := (Config.allStrings s.cfg).filter fun i => railOf (regionOf i) == 0
        2 * (strs.filter fun i => (s.course (courseOf i)).outcome == 1).length < strs.length)) ∧
    (let s := { ramping 2 2 {} with courses := List.replicate 140 { outcome := 4 } }
     s.turnRail = some 2 ∧ (s.rail 2).st = .off ∧
       (let strs := (Config.allStrings s.cfg).filter fun i => railOf (regionOf i) == 2
        strs.length ≤ 2 * (strs.filter fun i => (s.course (courseOf i)).outcome == 1 ||
          (s.course (courseOf i)).outcome == 3 || (s.course (courseOf i)).outcome == 4).length)) ∧
    (let s := ramping 2 2 { st := .ramping, enAt := some 9990000 }
     (s.rail 2).st = .ramping ∧ (s.rail 2).refAt = none ∧ (s.rail 2).enAt = some 9990000 ∧ 9990000 + 10000 ≤ s.now) ∧
    (let s := ramping 0 0 { st := .ramping, refAt := some 0 }
     (s.rail 0).refAt = some 0 ∧ 0 + joinTime 0 s.blk.rampTime 15 ≤ s.now ∧ 15 ∉ (s.rail 0).joined) ∧
    (let s := { ramping 1 1 { st := .ramping, refAt := some 0 } with
       regions := List.replicate 76 { loop := { pgSince := some 9900000 } } }
     s.blk.st = .ramp ∧ s.turnRail = some 1 ∧ (s.rail 1).st = .ramping ∧ s.railHeld 1 = true ∧ s.blk.rampIdx + 1 < 3) ∧
    (let s := { ramping 2 2 { st := .ramping, refAt := some 0 } with
       regions := List.replicate 76 { loop := { pgSince := some 9900000 } } }
     s.turnRail = some 2 ∧ (s.rail 2).st = .ramping ∧ s.railHeld 2 = true ∧ rfWf s.regs = true ∧ s.blk.rampIdx = 2 ∧
       (∀ p < 3, p ≠ 2 → (s.rail p).st = .good) ∧ s.getN Obj.service_reasons = 0 ∧
       (s.rails.length = 3 ∧ s.regions.length = 76 ∧ s.strings.length = 1120 ∧ s.courses.length = 140 ∧
         s.chans.length = 79 ∧ s.convs.length = 70)) ∧
    (let s := ramping 0 0 { st := .ramping, refAt := some 0 }
     s.blk.st = .ramp ∧ s.turnRail = some 0 ∧ (s.rail 0).st = .ramping ∧ (s.rail 0).refAt = some 0 ∧
       0 + 1000 * (s.blk.rampTime + s.getN Obj.pg_deadline) ≤ s.now ∧ s.blk.rampIdx + 1 < 3) := by decide +kernel

/-- SHUTDOWN with the ramp-downs `l` to be made, `begun` or not, rail 2 as `x`. -/
def shutting (l : List Nat) (begun : Bool) (x : Rail) : State :=
  { inState .shutdown with
    blk := { st := .shutdown, shutCause := 2, downLeft := l, downBegun := begun }, rails := [{}, {}, x] }

theorem test_meets_ShutDownAndRestart :
    (let s := shutting [2, 1] false { st := .good }
     s.blk.downLeft = 2 :: [1] ∧ s.blk.downBegun = false ∧ ∀ r ∈ Config.regions s.cfg, (s.region r).fret.fret = 0) ∧
    (let s := shutting [2] false { st := .good }
     s.blk.since + 1000 * s.getN Obj.shutdown_fret_wait ≤ s.now) ∧
    (let s := shutting [2] true { st := .down, downAt := some 0 }
     s.blk.downLeft = 2 :: [] ∧ s.blk.downBegun = true ∧ (s.rail 2).downAt = some 0 ∧
       ∀ r ∈ Config.railRegs s.cfg 2, downRefAt ((s.region r).strum.downRef.getD 0) 2 (s.now - 0) ≤ mvUnits (railVmin 2)) ∧
    (shutting [2, 1] true { st := .down, downAt := some 0 }).blk.downLeft = 2 :: 1 :: [] ∧
    (shutting [2, 1] true {}).blk.st = .shutdown ∧ (shutting [2, 1] true {}).blk.downBegun = true ∧
    base.blk.st = .run ∧ (inState .ramp).blk.st = .ramp ∧ (inState .service).blk.st = .service ∧
    (∀ b ∈ [BState.ramp, .run, .service, .shutdown], (inState .discover).blk.st ≠ b) ∧
    (inState .shutdown).blk.shutCause ≠ 2 ∧
    ({ base with blk := { st := .shutdown, shutCause := 2, shutPending := true } } : State).blk.shutPending = true ∧
    (let s : State := { base with blk := { st := .shutdown, shutCause := 2, vinLostAt := 1 } }
     s.now < s.blk.vinLostAt + s.getN Obj.vin_restart_delay * 1000000) ∧
    (let s := shutting [] true {}
     s.blk.st = .shutdown ∧ s.blk.downLeft = [] ∧ s.blk.shutCause = 2 ∧ s.blk.shutPending = false ∧
       s.blk.vinLostAt + s.getN Obj.vin_restart_delay * 1000000 ≤ s.now ∧ rfWf s.regs = true) := by decide +kernel

theorem test_meets_BlockCommands :
    (∀ b ∈ [BState.ramp, .run, .service, .discover, .cooldown, .shutdown, .halted], (inState b).Serves .i3c 0 0) ∧
      (base.session 0).keeper = true ∧ (∀ c ∈ (inState .shutdown).courses, c.en = false) ∧
      ∃ c ∈ (withCourse .shutdown { en := true }).courses, c.en = true :=
  ⟨fun b h => inState_serves (by cases b <;> simp_all [BState.serves]), by decide +kernel⟩

theorem test_meets_RegionCycleInOrder :
    (let s := withRegion { pk := List.replicate 9 {}, strum := { halt := false } }
     let l : List Sample := ⟨255, true⟩ :: ⟨0, false⟩ :: List.replicate 7 ⟨100, true⟩
     let u := s.cycleInputs 0 l
     Config.popRegion s.cfg 0 = true ∧ 0 < s.regions.length ∧ s.blk.st.scans = true ∧ (s.rail (railOf 0)).downAt = none ∧
       l[0]? = some ⟨255, true⟩ ∧ l[1]? = some ⟨0, false⟩ ∧ (s.region 0).pk.length = 9 ∧ (s.region 0).loop.src = .own ∧ (u.region 0).loop.hasV = true ∧
       (cleanValues (u.region 0).pk).min?.isSome = true ∧
       (let v := (u.region 0).loop.vmin
        let w := (((((u.cycleReports 0 v).cyclePowerGood 0 v).cycleFeed 0 v).cycleRelease 0 v).cycleTwins 0).cycleStrobes 0
        (w.halted 0 || w.strumBusy 0 || w.openLoop 0) = false)) ∧
    (let u := base.cycleInputs 75 []
     (base.region 75).pk.length = 4 ∧ (u.region 75).loop.hasV = false) ∧
    (let u := base.cycleInputs 75 [⟨100, true⟩]
     (u.region 75).loop.hasV = true ∧
       (let v := (u.region 75).loop.vmin
        let w := (((((u.cycleReports 75 v).cyclePowerGood 75 v).cycleFeed 75 v).cycleRelease 75 v).cycleTwins 75).cycleStrobes 75
        (w.halted 75 || w.strumBusy 75 || w.openLoop 75) = true)) := by decide +kernel

/-- Course 139 enabled, region 75 as `x`. -/
def firing (x : Region) : State :=
  { base with
    regions := State.reset.regions.take 75 ++ [x]
    courses := List.replicate 139 {} ++ [{ en := true, sup := true }] }

theorem test_meets_FireDecisionIssuesOnePulse :
    (let s := firing { loop := { vref := 4160 } }
     s.strings.length = 1120 ∧ (4159 : Int) + (s.region 75).loop.yac s.used.g1.window < (s.region 75).loop.vref ∧
       (s.region 75).loop.lastFire = none ∧ s.rotFrom 75 (s.region 75).loop.ptr = some 0 ∧ stringAt 75 0 < 1120 ∧
       (s.str (stringAt 75 0)).offEnd = none ∧ (s.region 75).pre.run = none) ∧
    (let s := firing { loop := { vref := 4160 } }
     (s.region 75).loop.vref ≤ (4160 : Int) + (s.region 75).loop.yac s.used.g1.window) := by decide +kernel

/-- Region 0 with its own pickups out of use; those of the other regions as `k`. -/
def blindRegion (src : VSrc) (k : Pickup) : State :=
  { base with
    regions := { pk := List.replicate 9 { isl := false }, loop := { src := src } } ::
      List.replicate 75 { pk := List.replicate 9 k } }

theorem test_meets_IslandArrivals :
    (base.str 1119).pulse = none ∧
    (let s := withStr { pulse := some ⟨0, 40000003, .ordinary⟩ }
     40000003 ≤ 4 * s.now + 3 ∧ (s.str 0).pulse = some ⟨0, 40000003, .ordinary⟩) ∧
    ((withStr { pulse := some ⟨0, 7, .strum⟩ }).str 0).pulse = some ⟨0, 7, .strum⟩ ∧
    (let s := withRegion { pk := List.replicate 9 {}, loop := { src := .fixedRate } }
     s.blk.st.scans = true ∧ s.sourceDue 0 ≠ (s.region 0).loop.src ∧ s.sourceDue 0 = .own) ∧
    (let s := blindRegion .own { clean := true, v := 100 }
     s.sourceDue 0 ≠ (s.region 0).loop.src ∧ s.sourceDue 0 = .borrowed) ∧
    (let s := blindRegion .own {}
     s.sourceDue 0 ≠ (s.region 0).loop.src ∧ s.sourceDue 0 = .fixedRate) ∧
    (base.str 0).st ≠ .shed ∧ (withStr { st := .shed, isl := .shed }).str 0 = { st := .shed, isl := .shed } ∧
    (let s := withStr { st := .muted }
     ((s.str 0).isl.rotates && !(s.str 0).st.rotates) = true) ∧
    (let s := withStr { st := .shed }
     (s.str 0).st = .shed ∧ (s.str 0).isl ≠ .shed ∧ s.strumBusy (regionOf 0) = false ∧ (s.region (regionOf 0)).strum.report ≠ some s.now) ∧
    (let s := { withRegion { strum := { ep := some ⟨true, 0⟩ } } with strings := { st := .shed } :: List.replicate 1119 {} }
     (s.str 0).st = .shed ∧ s.strumBusy (regionOf 0) = true ∧ (s.str 0).blind = false) := by decide +kernel

/-- Region 75 fires: its rail is good, its course enabled, its strum part as `u`, at a reference of 650 mV. -/
def strumming (u : Strum) (l : Loop) : State := firing { strum := u, loop := l }

/-- Strobes of region 74 wait in region 75, whose loop is as `l`. -/
def strobed (l : Loop) : State := strumming { halt := false, strobes := [74] } l

theorem test_meets_TwinEventsAndFurtherPulses :
    (let s := withRegion { strum := { ovWait := some (.a, 0), lockUntil := some 10000000, a := { loading := some 5 }, b := { loading := some 5 } } }
     Config.popRegion s.cfg 0 = true ∧ (s.region 0).strum.ovWait = some (.a, 0) ∧ 0 < s.regions.length ∧
       (s.region 0).strum.a.loading = some 5 ∧ (s.region 0).strum.b.loading = some 5 ∧
       (s.region 0).strum.lockUntil = some 10000000 ∧ 10000000 ≤ s.now) ∧
    (let s := withRegion { strum := { lockUntil := some 10000001 } }
     (s.region 0).strum.lockUntil = some 10000001 ∧ s.now < 10000001) ∧
    (let s := strumming { halt := false } { src := .fixedRate, fixAt := some 40000000 }
     s.halted 75 = false ∧ s.openLoop 75 = false ∧ (s.region 75).loop.src = .fixedRate ∧
       (s.region 75).loop.fixAt = some 40000000 ∧ 40000000 ≤ 4 * s.now ∧ s.spaceMet 75 = true ∧ s.strumBusy 75 = false ∧
       s.rotFrom 75 (s.region 75).loop.ptr = some 0 ∧ (s.str (stringAt 75 0)).pulse = none) ∧
    (let t : Twin := { hist := [3000] }
     let s := strumming { halt := false, ep := some ⟨true, 0⟩, a := t, b := t } { vref := 4160, hasV := true }
     s.halted 75 = false ∧ (s.region 75).strum.ep = some ⟨true, 0⟩ ∧ s.roundDue 75 = true ∧
       (s.region 75).loop.hasV = true ∧ (s.region 75).strum.a.triggers (s.region 75).loop.vref = true ∧
       (s.region 75).strum.b.triggers (s.region 75).loop.vref = true) ∧
    (let s := strumming { halt := false, ep := some ⟨true, 0⟩ } { vref := 4160, hasV := true }
     s.halted 75 = false ∧ (s.region 75).strum.ep = some ⟨true, 0⟩ ∧ s.roundDue 75 = true ∧
       (s.region 75).loop.hasV = true ∧ (s.region 75).strum.a.triggers (s.region 75).loop.vref = false ∧
       (s.region 75).strum.b.triggers (s.region 75).loop.vref = false) ∧
    (let s := strumming { halt := false } {}
     s.halted 75 = false ∧ s.blk.st ≠ .ramp ∧ (s.region 75).strum.strobes = []) ∧
    (let s := { strumming { halt := false } {} with blk := { st := .ramp } }
     s.halted 75 = false ∧ s.blk.st = .ramp) ∧
    (let s := strobed { vref := 4160 }
     s.halted 75 = false ∧ (s.region 75).strum.strobes ≠ [] ∧ (s.region 75).loop.hasV ≠ true) ∧
    (let s := strobed { vref := 4160, vmin := 4159, hasV := true }
     s.halted 75 = false ∧ (s.region 75).strum.strobes ≠ [] ∧ (s.region 75).loop.hasV = true ∧
       ((s.region 75).loop.vmin : Int) < (s.region 75).loop.vref ∧ s.strumBusy 75 = false ∧ s.locked 75 = false ∧
       (s.region 75).strum.release = false ∧ (s.region 75).loop.src ≠ .fixedRate) := by decide +kernel

/-- R93: the strobe of a rail neighbour whose own episode has begun within the last 2 ns counts, an older one does not. -/
theorem test_strobe_of_own_episode :
    let s (t : Nat) : State := { base with
      regions := State.reset.regions.take 74 ++ [{ strum := { spreadAt := some t } }, {}] }
    (s 9999998).strobes 75 [74] = [74] ∧ (s 9999997).strobes 75 [74] = [] ∧ (s 10000000).strobes 75 [] = [] := by
  decide +kernel

theorem test_meets_StrumReportAndDamper :
    (let s := withRegion { strum := { report := some 9999990 } }
     (s.region 0).strum.report = some 9999990 ∧ (s.rail (railOf 0)).recov = 0) ∧
    (let s := withRegion { strum := { a := { ov := 40 }, b := { ov := 40 } } }
     40 ≤ (s.region 0).strum.a.ov ∧ 40 ≤ (s.region 0).strum.b.ov ∧ (s.region 0).loop.src ≠ .fixedRate ∧
       s.blk.st.scans = true ∧ s.get (Obj.rail_damped (railOf 0)) ≠ 1 ∧ s.courses.length = 140 ∧
       (s.set (Obj.rail_damped 0) 1).get (Obj.rail_damped (railOf 0)) = 1) ∧
    (base.region 75).strum.a.ov < 40 := by decide +kernel

theorem test_meets_PreStrumsAndWakePermits :
    (let s := withRegion { pre := { starts := [(10000000, some 1)], ready := [0], run := none } }
     (s.region 0).pre = { starts := (10000000, some 1) :: [], ready := 0 :: [], run := none } ∧
       10000000 ≤ s.now ∧ s.now < 10000000 + s.getN Obj.pre_window) ∧
    (let s := withRegion { pre := { starts := [(9999000, none)], ready := [0], run := none } }
     9999000 + s.getN Obj.pre_window ≤ s.now) ∧
    (let s := withRegion { pre := { run := some (9999000, 3) } }
     (s.region 0).pre.run = some (9999000, 3) ∧ 9999000 + s.getN Obj.pre_window ≤ s.now) ∧
    (let s := withRegion { pre := { run := some (9999001, 3) } }
     s.now < 9999001 + s.getN Obj.pre_window) ∧
    base.runs = true ∧
    (let w := ((withRegion { wake := { gnt := true } }).region 0).wake
     w.req = false ∧ w.gnt = true) ∧
    (let x := base.region 0
     x.wake.req = false ∧ x.wake.gnt = false ∧ x.sup.regHold = false) ∧
    (let x := (withRegion { sup := { regHold := true } }).region 0
     x.wake.req = false ∧ x.wake.gnt = false ∧ x.sup.regHold = true) ∧
    (let w := ((withRegion { wake := { req := true, since := some 9 } }).region 0).wake
     w.req = true ∧ w.since = some 9) ∧
    (let w := ((withRegion { wake := { req := true, gnt := true } }).region 0).wake
     w.req = true ∧ w.since = none) ∧
    (let s : State := { base with
       regions := List.replicate 75 { sup := { util := 0 } } ++
         [{ wake := { req := true, since := some 9999999 }, sup := { util := 0 } }] }
     s.grantedNow = false ∧ (∀ q ∈ Config.regions s.cfg, s.timedOut q = false) ∧
       ((List.range 76).map fun k => (s.lastGranted + 1 + k) % 76).find? (fun q =>
        Config.popRegion s.cfg q && (s.region q).wake.pending && s.spaced q && s.neighboursAllow q) = some 75) ∧
    (let s := withRegion { wake := { req := true, since := some 0 } }
     s.grantedNow = false ∧
       s.longestWait ((Config.regions s.cfg).filter fun q => s.timedOut q && s.spaced q) = some 0) ∧
    (let w := ((withRegion { wake := { req := true, granted := some 9 } }).region 0).wake
     w.granted = some 9 ∧ w.gnt = false ∧ w.prov = none) ∧
    (let x := (withRegion { wake := { req := true, granted := some 9, prov := some 90 }, pre := { starts := [(90, none)] } }).region 0
     x.wake.granted = some 9 ∧ x.wake.gnt = false ∧ x.wake.prov = some 90 ∧ (90, none) ∈ x.pre.starts) := by decide +kernel

theorem test_meets_MutingRules :
    (let s := base
     Config.popString s.cfg 1119 = true ∧ 1119 < s.strings.length ∧ (s.str 1119).st ≠ .muted) ∧
    (let s := withStr { st := .muted, cause := 5 }
     (s.str 0).st = .muted ∧ causePriority (s.str 0).cause ≤ causePriority 1) ∧
    (let s := withStr { st := .muted, cause := 1 }
     causePriority 5 < causePriority (s.str 0).cause) ∧
    (let s := withStr { st := .muted, cause := 6, parAt := some 9000000 }
     (s.str 0).parAt = some 9000000 ∧ (s.str 0).st = .muted ∧ (s.str 0).cause = 6 ∧ 9000000 + 1000000 ≤ s.now) := by
  decide +kernel

theorem test_meets_StringCommands :
    (withStr {}).Serves .i3c 0 0 ∧ Config.popString base.cfg 0 = true ∧
    (let s : State := { withStr { st := .muted, cause := 1 } with courses := List.replicate 140 { en := true } }
     (s.str 0).st = .muted ∧ (s.str 0).cause = 1 ∧ (s.str 0).cause ≠ 5 ∧ (s.str 0).cause ≠ 7 ∧ s.runs = true ∧
       s.returnOk 0 = true) ∧
    (let s : State := { withStr { st := .muted, cause := 2 } with
       dict := { sessions := { isOpen := true } :: List.replicate 10 {} } }
     (s.str 0).st = .muted ∧ (s.str 0).cause ≠ 1 ∧ (s.session 0).keeper = false ∧ s.slotOf .i3c 0 = some 0) ∧
    ((withStr {}).str 0).st ≠ .muted ∧ ((withStr {}).str 0).blind = false ∧ ((withStr {}).str 0).st = .active ∧
    ((withStr { st := .shed }).str 0).st ≠ .active ∧
    (let x := (withStr { st := .blind, blind := true }).str 0
     x.blind = true ∧ x.st = .blind) ∧
    (let x := (withStr { st := .muted, blind := true }).str 0
     x.blind = true ∧ x.st ≠ .blind) :=
  ⟨withStr_serves _, by decide +kernel⟩

theorem test_meets_LanesAndFrames :
    Config.popCourse base.cfg 139 = true ∧ 139 < base.courses.length ∧ (base.course 139).sup = false ∧
    (let x : Course := { sup := true, rejRun := 2 }
     ((withCourse .run x).course 0) = x ∧ x.accepts 0xD0000001 false = false ∧ x.accepts 0xD0000000 true = false ∧ x.rejRun < 3) ∧
    (let x : Course := { sup := true, rejRun := 3, ref := some 15 }
     x.accepts 0xD0000011 true = false ∧ x.lost = false) ∧
    (let x : Course := { sup := true, ref := some 15, prevNew := some false }
     x.accepts 0xD0000001 true = true ∧ x.lost = false ∧ bit 0xD0000001 11 = false ∧ bit 0xD0000001 9 = false ∧
       ∀ n < 8, bit 0xD0000001 (20 + n) = false) ∧
    (let s := withCourse .run { sup := true }
     (s.course 0).accepts 0xD8000200 true = false ∧ (s.course 0).accepts 0xD8000201 true = true ∧
       (bit 0xD8000201 9 = true ∧ (s.course 0).prevNew ≠ some false) ∧
       (∀ m < 8, bit 0xD8000201 (20 + m) = decide (m = 7)) ∧ Config.popString s.cfg 7 = true ∧
       (s.str 7).st = .active ∧ (s.str 7).hicHist = [] ∧ 2 ≤ s.getN Obj.hiccup_max) ∧
    (let x := (withCourse .run { sup := true, okAt := 9994000 }).course 0
     x.sup = true ∧ x.okAt + 6000 ≤ base.now ∧ x.lost = false) ∧
    (let x := (withCourse .run { lost := true, flt := true, fltAt := 9700000 }).course 0
     x.lost = true ∧ x.flt = true ∧ x.fltAt + 300000 ≤ base.now) ∧
    (let s : State := { withCourse .run { lost := true, flt := true, fltAt := 9990000 } with
       regions := { loop := { lowSince := some 9990000 } } :: State.reset.regions.drop 1 }
     (s.course 0).flt = true ∧ (s.region (regionOfCourse 0)).loop.lowSince = some 9990000 ∧ 9990000 + 10000 ≤ s.now ∧
       (s.course 0).fltAt + 10000 ≤ s.now) := by decide +kernel

set_option maxRecDepth 4000 in
theorem test_meets_CourseFaultsAndFollowUps :
    Config.popCourse base.cfg 139 = true ∧ base.blk.st.active = true ∧ (base.course 139).lost = false ∧
    ((withCourse .run { lost := true }).course 0).lost = true ∧
    (let s := withCourse .run { follow := .waiting }
     (s.course 0).follow = .waiting ∧ s.blk.st.serves = true) ∧
    (base.course 139).follow ≠ .waiting ∧
    (let s := withCourse .run { follow := .running false }
     let b : List Byte := 1 :: List.replicate 123 0
     let r := b ++ leBytes 4 (crc32c b)
     (s.course 0).follow = .running false ∧ s.blk.st.serves = true ∧ recordGood r = true ∧ bit (r.getD 1 0) 1 = false) ∧
    segmentOf 139 = 9 ∧
    (Config.courses base.cfg).find? (fun d => segmentOf d == 9 && 0x50 + d % 14 == 0x5D) = some 139 ∧
    (∀ d ∈ Config.courses base.cfg, segmentOf d = 9 → 0x50 + d % 14 ≠ 0x5E) := by decide +kernel

theorem test_meets_ControlPeriodComputes : base.engineOn = true ∧ base.RailsOk ∧ (inState .discover).engineOn = false :=
  ⟨rfl, by unfold State.RailsOk spRange; decide, rfl⟩

theorem test_meets_OutputsAreWrittenAndArrive :
    base.engineOn = true ∧ ({ base with eng := { computed := true } } : State).eng.computed = true ∧
      (inState .discover).engineOn = false ∧
      (let s : State := { base with eng := { written := true } }
       s.eng.written = true ∧ s.regions.length = 76) := by decide +kernel
theorem test_meets_BanksAndTrimInput :
    base.engineOn = true ∧ Config.popChan base.cfg 75 = true ∧ base.eng.computed = false ∧
      Config.popString base.cfg 1119 = true ∧
      (let s : State := { base with used := { g6 := { mode := 1 } }, eng := { pwmTicks := 1000, pwmAt := 9984000 } }
       s.used.g6.mode = 1 ∧ s.eng.lost = false ∧ 250 ≤ 5 + 245 ∧ 5 + 245 ≤ 31250 ∧ 0 < s.eng.pwmTicks ∧
         s.eng.pwmAt + 16 * s.eng.pwmTicks ≤ s.now) ∧ 31250 < 31246 + 5 ∧ 4 < 5 ∧
      (let s : State := ({ base with eng := { lost := true, lostAt := 0 } } : State).set Obj.trim_hold 10
       s.engineOn = true ∧ s.eng.lost = true ∧ s.eng.lostAt + 1000000 * s.getN Obj.trim_hold ≤ s.now) := by decide +kernel
theorem test_meets_TrimMovesAtMostOneMillivolt :
    base.used.g6.mode = 0 ∧ (base.trimTarget - base.eng.val = 0) ∧
      (let s : State := { base with eng := { val := -1001 } }
       1000 < s.trimTarget - s.eng.val) ∧
      (let s : State := { base with eng := { val := 1001 } }
       s.trimTarget - s.eng.val < -1000) ∧
      (let s : State := { base with used := { g6 := { mode := 1 } } }
       s.used.g6.mode ≠ 0 ∧ s.eng.lost = false) := by decide +kernel
theorem test_meets_EngineAndConverterWrites :
    base.Serves .i3c 0 0 ∧ Config.popChan base.cfg 78 = true ∧ (base.session 0).keeper = true ∧
      base.cg.running = false ∧ ({ base with cg := { running := true } } : State).cg.running = true ∧
      Config.popConv base.cfg 69 = true ∧ Config.connected base.cfg 69 (min 19 (31 % 32)) = true ∧
      31 / 65536 % 4 ≠ 3 ∧ Config.connected base.cfg 69 (min 19 ((2 * 65536 + 15) % 32)) = true ∧
      (2 * 65536 + 15) / 65536 % 4 = 2 ∧ (2 * 65536 + 15) % 32 < 16 ∧ (List.replicate 32 255).length = 32 :=
  ⟨base_serves, by decide +kernel⟩

/-- Region 0 with the fret part `f`; a fret of `n` is asked for. -/
def fretting (f : Fret) (n : Nat) : State :=
  (((withRegion { fret := f }).set (Obj.region_fret_request 0) n).set (Obj.region_capo 0) 15).set
    (Obj.rail_fret_fit 0) 15

theorem test_meets_FretStepsAndHandshake :
    (fretting {} 15).runs = true ∧ Config.popRegion base.cfg 0 = true ∧ 0 < (fretting {} 15).regions.length ∧
    (let s := fretting {} 15
     (s.region 0).fret.step = .idle ∧ (s.region 0).fret.req = false ∧ (s.region 0).fret.ack = false ∧
       (s.region 0).fret.fret < s.fretTarget 0) ∧
    (let s := fretting { fret := 15 } 0
     s.fretTarget 0 < (s.region 0).fret.fret) ∧
    (let s := fretting { fret := 7 } 7
     s.fretTarget 0 = (s.region 0).fret.fret) ∧
    (let s := fretting { step := .upWait, settled := 2 } 1
     (s.region 0).fret.step = .upWait ∧ (s.region 0).fret.fret < s.fretTarget 0 ∧ 2 ≤ (s.region 0).fret.settled) ∧
    (let s := fretting { step := .upWait, settled := 1 } 1
     (s.region 0).fret.fret < s.fretTarget 0 ∧ (s.region 0).fret.settled < 2) ∧
    (let s := fretting { req := true, reqAt := 0 } 1
     (s.region 0).fret.req = true ∧ (s.region 0).fret.overtaken = false ∧ (s.region 0).fret.late = false ∧
       (s.region 0).fret.reqAt + s.getN Obj.fret_ack_timeout ≤ s.now) ∧
    (let s := fretting { ack := true, ackAt := 9999999 } 1
     (s.region 0).fret.ack = true ∧ (s.region 0).fret.ackAt / 4 ≠ s.now / 4) ∧
    (let s := fretting { ack := true, ackAt := 10000003 } 1
     (s.region 0).fret.overtaken = false ∧ (s.region 0).fret.ackAt / 4 = s.now / 4) ∧
    ((withRails .run [{}, {}, { recHold := some 10000000 }]).rail 2).recHold = some base.now ∧
    base.now < 10000001 := by decide +kernel

theorem test_meets_AllocationStaysInBudget :
    let cs : List Cand := [⟨0, 1000, 10, ⟨900, 10, 64, true⟩, 15, 64, 0⟩, ⟨75, 0, 0, ⟨0, 0, 0, false⟩, 0, 64, 0⟩]
    [15, 0].length = cs.length ∧ ∀ p ∈ cs.zip [15, 0], p.2 ≤ p.1.fmax := by decide +kernel
/-- RUN with group `g` committed at block time `t`. -/
def committed (g t : Nat) : State :=
  { base with dict := { base.dict with commitAt := (List.replicate 8 none).set g (some t) } }

theorem test_meets_CapStepAndDelivery :
    base.runs = true ∧ (inState .ramp).runs = false ∧ base.cap.next = none ∧ base.sameCycle 3 = false ∧
      (committed 3 10000000).sameCycle 3 = true ∧ (committed 3 9999999).sameCycle 3 = false ∧
      (let s : State := { base with cap := { next := some [15, 0] } }
       s.runs = true ∧ s.cap.next = some [15, 0] ∧ rfWf s.regs = true) := by decide +kernel

theorem test_meets_MillisecondInOrder :
    base.blk.st.active = true ∧ rfWf base.regs = true ∧ base.msFigures.msMatched.runs = true ∧
      (inState .ramp).blk.st.active = true ∧ (inState .ramp).msFigures.msMatched.runs = false ∧ base.telem.done = none ∧
      (let s : State := { base with telem := { done := some [] } }
       s.telem.done = some [] ∧ s.cfg.hasDma = true ∧ s.telem.offered = none) ∧
      ({ base with cfg := { Config.max with variant := 2 } } : State).cfg.hasDma = false := by decide +kernel

/-- A hint for region 0, of length 1, with the lead field `lead`. -/
def hintWord (lead : Nat) : Nat := 2 ^ 15 + 2 ^ 95 + lead * 2 ^ 111

/-- RUN with a lead of 2 µs for every class. -/
def leading : State := { base with hints := { lead := List.replicate 32 200 } }

theorem test_meets_HintsAreTaken :
    hintWord 4095 < 2 ^ 128 ∧ base.blk.st.active = true ∧ hintParityOk (hintWord 4095) 0xA802 = true ∧
      hintParityOk (hintWord 4095) 0xA803 = false ∧
      (let h := hintEntryOf (hintWord 4095) base.now base.hints.nextId
       base.named h.mask = [0] ∧ bits (hintWord 4095) 110 95 = 1 ∧ h.late = false ∧ base.prepDue h = false ∧
         base.hints.lastAt = none ∧ base.runs = true ∧ base.hints.entries = []) ∧
      (let h := hintEntryOf (hintWord 20) leading.now leading.hints.nextId
       hintParityOk (hintWord 20) 0x802 = true ∧ leading.named h.mask = [0] ∧ h.late = false ∧
         leading.prepDue h = true ∧ leading.runs = true ∧ leading.hints.entries = []) ∧
      (hintParityOk (hintWord 3) 0x6802 = true ∧ (hintEntryOf (hintWord 3) base.now 1).late = true) ∧
      (hintParityOk (2 ^ 95) 0x800 = true ∧ base.named (hintEntryOf (2 ^ 95) base.now 1).mask = []) ∧
      (hintParityOk (2 ^ 15) 2 = true ∧ bits (2 ^ 15) 110 95 = 0) ∧
      (let s : State := { base with hints := { lastAt := some 9999997 } }
       s.hints.lastAt = some 9999997 ∧ s.now < 9999997 + 4) ∧ (inState .shutdown).runs = false ∧
      (inState .shutdown).blk.st.active = true := by decide +kernel

/-- RUN with one held hint. -/
def hinted (h : HintEntry) : State := { base with hints := { entries := [h], nextId := 2 } }

def aHint : HintEntry := { id := 1, cls := 31, start := 10000000, stop := 10001000, inten := 15, mask := 2 ^ 75, tag := 0, late := false }

theorem test_meets_HintsLiveRetireAndAreObserved :
    (let s := hinted aHint
     s.hintOf 1 = some aHint ∧ s.prepDue aHint = true ∧ aHint.late = false ∧ s.now < aHint.stop ∧ s.hints.full = false ∧
       s.now < aHint.start + s.getN Obj.droop_window ∧ s.blk.st.scans = true) ∧
    (let h : HintEntry := { aHint with start := 0, stop := 10000000 }
     let s := hinted h
     s.hintOf 1 = some h ∧ h.start + 10 * s.getN Obj.hint_bump_hold ≤ s.now ∧ h.stop ≤ s.now ∧
       h.mixed = false ∧ h.merges = 0 ∧ h.observed = false ∧ s.cfg.hasLearner = true ∧
       h.start + s.getN Obj.droop_window ≤ s.now) ∧
    (let s := hinted { aHint with late := true }
     s.hintOf 1 = some { aHint with late := true }) ∧
    ({ base with hints := { reload := true } } : State).hints.reload = true := by decide +kernel

theorem test_meets_PredictionsFollowActivity :
    base.blk.st.active = true ∧ base.cfg.hasLearner = true ∧
      Config.popRegion { Config.max with nVcore := 48 } 47 = true ∧
      (let s : State := { base with cfg := { Config.max with nVcore := 48 } }
       Config.popRegion s.cfg 48 = false ∧ s.cfg.hasLearner = true) ∧
      (let s : State := { base with eng := { tickAt := 9999700 } }
       Config.popRegion s.cfg 75 = true ∧ s.engineOn = true ∧ s.now ≤ s.eng.tickAt + 300) ∧
      (∀ n, n < 16 → (ones 8 (byteOf 0x0103 n) + b2n (bit 2 n)) % 2 = 0) ∧
      (∃ n, n < 16 ∧ (ones 8 (byteOf 0x0103 n) + b2n (bit 0 n)) % 2 = 1) ∧
      (let s := withRegion { sup := { tagDue := some 31, frame := some (List.replicate 16 255) } }
       0 < s.regions.length ∧ (s.region 0).sup.tagDue = some 31 ∧ (s.region 0).sup.frame = some (List.replicate 16 255)) ∧
      ((withRegion { sup := { tagDue := some 0 } }).region 0).sup.frame = none := by decide +kernel

/-- RUN at cycle 200 of a control period, with shard 7 as `x`. -/
def passing (x : Shard) : State :=
  { base with eng := { zeroAt := 9999200 }, learn := { shards := List.replicate 7 {} ++ [x] } }

theorem test_meets_LearnerStepsAndPasses :
    (let s : State := { base with learn := { stepPending := true, slots := State.reset.learn.slots } }
     s.cfg.hasLearner = true ∧ s.learn.stepPending = true ∧ s.engineOn = true ∧ s.eng.zeroAt + 900 ≤ s.now ∧
       s.learn.latch.length = 64) ∧
    (let s := passing { running := true, doneAt := 10000000, counter := 16777215, shadow := [(cellKey 71 31, {})] }
     s.learn.shards.length = 8 ∧ (s.shard 7).running = true ∧ (s.shard 7).doneAt ≤ s.now ∧ (s.shard 7).xfer ≠ 1 ∧
       s.eng.zeroAt + 800 ≤ s.now ∧ s.now < s.eng.zeroAt + 1000 ∧ ((s.shard 7).shadow.map (·.1)).Nodup) ∧
    (let s := passing { running := true, doneAt := 10000001 }
     (s.shard 7).running = true ∧ s.now < (s.shard 7).doneAt) ∧
    (let s : State := { passing { running := true } with eng := { zeroAt := 9999201 } }
     (s.shard 7).running = true ∧ s.now < s.eng.zeroAt + 800) ∧
    (let s : State := { passing { running := true } with eng := { zeroAt := 9999000 } }
     (s.shard 7).running = true ∧ s.eng.zeroAt + 1000 ≤ s.now) ∧
    ((passing { running := true, xfer := 1 }).shard 7).xfer = 1 ∧
    Config.popRegion base.cfg 75 = true ∧
    (let s : State := { base with learn := { slots := List.replicate 7 {} ++ [{ build := some ({}, 10000000) }] } }
     (s.slot 7).build = some ({}, 10000000)) := by decide +kernel

/-- A cell record for cell (75, 31): its head, zeros, and its CRC. -/
def record : List Byte :=
  let b : List Byte := 75 :: 31 :: List.replicate 186 0
  b ++ leBytes 4 (crc32c b)

/-- Shard 3, which holds cell (75, 31), halted; that cell selected. -/
def selected : State := (base.set Obj.learn_cell_sel (75 + 31 * 256)).set (Obj.shard_halt (shardOf 75)) 1

set_option maxRecDepth 8000 in
theorem test_meets_LearnerWritesAndTransfers :
    base.Serves .i3c 0 0 ∧ selected.Serves .i3c 0 0 ∧ base.cfg.hasLearner = true ∧ (base.shard 7).xfer ≠ 2 ∧
      ({ base with learn := { shards := List.replicate 7 {} ++ [{ xfer := 2 }] } } : State).shard 7 = { xfer := 2 } ∧
      (base.set (Obj.shard_halt 7) 1).get (Obj.shard_halt 7) = 1 ∧ base.get (Obj.shard_halt 7) = 0 ∧
      record.length = 192 ∧ (∀ x ∈ record, x < 256) ∧ Config.popRegion base.cfg selected.cellSel.1 = true ∧
      selected.get (Obj.shard_halt (shardOf selected.cellSel.1)) ≠ 0 ∧ fieldAt record 188 4 = crc32c (slice record 0 188) ∧
      fieldAt record 0 1 = 75 ∧ fieldAt record 1 1 = 31 ∧ shardOf 75 = shardOf selected.cellSel.1 ∧
      selected.get (Obj.group_frozen (selected.groupW 31)) ≠ 1 ∧ selected.get (Obj.group_frozen (selected.groupB 31)) ≠ 1 ∧
      (let l : List Byte := List.replicate 188 0 ++ [1, 2, 3, 4]
       fieldAt l 188 4 ≠ crc32c (slice l 0 188)) :=
  ⟨base_serves, serves_of rfl rfl rfl, by decide +kernel⟩

/-- RUN with diode `r` as `x`, the others without a reading; shut-down at 944. -/
def withDiode (r : Nat) (x : Diode) (f : Front) : State :=
  { base with therm := { diodes := (List.replicate 76 {}).set r x, fronts := List.replicate 4 f } }

theorem test_meets_DiodeReadingsAreJudged :
    base.blk.st.scans = true ∧ base.therm.diodes.length = 76 ∧ Config.popRegion base.cfg 75 = true ∧
    ((withDiode 75 {} {}).diode 75).cause = 0 ∧ (withDiode 75 {} {}).diodeCause 75 1200 true = 0 ∧
    (withDiode 75 {} {}).diodeCause 75 1201 true = 1 ∧
    (let s := withDiode 75 { cause := 2 } {}
     (s.diode 75).cause ≠ 0 ∧ (s.diode 75).cause ≠ 7) ∧
    (let s := withDiode 75 { cause := 7, prob := 1 } {}
     (s.diode 75).cause = 7 ∧ s.diodeCause 75 (-320) true = 0 ∧ (s.diode 75).prob ≤ 1) ∧
    (let s := withDiode 75 { cause := 7, prob := 2 } {}
     s.diodeCause 75 0 true = 0 ∧ 1 < (s.diode 75).prob) ∧
    (944 : Int) ≤ base.therm.shutdown ∧ base.therm.shutdown < 945 ∧
    (let s := withDiode 0 {} { ref := 500 }
     s.therm.fronts.length = 4 ∧ (s.front 3).failed = false ∧ (s.front 3).skip < s.now ∧ ((524 : Int) - (s.front 3).ref).natAbs ≤ 24 ∧
       24 < ((525 : Int) - (s.front 3).ref).natAbs ∧ (s.front 3).calBad = 0) ∧
    ((withDiode 0 {} { calBad := 1 }).front 3).calBad ≠ 0 ∧
    (let s := withDiode 0 {} { skip := 10000000 }
     s.now ≤ (s.front 3).skip) ∧
    ((withDiode 0 {} { conf := some (75, []) }).front 3).conf = some (75, []) ∧
    ((withDiode 0 {} { conf := some (75, [false]) }).front 3).conf = some (75, [false]) := by decide +kernel

/-- Both diodes 0 and 75 sound and above shut-down; the second confirmation read of diode 0 is due. -/
def tripping (b : BState) : State :=
  { inState b with
    therm := { diodes := (List.replicate 76 {}).set 75 { reading := 960, has := true, tripOk := true }
               fronts := List.replicate 4 { conf := some (0, [true]) }, trips := [9000000, 8000000], coolAt := some 0 } }

theorem test_meets_TripAndRestart :
    (let s := tripping .run
     let u := s.modFront 3 fun f => f.nextConf 3 s.now
     s.blk.st.scans = true ∧ (s.front 3).conf = some (0, [true]) ∧ 945 + (s.diode 0).trim > s.therm.shutdown ∧
       u.tripDisabled = false ∧ u.corroborated 0 = true ∧ s.blk.st ≠ .cooldown ∧ s.blk.st ≠ .halted ∧
       rfWf s.regs = true ∧ ({ u with clk := { testMode := true, ctrl := 1 } } : State).tripDisabled = true) ∧
    (withDiode 0 {} { conf := some (0, [true]) }).corroborated 0 = false ∧
    (let s := { tripping .cooldown with now := 1000000000 }
     s.blk.st = .cooldown ∧ s.blk.st.scans = true ∧ s.therm.coolAt = some 0 ∧ 0 + 1000000000 ≤ s.now) ∧
    (tripping .cooldown).now < 0 + 1000000000 := by decide +kernel

theorem test_meets_ThrottleAndRecovery :
    base.regions.length = 76 ∧ (inState .ramp).runs = false ∧ base.runs = true ∧ base.sameCycle 2 = false ∧
    (committed 2 10000000).sameCycle 2 = true ∧
    (∀ r < 76, (base.diode r).hasTemp = false) ∧
    (let s := withDiode 75 { temp := 840, hasTemp := true } {}
     Config.popRegion s.cfg 75 = true ∧ (s.diode 75).hasTemp = true ∧ s.get Obj.throttle_level ≤ (s.diode 75).temp ∧
       s.used.g2t.thr ≤ (s.diode 75).temp) ∧
    (let s := withDiode 75 { temp := 839, hasTemp := true } {}
     (s.diode 75).temp < s.get Obj.throttle_level ∧ (s.diode 75).temp < s.used.g2t.thr) ∧
    base.therm.notCool + 2000000 ≤ base.now ∧
    (let s : State := { base with therm := { notCool := 8000001 } }
     s.now < s.therm.notCool + 2000000) := by decide +kernel

/-- RUN at full speed, course 138 enabled, converter 69 as `x`, string 1104 with the pulse `p`, its last one. -/
def converting (x : Conv) (p : Option Pulse) : State :=
  { base with
    blk := { st := .run, fullSpeed := true }
    convs := List.replicate 69 {} ++ [x]
    courses := List.replicate 138 {} ++ [{ en := true }, { en := true }]
    strings := List.replicate 1104 {} ++ [{ pulse := p, last := p }] ++ List.replicate 15 {} }

/-- RUN at full speed, with the converters' part as `g` and everything at rest. -/
def armed (g : ConvGlobal) : State := { converting {} none with cg := g }

theorem test_meets_ConversionsAreScheduled :
    (let s := converting { a := defaultA, armedAt := 9999900 } (some ⟨39999960, 39999990, .ordinary⟩)
     Config.popConv s.cfg 69 = true ∧ s.strobeString 69 = some 1104 ∧ (s.conv 69).held = none ∧
       (s.conv 69).urgent = none ∧ (s.str 1104).last = some ⟨39999960, 39999990, .ordinary⟩ ∧
       (s.conv 69).armedAt * 32 + (s.conv 69).ts * 125 ≤ 39999960 * 8 ∧
       (39999960 + roundUp ((39999990 - 39999960) * s.getN Obj.fire_sample_pos : Nat) 256 +
         s.get Obj.fire_sample_adj).toNat < 4 * (s.now + 1) ∧
       (s.now - (s.conv 69).armedAt) * 256 < s.getN Obj.fire_wait * 1000) ∧
    (let s := converting { a := defaultA, armedAt := 9999900 } (some ⟨40000000, 40000160, .ordinary⟩)
     s.strobeString 69 = some 1104 ∧ (s.str 1104).last = some ⟨40000000, 40000160, .ordinary⟩ ∧
       4 * (s.now + 1) ≤ (40000000 + roundUp ((40000160 - 40000000) * s.getN Obj.fire_sample_pos : Nat) 256 +
         s.get Obj.fire_sample_adj).toNat) ∧
    (let s := converting { a := defaultA } (some ⟨40000000, 40000160, .pre⟩)
     s.strobeString 69 = some 1104 ∧ (s.str 1104).last = some ⟨40000000, 40000160, .pre⟩ ∧
       s.getN Obj.fire_wait * 1000 ≤ (s.now - (s.conv 69).armedAt) * 256) ∧
    (let u : Urgent := ⟨0, 64, 0, 1, none, false⟩
     let s := converting { urgent := some u, armedAt := 9999000 } (some ⟨40000000, 40000160, .ordinary⟩)
     s.strobeString 69 = some 1104 ∧ (s.conv 69).held = none ∧ (s.conv 69).urgent = some u ∧ u.mode = 1 ∧
       (s.str 1104).last = some ⟨40000000, 40000160, .ordinary⟩ ∧
       (s.conv 69).armedAt * 32 + (s.conv 69).ts * 125 ≤ 40000000 * 8 ∧ 40000000 < 4 * (s.now + 1)) ∧
    (let u : Urgent := ⟨0, 64, 0, 2, none, false⟩
     let s := converting { urgent := some u, armedAt := 9999000 } (some ⟨39999000, 40000000, .ordinary⟩)
     s.strobeString 69 = some 1104 ∧ (s.conv 69).held = none ∧ (s.conv 69).urgent = some u ∧ u.mode = 2 ∧
       (s.str 1104).offEnd = some 40000000 ∧ (s.conv 69).armedAt * 32 + (s.conv 69).ts * 125 ≤ 40000000 * 8) ∧
    (let s := converting { held := some 39998000 } none
     (s.conv 69).held = some 39998000 ∧ s.convRuns = true ∧ 39998000 * 8 + 128 * 125 ≤ s.now * 32 ∧
       (s.conv 69).failed = false) ∧
    (let s := converting { held := some 39998001 } none
     (s.conv 69).held = some 39998001 ∧ s.convRuns = true ∧ s.now * 32 < 39998001 * 8 + 128 * 125) := by decide +kernel

theorem test_meets_ConversionsAreScheduled_requests :
    (let u : Urgent := ⟨19, 64, 0, 0, none, false⟩
     let q (n : Nat) : Conv := { coming := [u], urgent := some u, queue := List.replicate n u }
     (base.convFull = false ∧ (converting { coming := [u] } none).convFull = true ∧
       ((converting { coming := [u] } none).conv 69).coming = u :: [] ∧
       ((converting { coming := [u] } none).conv 69).urgent = none) ∧
     (((converting (q 7) none).conv 69).urgent ≠ none ∧ ((converting (q 7) none).conv 69).queue.length < 8) ∧
     (8 ≤ ((converting (q 8) none).conv 69).queue.length ∧ u.owner = none) ∧
     ({ base with convs := List.replicate 70 { coming := [u] } } : State).convFull = false) ∧
    (let t : SenseTest := { p0 := 0, finding := 0, foundAt := 0, pairs := 16 }
     ((withStr { test := some t }).str 0).test = some t ∧ t.slope = none ∧ 16 ≤ t.pairs) ∧
    (let s : State := { base with blk := { st := .run, fullAt := some 10000000 } }
     s.blk.fullAt = some 10000000 ∧ s.blk.st.full = true ∧ 10000000 ≤ s.now) ∧
    (({ base with blk := { st := .run, fullAt := some 10000001 } } : State).now < 10000001) ∧
    (let s := armed { arm := 1 }
     s.convFull = true ∧ s.cg.arm ≠ 0 ∧ s.triggerDue = true ∧ s.cg.running = false ∧ s.convs.length = 70) ∧
    (let s := armed { arm := 2, running := true }
     s.convFull = true ∧ s.cg.arm ≠ 0 ∧ s.triggerDue = true ∧ s.cg.running = true) ∧
    (let s := (armed { arm := 1, trigs := [40000016] }).set Obj.sync_source 1
     s.convFull = true ∧ s.triggerDue = true ∧ s.getN Obj.sync_source ≠ 0) ∧
    (let s := { armed { arm := 1 } with now := 10000005 }
     s.convFull = true ∧ s.cg.arm ≠ 0 ∧ s.triggerDue = false) := by decide +kernel

theorem test_meets_ConversionResults :
    (let s := converting { a := defaultA } none
     Config.popConv s.cfg 69 = true ∧ s.convs.length = 70 ∧ s.convFull = true ∧ s.strobeString 69 = some 1104 ∧
       (s.conv 69).held = none) ∧
    (let s := converting { a := List.replicate 16 (entryWord 15 4), held := some 9999990 } none
     (s.conv 69).urgent = none ∧ (s.conv 69).sync = false ∧ (s.conv 69).inB = false ∧ (s.conv 69).held.isSome = true ∧
       (s.conv 69).timed = false ∧ (s.conv 69).failed = false ∧ 1119 = 16 * 69 + entryInput (s.conv 69).entry ∧
       entryInput (s.conv 69).entry < 16 ∧ 1119 < s.strings.length ∧ (s.course (courseOf 1119)).lost = false) ∧
    (let u : Urgent := ⟨19, 64, 0, 0, none, false⟩
     let s := converting { urgent := some u, failed := true } none
     (s.conv 69).urgent = some u ∧ u.owner = none ∧ u.mode = 0 ∧ (s.conv 69).timed = false) ∧
    (let s := converting {} none
     s.engineOn = true ∧ s.convFull = true ∧ s.cg.baFailed = false ∧
       codeOf (baAtt .trim) 1 s.cg.baOff s.cg.baGain 0 = 0 ∧
       codeOf (baAtt .trim) 1 s.cg.baOff s.cg.baGain 1200000000 = 4095) ∧
    (let s : State := { converting {} none with cg := { baBad := 1, baRef := 2000 } }
     s.cg.baBad = 1 ∧ s.getN Obj.ref_tolerance <
       ((codeOf (baAtt .ref) 1 s.cg.baOff s.cg.baGain 1200000000 : Nat) - (s.cg.baRef : Int)).natAbs) ∧
    (base.cfg.hasIin = true ∧ base.convRuns = true ∧ rfWf base.regs = true) := by decide +kernel

/-- R355: 0.6 V at a gain of 1 is half of full scale, and 2,133 is the code of 5 V at VIN_TAP, 4,999 mV. -/
theorem test_codes :
    codeOf 1 1 0 0 600000000 = 2048 ∧ codeOf 1 2 0 0 600000000 = 4095 ∧ codeOf 1 1 (-3) 0 600000000 = 2045 ∧
      vinOfCode (codeOf 8 1 0 0 5000000000) 1 = 4999 := by decide +kernel

theorem test_meets_IrqAndReasonClears :
    base.Serves .i3c 0 0 ∧ base.cfg.hasLearner = true ∧ base.cfg.hasDma = true ∧ (base.session 0).keeper = true :=
  ⟨base_serves, by decide +kernel⟩
theorem test_meets_ChannelPickupAndDiodeWrites :
    base.Serves .i3c 0 0 ∧ Config.popChan base.cfg 78 = true ∧ Config.popRegion base.cfg 75 = true :=
  ⟨base_serves, by decide +kernel⟩
theorem test_meets_SessionIdentifiersNameSlotAndGeneration :
    10 < base.dict.sessions.length ∧ session53.slotOf .i3c 0x53 = some 3 ∧ base.blk.st.serves = true ∧
      base.pathBusy .i3c = false ∧ (pathSlots .i3c).find? (fun j => !(base.session j).isOpen) = some 1 ∧
      (pathSlots .mbx1).find? (fun j => !(base.session j).isOpen) = some 8 := by decide +kernel

/-- Every slot open; slot 0 with a challenge that is eight zeros, given at block time `t`. -/
def challenged (t : Nat) : State :=
  { base with dict := { base.dict with
    sessions := { isOpen := true, keeper := true, chal := some (List.replicate 8 0, t) } ::
      List.replicate 10 { isOpen := true } } }

theorem test_meets_SessionAndKeeperCommands :
    base.Serves .i3c 0 0 ∧ (pathSlots .i3c).find? (fun j => !(base.session j).isOpen) = some 1 ∧
      (pathSlots .i3c).find? (fun j => !((challenged 0).session j).isOpen) = none ∧
      (challenged 0).pathBusy .i3c = false ∧ (base.session 0).keeper = true ∧ base.dict.lockUntil = none ∧
      (let s := { challenged 0 with now := idleLimit }
       (s.session 9).isOpen = true ∧ (s.session 9).last + idleLimit ≤ s.now) ∧
      (let s := challenged 9999999
       (0 < 256 ∧ s.blk.st.serves = true ∧ s.pathBusy .i3c = false ∧ s.slotOf .i3c 0 = some 0 ∧
         (s.session 0).wbuf = none) ∧ (s.session 0).chal = some (List.replicate 8 0, 9999999) ∧
         s.now < 9999999 + challengeLife ∧ (keeperDigest (List.replicate 8 0) s.dict.key).length = 8 ∧
         ∀ x ∈ keeperDigest (List.replicate 8 0) s.dict.key, x < 256) ∧
      base.challengeOf 0 = none ∧
      (let s := { challenged 0 with now := challengeLife }
       (s.session 0).chal = some (List.replicate 8 0, 0) ∧ 0 + challengeLife ≤ s.now) ∧
      (let s : State := { base with dict := { base.dict with lockUntil := some 10000000 } }
       s.dict.lockUntil = some 10000000 ∧ 10000000 ≤ s.now) :=
  ⟨base_serves, by decide +kernel⟩

theorem test_meets_ReadsAndWritesOfNumbers :
    base.Serves .i3c 0 0 ∧
    (match base.lookup false false 0x2200 0x22 with
      | .ok o => !o.ty.isBlob && o.ty.length == 1
      | .error _ => false) = true ∧
    (match base.lookup true (base.session 0).keeper 0x2200 0x22 with
      | .ok o => !o.ty.isBlob && o.grp != 0 && o.ty.length == [0xFF].length && o.ty.length != [0, 0].length
      | .error _ => false) = true ∧
    (match base.lookup true (base.session 0).keeper 0x6400 0x0B with
      | .ok o => !o.ty.isBlob && o.grp == 0 && o.ty.length == [0xFF, 0xFF].length
          && (o.rng.apply (o.ty.decode [0xFF, 0xFF])).isSome && (o.rng.apply (o.ty.decode [0, 0])).isSome
      | .error _ => false) = true :=
  ⟨base_serves, by decide +kernel⟩

theorem test_meets_CommitCommands :
    base.Serves .i3c 0 0 ∧ bit base.dict.pending 7 = false ∧ bit widened.dict.pending 4 = true ∧
      rfWf widened.dict.staged = true ∧ groupMembersOf 4 ≠ [] ∧
      (∀ g ∈ [1, 3, 5], base.sameCycle g = false ∧ (committed g 10000000).sameCycle g = true) :=
  ⟨base_serves, by decide +kernel⟩

/-- RUN with DMA channel `k` as `x`. -/
def withDma (k : Nat) (x : DmaCh) : State := { base with dma := { ch := (List.replicate 8 {}).set k x } }

theorem test_meets_DmaCommands :
    (∀ k x, (withDma k x).Serves .i3c 0 0) ∧ base.cfg.hasDma = true ∧ ((withDma 7 { st := .halted }).dmaCh 7).st.rests = true ∧
      ((withDma 2 {}).dmaCh 2).st.rests = true ∧ ((withDma 7 { st := .aborting }).dmaCh 7).st.rests = false ∧
      (∀ b ∈ [DmaSt.waitOwn, .completing, .fetching, .transferring, .waitReq], ((withDma 0 { st := b }).dmaCh 0).st = b) ∧
      ((withDma 0 { st := .fetching }).dmaCh 0).st ≠ .waitOwn :=
  ⟨fun _ _ => serves_of rfl rfl rfl, by decide +kernel⟩

/-- A descriptor of channel 0 of 64 bytes to address 4096, chained to `next`, with the control word `w`. -/
def descr (w next : Nat) : List Nat := [w, 0, 64, 1, 0, 0, 4096, 0, next, 0, 0, 0, 0, 0, 0, 0]

theorem test_meets_DescriptorsRun :
    (let c : DmaCh := { st := .fetching, fresh := true, words := descr 0x01000000 64 }
     base.cfg.hasDma = true ∧ (withDma 0 c).dma.ch.length = 8 ∧ (withDma 0 c).dmaCh 0 = c ∧ c.own = false) ∧
    (let c : DmaCh := { st := .fetching, fresh := true, words := descr 0x81000001 64 }
     c.own = true ∧ c.valid 0 = false) ∧
    (let c : DmaCh := { st := .fetching, fresh := true, words := descr 0x81000000 64, cur := 64 }
     c.valid 0 = true ∧ c.last = false ∧ c.next = c.cur) ∧
    (let c : DmaCh := { st := .fetching, fresh := true, words := descr 0xA1000000 0, run := base.getN (Obj.dma_chain_limit 0) }
     c.valid 0 = true ∧ c.last = true ∧ c.mustWait = false ∧ base.getN (Obj.dma_chain_limit 0) ≤ c.run) ∧
    (let c : DmaCh := { st := .fetching, fresh := true, words := descr 0x81000000 64 }
     c.valid 0 = true ∧ c.next ≠ c.cur ∧ c.run < base.getN (Obj.dma_chain_limit 0)) ∧
    (let c : DmaCh := { st := .waitOwn, waitAt := 9990000 }
     c.waitAt + base.getN (Obj.dma_own_poll 0) * 1000 ≤ base.now ∧
       base.now < 9990001 + base.getN (Obj.dma_own_poll 0) * 1000) ∧
    (let s := (withDma 3 { st := .waitReq, waitAt := 0 }).set (Obj.dma_pace_timeout 3) 10
     (s.dmaCh 3).st = .waitReq ∧ (s.dmaCh 3).events = 0 ∧ (s.dmaCh 3).code = 0 ∧ 0 < s.getN (Obj.dma_pace_timeout 3) ∧
       (s.dmaCh 3).waitAt + s.getN (Obj.dma_pace_timeout 3) * 1000000 ≤ s.now) ∧
    (let s := withDma 0 { st := .transferring, words := descr 0x81000000 64, burst := 64 }
     (s.dmaCh 0).dir = 1 ∧ 0 < (s.dmaCh 0).burst ∧ s.dmaReady 0 = true ∧ s.mayIssue 0 = true ∧
       s.sourceLength 0 0 = some 65536 ∧ (s.dmaCh 0).src + (s.dmaCh 0).pos < 65536) ∧
    base.dmaReady 0 = false ∧ base.canComplete 0 = false ∧
    (let c : DmaCh := { st := .fetching, fresh := true, words := (descr 0xA1000000 0).set 3 0x10001 }
     c.own = true ∧ c.valid 0 = true ∧ c.last = true ∧ c.mustWait = true) ∧
    (let c : DmaCh := { st := .transferring, hold := [0] }
     (withDma 7 c).dmaCh 7 = c ∧ c.moves = true ∧ c.hold ≠ [] ∧ c.code = 0) ∧
    (let s := withDma 0 { st := .transferring, words := descr 0x81000000 64, pos := 64 }
     s.canComplete 0 = true ∧ (s.dmaCh 0).code = 0 ∧ (s.dmaCh 0).st ≠ .aborting) := by decide +kernel

/-- RUN with one transaction of ID 63 outstanding. -/
def withTxn (k : TxKind) (at_ beats : Nat) : State :=
  { base with dma := { txns := [{ id := 63, ch := 0, kind := k, addr := 64, len := 64, beats := beats, issuedAt := at_ }] } }

theorem test_meets_MemoryResponses :
    base.cfg.hasDma = true ∧ base.txnOf 63 = none ∧
      ((withTxn .status 0 0).txnOf 63).map (·.kind) = some .status ∧ TxKind.status.write = true ∧
      ((withTxn .own 0 0).txnOf 63).map (·.kind) = some .own ∧
      ((withTxn .dataWr 0 0).txnOf 63).map (·.kind) = some .dataWr ∧
      ((withTxn .desc 0 3).txnOf 63).map (fun x => (x.kind, x.parity, x.err, x.beats + 1, x.beatsDue)) =
        some (.desc, false, false, 4, 4) ∧ TxKind.desc.write = false ∧
      (let s := withTxn .dataRd 0 0
       (s.txnOf 63).map (fun x => (x.kind, x.issuedAt)) = some (.dataRd, 0) ∧
         0 + s.getN (Obj.dma_mem_timeout 0) * 1000 ≤ s.now ∧
         s.now < 10000000 + s.getN (Obj.dma_mem_timeout 0) * 1000) := by decide +kernel

/-- RUN with the string table `t`, string 0 as `x`. -/
def tabled (t : StrTab) (x : Str) : State := { withStr x with dma := { tab := t } }

theorem test_meets_StringTableCommands :
    base.Serves .i3c 0 0 ∧ base.get Obj.st_enable = 0 ∧ base.cfg.hasDma = true ∧
      (let s := base.set Obj.st_enable 1
       s.Serves .i3c 0 0 ∧ s.get Obj.st_enable = 1) ∧
      (List.replicate 21 255).length = 21 ∧ Config.popString base.cfg (base.getN Obj.st_sel) = true ∧
      Config.popString base.cfg ((base.set Obj.st_sel 1120).getN Obj.st_sel) = false ∧
      (let s := tabled {} { refused := true }
       s.Serves .i3c 0 0 ∧ (s.str (s.getN Obj.st_sel)).refused = true) ∧
      (let s := tabled { cache := [⟨0, [], none⟩] } {}
       s.Serves .i3c 0 0 ∧ (s.str (s.getN Obj.st_sel)).refused = false ∧
         s.dma.tab.find (s.getN Obj.st_sel) = some ⟨0, [], none⟩) ∧
      (tabled {} {}).dma.tab.find 0 = none :=
  ⟨base_serves, by decide +kernel, rfl, ⟨serves_of rfl rfl rfl, by decide +kernel⟩, by decide, by decide +kernel,
    by decide +kernel, ⟨serves_of rfl rfl rfl, by decide +kernel⟩, ⟨serves_of rfl rfl rfl, by decide +kernel⟩,
    by decide +kernel⟩

/-- An entry as the memory holds it, for string `i`. -/
def entryFor (i : Nat) : List Byte :=
  let b := leBytes 2 i ++ [1] ++ List.replicate 57 0
  b ++ leBytes 4 (crc32c b)

theorem test_meets_StringTableEntries :
    (let s : State := { base with dma := { txns := [⟨0, 1, .stRd 1119, 0, 64, entryFor 1119, 4, 0, false, false, true⟩] } }
     Config.popString s.cfg 1119 = true ∧ 1119 < s.strings.length ∧ s.entryRead 1119 = some (entryFor 1119)) ∧
    base.entryRead 0 = none ∧ entryGood 0 (entryFor 1) = false ∧ entryGood 1119 (entryFor 1119) = true ∧
    (let s := tabled { st := 1 } {}
     s.dma.tab.st ≠ 0 ∧ (s.str 0).installed = false) ∧
    (let e : CacheEnt := ⟨0, entryFor 0, some 0⟩
     let s := tabled { st := 2, cache := [e] } {}
     s.dma.tab.find 0 = some e ∧ e.dirty = some 0 ∧ s.stOn = true ∧
       s.now < 0 + (s.set Obj.st_wb_delay 11).getN Obj.st_wb_delay * 1000000 ∧
       0 + (s.set Obj.st_wb_delay 10).getN Obj.st_wb_delay * 1000000 ≤ s.now) ∧
    (let s := tabled { st := 1, sweeping := true } {}
     s.dma.tab.sweeping = true ∧ s.dma.tab.sweep = [] ∧ s.dma.tab.st = 1) ∧
    base.dma.tab.sweeping = false ∧ (tabled { sweeping := true, sweep := [1119] } {}).dma.tab.sweep ≠ [] := by decide +kernel

/-- RUN with the recorder `r`. -/
def recording (r : Recorder) : State := { base with recd := r }

/-- A record of zeros. -/
def blank : LogRec := ⟨0, 0, 0, [], 0⟩

theorem test_meets_RecordsAreFormed :
    base.blk.st.active = true ∧ base.recd.queue = [] ∧
      (let t : Trig := ⟨63, 255, { kind := 1, idx := 75 }, none, none, 1, 0⟩
       t.part = none ∧ t.route = 1 ∧ (recording { queue := [t] }).recd.queue = t :: [] ∧
         (recording { queue := [t] }).recd.freeze = none ∧
         (recording { queue := [t], fault := List.replicate 1023 blank }).recd.fault.length < 1024 ∧
         1024 ≤ (recording { queue := [t], fault := List.replicate 1024 blank }).recd.fault.length ∧
         (recording { queue := [t], freeze := some 0, hold := List.replicate 31 blank }).recd.freeze ≠ none ∧
         (recording { queue := [t], freeze := some 0, hold := List.replicate 31 blank }).recd.hold.length < 32) ∧
      (let t : Trig := ⟨1, 0, {}, none, none, 2, 0⟩
       t.part = none ∧ t.route = 2) := by decide +kernel
theorem test_meets_RecorderWrites :
    base.Serves .i3c 0 0 ∧ (base.session 0).keeper = true ∧ base.recd.freeze = none ∧ (base.dmaCh 0).st = .idle ∧
      base.cfg.hasTrace = true ∧ (base.dmaCh 5).st = .idle ∧
      (let s := { recording { freeze := some 0 } with now := freezeTime }
       s.recd.freeze = some 0 ∧ 0 + freezeTime ≤ s.now) ∧
      (let s : State := { base with dict := { sessions := { isOpen := true } :: List.replicate 10 {} } }
       (0 < 256 ∧ s.blk.st.serves = true ∧ s.pathBusy .i3c = false ∧ s.slotOf .i3c 0 = some 0 ∧
         (s.session 0).wbuf = none) ∧ (s.session 0).keeper = false) :=
  ⟨base_serves, by decide +kernel⟩

/-- RUN with the target `c` and the safety interrupt asserted. -/
def targeted (c : I3c) : State := { base with blk := { st := .run, irqSafety := true }, dict := { base.dict with i3c := c } }

theorem test_meets_TargetCommands :
    base.blk.st ≠ .off ∧ base.pathBusy .i3c = false ∧ (0x29 ≠ base.cfg.staticAddr ∧ base.cfg.staticAddr = 0x2A) ∧
      base.dict.i3c.enint = false ∧
      (let s := targeted { enint := true, ibi := true }
       s.dict.i3c.enint = true ∧ s.dict.i3c.ibi = true) ∧
      (let s := targeted { enint := true, lines := 14 }
       s.dict.i3c.enint = true ∧ s.irqLines &&& (15 - s.dict.i3c.lines % 16) ≠ 0) := by decide +kernel

theorem test_meets_MailboxesAndRegisterPort :
    base.blk.st ≠ .off ∧ base.dict.mbx[1]? = some ({} : Mailbox) ∧ base.pathBusy (mbxPath 1) = false ∧
      (inState .fuseload).blk.st ≠ .off ∧ (inState .fuseload).blk.st.serves = false ∧
      ({ base with dict := { mbx := [{ busy := true }, {}] } } : State).dict.mbx[0]? = some { busy := true } ∧
      wordParity 1 1 = true ∧ wordParity 1 0 = false ∧ wordParity 0xFFFFFFFF 0 = true ∧ wordParity 0 0 = true := by
  decide +kernel

/-- A ring record with operation `op` that writes 48 bytes; CRC word `crc` more than the right one. -/
def ringRec (op crc : Nat) : List Byte :=
  let b : List Byte := [0, 0, op, 1, 0x0B, 0x64, 0, 48, 0, 0] ++ List.replicate 48 0
  b ++ [0, 0] ++ leBytes 4 (crc32c b + crc)

/-- RUN with `b` in channel 2's holding register. -/
def ringing (b : List Byte) : State := withDma 2 { st := .transferring, words := descr 0x82000000 0, hold := b }

theorem test_meets_RingClocksAndTestPort :
    base.cfg.hasDma = true ∧ base.ringReady = false ∧ (ringing (ringRec 0 0)).ringReady = true ∧
      (∀ op ∈ [0, opWrite, opRead], crc32c ((ringRec op 0).take 58) = fieldAt (ringRec op 0) 60 4 ∧
        (ringRec op 0).getD 2 0 = op ∧ (ringRec op 0).getD 7 0 ≤ 48) ∧ opRead ≠ opWrite ∧ opRead ≠ 0 ∧
      crc32c ((ringRec 0 1).take 58) ≠ fieldAt (ringRec 0 1) 60 4 ∧ base.blk.st ≠ .off ∧ base.clk.refLost = false ∧
      ({ base with clk := { refLost := true } } : State).clk.refLost = true ∧ State.reset.blk.st = .reset := by decide +kernel
theorem test_meets_TestctrlDisablesTheTrip :
    base.blk.st ≠ .off ∧
      (let s : State := { base with clk := { ctrl := 1, testMode := true } }
       s.clk.ctrl < 2 ∧ s.clk.testMode = true) := by decide +kernel
end Sys2Proof.Tests
end

section
/-! SUPPORT. Scope (R10, R24): every command answers with a next state, and what no command changes. -/

namespace Sys2Proof.Machine

/-- The next state of an outcome, where it has one, has the queue of `s` and all that every operation keeps. -/
def OutKeeps (s : State) (o : Out) : Prop := ∀ t, o = .next t → t.pending = s.pending ∧ s.Kept t

/-- Moves that leave the queue alone: what is kept whatever else they change. -/
theorem outMoves.outKeeps {l : List Part} {s : State} {o : Out} (h : outMoves l s o)
    (hl : l.contains .pending = false) : OutKeeps s o := by
  intro t ht
  have hm : s.Moves l t := h t ht
  have hp : Part.pending ∉ l := by simpa using hl
  exact ⟨hm.frame .pending hp, hm.kept⟩

/-- Every meaning ends in one next state, its conditions choosing only which: a condition that does not hold (log 9) or
an index of no unit (log 11, R10) leaves the state as it was. Only the target of a parity error selects between two
such meanings. -/
theorem exec_next (c : Instr) (s : State) : ∃ t, exec c s = .next t := by
  cases c with
  | cellParityError target => cases target <;> exact ⟨_, rfl⟩
  | _ => exact ⟨_, rfl⟩

/-- Of every command, by what its meaning moves: the queue is not among the parts. -/
theorem exec_outKeeps (c : Instr) (s : State) : OutKeeps s (exec c s) := by
  cases c with
  | suppliesGood => exact (moves_execSuppliesGood s).outKeeps rfl
  | suppliesLost => exact (moves_execSuppliesLost s).outKeeps rfl
  | resetNLow logs => exact (moves_execResetNLow logs s).outKeeps rfl
  | resetExit riseAt => exact (moves_execResetExit riseAt s).outKeeps rfl
  | selftestComplete memFail twinFail refs =>
    exact (moves_execSelftestComplete memFail twinFail refs s).outKeeps rfl
  | fuseloadComplete image => exact (moves_execFuseloadComplete image s).outKeeps rfl
  | courseDiscovery c res ident => exact (moves_execCourseDiscovery c res ident s).outKeeps rfl
  | pmbusRetry c res ident => exact (moves_execPmbusRetry c res ident s).outKeeps rfl
  | discoverEnd vinOk => exact (moves_execDiscoverEnd vinOk s).outKeeps rfl
  | railRampStart => exact (moves_execRailRampStart s).outKeeps rfl
  | rampReferenceStart rail => exact (moves_execRampReferenceStart rail s).outKeeps rfl
  | positionJoin rail p => exact (moves_execPositionJoin rail p s).outKeeps rfl
  | railPowerGood rail => exact (moves_execRailPowerGood rail s).outKeeps rfl
  | railFailed rail => exact (moves_execRailFailed rail s).outKeeps rfl
  | blockCmdShutdown p sess => exact (moves_execBlockCmdShutdown p sess s).outKeeps rfl
  | blockCmdStart p sess => exact (moves_execBlockCmdStart p sess s).outKeeps rfl
  | rampDownStart => exact (moves_execRampDownStart s).outKeeps rfl
  | railRampDownEnd rail => exact (moves_execRailRampDownEnd rail s).outKeeps rfl
  | vinOkLoss => exact (moves_execVinOkLoss s).outKeeps rfl
  | vinRestart => exact (moves_execVinRestart s).outKeeps rfl
  | regionCycle r samples => exact (moves_execRegionCycle r samples s).outKeeps rfl
  | fireFallingEdge n => exact (moves_execFireFallingEdge n s).outKeeps rfl
  | fixedRateFire r => exact (moves_execFixedRateFire r s).outKeeps rfl
  | vminSourceChange r => exact (moves_execVminSourceChange r s).outKeeps rfl
  | strumDisagreeWindow => exact (moves_execStrumDisagreeWindow s).outKeeps rfl
  | twinOvDisagreement r => exact (moves_execTwinOvDisagreement r s).outKeeps rfl
  | twinParityReload r t => exact (moves_execTwinParityReload r t s).outKeeps rfl
  | strumRoundDue r => exact (moves_execStrumRoundDue r s).outKeeps rfl
  | lockoutEnd r => exact (moves_execLockoutEnd r s).outKeeps rfl
  | spreadStrobe r froms => exact (moves_execSpreadStrobe r froms s).outKeeps rfl
  | strumReport r => exact (moves_execStrumReport r s).outKeeps rfl
  | damper r => exact (moves_execDamper r s).outKeeps rfl
  | shedArrival n => exact (moves_execShedArrival n s).outKeeps rfl
  | scoreboardChangeArrival n => exact (moves_execScoreboardChangeArrival n s).outKeeps rfl
  | pickupValidityArrival r => exact (moves_execPickupValidityArrival r s).outKeeps rfl
  | bandChangeArrival r => exact (moves_execBandChangeArrival r s).outKeeps rfl
  | preparationTime id => exact (moves_execPreparationTime id s).outKeeps rfl
  | preStrumStart r => exact (moves_execPreStrumStart r s).outKeeps rfl
  | preStrumEnd r => exact (moves_execPreStrumEnd r s).outKeeps rfl
  | bumpHoldEnd id => exact (moves_execBumpHoldEnd id s).outKeeps rfl
  | wakeReqRise r => exact (moves_execWakeReqRise r s).outKeeps rfl
  | wakeGrant => exact (moves_execWakeGrant s).outKeeps rfl
  | wakeTimeout => exact (moves_execWakeTimeout s).outKeeps rfl
  | rejoinAck r => exact (moves_execRejoinAck r s).outKeeps rfl
  | wakeReqFall r => exact (moves_execWakeReqFall r s).outKeeps rfl
  | crsStatFrame c word codingOk => exact (moves_execCrsStatFrame c word codingOk s).outKeeps rfl
  | laneTimeout c => exact (moves_execLaneTimeout c s).outKeeps rfl
  | laneFltDamper c => exact (moves_execLaneFltDamper c s).outKeeps rfl
  | laneVminDamper c => exact (moves_execLaneVminDamper c s).outKeeps rfl
  | crsFltNFall c => exact (moves_execCrsFltNFall c s).outKeeps rfl
  | crsFltNRise c => exact (moves_execCrsFltNRise c s).outKeeps rfl
  | followUp c statusWord iout => exact (moves_execFollowUp c statusWord iout s).outKeeps rfl
  | courseRecordCopy c first second ident => exact (moves_execCourseRecordCopy c first second ident s).outKeeps rfl
  | smbusAlert seg addr => exact (moves_execSmbusAlert seg addr s).outKeeps rfl
  | controlPeriod => exact (moves_execControlPeriod s).outKeeps rfl
  | engineOutputs => exact (moves_execEngineOutputs s).outKeeps rfl
  | outputsArrival => exact (moves_execOutputsArrival s).outKeeps rfl
  | swapSample => exact (moves_execSwapSample s).outKeeps rfl
  | bankCopyEnd => exact (moves_execBankCopyEnd s).outKeeps rfl
  | bankSwap p sess mask => exact (moves_execBankSwap p sess mask s).outKeeps rfl
  | shadowWrite p sess ch sub value => exact (moves_execShadowWrite p sess ch sub value s).outKeeps rfl
  | chFlagsClear p sess ch mask => exact (moves_execChFlagsClear p sess ch mask s).outKeeps rfl
  | bankParityError ch t => exact (moves_execBankParityError ch t s).outKeeps rfl
  | trimPwmPeriod high low => exact (moves_execTrimPwmPeriod high low s).outKeeps rfl
  | trimInputLost => exact (moves_execTrimInputLost s).outKeeps rfl
  | trimHoldExpiry => exact (moves_execTrimHoldExpiry s).outKeeps rfl
  | fretStepStart r => exact (moves_execFretStepStart r s).outKeeps rfl
  | fretCmdReqRaise r => exact (moves_execFretCmdReqRaise r s).outKeeps rfl
  | fretCmdAckRise r => exact (moves_execFretCmdAckRise r s).outKeeps rfl
  | fretCmdAckFall r => exact (moves_execFretCmdAckFall r s).outKeeps rfl
  | fretAckLate r => exact (moves_execFretAckLate r s).outKeeps rfl
  | recoveryHoldExpiry rail => exact (moves_execRecoveryHoldExpiry rail s).outKeeps rfl
  | matchedEnableWrite p sess v => exact (moves_execMatchedEnableWrite p sess v s).outKeeps rfl
  | millisecondBoundary => exact (moves_execMillisecondBoundary s).outKeeps rfl
  | frameReady => exact (moves_execFrameReady s).outKeeps rfl
  | capStep => exact (moves_execCapStep s).outKeeps rfl
  | capoDelivery => exact (moves_execCapoDelivery s).outKeeps rfl
  | thermalDecision => exact (moves_execThermalDecision s).outKeeps rfl
  | recoveryStep => exact (moves_execRecoveryStep s).outKeeps rfl
  | capIrqClear p sess mask => exact (moves_execCapIrqClear p sess mask s).outKeeps rfl
  | hint word par => exact (moves_execHint word par s).outKeeps rfl
  | hintRetire id => exact (moves_execHintRetire id s).outKeeps rfl
  | hintIrqClear p sess mask => exact (moves_execHintIrqClear p sess mask s).outKeeps rfl
  | hintEntriesMaxRead p sess => exact (moves_execHintEntriesMaxRead p sess s).outKeeps rfl
  | scoreboardEntryParity id => exact (moves_execScoreboardEntryParity id s).outKeeps rfl
  | staticTableParity => exact (moves_execStaticTableParity s).outKeeps rfl
  | staticTableReloaded image => exact (moves_execStaticTableReloaded image s).outKeeps rfl
  | activityFrame r data par => exact (moves_execActivityFrame r data par s).outKeeps rfl
  | livePredictions => exact (moves_execLivePredictions s).outKeeps rfl
  | forwardRefresh => exact (moves_execForwardRefresh s).outKeeps rfl
  | droopObservation id => exact (moves_execDroopObservation id s).outKeeps rfl
  | learnerStep badCounters => exact (moves_execLearnerStep badCounters s).outKeeps rfl
  | passCommit k => exact (moves_execPassCommit k s).outKeeps rfl
  | passDiscard k parityIn => exact (moves_execPassDiscard k parityIn s).outKeeps rfl
  | cellParityError t => exact (moves_execCellParityError t s).outKeeps rfl
  | groupEtaWrite p sess g v => exact (moves_execGroupEtaWrite p sess g v s).outKeeps rfl
  | groupFrozenWrite p sess g v => exact (moves_execGroupFrozenWrite p sess g v s).outKeeps rfl
  | slotApply p sess slot => exact (moves_execSlotApply p sess slot s).outKeeps rfl
  | slotBuildEnd slot => exact (moves_execSlotBuildEnd slot s).outKeeps rfl
  | shardHalt p sess k => exact (moves_execShardHalt p sess k s).outKeeps rfl
  | shardResume p sess k => exact (moves_execShardResume p sess k s).outKeeps rfl
  | shardExport p sess k => exact (moves_execShardExport p sess k s).outKeeps rfl
  | shardImport p sess k => exact (moves_execShardImport p sess k s).outKeeps rfl
  | learnCellWrite p sess rec_ => exact (moves_execLearnCellWrite p sess rec_ s).outKeeps rfl
  | learnIrqClear p sess mask => exact (moves_execLearnIrqClear p sess mask s).outKeeps rfl
  | scanReading r value parityOk => exact (moves_execScanReading r value parityOk s).outKeeps rfl
  | calibrationSlot q value => exact (moves_execCalibrationSlot q value s).outKeeps rfl
  | confirmationRead q value parityOk => exact (moves_execConfirmationRead q value parityOk s).outKeeps rfl
  | restartTimerExpiry => exact (moves_execRestartTimerExpiry s).outKeeps rfl
  | diodeClear p sess mask => exact (moves_execDiodeClear p sess mask s).outKeeps rfl
  | diodeForceWrite p sess mask => exact (moves_execDiodeForceWrite p sess mask s).outKeeps rfl
  | thermalIrqClear p sess mask => exact (moves_execThermalIrqClear p sess mask s).outKeeps rfl
  | pickupClear p sess r mask => exact (moves_execPickupClear p sess r mask s).outKeeps rfl
  | pickupForceWrite p sess r mask => exact (moves_execPickupForceWrite p sess r mask s).outKeeps rfl
  | conversionResult n nv parityOk storeOk =>
    exact (moves_execConversionResult n nv parityOk storeOk s).outKeeps rfl
  | slopeTestEnd n => exact (moves_execSlopeTestEnd n s).outKeeps rfl
  | fireStrobe n => exact (moves_execFireStrobe n s).outKeeps rfl
  | fireWaitTimeout n => exact (moves_execFireWaitTimeout n s).outKeeps rfl
  | conversionTimeout n => exact (moves_execConversionTimeout n s).outKeeps rfl
  | syncArmSingle p sess => exact (moves_execSyncArmSingle p sess s).outKeeps rfl
  | syncArmSweeps p sess => exact (moves_execSyncArmSweeps p sess s).outKeeps rfl
  | syncCancel p sess => exact (moves_execSyncCancel p sess s).outKeeps rfl
  | syncTrigger => exact (moves_execSyncTrigger s).outKeeps rfl
  | convUrgent p sess n v => exact (moves_execConvUrgent p sess n v s).outKeeps rfl
  | urgentRequest n => exact (moves_execUrgentRequest n s).outKeeps rfl
  | convTableWrite p sess n t data => exact (moves_execConvTableWrite p sess n t data s).outKeeps rfl
  | boardAnalogConversion x res => exact (moves_execBoardAnalogConversion x res s).outKeeps rfl
  | energyQuarter vs => exact (moves_execEnergyQuarter vs s).outKeeps rfl
  | scoreboardParityError n islandCopy => exact (moves_execScoreboardParityError n islandCopy s).outKeeps rfl
  | parityReturnTimer n => exact (moves_execParityReturnTimer n s).outKeeps rfl
  | stringCmdMute p sess n => exact (moves_execStringCmdMute p sess n s).outKeeps rfl
  | stringCmdReturn p sess n => exact (moves_execStringCmdReturn p sess n s).outKeeps rfl
  | stringCmdSetBlind p sess n => exact (moves_execStringCmdSetBlind p sess n s).outKeeps rfl
  | stringCmdClearBlind p sess n => exact (moves_execStringCmdClearBlind p sess n s).outKeeps rfl
  | serviceClear p sess mask => exact (moves_execServiceClear p sess mask s).outKeeps rfl
  | open_ p sess => exact (moves_execOpen p sess s).outKeeps rfl
  | close p sess => exact (moves_execClose p sess s).outKeeps rfl
  | read p sess idx sub off => exact (moves_execRead p sess idx sub off s).outKeeps rfl
  | write p sess idx sub flags off data => exact (moves_execWrite p sess idx sub flags off data s).outKeeps rfl
  | registerWrite p sess idx sub v => exact (moves_execRegisterWrite p sess idx sub v s).outKeeps rfl
  | sessionExpiry slot => exact (moves_execSessionExpiry slot s).outKeeps rfl
  | i3cPrivateRead => exact (moves_execI3cPrivateRead s).outKeeps rfl
  | i3cFrameDiscard => exact (moves_execI3cFrameDiscard s).outKeeps rfl
  | entdaa addr => exact (moves_execEntdaa addr s).outKeeps rfl
  | setdasa static addr => exact (moves_execSetdasa static addr s).outKeeps rfl
  | rstdaa => exact (moves_execRstdaa s).outKeeps rfl
  | getpid => exact (moves_execGetpid s).outKeeps rfl
  | getbcr => exact (moves_execGetbcr s).outKeeps rfl
  | getdcr => exact (moves_execGetdcr s).outKeeps rfl
  | getstatus => exact (moves_execGetstatus s).outKeeps rfl
  | enec events => exact (moves_execEnec events s).outKeeps rfl
  | disec events => exact (moves_execDisec events s).outKeeps rfl
  | inBandInterrupt won => exact (moves_execInBandInterrupt won s).outKeeps rfl
  | mbxGo m => exact (moves_execMbxGo m s).outKeeps rfl
  | ringRecord => exact (moves_execRingRecord s).outKeeps rfl
  | commit p sess mask => exact (moves_execCommit p sess mask s).outKeeps rfl
  | commitDiscard p sess mask => exact (moves_execCommitDiscard p sess mask s).outKeeps rfl
  | commitGroupTaken g => exact (moves_execCommitGroupTaken g s).outKeeps rfl
  | keeperChallenge p sess => exact (moves_execKeeperChallenge p sess s).outKeeps rfl
  | keeperResponse p sess resp => exact (moves_execKeeperResponse p sess resp s).outKeeps rfl
  | challengeLapse slot => exact (moves_execChallengeLapse slot s).outKeeps rfl
  | keeperLockoutEnd => exact (moves_execKeeperLockoutEnd s).outKeeps rfl
  | keeperDrop p sess => exact (moves_execKeeperDrop p sess s).outKeeps rfl
  | sessionEvict p sess slot => exact (moves_execSessionEvict p sess slot s).outKeeps rfl
  | dmaStart p sess ch => exact (moves_execDmaStart p sess ch s).outKeeps rfl
  | dmaAbort p sess ch => exact (moves_execDmaAbort p sess ch s).outKeeps rfl
  | dmaKick p sess ch => exact (moves_execDmaKick p sess ch s).outKeeps rfl
  | descriptorFetch ch => exact (moves_execDescriptorFetch ch s).outKeeps rfl
  | dmaBurst ch holdOk => exact (moves_execDmaBurst ch holdOk s).outKeeps rfl
  | memoryWriteResponse id err => exact (moves_execMemoryWriteResponse id err s).outKeeps rfl
  | memoryReadBeat id data parityOk last err =>
    exact (moves_execMemoryReadBeat id data parityOk last err s).outKeeps rfl
  | descriptorComplete ch => exact (moves_execDescriptorComplete ch s).outKeeps rfl
  | ownPoll ch => exact (moves_execOwnPoll ch s).outKeeps rfl
  | paceTimeout ch => exact (moves_execPaceTimeout ch s).outKeeps rfl
  | memoryTimeout id => exact (moves_execMemoryTimeout id s).outKeeps rfl
  | dmaIrqClear p sess ch mask => exact (moves_execDmaIrqClear p sess ch mask s).outKeeps rfl
  | stEnable p sess => exact (moves_execStEnable p sess s).outKeeps rfl
  | stDisable p sess => exact (moves_execStDisable p sess s).outKeeps rfl
  | stSweepEnd => exact (moves_execStSweepEnd s).outKeeps rfl
  | stEntryFetched n => exact (moves_execStEntryFetched n s).outKeeps rfl
  | stWritebackDue n => exact (moves_execStWritebackDue n s).outKeeps rfl
  | stFlush p sess => exact (moves_execStFlush p sess s).outKeeps rfl
  | stHostFieldsWrite p sess fields => exact (moves_execStHostFieldsWrite p sess fields s).outKeeps rfl
  | stCacheParity n => exact (moves_execStCacheParity n s).outKeeps rfl
  | recordFormed => exact (moves_execRecordFormed s).outKeeps rfl
  | trigSnapCountWrite p sess t v => exact (moves_execTrigSnapCountWrite p sess t v s).outKeeps rfl
  | faultFreeze p sess => exact (moves_execFaultFreeze p sess s).outKeeps rfl
  | faultUnfreeze p sess => exact (moves_execFaultUnfreeze p sess s).outKeeps rfl
  | freezeExpired => exact (moves_execFreezeExpired s).outKeeps rfl
  | faultClear p sess => exact (moves_execFaultClear p sess s).outKeeps rfl
  | traceClear p sess => exact (moves_execTraceClear p sess s).outKeeps rfl
  | recQueueMaxRead p sess => exact (moves_execRecQueueMaxRead p sess s).outKeeps rfl
  | refclkLost => exact (moves_execRefclkLost s).outKeeps rfl
  | refclkRegained => exact (moves_execRefclkRegained s).outKeeps rfl
  | clockCheck faulty hmemMhz => exact (moves_execClockCheck faulty hmemMhz s).outKeeps rfl
  | registerPortAccess wr addr wdata wpar => exact (moves_execRegisterPortAccess wr addr wdata wpar s).outKeeps rfl
  | trstNLow => exact (moves_execTrstNLow s).outKeeps rfl
  | testModeFall => exact (moves_execTestModeFall s).outKeeps rfl
  | bypass => exact (moves_execBypass s).outKeeps rfl
  | idcode => exact (moves_execIdcode s).outKeeps rfl
  | samplePreload pins shiftIn => exact (moves_execSamplePreload pins shiftIn s).outKeeps rfl
  | extest testMode => exact (moves_execExtest testMode s).outKeeps rfl
  | testctrl bitsIn testMode => exact (moves_execTestctrl bitsIn testMode s).outKeeps rfl
  | twinReloadComplete r t => exact (moves_execTwinReloadComplete r t s).outKeeps rfl
  | hourWindow => exact (moves_execHourWindow s).outKeeps rfl
  | fullSpeedStart => exact (moves_execFullSpeedStart s).outKeeps rfl
  | testLogicReset => exact (moves_execTestLogicReset s).outKeeps rfl

theorem exec_pending {c : Instr} {s t : State} (h : exec c s = .next t) : t.pending = s.pending :=
  (exec_outKeeps c s t h).1

theorem exec_kept {c : Instr} {s t : State} (h : exec c s = .next t) : s.Kept t := (exec_outKeeps c s t h).2

/-- Settles O4: every meaning is a next state, and none moves the queue or what every operation keeps. -/
theorem everyCommandAnswersAndKeepsTheQueue : Obligations.EveryCommandAnswersAndKeepsTheQueue := by
  unfold Obligations.EveryCommandAnswersAndKeepsTheQueue
  refine ⟨exec_next, fun c s t h => ?_⟩
  have hk : s.Kept t := exec_kept h
  exact ⟨exec_pending h, hk.cfg, hk.units, hk.regs⟩

end Sys2Proof.Machine
end

section
/-! SUPPORT. Soundness (R17): what every operation keeps makes a sound state sound again, a command or a nanosecond. -/

namespace Sys2Proof.Machine

/-- What every operation keeps is all that soundness asks for. -/
theorem State.Kept.sound {s t : State} (h : s.Kept t) (hs : s.Sound) : t.Sound where
  legal := h.cfg ▸ hs.legal
  units := h.units hs.units
  time := h.time hs.time
  regs := h.regs hs.regs
  staged := h.staged hs.staged
  rails := h.sp hs.rails

/-- R546: block time wraps within its width, and a nanosecond changes nothing else that soundness speaks of. -/
theorem State.kept_tick (s : State) : s.Kept s.tick := by
  have hn : s.Kept { s with now := (s.now + 1) % 2 ^ 64 } :=
    ⟨rfl, .of_sizes rfl rfl, fun _ => Nat.mod_lt _ (by decide), id, id, id⟩
  unfold State.tick
  split
  · exact .refl s
  · exact hn.trans (State.moves_noteLines _).kept

theorem State.Sound.withPending {s : State} (h : s.Sound) (q : List Instr) : State.Sound { s with pending := q } :=
  (State.Moves.put_pending (l := [.pending]) (.refl _ s) rfl).kept.sound h

/-- Settles O5: with the queue empty a nanosecond passes; otherwise the front command runs, and it keeps what every
operation keeps. -/
theorem everyStepKeepsTheStateSound : Obligations.EveryStepKeepsTheStateSound := by
  unfold Obligations.EveryStepKeepsTheStateSound
  intro s t hs h
  unfold step at h
  split at h
  case h_1 =>
    cases h
    exact s.kept_tick.sound hs
  case h_2 c q _ =>
    exact (exec_kept h).sound (hs.withPending q)

end Sys2Proof.Machine
end

section
/-! SUPPORT. A control period (R163, R164): which of its parts touch the engine's own fields and the block state. The
inputs of cycle 0 set the number and the instant of the period, the supervisor's latch leaves the engine as it is and
running, and the computation moves the trim alone. -/

namespace Sys2Proof.Machine

/-- Moves that leave the block state alone leave the engine running or not. -/
theorem State.Moves.engineOn {l : List Part} {s t : State} (h : s.Moves l t) (hl : l.contains .st = false) :
    t.engineOn = s.engineOn := by
  have hst : t.blk.st = s.blk.st := h.frame .st (by simpa using hl)
  simp only [State.engineOn, hst]

/-! ## The inputs of cycle 0 -/

/-- R163: the number of a period, the instant of its cycle 0, and the stall of shadow writes (R197). -/
def Engine.clock (e : Engine) : Nat × Nat × Bool := (e.period, e.zeroAt, e.stall)

theorem State.takeTrimGroup_clock (s : State) : s.takeTrimGroup.eng.clock = s.eng.clock := by
  unfold State.takeTrimGroup
  extract_lets t
  have ht : t.eng = s.eng := State.takeGroup_eng s 6
  split
  · rw [ht]
  · show t.eng.clock = s.eng.clock
    rw [ht]

theorem State.takeTrimGroup_cg (s : State) : s.takeTrimGroup.cg = s.cg :=
  (State.moves_takeTrimGroup s).frame .cg (by decide)

theorem State.vinMean_of_cg {s t : State} (h : t.cg = s.cg) : t.vinMean = s.vinMean := by
  simp only [State.vinMean, h]

/-- R163, R164, R376: what a cycle 0 writes into the engine and into the board-analog converter's sums. -/
theorem State.beginPeriod_clock_cg (s : State) :
    s.beginPeriod.eng.clock = (s.eng.period + 1, s.now, true) ∧
    s.beginPeriod.cg = { s.cg with vinSns := s.vinMean, vinSum := 0, vinCnt := 0 } := by
  unfold State.beginPeriod
  extract_lets a x w b regs c d
  have hw : w.eng.clock = (s.eng.period + 1, s.now, true) ∧ w.cg = s.cg := ⟨rfl, rfl⟩
  clear_value w
  have hb : b.eng.clock = w.eng.clock ∧ b.cg = w.cg := by
    simp only [b, State.takeTrimGroup_clock, State.takeTrimGroup_cg, State.takeGroup_eng, State.takeGroup_cg, and_self]
  clear_value b
  have hd : b.Moves [.regions, .chans, .learn, .regs] d :=
    .step (.overAll (fun _ _ => (State.moves_takeFrame ..).mono rfl)
      (.overAll (fun _ _ => (State.moves_takeVin ..).mono rfl)
        (.overAll (fun _ _ => (State.moves_takeReport ..).mono rfl) (.refl _ b)))) (State.moves_takeSwaps ..) rfl
  clear_value d
  have heng : d.eng = b.eng := hd.frame .eng (by decide)
  have hcg : d.cg = s.cg := ((hd.frame .cg (by decide)).trans hb.2).trans hw.2
  constructor
  · show d.eng.clock = _
    rw [heng, hb.1, hw.1]
  · show { d.cg with vinSns := d.vinMean, vinSum := 0, vinCnt := 0 } = _
    rw [State.vinMean_of_cg hcg, hcg]

/-! ## The supervisor's latch -/

/-- Entering SERVICE from RUN attaches nothing to the change of state. -/
theorem State.enter_service_eng {s : State} (h : s.blk.st = .run) : (s.enter .service).eng = s.eng := by
  have ha : s.attached .service = s :=
    State.attached_plain (by rw [h]; rfl) (by rw [h]; rfl) (by rw [h]; decide) (by rw [h]; decide) (by decide)
      (by rw [h]; rfl)
  rw [State.enter_plain ha, State.fire_eng, State.modBlk_eng]

/-- R235, R250: the return to RUN makes the cap begin afresh, and nothing else. -/
theorem State.enter_run_eng {s : State} (h : s.blk.st = .service) : (s.enter .run).eng = s.eng := by
  have ha : s.attached .run = s.freshCap := by
    simp [State.attached, h, BState.runs, BState.lowPower, BState.full]
  rw [State.enter, State.fire_eng, State.modBlk_eng, ha, State.freshCap_eng]

/-- R154, R155: the service evaluation sets reasons and moves the block between RUN and SERVICE only. -/
theorem State.latchService_eng_on (s : State) :
    s.latchService.eng = s.eng ∧ s.latchService.engineOn = s.engineOn := by
  unfold State.latchService
  extract_lets due u any
  have hu : u.eng = s.eng := overAll_keep State.eng (fun _ _ => State.setReason_eng ..) _ _
  have hb : u.blk.st = s.blk.st :=
    overAll_keep (fun x => x.blk.st) (fun x b => by rw [State.setReason_blk]) _ _
  unfold State.engineOn
  split
  case isTrue h =>
    obtain ⟨hr, -⟩ : u.blk.st = .run ∧ any = true := by simpa only [Bool.and_eq_true, decide_eq_true_eq] using h
    rw [State.enter_service_eng hr, State.enter_st, ← hb, hr]
    exact ⟨hu, rfl⟩
  case isFalse =>
    split
    case isTrue h =>
      obtain ⟨hr, -⟩ : u.blk.st = .service ∧ (!any) = true := by
        simpa only [Bool.and_eq_true, decide_eq_true_eq] using h
      rw [State.enter_run_eng hr, State.enter_st, ← hb, hr]
      exact ⟨hu, rfl⟩
    case isFalse =>
      rw [hb]
      exact ⟨hu, rfl⟩

/-- R42: the latch changes nothing of the engine, and the engine goes on running. -/
theorem State.latch_eng_on (s : State) : s.latch.eng = s.eng ∧ s.latch.engineOn = s.engineOn := by
  unfold State.latch
  extract_lets regs a b c d e u
  have ha : s.Moves [.regions, .strings, .cap, .convs, .cg, .dma, .recd, .regs] a :=
    .put_strings (.refl _ s) rfl (List.length_map ..)
  have hb : a.Moves [.regions, .strings, .cap, .dma, .recd, .regs] b :=
    .step (.step (.overAll (fun _ _ => (State.moves_latchDisturb ..).mono rfl) (.refl _ a))
      (State.moves_latchStates ..) rfl) (State.moves_latchFigures ..) rfl
  have hd : b.Moves [.regions, .strings, .cap, .convs, .cg, .dma, .recd, .regs] d :=
    .overAll (fun _ _ => (State.moves_latchString ..).mono rfl)
      (.step (.overAll (fun _ _ => (State.moves_pickEvaluate ..).mono rfl) (.refl _ b)) (State.moves_latchRetry ..) rfl)
  have hx : d.Moves [.regions, .strings, .cap, .recd, .regs] (overAll e.latchAssist regs State.latchDerate) :=
    .overAll (fun _ _ => (State.moves_latchDerate ..).mono rfl)
      (.step (.overAll (fun _ _ => (State.moves_latchRotation ..).mono rfl) (.refl _ d))
        (State.moves_latchAssist ..) rfl)
  have h : s.Moves [.regions, .strings, .cap, .convs, .cg, .dma, .recd, .regs]
      (overAll e.latchAssist regs State.latchDerate) :=
    ((ha.step hb rfl).step hd rfl).step hx rfl
  have hu : u.eng = s.eng ∧ u.engineOn = s.engineOn := by
    obtain ⟨he, ho⟩ := State.latchService_eng_on (overAll e.latchAssist regs State.latchDerate)
    exact ⟨he.trans (h.frame .eng (by decide)), ho.trans (h.engineOn rfl)⟩
  have hc : u.Moves [.regions, .regs] (if u.runs && u.cap.stepSeen then u.holdCapos else u) :=
    .ite (State.moves_holdCapos u) (.refl _ u)
  exact ⟨(hc.frame .eng (by decide)).trans hu.1, (hc.engineOn rfl).trans hu.2⟩

/-! ## The computation -/

/-- R163: of the engine's own fields a computation moves the trim alone (R187). -/
theorem State.compute_eng (s : State) : s.compute.eng = s.trimPeriod.eng := by
  have h : s.trimPeriod.Moves [.rails, .regions, .strings, .chans, .regs] s.compute := by
    unfold State.compute
    extract_lets a b c regs d held e
    have hd : s.trimPeriod.Moves [.rails, .regions, .strings, .chans, .regs] d :=
      .overAll (fun _ _ => (State.moves_plausible ..).mono rfl)
        (.overAll (fun _ _ => (State.moves_railChannel ..).mono rfl)
          (.step (.overAll (fun _ _ => (State.moves_railTerms ..).mono rfl) (.refl _ _))
            (State.moves_abandonFrets ..) rfl))
    exact .ite (.overAll (fun _ _ => (State.moves_regionRamp ..).mono rfl) hd)
      (.overAll (fun _ _ => (State.moves_regionChannel ..).mono rfl)
        (.overAll (fun _ _ => (State.moves_consensus ..).mono rfl) hd))
  exact h.frame .eng (by decide)

theorem State.trimPeriod_eng (s : State) : ∃ v, s.trimPeriod.eng = { s.eng with val := v } := ⟨_, rfl⟩

/-- R280, R533: ACT_TICK rises 2 to 4 cycles of HMEM_CLK after the cycle 0, at the clock of log 98. -/
theorem State.tickDelay_bounds (s : State) (k : Nat) :
    2000 / clampN 200 1000 s.clk.hmem ≤ s.tickDelay k ∧ s.tickDelay k ≤ 4000 / clampN 200 1000 s.clk.hmem := by
  simp only [State.tickDelay]
  generalize clampN 200 1000 s.clk.hmem = f
  have hlo : 2000 / f ≤ 4000 / f := Nat.div_le_div_right (by decide)
  have hk : k % (4000 / f - 2000 / f + 1) < 4000 / f - 2000 / f + 1 := Nat.mod_lt _ (Nat.succ_pos _)
  omega

theorem State.pulseTick_eng (s : State) :
    ∃ n, s.pulseTick.eng = { s.eng with tickAt := s.now + n } ∧
      2000 / clampN 200 1000 s.clk.hmem ≤ n ∧ n ≤ 4000 / clampN 200 1000 s.clk.hmem :=
  ⟨_, rfl, s.tickDelay_bounds _⟩

/-! ## The whole period -/

/-- R280: between its tags and its computation a cycle 0 ends the books of the period before and pulses ACT_TICK. -/
def State.closePeriod (v : State) : State :=
  State.pulseTick { v with
    hints := { v.hints with
      past := [], asking := v.hints.asking.filter v.asks
      entries := v.hints.entries.map fun h => { h with joined := [] } }
    eng := { v.eng with ticks := v.eng.ticks + 1 }
    learn := { v.learn with dueRun := v.learn.perRun, perRun := v.learn.msRun } }

theorem State.closePeriod_engineOn (v : State) : v.closePeriod.engineOn = v.engineOn :=
  (State.moves_pulseTick _).engineOn rfl

/-- The books of a period, its outputs and its power sums: the engine runs on, no past hint is left, and of the
engine's fields the count of ticks, the instant of ACT_TICK and the trim move. -/
theorem State.closePeriod_outputs {v u : State} (hu : v.closePeriod.compute.powerPeriod = u) :
    u.engineOn = v.engineOn ∧ u.hints.past = [] ∧
    ∃ n x, u.eng = { v.eng with ticks := v.eng.ticks + 1, tickAt := v.now + n, val := x } ∧
      2000 / clampN 200 1000 v.clk.hmem ≤ n ∧ n ≤ 4000 / clampN 200 1000 v.clk.hmem := by
  have hp : v.closePeriod.compute.Moves _ u := hu ▸ State.moves_powerPeriod _
  have hc : v.closePeriod.Moves _ v.closePeriod.compute := State.moves_compute _
  have heng : u.eng = v.closePeriod.trimPeriod.eng := (hp.frame .eng (by decide)).trans (State.compute_eng _)
  have hpast : v.closePeriod.hints.past = [] := congrArg Hints.past ((State.moves_pulseTick _).frame .hints (by decide))
  obtain ⟨n, hn, hlo, hhi⟩ : ∃ n, v.closePeriod.eng = { v.eng with ticks := v.eng.ticks + 1, tickAt := v.now + n } ∧
      2000 / clampN 200 1000 v.clk.hmem ≤ n ∧ n ≤ 4000 / clampN 200 1000 v.clk.hmem := State.pulseTick_eng _
  obtain ⟨x, hx⟩ := v.closePeriod.trimPeriod_eng
  refine ⟨((hp.engineOn rfl).trans (hc.engineOn rfl)).trans v.closePeriod_engineOn, ?_, n, x, ?_, hlo, hhi⟩
  · rw [hp.frame .hints (by decide), hc.frame .hints (by decide), hpast]
  · rw [heng, hx, hn]

/-- The tags of the period that ended, over the latch of the inputs of cycle 0, leave what those have set. -/
theorem State.tagged_keeps {s v : State}
    (hv : overAll s.beginPeriod.latch (Config.regions s.cfg) (State.takeTag · s.eng.zeroAt s.now) = v) :
    v.eng = s.beginPeriod.eng ∧ v.engineOn = s.engineOn ∧ v.now = s.now ∧ v.clk = s.clk := by
  obtain ⟨hleng, hlon⟩ := s.beginPeriod.latch_eng_on
  have ha := s.moves_beginPeriod
  have hl := s.beginPeriod.moves_latch
  have ht : s.beginPeriod.latch.Moves [.regions] v := hv ▸ .overAll (fun _ _ => State.moves_takeTag ..) (.refl _ _)
  refine ⟨?_, ?_, ?_, ?_⟩
  · rw [ht.frame .eng (by decide), hleng]
  · rw [ht.engineOn rfl, hlon, ha.engineOn rfl]
  · rw [ht.frame .now (by decide), hl.frame .now (by decide), ha.frame .now (by decide)]
  · rw [ht.frame .clk (by decide), hl.frame .clk (by decide), ha.frame .clk (by decide)]

/-- R163: where the engine runs after the tags, `v`, the outputs and the power sums of the period follow, `u`. -/
theorem State.controlPeriod_eq {s v u : State}
    (hv : overAll s.beginPeriod.latch (Config.regions s.cfg) (State.takeTag · s.eng.zeroAt s.now) = v)
    (hu : v.closePeriod.compute.powerPeriod = u) (hon : v.engineOn = true) :
    s.controlPeriod = { u with eng := { u.eng with computed := true } } := by
  have hcfg : s.beginPeriod.latch.cfg = s.cfg :=
    (State.moves_latch _).kept.cfg.trans s.moves_beginPeriod.kept.cfg
  have hnow : s.beginPeriod.latch.now = s.now :=
    ((State.moves_latch _).frame .now (by decide)).trans (s.moves_beginPeriod.frame .now (by decide))
  rw [← hcfg, ← hnow] at hv
  unfold State.controlPeriod
  extract_lets a l v' e h n w0 w u'
  obtain rfl : v' = v := hv
  clear_value v'
  have hw : w = v'.closePeriod := rfl
  clear_value w
  subst hw
  have hu' : u' = u := hu
  clear_value u'
  subst hu'
  rw [if_pos (v'.closePeriod_engineOn.trans hon)]

/-- Settles O24: the parts run in the order of R163; of what they leave, the engine's fields come from cycle 0, the
latch and ACT_TICK, and the rest from what each part may move. -/
theorem controlPeriodComputes : Obligations.ControlPeriodComputes := by
  unfold Obligations.ControlPeriodComputes
  refine fun s => ⟨fun hoff => ?_, fun hon => ?_⟩
  · show Host.Outcome.next (if s.engineOn then s.controlPeriod else s) = .next s
    rw [if_neg (by rw [hoff]; decide)]
  intro a v w0 w u f
  obtain ⟨hclock, hcg⟩ : a.eng.clock = _ ∧ a.cg = _ := s.beginPeriod_clock_cg
  obtain ⟨hper, hzero, hstall⟩ : a.eng.period = s.eng.period + 1 ∧ a.eng.zeroAt = s.now ∧ a.eng.stall = true := by
    simpa only [Engine.clock, Prod.mk.injEq] using hclock
  have hv : overAll a.latch (Config.regions s.cfg) (State.takeTag · s.eng.zeroAt s.now) = v := rfl
  clear_value v
  have hu : v.closePeriod.compute.powerPeriod = u := rfl
  clear_value u
  obtain ⟨hveng, hvon, hvnow, hvclk⟩ : v.eng = a.eng ∧ _ := State.tagged_keeps hv
  obtain ⟨huon, hpast, n, x, hueng, hlo, hhi⟩ := State.closePeriod_outputs hu
  have hexec : exec .controlPeriod s = .next { u with eng := { u.eng with computed := true } } := by
    show Host.Outcome.next (if s.engineOn then s.controlPeriod else s) = _
    rw [if_pos hon, State.controlPeriod_eq hv hu (hvon.trans hon)]
  clear_value a
  have hmoves := moves_execControlPeriod s _ hexec
  rw [hvclk] at hlo hhi
  rw [hveng, hvnow] at hueng
  refine ⟨_, hexec, rfl, hper, hzero, hstall, hcg, huon.trans (hvon.trans hon), ?_, ?_, rfl, ?_, ?_, ?_,
    hpast, hmoves.kept.sp, hmoves.frame⟩
  · show u.eng.period = _
    rw [hueng, hper]
  · show u.eng.zeroAt = _
    rw [hueng, hzero]
  · show u.eng.stall = _
    rw [hueng, hstall]
  · show s.now + 2000 / f ≤ u.eng.tickAt
    rw [hueng]; exact Nat.add_le_add_left hlo _
  · show u.eng.tickAt ≤ s.now + 4000 / f
    rw [hueng]; exact Nat.add_le_add_left hhi _

end Sys2Proof.Machine
end

section
/-! SUPPORT. Commands of populated units (R10): their meaning is what their unit does. -/

namespace Sys2Proof.Machine

theorem onRegion_pop {s t : State} {r : Nat} (h : Config.popRegion s.cfg r = true) : onRegion s r t = .next t := by
  simp only [onRegion, within, h, popRegion_lt h, if_true]

theorem onString_pop {s t : State} {i : Nat} (h : Config.popString s.cfg i = true) : onString s i t = .next t := by
  simp only [onString, within, h, popString_lt h, if_true]

end Sys2Proof.Machine
end

section
/-! SUPPORT. A region-island cycle (R388): its inputs are the samples (R48), one cycle of the reference (R59), and the
value of the source in use (R55); the rest of the cycle follows where there is a value. -/

namespace Sys2Proof.Machine

/-! ## The inputs of a cycle, one at a time -/

/-- R48: what a pickup makes of the sample of a cycle; without one it has no clean value. -/
def Pickup.takes (k : Pickup) : Option Sample → Pickup
  | some x => k.take x
  | none => { k with clean := false }

/-- R48: each pickup of a region takes the sample that has come for it. -/
def State.takeSamples (s : State) (r : Nat) (l : List Sample) : State :=
  s.modRegion r fun x => { x with pk := x.pk.zipIdx.map fun k => k.1.takes l[k.2]? }

/-- R59, R70: the reference and the ripple move one cycle; cycles without a clean value of the region's own count. -/
def State.moveReference (s : State) (r : Nat) : State :=
  s.modLoop r fun l =>
    { l.interpolate.ripple with miss := if (cleanValues (s.region r).pk).isEmpty then l.miss + 1 else 0 }

/-- R55 to R57: the value of the source in use, where it has one, becomes vmin. -/
def State.takeVmin (s : State) (r : Nat) : State :=
  s.modLoop r fun l => { l with hasV := (s.vminNow r).isSome, vmin := (s.vminNow r).getD l.vmin }

/-- Outside a ramp-down (R417) these three are the inputs of a cycle. -/
theorem State.cycleInputs_eq {s : State} {r : Nat} (l : List Sample) (h : (s.rail (railOf r)).downAt = none) :
    s.cycleInputs r l = ((s.takeSamples r l).moveReference r).takeVmin r := by
  unfold State.cycleInputs
  extract_lets a b c
  have ha : a = s.takeSamples r l := by
    refine congrArg (s.modRegion r) (funext fun x =>
      congrArg (fun q => { x with pk := q }) (List.map_congr_left fun k _ => ?_))
    obtain ⟨k, i⟩ := k
    dsimp only
    cases l[i]? <;> rfl
  have hb : b = (s.takeSamples r l).moveReference r := by rw [← ha]; rfl
  have hd : (b.rail (railOf r)).downAt = none := h
  have hc : c = b := by simp only [c, hd]
  rw [← hb, hc, State.takeVmin]
  cases b.vminNow r <;> rfl

theorem State.modRegion_length (s : State) (r : Nat) (f : Region → Region) :
    (s.modRegion r f).regions.length = s.regions.length := List.length_modify ..

/-- R55: a region on its own pickups uses the least of their clean values. -/
theorem State.vminNow_own {s : State} {r : Nat} (h : (s.region r).loop.src = .own) :
    s.vminNow r = (cleanValues (s.region r).pk).min? := by
  simp only [State.vminNow, h]

/-! ## What the region holds after its inputs -/

section
variable {s : State} {r : Nat} (l : List Sample) (hr : r < s.regions.length)
include hr

/-- The region as its minimum is judged: its pickups have taken their samples and its reference has moved. -/
theorem State.moveReference_region : ∃ n, ((s.takeSamples r l).moveReference r).region r =
    { s.region r with
      pk := (s.region r).pk.zipIdx.map fun k => k.1.takes l[k.2]?
      loop := { (s.region r).loop.interpolate.ripple with miss := n } } := by
  have ht : (s.takeSamples r l).region r = _ := s.modRegion_region_same _ hr
  have hl : r < (s.takeSamples r l).regions.length := (s.modRegion_length r _).symm ▸ hr
  rw [State.moveReference, State.modLoop_eq, State.modRegion_region_same _ _ hl, ht]
  exact ⟨_, rfl⟩

variable (hd : (s.rail (railOf r)).downAt = none)
include hd

/-- The inputs of a cycle end with the value that the source in use gives. -/
theorem State.cycleInputs_region {x : State} (hx : (s.takeSamples r l).moveReference r = x) :
    (s.cycleInputs r l).region r = { x.region r with
      loop := { (x.region r).loop with
        hasV := (x.vminNow r).isSome, vmin := (x.vminNow r).getD (x.region r).loop.vmin } } := by
  have hl : r < x.regions.length := by
    rwa [← hx, State.moveReference, State.modLoop_eq, State.modRegion_length, State.takeSamples, State.modRegion_length]
  rw [State.cycleInputs_eq l hd, hx]
  exact x.modRegion_region_same _ hl

/-- R48, R50: a sample that has come for a pickup is taken by it. -/
theorem State.cycleInputs_pickup {p : Nat} {x : Sample} (hp : p < (s.region r).pk.length) (hx : l[p]? = some x) :
    ((s.cycleInputs r l).region r).pk.getD p {} = ((s.region r).pk.getD p {}).take x := by
  obtain ⟨_, hm⟩ := State.moveReference_region l hr
  rw [State.cycleInputs_region l hr hd rfl, hm]
  simp only [List.getD_eq_getElem?_getD, List.getElem?_map, List.getElem?_zipIdx, List.getElem?_eq_getElem hp,
    Option.map_some, Option.getD_some, Nat.zero_add, hx, Pickup.takes]

/-- R59: the reference moves one cycle. -/
theorem State.cycleInputs_vref :
    ((s.cycleInputs r l).region r).loop.vref = (s.region r).loop.interpolate.vref := by
  obtain ⟨_, hm⟩ := State.moveReference_region l hr
  rw [State.cycleInputs_region l hr hd rfl, hm]
  rfl

/-- R55: the least clean value of a region on its own pickups becomes vmin. -/
theorem State.cycleInputs_own (h : (s.region r).loop.src = .own) :
    ((s.cycleInputs r l).region r).loop.hasV = (cleanValues ((s.cycleInputs r l).region r).pk).min?.isSome ∧
    ∀ v, (cleanValues ((s.cycleInputs r l).region r).pk).min? = some v →
      ((s.cycleInputs r l).region r).loop.vmin = v := by
  obtain ⟨_, hm⟩ := State.moveReference_region l hr
  rw [State.cycleInputs_region l hr hd rfl, ← State.vminNow_own (by rw [hm]; exact h)]
  exact ⟨rfl, fun v hv => by simp only [hv, Option.getD_some]⟩

end

/-! ## Samples -/

/-- R48, R50: a sound sample is calibrated and counts. -/
theorem Pickup.take_sound (k : Pickup) {c : Nat} (hc : c < 256) :
    (k.take ⟨c, true⟩).v = calibrate k.o k.g c ∧ (k.take ⟨c, true⟩).clean = true ∧ (k.take ⟨c, true⟩).cnt = k.cnt + 1 := by
  simp only [Pickup.take, if_true, Nat.mod_eq_of_lt hc, and_self]

/-- R50: a sample with a parity error is counted, and counts for nothing else. -/
theorem Pickup.take_parity (k : Pickup) (c : Nat) :
    (k.take ⟨c, false⟩).clean = false ∧ (k.take ⟨c, false⟩).par = k.par + 1 ∧ (k.take ⟨c, false⟩).sum = k.sum := by
  simp only [Pickup.take, Bool.false_eq_true, if_false, and_self]

/-! ## The cycle -/

theorem exec_regionCycle {s : State} {r : Nat} (l : List Sample) (hp : Config.popRegion s.cfg r = true)
    (hs : s.blk.st.scans = true) : exec (.regionCycle r l) s = .next (s.regionCycle r l) := by
  show onRegion s r (s.when s.blk.st.scans (s.regionCycle r l)) = _
  rw [onRegion_pop hp, hs, State.when_true]

/-- Without a value only the strobes that have come are judged. -/
theorem State.regionCycle_noValue {s : State} {r : Nat} {l : List Sample}
    (h : ((s.cycleInputs r l).region r).loop.hasV = false) :
    s.regionCycle r l = (s.cycleInputs r l).cycleStrobes r := by
  simp only [State.regionCycle, h]

/-- R388: what follows the inputs of a cycle with a value `v`, up to the fire decision. -/
def State.cycleActs (s : State) (r v : Nat) : State :=
  (((((s.cycleReports r v).cyclePowerGood r v).cycleFeed r v).cycleRelease r v).cycleTwins r).cycleStrobes r

/-- With a value the fire decision follows, unless firing is halted, a strum is busy or the region fires open-loop. -/
theorem State.regionCycle_value {s : State} {r : Nat} {l : List Sample}
    (h : ((s.cycleInputs r l).region r).loop.hasV = true) :
    s.regionCycle r l =
      let v := ((s.cycleInputs r l).region r).loop.vmin
      let w := (s.cycleInputs r l).cycleActs r v
      if w.halted r || w.strumBusy r || w.openLoop r then w else w.fireDecision r v := by
  unfold State.regionCycle
  extract_lets u
  split
  case h_1 hn => exact absurd (h.symm.trans hn) (by decide)
  case h_2 => rfl

/-- Settles O14: the inputs leave in the region what they say, and the rest of the cycle follows by whether there is a
value. -/
theorem regionCycleInOrder : Obligations.RegionCycleInOrder := by
  unfold Obligations.RegionCycleInOrder
  intro s r l hp hr hs hd u
  refine ⟨?_, s.cycleInputs_vref l hr hd, s.cycleInputs_own l hr hd, ?_, ?_⟩
  · intro p hpl k
    refine ⟨fun c hx hc => ?_, fun c hx => ?_⟩
    · rw [s.cycleInputs_pickup l hr hd hpl hx]
      exact k.take_sound hc
    · rw [s.cycleInputs_pickup l hr hd hpl hx]
      exact k.take_parity c
  · intro h
    rw [exec_regionCycle l hp hs, State.regionCycle_noValue h]
  · intro h v w
    rw [exec_regionCycle l hp hs, State.regionCycle_value h]
    exact ⟨fun hw => congrArg _ (if_pos hw), fun hw => congrArg _ (if_neg (Bool.eq_false_iff.mp hw))⟩

end Sys2Proof.Machine
end

section
/-! SUPPORT. The fire decision (R60 to R65): when nothing fires, and what one ordinary pulse changes. -/

namespace Sys2Proof.Machine

/-! ## Issuing a pulse -/

theorem State.noteSync_strings (s : State) (i q : Nat) (k : PulseKind) : (s.noteSync i q k).strings = s.strings :=
  (s.moves_noteSync i q k).frame .strings (by decide)

theorem State.noteSync_regions (s : State) (i q : Nat) (k : PulseKind) : (s.noteSync i q k).regions = s.regions :=
  (s.moves_noteSync i q k).frame .regions (by decide)

/-- R62, R76: the pulse of the string that fires rises 1 ns later at the pin and falls after its on-time. -/
theorem State.issue_pulse {s : State} {i : Nat} (r ton : Nat) (k : PulseKind) (hi : i < s.strings.length) :
    ((s.issue r i ton k).str i).pulse = some ⟨4 * (s.now + 1), 4 * (s.now + 1) + ton, k⟩ := by
  rw [← s.noteSync_strings i (4 * (s.now + 1)) k] at hi
  simp only [State.issue, State.modRegion_str, State.modStr_str_same _ _ hi]

theorem State.issue_str_other (s : State) (r ton : Nat) (k : PulseKind) {i j : Nat} (h : j ≠ i) :
    (s.issue r i ton k).str j = s.str j := by
  rw [State.issue, State.modRegion_str, State.modStr_str_other _ _ h]
  exact congrArg (·.getD j {}) (s.noteSync_strings ..)

theorem State.issue_sizes (s : State) (r i ton : Nat) (k : PulseKind) :
    (s.issue r i ton k).regions.length = s.regions.length ∧ (s.issue r i ton k).strings.length = s.strings.length := by
  simp only [State.issue, State.modRegion_length, State.modRegion_strings, State.modStr,
    List.length_modify, State.noteSync_regions, State.noteSync_strings, and_self]

/-! ## The open counter (R135) -/

theorem State.openFire_pulse {s : State} {i : Nat} (hi : i < s.strings.length) :
    ((s.openFire i).str i).pulse = (s.str i).pulse := by
  unfold State.openFire
  extract_lets
  split
  · rw [s.modStr_str_same _ hi]
  · rfl

theorem State.openFire_str_other (s : State) {i j : Nat} (h : j ≠ i) : (s.openFire i).str j = s.str j := by
  unfold State.openFire
  extract_lets
  split
  · exact s.modStr_str_other _ h
  · rfl

/-! ## An ordinary pulse -/

/-- Without a pre-strum (R110) a pulse has the multiplier 20 of R65. -/
theorem State.preMult_idle {s : State} {r : Nat} (h : (s.region r).pre.run = none) : (s.preMult r).1 = 20 := by
  simp only [State.preMult, h]

/-- The strings after an ordinary pulse are those of its pulse and of the open counter. -/
theorem State.fireOrdinary_str {s : State} {r p : Nat} (h : (s.region r).pre.run = none) (j : Nat) :
    (s.fireOrdinary r p none).str j =
      ((s.issue r (stringAt r p) (s.onTime r (stringAt r p) 20) .ordinary).openFire (stringAt r p)).str j := by
  rw [← State.preMult_idle h]
  unfold State.fireOrdinary
  simp only [h]
  rfl

/-- R64: an ordinary pulse notes its decision cycle. -/
theorem State.fireOrdinary_lastFire {s : State} {r : Nat} (p : Nat) (ton : Option Nat) (hr : r < s.regions.length) :
    ((s.fireOrdinary r p ton).region r).loop.lastFire = some s.now := by
  unfold State.fireOrdinary
  extract_lets i pm pre a b
  have hm : s.Moves _ a := .step (s.moves_issue ..) (State.moves_openFire ..) rfl
  have hb : b.now = s.now := hm.frame .now (by decide)
  have ha : a.regions = (s.issue r i _ _).regions := (State.moves_openFire _ i).frame .regions (by decide)
  have hl : r < b.regions.length := by
    rwa [State.modRegion_length, ha, (s.issue_sizes ..).1]
  rw [State.modLoop_eq, State.modRegion_region_same _ _ hl, hb]

/-! ## The decision -/

/-- R60: at or above the reference nothing fires. -/
theorem State.fireDecision_above {s : State} {r v : Nat}
    (h : (s.region r).loop.vref ≤ (v : Int) + (s.region r).loop.yac s.used.g1.window) : s.fireDecision r v = s := by
  unfold State.fireDecision
  extract_lets l
  have hv : decide ((v : Int) + l.yac s.used.g1.window < l.vref) = false := decide_eq_false (Int.not_lt.mpr h)
  rw [hv, Bool.false_and, if_neg Bool.false_ne_true]

theorem State.spaceMet_of {s : State} {r : Nat}
    (h : ∀ t, (s.region r).loop.lastFire = some t → t + s.getN Obj.fire_space_min ≤ s.now) : s.spaceMet r = true := by
  unfold State.spaceMet
  split
  case h_1 t ht => exact decide_eq_true (h t ht)
  case h_2 => rfl

/-- R60 to R64: below the reference, with the spacing met and the string in turn off for long enough, it fires. -/
theorem State.fireDecision_fires {s : State} {r v p : Nat}
    (hv : (v : Int) + (s.region r).loop.yac s.used.g1.window < (s.region r).loop.vref) (hs : s.spaceMet r = true)
    (hp : s.rotFrom r (s.region r).loop.ptr = some p)
    (hq : ∀ q, (s.str (stringAt r p)).offEnd = some q → q + s.used.g1.toff ≤ 4 * s.now) :
    s.fireDecision r v = s.fireOrdinary r p none := by
  unfold State.fireDecision
  simp only [hs, hv, hp, decide_true, Bool.and_self, if_true]
  split
  case h_1 q h => exact if_pos (decide_eq_true (hq q h))
  case h_2 => exact if_pos rfl

/-- Settles O15: above the reference the decision does nothing; below it, it is one ordinary pulse. -/
theorem fireDecisionIssuesOnePulse : Obligations.FireDecisionIssuesOnePulse := by
  unfold Obligations.FireDecisionIssuesOnePulse
  intro s r v hr hn l
  refine ⟨State.fireDecision_above, fun p hv hspace hp hlt hq hpre => ?_⟩
  intro i
  rw [State.fireDecision_fires hv (State.spaceMet_of hspace) hp hq]
  have hi : i < s.strings.length := hn ▸ hlt
  refine ⟨?_, fun j hj => ?_, State.fireOrdinary_lastFire p none hr⟩
  · rw [State.fireOrdinary_str hpre, State.openFire_pulse ((s.issue_sizes ..).2 ▸ hi), State.issue_pulse _ _ _ hi]
  · rw [State.fireOrdinary_str hpre, State.openFire_str_other _ hj, State.issue_str_other _ _ _ _ hj]

end Sys2Proof.Machine
end

section
/-! SUPPORT. What reaches a region island between its cycles (R54, R56 to R59, R62, R63, R74, R104, R125). -/

namespace Sys2Proof.Machine

/-! ## The end of a pulse (R62) -/

section
variable {s : State} {i : Nat} (hi : Config.popString s.cfg i = true)
include hi

theorem exec_fireFallingEdge_none (h : (s.str i).pulse = none) : exec (.fireFallingEdge i) s = .next s := by
  show execFireFallingEdge i s = _
  rw [execFireFallingEdge, onString_pop hi]
  simp only [h]

/-- A pulse whose on-time is over falls; that of a strum is noted in its region. -/
theorem exec_fireFallingEdge_some {p : Pulse} (h : (s.str i).pulse = some p) (hf : p.fallQ ≤ 4 * s.now + 3) :
    exec (.fireFallingEdge i) s =
      .next (let t := s.modStr i fun x => { x with pulse := none, offQ := some p.fallQ }
        if p.kind = .strum ∨ p.kind = .spread then
          t.modStrum (regionOf i) fun u => { u with lastFall := max u.lastFall p.fallQ }
        else t) := by
  show execFireFallingEdge i s = _
  rw [execFireFallingEdge, onString_pop hi]
  simp only [h, Nat.not_lt.mpr hf, if_false]

end

/-! ## The source of the value (R56 to R59) -/

/-- The source called for is taken, its change noted, and the reference moves by its borrow guard. -/
def State.takeSource (s : State) (r : Nat) : State :=
  (s.modRegion r fun x =>
    { x with
      loop := { x.loop with src := s.sourceDue r, fixAt := none, fixRem := 0 }
      rep := { x.rep with srcChange := true, fixed := x.rep.fixed || s.sourceDue r == .fixedRate } }).modLoop r fun l =>
    if s.refTarget l l.refBase = l.refTo then l else l.newRef (s.refTarget l l.refBase) l.refBase

/-- A change of source takes it and fires its trigger; the fixed rate is a fault for the learner (R313). -/
theorem State.sourceChange_eq {s : State} {r : Nat} (hs : s.blk.st.scans = true)
    (hne : s.sourceDue r ≠ (s.region r).loop.src) : s.sourceChange r =
      (if s.sourceDue r = .fixedRate then (s.takeSource r).learnFault r else s.takeSource r).fire 22 (s.sourceDue r).code
        (srcRegion r) := by
  unfold State.sourceChange
  simp only [hne, hs, decide_false, Bool.not_true, Bool.or_self, Bool.false_eq_true, if_false]
  rfl

/-! ## A string's state (R63, R104, R125) -/

section
variable {s : State} {i : Nat} (hi : Config.popString s.cfg i = true)
include hi

theorem exec_scoreboardChangeArrival (h : (s.str i).st ≠ .shed ∨ (s.str i).isl = .shed) :
    exec (.scoreboardChangeArrival i) s = .next (s.islandTakes i) := by
  show execScoreboardChangeArrival i s = _
  rw [execScoreboardChangeArrival, onString_pop hi, if_neg fun ⟨h1, h2⟩ => h.elim (· h1) h2]

/-- A shed reaches the island by its own arrival; this one only repairs the copy (R127). -/
theorem exec_scoreboardChangeArrival_shed (h : (s.str i).st = .shed) (hn : (s.str i).isl ≠ .shed) :
    exec (.scoreboardChangeArrival i) s = .next (s.modStr i fun x => { x with islBad := false }) := by
  show execScoreboardChangeArrival i s = _
  rw [execScoreboardChangeArrival, onString_pop hi, if_pos ⟨h, hn⟩]

theorem exec_shedArrival_other (h : (s.str i).st ≠ .shed) : exec (.shedArrival i) s = .next s := by
  show execShedArrival i s = _
  rw [execShedArrival, onString_pop hi, if_pos (bne_iff_ne.mpr h)]

/-- R104, R107: a shed takes effect, unless a strum is deciding or running, which discards it. -/
theorem exec_shedArrival (h : (s.str i).st = .shed) : exec (.shedArrival i) s =
    .next (if s.strumBusy (regionOf i) || (s.region (regionOf i)).strum.report == some s.now then
      s.strTo i (if (s.str i).blind then .blind else .active) else s.islandTakes i) := by
  show execShedArrival i s = _
  rw [execShedArrival, onString_pop hi, if_neg (by simp only [h, bne_self_eq_false, Bool.false_eq_true, not_false_iff])]

end

/-- Settles O16: each arrival by its own rule; a populated unit's command does what its unit does. -/
theorem islandArrivals : Obligations.IslandArrivals := by
  unfold Obligations.IslandArrivals
  intro s r i hr hi
  refine ⟨exec_fireFallingEdge_none hi, ?_, ?_, ?_, ?_, exec_shedArrival_other hi, ?_, ?_, ?_⟩
  · intro rise fall hf hp
    exact exec_fireFallingEdge_some hi hp hf
  · intro rise fall hf hp
    exact exec_fireFallingEdge_some hi hp hf
  · intro hs hne guard u
    have hexec : exec (.vminSourceChange r) s = .next (s.sourceChange r) := onRegion_pop hr
    have hu : u = s.takeSource r := rfl
    rw [hexec, State.sourceChange_eq hs hne, ← hu]
    exact ⟨fun h => by rw [h]; rfl, fun h => by rw [h]; rfl, fun h => by rw [h]; rfl⟩
  · intro u v w
    have hw : w = s.islandTakes i := rfl
    rw [hw]
    refine ⟨exec_scoreboardChangeArrival hi, exec_scoreboardChangeArrival_shed hi, fun h hb hn => ?_⟩
    rw [exec_shedArrival hi h, hb, Bool.false_or, beq_eq_false_iff_ne.mpr hn, if_neg Bool.false_ne_true]
  · intro h hb
    rw [exec_shedArrival hi h, if_pos (by rw [hb, Bool.true_or])]
  · exact onRegion_pop hr
  · exact onRegion_pop hr

end Sys2Proof.Machine
end

section
/-! SUPPORT. Writes of flags (R53, R169, R332): an object that takes some low bits of what is written, and what the
clears and forces of channels, pickups and diodes do with them. -/

namespace Sys2Proof.Machine

/-! ## Objects that take the low bits of a written value (R429) -/

/-- An object that every session may write, with no staging, and that takes the `n` low bits of what is written. -/
structure State.TakesLowBits (s : State) (o : Obj') (n : Nat) : Prop where
  present : s.selectionAbsent o = false
  writable : (o.acc == .ro) = false
  anyone : (o.acc == .rwk) = false
  direct : o.grp = 0
  low : o.rng = .bits (2 ^ n - 1)

section
variable {s u : State} {p : Path} {b k idx sub m n : Nat} {o : Obj'} (h : s.Serves p b k)
  (hi : idx < 65536) (hs : sub < 256) (hf : findObj s.cfg idx sub = .ok o) (ho : s.TakesLowBits o n)
include h hi hs hf ho

/-- A number of which `n` low bits count, and what its object does with them. -/
theorem putNum_low (ht : o.ty.signed = false) (hl : o.ty.length ≤ 48) (hm : m < 2 ^ (8 * o.ty.length))
    (hv : s.writeValue p k o (m % 2 ^ n : Nat) (o.ty.encode m) = (0, u)) :
    s.putNum p b idx sub m = u.answered p b opWrite 0 o.ty.length :=
  putNum_does h hi hs hf ho.present ho.writable (by rw [ho.anyone, Bool.false_and]) hl ho.direct
    (ho.low ▸ apply_bits_num n ht hm) hv

/-- A string of `l` bytes of which `n` low bits count. -/
theorem putBytes_low {l : Nat} (ht : o.ty = .blob l) (hl : l ≤ 48) (hm : m < 2 ^ (8 * l))
    (hv : s.writeValue p k o (m % 2 ^ n : Nat) (leBytes l m) = (0, u)) :
    s.putBytes p b idx sub (leBytes l m) = u.answered p b opWrite 0 l := by
  have hlen : o.ty.length = l := ht ▸ rfl
  have hr : o.rng.apply (o.ty.decode (leBytes l m)) = some ((m % 2 ^ n : Nat) : Int) := by
    rw [ho.low, ht]
    exact apply_bits_blob hm
  rw [putBytes_does h (leBytes_lt l m) hi hs hf ho.present ho.writable (by rw [ho.anyone, Bool.false_and])
    (by rw [length_leBytes, hlen]) (by rwa [length_leBytes]) ho.direct hr hv, hlen]
  rfl

end

/-- R82: the bits of a written force mask that name pickups the region has. -/
theorem mod_and_pickMask (r m : Nat) : m % 512 &&& pickMask r = m % (if r < 64 then 512 else 16) := by
  unfold pickMask
  split
  · exact (Nat.and_two_pow_sub_one_eq_mod _ 9).trans (Nat.mod_mod ..)
  · exact (Nat.and_two_pow_sub_one_eq_mod _ 4).trans (Nat.mod_mod_of_dvd m (by decide))

/-! ## The five writes -/

section
variable {s : State} {p : Path} {b k : Nat} (h : s.Serves p b k)
include h

theorem exec_chFlagsClear {ch m : Nat} (hc : Config.popChan s.cfg ch = true) (hm : m < 256) :
    exec (.chFlagsClear p b ch m) s = .next ((s.flagsClear ch (m % 2 ^ 5)).answered p b opWrite 0 1) := by
  have hl := popChan_lt hc
  show Host.Outcome.next (s.putNum p b (unitObj 0x4100 79 ch) 0x06 m) = _
  rw [unitObj_of_lt hl]
  exact congrArg _ (putNum_low h (by omega) (by decide) (find_ch_flags hl hc) ⟨rfl, rfl, rfl, rfl, rfl⟩ rfl
    (Nat.le_of_ble_eq_true rfl) hm rfl)

theorem exec_pickupClear {r m : Nat} (hr : Config.popRegion s.cfg r = true) (hm : m < 65536) :
    exec (.pickupClear p b r m) s = .next ((s.pickClear r (m % 2 ^ 9)).answered p b opWrite 0 2) := by
  have hl := popRegion_lt hr
  show Host.Outcome.next (s.putNum p b (unitObj 0x2100 76 r) 0x17 m) = _
  rw [unitObj_of_lt hl]
  exact congrArg _ (putNum_low h (by omega) (by decide) (find_pickup_clear hl hr) ⟨rfl, rfl, rfl, rfl, rfl⟩ rfl
    (Nat.le_of_ble_eq_true rfl) hm rfl)

theorem exec_pickupForceWrite {r m : Nat} (hr : Config.popRegion s.cfg r = true) (hm : m < 65536) :
    exec (.pickupForceWrite p b r m) s = .next ((s.pickForce r (m % 2 ^ 9)).answered p b opWrite 0 2) := by
  have hl := popRegion_lt hr
  show Host.Outcome.next (s.putNum p b (unitObj 0x2100 76 r) 0x18 m) = _
  rw [unitObj_of_lt hl]
  exact congrArg _ (putNum_low h (by omega) (by decide) (find_pickup_force hl hr) ⟨rfl, rfl, rfl, rfl, rfl⟩ rfl
    (Nat.le_of_ble_eq_true rfl) hm rfl)

theorem exec_diodeClear {m : Nat} (hm : m < 2 ^ 80) :
    exec (.diodeClear p b m) s = .next ((s.diodeClear (m % 2 ^ 76)).answered p b opWrite 0 10) :=
  congrArg _ (putBytes_low h (by decide) (by decide) (find_diode_clear s.cfg) ⟨rfl, rfl, rfl, rfl, rfl⟩ rfl (by decide)
    hm rfl)

theorem exec_diodeForceWrite {m : Nat} (hm : m < 2 ^ 80) :
    exec (.diodeForceWrite p b m) s = .next ((s.diodeForce (m % 2 ^ 76)).answered p b opWrite 0 10) :=
  congrArg _ (putBytes_low h (by decide) (by decide) (find_diode_force s.cfg) ⟨rfl, rfl, rfl, rfl, rfl⟩ rfl (by decide)
    hm rfl)

end

/-- Settles O44: each write takes the low bits of what is written to the rule of its object. -/
theorem channelPickupAndDiodeWrites : Obligations.ChannelPickupAndDiodeWrites := by
  unfold Obligations.ChannelPickupAndDiodeWrites
  intro s p b k h
  refine ⟨fun ch m hc hm => ?_, fun r m hr hm => ⟨?_, fun f hf => ?_⟩, fun m hm => ⟨?_, ?_⟩⟩
  · have hmask : m % 2 ^ 5 % 32 = m % 32 := Nat.mod_mod ..
    rw [exec_chFlagsClear h hc hm, State.flagsClear, hmask]
  · exact exec_pickupClear h hr hm
  · have hmask : m % 2 ^ 9 &&& pickMask r = f := (mod_and_pickMask r m).trans hf.symm
    rw [exec_pickupForceWrite h hr hm, State.pickForce, hmask]
  · exact exec_diodeClear h hm
  · exact exec_diodeForceWrite h hm

end Sys2Proof.Machine
end

section
/-! SUPPORT. The twins' own events (R85, R86, R92), and the pulses beyond the ordinary decision: the fixed rate (R57),
the further rounds of a strum (R90), and the rounds that neighbours' strobes start (R93, R94, R111). -/

namespace Sys2Proof.Machine

/-! ## The twins' own events -/

theorem Strum.twin_setTwin (u : Strum) (t : TwinId) (x : Twin) : (u.setTwin t x).twin t = x := by
  cases t <;> rfl

theorem Strum.twin_setTwin_other (u : Strum) (t : TwinId) (x : Twin) :
    (u.setTwin t x).twin (TwinId.other t) = u.twin (TwinId.other t) := by
  cases t <;> rfl

section
variable {s : State} {r : Nat} (hr : Config.popRegion s.cfg r = true)
include hr

/-- R85: the wait for the other count has ended without it. -/
theorem exec_twinOvDisagreement {t : TwinId} (h : (s.region r).strum.ovWait = some (t, 0)) :
    exec (.twinOvDisagreement r) s =
      let n := s.getN (Obj.region_twin_disagree r)
      .next ((((s.set (Obj.region_twin_disagree r) (min 65535 (n / 65536 + 1) * 65536 + n % 65536 : Nat)).modStrum r
        fun u => { u with ovWait := none }).fire 12 1 (srcRegion r)).noteReason 5) := by
  show execTwinOvDisagreement r s = _
  rw [execTwinOvDisagreement, onRegion_pop hr]
  simp only [h]

/-- R86: a twin that reloads takes the set in use; the other twin and the other regions stay as they are. -/
theorem exec_twinReloadComplete {n : Nat} (t : TwinId) (h : ((s.region r).strum.twin t).loading = some n)
    (hl : r < s.regions.length) : ∃ v, exec (.twinReloadComplete r t) s = .next v ∧
      (v.region r).strum.twin t = { (s.region r).strum.twin t with loading := none, g := s.used.g4 } ∧
      (v.region r).strum.twin (TwinId.other t) = (s.region r).strum.twin (TwinId.other t) ∧
      (∀ q, q ≠ r → v.region q = s.region q) ∧ State.Frame [.regions] s v := by
  refine ⟨_, onRegion_pop hr, ?_, ?_, fun q hq => s.modRegion_region_other _ hq, (s.moves_modStrum r _).frame⟩
  · simp only [State.modStrum_eq, s.modRegion_region_same _ hl, h, Option.isSome_some, if_true, Strum.twin_setTwin]
  · simp only [State.modStrum_eq, s.modRegion_region_same _ hl, h, Option.isSome_some, if_true,
      Strum.twin_setTwin_other]

theorem exec_lockoutEnd {t : Nat} (h : (s.region r).strum.lockUntil = some t) : exec (.lockoutEnd r) s =
    .next (if s.now < t then s else s.modStrum r fun u => { u with lockUntil := none }) := by
  show execLockoutEnd r s = _
  rw [execLockoutEnd, onRegion_pop hr, State.locked]
  simp only [h, decide_eq_true_eq]

end

/-! ## The fixed rate -/

/-- R57: where nothing holds it back, a region on the fixed rate fires the string in turn, and the next interval begins
where this one ended. -/
theorem State.fixedRateFire_fires {s : State} {r p q total : Nat} (hh : s.halted r = false) (ho : s.openLoop r = false)
    (hf : (s.region r).loop.src = .fixedRate) (hq : (s.region r).loop.fixAt = some q) (hdue : q ≤ 4 * s.now)
    (hs : s.spaceMet r = true) (hb : s.strumBusy r = false) (hp : s.rotFrom r (s.region r).loop.ptr = some p)
    (hn : (s.str (stringAt r p)).pulse = none)
    (ht : s.used.g1.tsw + (s.region r).loop.fixRem = total) : s.fixedRateFire r =
      (s.fireOrdinary r p none).modLoop r fun l =>
        { l with fixAt := some (q + 4 * (total / (4 * s.nRot r))), fixRem := total % (4 * s.nRot r) } := by
  unfold State.fixedRateFire
  simp only [hh, ho, hf, hq, hdue, hs, hb, hp, hn, ht, decide_true, Bool.not_true, Bool.false_and, Bool.or_true,
    Bool.or_self, Bool.false_eq_true, if_false, Option.isSome_none, Option.getD_some]

/-! ## Further rounds -/

/-- Twins that agree leave nothing to wait for. -/
theorem State.compareTwins_agree (s : State) (r : Nat) (b : Bool) : s.compareTwins r b b = s :=
  if_pos (beq_self_eq_true b)

/-- R90, R92: a round fires every eligible string with the strum multiplier, and the lockout counts from its edge. -/
theorem State.strumRound_eq (s : State) (r : Nat) (k : PulseKind) : s.strumRound r k =
    (overAll s (s.eligible r) fun u i => u.issue r i (u.onTime r i (s.getN Obj.strum_mult)) k).modStrum r fun u =>
      { u with lockUntil := some (s.now + 201), lastFall := max u.lastFall (4 * (s.now + 1)) } := by
  have hnow : (overAll s (s.eligible r) fun u i => u.issue r i (u.onTime r i (s.getN Obj.strum_mult)) k).now = s.now :=
    overAll_keep State.now (fun u i => (u.moves_issue r i _ k).frame .now (by decide)) s _
  unfold State.strumRound
  extract_lets m u
  have hu : u.now = s.now := hnow
  rw [hu]

theorem State.strumRound_getN (s : State) (r : Nat) (k : PulseKind) (g : Reg) :
    (s.strumRound r k).getN g = s.getN g := by
  have h : (s.strumRound r k).regs = s.regs := (s.moves_strumRound r k).frame .regs (by decide)
  simp only [State.getN, State.get, h]

section
variable {s : State} {r : Nat} {e : Episode} (hh : s.halted r = false) (he : (s.region r).strum.ep = some e)
  (hd : s.roundDue r = true)
include hh he hd

/-- R90: a round that is due is fired while both twins trigger. -/
theorem State.strumRoundDue_fires (hv : (s.region r).loop.hasV = true)
    (ha : (s.region r).strum.a.triggers (s.region r).loop.vref = true)
    (hb : (s.region r).strum.b.triggers (s.region r).loop.vref = true) :
    s.strumRoundDue r = (s.strumRound r .strum).modStrum r fun u =>
      { u with ep := if e.round + 1 < s.getN Obj.strum_max then some { e with round := e.round + 1 } else none } := by
  unfold State.strumRoundDue
  simp only [he, hd, hh, hv, ha, hb, Bool.and_self, State.compareTwins_agree, Bool.not_true, Bool.or_self,
    Bool.false_eq_true, if_false, if_true, State.strumRound_getN]

/-- R90: the episode ends when neither does. -/
theorem State.strumRoundDue_ends (ha : (s.region r).strum.a.triggers (s.region r).loop.vref = false)
    (hb : (s.region r).strum.b.triggers (s.region r).loop.vref = false) :
    s.strumRoundDue r = s.modStrum r fun u => { u with ep := none } := by
  unfold State.strumRoundDue
  simp only [he, hd, hh, ha, hb, Bool.and_false, State.compareTwins_agree, Bool.not_true, Bool.or_self,
    Bool.false_eq_true, if_false]

end

/-! ## Strobes of rail neighbours -/

/-- R93, R94: a strobe counts that a neighbour sent within the last two cycles, none twice. -/
theorem State.mem_strobes {s : State} {r n : Nat} {l : List Nat} : n ∈ s.strobes r l ↔
    n ∈ Config.neighbours s.cfg r ∧ n ∈ l ∧ n ∉ (s.region r).strum.strobes ∧
      ∃ t, (s.region n).strum.spreadAt = some t ∧ t ≤ s.now ∧ s.now ≤ t + 2 := by
  simp only [State.strobes, List.mem_filter, Bool.and_eq_true, List.contains_iff_mem, Bool.not_eq_true',
    Option.any_eq_true, decide_eq_true_eq, and_assoc, ← Bool.not_eq_true]

theorem State.cycleStrobes_nil {s : State} {r : Nat} (h : (s.region r).strum.strobes = []) : s.cycleStrobes r = s :=
  if_pos (by rw [h]; rfl)

/-- R92, R93, R96: what lets a region that judges strobes answer them with a round; the fixed rate refuses them
(log 39). -/
def State.maySpread (s : State) (r : Nat) : Prop :=
  (s.region r).loop.hasV = true ∧ ((s.region r).loop.vmin : Int) < (s.region r).loop.vref ∧ s.strumBusy r = false ∧
    s.locked r = false ∧ (s.region r).strum.release = false ∧ (s.region r).loop.src ≠ .fixedRate

section
variable {s : State} {r : Nat} (hh : s.halted r = false)
include hh

/-- The cycle's own test of the strobes, in a region that fires. -/
theorem State.maySpread_iff : ((s.region r).loop.hasV
      && decide (((s.region r).loop.vmin : Int) < (s.region r).loop.vref) && !s.strumBusy r && !s.locked r
      && !(s.region r).strum.release && !((s.region r).loop.src == .fixedRate)
      && !s.halted r) = true ↔ s.maySpread r := by
  simp only [State.maySpread, hh, Bool.and_eq_true, Bool.not_eq_true', decide_eq_true_eq, beq_eq_false_iff_ne,
    and_assoc, and_true]

variable (hn : (s.region r).strum.strobes ≠ [])
include hn

theorem State.cycleStrobes_refuses (h : ¬ s.maySpread r) : s.cycleStrobes r =
    (s.modStrum r fun u => { u with strobes := [] }).countSat (Obj.region_spread_refused r) 16
      (s.region r).strum.strobes.length :=
  (if_neg (mt List.isEmpty_iff.mp hn)).trans (if_neg (mt (State.maySpread_iff hh).mp h))

theorem State.cycleStrobes_answers (h : s.maySpread r) : s.cycleStrobes r =
    (s.modStrum r fun u => { u with strobes := [] }).startStrum r false :=
  (if_neg (mt List.isEmpty_iff.mp hn)).trans (if_pos ((State.maySpread_iff hh).mpr h))

end

/-- R93: the round that strobes start is the only one of its kind, and it sends no strobe on. -/
theorem State.startStrum_spread (s : State) (r : Nat) : s.startStrum r false =
    let u := ((s.cancelPre r false).strumRound r .spread).strumRejoin r
    (u.count (Obj.region_spread_count r) 32).modRegion r fun x =>
      { x with
        strum := { x.strum with ep := none, report := some u.now }
        rep := { x.rep with spread := true } } := rfl

/-- Settles O17: the twins' events by what their region holds, and each further pulse by the conditions it has. A region
on the fixed rate answers no strobe (log 39), and strobes wait for the region's cycle (log 85). -/
theorem twinEventsAndFurtherPulses : Obligations.TwinEventsAndFurtherPulses := by
  unfold Obligations.TwinEventsAndFurtherPulses
  refine ⟨fun s r hr => ⟨rfl, fun t => exec_twinOvDisagreement hr, onRegion_pop hr, onRegion_pop hr,
    fun t h hl => exec_twinReloadComplete hr .a h hl, fun t h hl => exec_twinReloadComplete hr .b h hl, fun t h => ?_⟩,
    ?_⟩
  · rw [exec_lockoutEnd hr h]
    exact ⟨fun ht => by rw [if_neg (Nat.not_lt.mpr ht)], fun ht => by rw [if_pos ht]⟩
  · intro s r hr hh x
    have hround : exec (.strumRoundDue r) s = .next (s.strumRoundDue r) := onRegion_pop hr
    have hspread (l : List Nat) : exec (.spreadStrobe r l) s = .next (s.spreadStrobe r l) := onRegion_pop hr
    refine ⟨fun p q ho hf hq hdue hs hb hp hn => ?_, fun e he hd hv => ⟨fun ha hb => ?_, fun ha hb => ?_⟩,
      fun l hl => ?_, fun l hl => ⟨_, hspread l, if_neg hl, fun n => State.mem_strobes⟩, State.cycleStrobes_nil,
      fun hn => ⟨State.cycleStrobes_refuses hh hn, fun h =>
        (State.cycleStrobes_answers hh hn h).trans (State.startStrum_spread ..)⟩⟩
    · intro total
      rw [← State.fixedRateFire_fires hh ho hf hq hdue hs hb hp hn rfl]
      exact onRegion_pop hr
    · rw [hround, State.strumRoundDue_fires hh he hd hv ha hb, State.strumRound_eq]
    · rw [hround, State.strumRoundDue_ends hh he hd ha hb]
    · rw [hspread, State.spreadStrobe, if_pos hl]

end Sys2Proof.Machine
end

section
/-! SUPPORT. The strum report (R94, R107) and the damper (R98, R99, R389): what a damper that acts does to the courses
and to the block. -/

namespace Sys2Proof.Machine

/-! ## The report -/

/-- R222: without a recovery of the region's rail an episode resets none. -/
theorem State.strumRecovery_of_none {s : State} {r : Nat} (h : (s.rail (railOf r)).recov = 0) :
    s.strumRecovery r = s := if_pos h

section
variable {s : State} {r : Nat} (hr : Config.popRegion s.cfg r = true)
include hr

theorem exec_strumReport {t : Nat} (ht : (s.region r).strum.report = some t) (hq : (s.rail (railOf r)).recov = 0) :
    exec (.strumReport r) s = .next ((s.modRegion r fun x =>
      { x with strum := { x.strum with report := none }, sup := { x.sup with hold := 0 } }).set
        (Obj.region_last_strum r) t) := by
  show execStrumReport r s = _
  rw [execStrumReport, onRegion_pop hr]
  simp only [ht]
  exact congrArg _ (State.strumRecovery_of_none hq)

/-! ## The damper -/

theorem exec_damper_acts (ha : 40 ≤ (s.region r).strum.a.ov) (hb : 40 ≤ (s.region r).strum.b.ov)
    (hf : (s.region r).loop.src ≠ .fixedRate) :
    exec (.damper r) s = .next (s.damper (railOf r) 0 (srcRegion r)) := by
  show execDamper r s = _
  rw [execDamper, onRegion_pop hr]
  simp only [ha, hb, decide_true, beq_eq_false_iff_ne.mpr hf, Bool.not_false, Bool.and_self, State.when_true]

theorem exec_damper_below (h : (s.region r).strum.a.ov < 40 ∨ (s.region r).strum.b.ov < 40) :
    exec (.damper r) s = .next s := by
  have hc : (decide (40 ≤ (s.region r).strum.a.ov) && decide (40 ≤ (s.region r).strum.b.ov)) = false := by
    simpa only [Bool.and_eq_false_iff, decide_eq_false_iff_not, Nat.not_le] using h
  show execDamper r s = _
  rw [execDamper, onRegion_pop hr]
  simp only [hc, Bool.false_and, State.when_false]

end

/-- R99: a damped rail is left as it is (log 33). -/
theorem State.damper_of_damped {s : State} {q d : Nat} {x : Source} (h : s.get (Obj.rail_damped q) = 1) :
    s.damper q d x = s := if_pos (by simp only [h, decide_true, Bool.true_or])

/-- R99: CRS_DAMP of the courses of a rail. -/
def State.dampCourses (s : State) (q : Nat) : State :=
  overAll s (Config.railCourses s.cfg q) fun s c => s.modCourse c fun x => { x with damp := true }

theorem State.dampCourses_damp {s : State} {q c : Nat} (hc : c ∈ Config.railCourses s.cfg q)
    (hl : c < s.courses.length) : ((s.dampCourses q).course c).damp = true := by
  have hd := overAll_modCourse (f := fun x => { x with damp := true }) (fun _ => rfl) (Config.railCourses s.cfg q) s c
    hl
  rw [State.dampCourses, hd, if_pos hc]

theorem State.allEnLow_course (s : State) (c : Nat) :
    s.allEnLow.course c = { s.course c with en := false, sup := false } := by
  simp only [State.course, State.allEnLow, List.getD_eq_getElem?_getD, List.getElem?_map]
  cases s.courses[c]? with
  | none => rfl
  | some x => rfl

/-- The state of a rail that is damped, before the block is halted. -/
def State.damped (s : State) (q detail : Nat) (src : Source) : State :=
  let u := (((s.haltAll.dampCourses q).allEnLow).set (Obj.rail_damped q) 1).fire 8 detail src
  let v := overAll u ((Config.allStrings u.cfg).filter fun i => railOf (regionOf i) == q) fun s i => s.mute i 7
  (v.resetRecovery.railsOff).modBlk fun b => { b with irqSafety := true, downLeft := [], downBegun := false }

theorem State.damper_eq {s : State} {q d : Nat} {x : Source} (h : s.get (Obj.rail_damped q) ≠ 1)
    (hs : s.blk.st.scans = true) : s.damper q d x =
      if (s.damped q d x).blk.st = .halted then s.damped q d x else (s.damped q d x).enter .halted := by
  unfold State.damper
  rw [if_neg (by simp only [h, hs, decide_false, Bool.not_true, Bool.or_self, Bool.false_eq_true, not_false_iff])]
  extract_lets a b c u v w
  have hw : w = s.damped q d x := rfl
  rw [hw]

/-- Of the damper's steps only two touch a course: CRS_DAMP of the rail's, and then every CRS_EN. -/
theorem State.damped_courses (s : State) (q d : Nat) (x : Source) :
    (s.damped q d x).courses = ((s.haltAll.dampCourses q).allEnLow).courses := by
  simp only [State.damped, State.modBlk_courses, State.railsOff_courses, State.resetRecovery_courses]
  rw [overAll_keep State.courses (fun u i => u.mute_courses i 7), State.fire_courses, State.set_courses]

section
variable {s : State} {q d : Nat} {x : Source} (h : s.get (Obj.rail_damped q) ≠ 1) (hs : s.blk.st.scans = true)
include h hs

theorem State.damper_courses : (s.damper q d x).courses = ((s.haltAll.dampCourses q).allEnLow).courses := by
  rw [State.damper_eq h hs, ← s.damped_courses q d x]
  split
  · rfl
  · rw [State.enter_courses]

theorem State.damper_halts : (s.damper q d x).blk.st = .halted ∧ (s.damper q d x).blk.irqSafety = true := by
  rw [State.damper_eq h hs]
  split
  next hh => exact ⟨hh, rfl⟩
  next => exact ⟨State.enter_st .., State.enter_irqSafety ..⟩

theorem State.damper_enLow : ∀ y ∈ (s.damper q d x).courses, y.en = false ∧ y.sup = false := by
  rw [State.damper_courses h hs]
  intro y hy
  obtain ⟨_, _, rfl⟩ := List.mem_map.mp hy
  exact ⟨rfl, rfl⟩

theorem State.damper_damp {c : Nat} (hc : c ∈ Config.railCourses s.cfg q) (hl : c < s.courses.length) :
    ((s.damper q d x).course c).damp = true := by
  have hd : (((s.haltAll).dampCourses q).course c).damp = true :=
    State.dampCourses_damp (by rwa [State.haltAll_cfg]) (by rwa [State.haltAll_courses])
  rw [State.course, State.damper_courses h hs]
  exact (congrArg Course.damp ((s.haltAll.dampCourses q).allEnLow_course c)).trans hd

end

/-- Settles O18: the report clears itself and the hold; a damper finds its rail damped (log 33), or acts, and then every
clause is one of what it leaves. -/
theorem strumReportAndDamper : Obligations.StrumReportAndDamper := by
  unfold Obligations.StrumReportAndDamper
  intro s r hr
  refine ⟨fun t ht hq => exec_strumReport hr ht hq, fun ha hb hf hs => ⟨fun h => ?_, fun h hl => ?_⟩,
    exec_damper_below hr⟩
  · rw [exec_damper_acts hr ha hb hf, State.damper_of_damped h]
  · obtain ⟨hst, hirq⟩ := State.damper_halts (q := railOf r) (d := 0) (x := srcRegion r) h hs
    exact ⟨_, exec_damper_acts hr ha hb hf, hst, hirq, State.damper_enLow h hs,
      fun c hc hlt => State.damper_damp h hs hc (hl ▸ hlt), (s.moves_damper ..).frame⟩

end Sys2Proof.Machine
end

section
/-! SUPPORT. Pre-strums (R109, R110) and wake permits (R112 to R117, R535): what each of their commands does by the
state of the region's pre-strum or of its handshake. -/

namespace Sys2Proof.Machine

/-- In RUN and SERVICE a supply is present and RESET is over. -/
theorem BState.active_of_runs {b : BState} (h : b.runs = true) : b.active = true := by
  cases b with
  | run | service => rfl
  | _ => exact absurd h (by decide)

section
variable {s : State} {r : Nat} (hr : Config.popRegion s.cfg r = true)
include hr

/-! ## Pre-strums -/

/-- The earliest armed start begins a pre-strum, or is dropped once its window has passed. -/
theorem exec_preStrumStart {t d : Nat} {g : Option Nat} {st : List (Nat × Option Nat)} {rd : List Nat}
    (hp : (s.region r).pre = { starts := (t, g) :: st, ready := d :: rd, run := none }) (ht : t ≤ s.now) :
    exec (.preStrumStart r) s =
      let run := if s.now < t + s.getN Obj.pre_window then some (t, s.getN Obj.pre_fires) else none
      .next (s.modRegion r fun x =>
        { x with
          pre := { starts := st, ready := rd, run := run }
          rep := { x.rep with pre := x.rep.pre || run.isSome } }) := by
  show execPreStrumStart r s = _
  rw [execPreStrumStart, onRegion_pop hr]
  simp only [hp, Nat.not_lt.mpr ht, if_false]

theorem exec_preStrumEnd {t n : Nat} (hp : (s.region r).pre.run = some (t, n)) :
    exec (.preStrumEnd r) s =
      .next (if t + s.getN Obj.pre_window ≤ s.now then s.modPre r fun p => { p with run := none } else s) := by
  show execPreStrumEnd r s = _
  rw [execPreStrumEnd, onRegion_pop hr]
  simp only [hp]

/-! ## Requests -/

variable (ha : s.blk.st.active = true)
include ha

/-- R112, R117: a request that rises with the grant low waits from now on; under REGION_HOLD it is counted. -/
theorem exec_wakeReqRise (hq : (s.region r).wake.req = false) (hg : (s.region r).wake.gnt = false) :
    exec (.wakeReqRise r) s =
      let u := s.modWake r fun w =>
        { w with req := true, since := some s.now, waited := 0, granted := none, reqAt := s.now, prov := none }
      .next (if (s.region r).sup.regHold = true then
        (u.countSat Obj.wake_hold_requests 16).fire 24 1 (srcRegion r) else u) := by
  show execWakeReqRise r s = _
  rw [execWakeReqRise, onRegion_pop hr]
  simp only [ha, hq, hg, Bool.not_true, Bool.or_self, Bool.false_eq_true, if_false]

/-- R535: one that rises under a grant is breach 2. -/
theorem exec_wakeReqRise_breach (hq : (s.region r).wake.req = false) (hg : (s.region r).wake.gnt = true) :
    exec (.wakeReqRise r) s = .next ((s.modWake r fun w => { w with req := true }).breach 2) := by
  show execWakeReqRise r s = _
  rw [execWakeReqRise, onRegion_pop hr]
  simp only [ha, hq, hg, Bool.not_true, Bool.or_self, Bool.false_eq_true, if_false, if_true]

/-- R112, R535: the grant falls with the request; a fall before the grant is breach 1. -/
theorem exec_wakeReqFall (hq : (s.region r).wake.req = true) :
    exec (.wakeReqFall r) s =
      let u := s.modWake r fun w =>
        { w with req := false, gnt := false, since := none, granted := none, waited := 0 }
      .next (if (s.region r).wake.since.isSome then u.breach 1 else u) := by
  show execWakeReqFall r s = _
  rw [execWakeReqFall, onRegion_pop hr]
  simp only [ha, hq, Bool.not_true, Bool.or_self, Bool.false_eq_true, if_false]

end

/-! ## Grants -/

section
variable {s : State} {r : Nat} (hs : s.runs = true)
include hs

/-- R113, R114: without a request timed out, the next grantable region in rotating order is granted. -/
theorem exec_wakeGrant (hn : s.grantedNow = false) (ht : ∀ q ∈ Config.regions s.cfg, s.timedOut q = false)
    (hf : ((List.range 76).map fun k => (s.lastGranted + 1 + k) % 76).find? (fun q =>
      Config.popRegion s.cfg q && (s.region q).wake.pending && s.spaced q && s.neighboursAllow q) = some r) :
    exec .wakeGrant s = .next (s.grant r) := by
  have ht' : (Config.regions s.cfg).any s.timedOut = false :=
    List.any_eq_false.mpr fun q hq => Bool.eq_false_iff.mp (ht q hq)
  show execWakeGrant s = _
  simp only [execWakeGrant, hs, hn, ht', hf, Bool.not_true, Bool.or_self, Bool.false_eq_true, if_false]

/-- R115: the one that has waited longest is granted whatever the conditions, with a pre-strum armed. -/
theorem exec_wakeTimeout (hn : s.grantedNow = false)
    (hl : s.longestWait ((Config.regions s.cfg).filter fun q => s.timedOut q && s.spaced q) = some r) :
    exec .wakeTimeout s =
      let t := s.now + 64 + s.getN Obj.wake_ungate_delay
      .next (((((s.grant r).modWake r fun w => { w with prov := some t }).armPre r t s.now none).count
        Obj.wake_timeout_count 32).fire 24 0 (srcRegion r)) := by
  show execWakeTimeout s = _
  simp only [execWakeTimeout, hs, hn, hl, Bool.not_true, Bool.or_self, Bool.false_eq_true, if_false]

end

/-! ## The acknowledge -/

/-- R106, R116: the island of a granted region takes its rejoined strings, and the grant line rises. -/
def State.riseGrant (s : State) (r : Nat) : State :=
  ((overAll s ((Config.regionStrings s.cfg r).filter fun i => (s.str i).isl == .shed) State.islandTakes).set
    (Obj.region_wake_wait r) (min 65535 (s.now - (s.region r).wake.reqAt) : Nat)).modWake r fun w =>
      { w with gnt := true, since := none, lastRise := some s.now, prov := none }

section
variable {s : State} {r t : Nat} (hr : Config.popRegion s.cfg r = true) (hs : s.runs = true)
  (hg : (s.region r).wake.granted = some t) (hn : (s.region r).wake.gnt = false)
include hr hs hg hn

theorem exec_rejoinAck (hp : (s.region r).wake.prov = none) : exec (.rejoinAck r) s = .next (s.riseGrant r) := by
  show execRejoinAck r s = _
  rw [execRejoinAck, onRegion_pop hr]
  simp only [hs, hg, hn, hp, Option.isNone_some, Bool.not_true, Bool.or_self, Bool.false_eq_true, if_false]
  rfl

/-- R115: the armed start of a timed-out grant counts its delay from the rise. -/
theorem exec_rejoinAck_prov {a : Nat} (hp : (s.region r).wake.prov = some a)
    (hc : (a, none) ∈ (s.region r).pre.starts) : exec (.rejoinAck r) s =
      .next (((s.riseGrant r).modPre r fun p => p.drop (a, none)).armPre r
        (s.now + s.getN Obj.wake_ungate_delay) s.now none) := by
  show execRejoinAck r s = _
  rw [execRejoinAck, onRegion_pop hr]
  simp only [hs, hg, hn, hp, List.contains_iff_mem.mpr hc, Option.isNone_some, Bool.not_true, Bool.or_self,
    Bool.false_eq_true, if_false, if_true]
  rfl

end

/-- Settles O19: each command by the state of the region's pre-strum, or of its handshake. The block chooses the region
that it grants (log 46), and a timed-out grant counts from its latest rise until the line has risen (log 16). -/
theorem preStrumsAndWakePermits : Obligations.PreStrumsAndWakePermits := by
  unfold Obligations.PreStrumsAndWakePermits
  refine ⟨fun s r t h d g st rd hr _ => ⟨fun hp ht => ?_, fun hp => ?_⟩, ?_⟩
  · rw [exec_preStrumStart hr hp ht]
    refine ⟨fun hw => ?_, fun hw => ?_⟩
    · simp only [hw, if_true, Option.isSome_some, Bool.or_true]
    · simp only [Nat.not_lt.mpr hw, if_false, Option.isSome_none, Bool.or_false]
      rfl
  · rw [exec_preStrumEnd hr hp]
    exact ⟨fun hw => by rw [if_pos hw], fun hw => by rw [if_neg (Nat.not_le.mpr hw)]⟩
  · intro s r hr hs w
    have ha := BState.active_of_runs hs
    refine ⟨exec_wakeReqRise_breach hr ha, fun hq hg hh => ?_, fun hq hg hh => ?_, fun hq t ht => ?_, fun hq ht => ?_,
      exec_wakeGrant hs, exec_wakeTimeout hs, fun t hg hn => ⟨fun a => exec_rejoinAck_prov hr hs hg hn,
        exec_rejoinAck hr hs hg hn⟩⟩
    · rw [exec_wakeReqRise hr ha hq hg, hh]; rfl
    · rw [exec_wakeReqRise hr ha hq hg, hh]; rfl
    · rw [exec_wakeReqFall hr ha hq, ht]; rfl
    · rw [exec_wakeReqFall hr ha hq, ht]; rfl

end Sys2Proof.Machine
end

section
/-! SUPPORT. The life of a held hint (R106, R269, R273, R276), the reload of the static class table (R273), and the
droop observation (R292). -/

namespace Sys2Proof.Machine

/-! ## Entries by their number -/

theorem State.hintOf_id {s : State} {id : Nat} {h : HintEntry} (hh : s.hintOf id = some h) : h.id = id := by
  simpa only [beq_iff_eq] using List.find?_some hh

/-- An entry held is found before any that has retired. -/
theorem State.hintOf_append {s : State} {id : Nat} {h : HintEntry} (hh : s.hintOf id = some h) (l : List HintEntry) :
    (s.hints.entries ++ l).find? (fun e => e.id == id) = some h := by
  have hf : s.hints.entries.find? (fun e => e.id == id) = some h := hh
  rw [List.find?_append, hf, Option.some_or]

/-- R270: where the scoreboard is not full, an entry leaves it without a record. -/
theorem State.hintsNotFull_of_not_full {s : State} (h : s.hints.full = false) : s.hintsNotFull = s :=
  if_neg (by rw [h, Bool.false_and]; exact Bool.false_ne_true)

theorem State.dropHint_eq {s : State} (h : s.hints.full = false) (id : Nat) : s.dropHint id =
    { s with hints := { s.hints with entries := s.hints.entries.filter fun e => e.id != id } } :=
  State.hintsNotFull_of_not_full h

/-- After an update of an entry what is found under its number is as the update makes it. -/
theorem State.modHint_entry {s : State} {id : Nat} {f : HintEntry → HintEntry} {p : HintEntry → Prop}
    (hf : ∀ e, p (f e)) : ∀ e ∈ (s.modHint id f).hints.entries, e.id = id → p e := by
  intro e he hi
  obtain ⟨x, -, rfl⟩ := List.mem_map.mp he
  split at hi
  case isTrue hx => rw [if_pos hx]; exact hf x
  case isFalse hx => exact absurd hi hx

section
variable {s : State} {id : Nat} {h : HintEntry} (hh : s.hintOf id = some h)
include hh

/-! ## Preparation, hold and retirement -/

theorem exec_preparationTime (hd : s.prepDue h = true) : exec (.preparationTime id) s = .next (s.prepare h) := by
  show execPreparationTime id s = _
  simp only [execPreparationTime, hh, hd, State.when_true]

/-- R276: the request of a hint ends, whether it is held or asks on after its end. -/
theorem exec_bumpHoldEnd (hl : h.late = false) (ht : h.start + 10 * s.getN Obj.hint_bump_hold ≤ s.now) :
    exec (.bumpHoldEnd id) s = .next (({ s with hints := { s.hints with
      asking := s.hints.asking.filter fun e => e.id != id } } : State).modHint id fun e =>
        { e with bumpOff := true }) := by
  show execBumpHoldEnd id s = _
  simp only [execBumpHoldEnd, State.hintOf_append hh, hl, ht, decide_true, Bool.not_false, Bool.and_self,
    State.when_true]

theorem exec_hintRetire_early (ht : s.now < h.stop) : exec (.hintRetire id) s = .next s := by
  show execHintRetire id s = _
  simp only [execHintRetire, hh, Nat.not_le.mpr ht, decide_false, State.when_false]

theorem exec_hintRetire (ht : h.stop ≤ s.now) : exec (.hintRetire id) s = .next (s.retireHint h) := by
  show execHintRetire id s = _
  simp only [execHintRetire, hh, ht, decide_true, State.when_true]

theorem exec_scoreboardEntryParity : exec (.scoreboardEntryParity id) s =
    .next ((((s.parityError.fire 32 2).fire 40 2).disarmHint h.id).discardHint h) := by
  show execScoreboardEntryParity id s = _
  simp only [execScoreboardEntryParity, hh]

/-! ## The droop observation -/

theorem exec_droopObservation : exec (.droopObservation id) s =
    .next (if s.observable h = true ∧ h.start + s.getN Obj.droop_window ≤ s.now then s.droopObservation h else s) := by
  show execDroopObservation id s = _
  simp only [execDroopObservation, State.hintOf_append hh, State.when, Bool.and_eq_true, decide_eq_true_eq]

end

/-- R273: the table is marked for its reload. -/
theorem exec_staticTableParity {s : State} (hs : s.blk.st.scans = true) : exec .staticTableParity s =
    .next { s.parityError.fire 40 1 with hints := { (s.parityError.fire 40 1).hints with reload := true } } := by
  show execStaticTableParity s = _
  rw [execStaticTableParity, hs, State.when_true]

theorem State.observable_iff {s : State} {h : HintEntry} : s.observable h = true ↔
    s.cfg.hasLearner = true ∧ h.late = false ∧ h.mixed = false ∧ h.merges = 0 ∧ h.observed = false := by
  simp only [State.observable, Bool.and_eq_true, Bool.not_eq_true', beq_iff_eq, and_assoc]

/-- R269, R276: a retired hint is past, and asks on where its request stands. -/
theorem State.retireHint_hints {s : State} (hf : s.hints.full = false) (h : HintEntry) :
    (s.retireHint h).hints.entries = s.hints.entries.filter (fun e => e.id != h.id) ∧
    (s.retireHint h).hints.past = s.hints.past ++ [h] ∧
    (s.retireHint h).hints.asking = s.hints.asking ++ (if h.late = false ∧ h.prepped = true ∧ h.bumpOff = false ∧
      s.now < h.start + 10 * s.getN Obj.hint_bump_hold then [h] else []) ∧
    State.Frame [.hints] s (s.retireHint h) := by
  unfold State.retireHint
  extract_lets keep ask
  have hask : ask = true ↔ h.late = false ∧ h.prepped = true ∧ h.bumpOff = false ∧
      s.now < h.start + 10 * s.getN Obj.hint_bump_hold := by
    simp only [ask, Bool.and_eq_true, Bool.not_eq_true', decide_eq_true_eq, and_assoc]
  rw [State.dropHint_eq]
  · refine ⟨rfl, rfl, ?_, ((State.Moves.refl [.hints] s).put_hints rfl).frame⟩
    simp only [← hask]
    split
    · rfl
    · exact (List.append_nil _).symm
  · exact hf

/-- R273: the parity errors of the hour advance, and a trigger leaves the block's own fields alone. -/
theorem State.parityError_blk (s : State) :
    s.parityError.blk = { s.blk with parityHour := s.blk.parityHour + 1 } := by
  rw [State.parityError, State.modBlk_blk, State.count_blk]

/-- A start that is left has another owner. -/
theorem Pre.disarm_starts (p : Pre) (f : Option Nat → Bool) : ∀ x ∈ (p.disarm f).starts, f x.2 = false := by
  intro x hx
  obtain ⟨y, hy, rfl⟩ := List.mem_map.mp hx
  simpa only [Bool.not_eq_true'] using (List.mem_filter.mp hy).2

theorem State.disarmHint_starts (s : State) (id : Nat) :
    ∀ x ∈ (s.disarmHint id).regions, ∀ p ∈ x.pre.starts, p.2 ≠ some id := by
  intro x hx p hp
  obtain ⟨y, -, rfl⟩ := List.mem_map.mp hx
  exact beq_eq_false_iff_ne.mp (y.pre.disarm_starts _ p hp)

/-- R273, R278: an entry with a parity error leaves the scoreboard, and has covered its regions up to now. -/
theorem State.discardHint_eq {s : State} (hf : s.hints.full = false) (h : HintEntry) : s.discardHint h =
    { s with hints := { s.hints with
        entries := s.hints.entries.filter fun e => e.id != h.id
        past := s.hints.past ++ [{ h with stop := min h.stop s.now }] } } := by
  rw [State.discardHint, State.dropHint_eq]
  exact hf

/-- R273: what the parity error of an entry leaves of the scoreboard, of the armed starts and of the block. -/
theorem State.entryParity {s u : State} (h : HintEntry) (hf : s.hints.full = false)
    (hu : (((s.parityError.fire 32 2).fire 40 2).disarmHint h.id).discardHint h = u) :
    u.hints.entries = s.hints.entries.filter (fun e => e.id != h.id) ∧
    u.hints.past = s.hints.past ++ [{ h with stop := min h.stop s.now }] ∧
    (∀ x ∈ u.regions, ∀ p ∈ x.pre.starts, p.2 ≠ some h.id) ∧
    u.blk = { s.blk with parityHour := s.blk.parityHour + 1 } := by
  have hv : (((s.parityError.fire 32 2).fire 40 2).disarmHint h.id).hints = s.hints := by
    simp only [State.disarmHint, State.fire_hints, State.parityError_hints]
  have hnow : (((s.parityError.fire 32 2).fire 40 2).disarmHint h.id).now = s.now := by
    simp only [State.disarmHint, State.fire_now, State.parityError_now]
  have hblk : (((s.parityError.fire 32 2).fire 40 2).disarmHint h.id).blk =
      { s.blk with parityHour := s.blk.parityHour + 1 } := by
    simp only [State.disarmHint, State.fire_blk, State.parityError_blk]
  rw [State.discardHint_eq (by rw [hv, hf]), hv, hnow] at hu
  subst hu
  exact ⟨rfl, rfl, State.disarmHint_starts _ _, hblk⟩

/-- R292: an entry is observed once only. -/
theorem State.droopObservation_observed (s : State) (h : HintEntry) :
    ∀ e ∈ (s.droopObservation h).hints.entries, e.id = h.id → e.observed = true :=
  State.modHint_entry (p := fun e => e.observed = true) fun _ => rfl

/-- R292: an eighth of the way to the observation, and one more observation. -/
theorem State.observeRail_droop (s : State) (c q : Nat) (low : Int) :
    tabGet (0, 0) (s.observeRail c q low).learn.droop (3 * c + q) =
      let o := clampI 0 32 (((s.rail q).bump / 65536 - low) / 8)
      let d := tabGet ((0 : Nat), (0 : Nat)) s.learn.droop (3 * c + q)
      ((d.1 + roundEven (8 * o - d.1) 8).toNat, min 255 (d.2 + 1)) :=
  tabGet_tabPut_same ..

/-- Settles O34: what each command does by the entry of its number, and what the operation behind it leaves.
An observation is in whole units, its step in eighths with ties to even (log 57). -/
theorem hintsLiveRetireAndAreObserved : Obligations.HintsLiveRetireAndAreObserved := by
  unfold Obligations.HintsLiveRetireAndAreObserved
  refine ⟨fun s id h => ⟨fun hh => ⟨exec_preparationTime hh, exec_bumpHoldEnd hh, exec_hintRetire_early hh,
    fun ht hf => ?_, fun hf => ?_⟩, fun hs => ?_, fun hr b => ?_⟩, fun s id h hh => ⟨fun hn => ?_, ?_, ?_⟩⟩
  · obtain rfl := State.hintOf_id hh
    exact ⟨_, exec_hintRetire hh ht, State.retireHint_hints hf h⟩
  · have hexec := exec_scoreboardEntryParity hh
    obtain ⟨hentries, hpast, hstarts, hblk⟩ := State.entryParity h hf rfl
    exact ⟨_, hexec, hentries, hpast, hstarts, ((moves_execScoreboardEntryParity id s _ hexec).mono rfl).frame, hblk⟩
  · have hexec := exec_staticTableParity hs
    refine ⟨_, hexec, ?_, ?_, (moves_execStaticTableParity s _ hexec).frame⟩
    · simp only [State.fire_hints, State.parityError_hints]
    · simp only [State.fire_blk, State.parityError_blk]
  · show execStaticTableReloaded b s = _
    rw [execStaticTableReloaded, hr]
    rfl
  · rw [exec_droopObservation hh, if_neg]
    rintro ⟨hobs, ht⟩
    obtain ⟨hc, hl, hm, hg, ho⟩ := State.observable_iff.mp hobs
    simp only [hc, hl, hm, hg, ho, Nat.not_lt.mpr ht, Bool.false_eq_true, ne_eq, not_true_eq_false, reduceCtorEq,
      or_self] at hn
  · intro hl hm hg ho hc ht
    obtain rfl := State.hintOf_id hh
    have hexec : exec (.droopObservation h.id) s = .next (s.droopObservation h) := by
      rw [exec_droopObservation hh, if_pos ⟨State.observable_iff.mpr ⟨hc, hl, hm, hg, ho⟩, ht⟩]
    exact ⟨_, hexec, ((s.moves_droopObservation h).mono rfl).frame, State.droopObservation_observed s h⟩
  · rintro q low o d rfl rfl
    exact ⟨s.observeRail_droop h.cls q low, (s.moves_observeRail ..).frame⟩

end Sys2Proof.Machine
end

section
/-! SUPPORT. Writes of clear registers (R155, R258, R295, R323, R352, R493): each takes the bits written 1 out of the
status word that its object clears. -/

namespace Sys2Proof.Machine

section
variable {s : State} {p : Path} {b k m : Nat} (h : s.Serves p b k)
include h

theorem exec_capIrqClear (hm : m < 256) :
    exec (.capIrqClear p b m) s = .next ((s.clrBits Obj.cap_irq_status (m % 2 ^ 5)).answered p b opWrite 0 1) :=
  congrArg _ (putNum_low h (by decide) (by decide) (find_cap_irq s.cfg) ⟨rfl, rfl, rfl, rfl, rfl⟩ rfl
    (Nat.le_of_ble_eq_true rfl) hm rfl)

theorem exec_hintIrqClear (hm : m < 256) :
    exec (.hintIrqClear p b m) s = .next ((s.clrBits Obj.hint_irq_status (m % 2 ^ 3)).answered p b opWrite 0 1) :=
  congrArg _ (putNum_low h (by decide) (by decide) (find_hint_irq s.cfg) ⟨rfl, rfl, rfl, rfl, rfl⟩ rfl
    (Nat.le_of_ble_eq_true rfl) hm rfl)

theorem exec_thermalIrqClear (hm : m < 256) :
    exec (.thermalIrqClear p b m) s =
      .next ((s.clrBits Obj.thermal_irq_status (m % 2 ^ 3)).answered p b opWrite 0 1) :=
  congrArg _ (putNum_low h (by decide) (by decide) (find_thermal_irq s.cfg) ⟨rfl, rfl, rfl, rfl, rfl⟩ rfl
    (Nat.le_of_ble_eq_true rfl) hm rfl)

theorem exec_learnIrqClear (hl : s.cfg.hasLearner = true) (hm : m < 256) :
    exec (.learnIrqClear p b m) s = .next ((s.clrBits Obj.learn_irq_status (m % 2 ^ 3)).answered p b opWrite 0 1) :=
  congrArg _ (putNum_low h (by decide) (by decide) (find_learn_irq hl) ⟨rfl, rfl, rfl, rfl, rfl⟩ rfl
    (Nat.le_of_ble_eq_true rfl) hm rfl)

theorem exec_dmaIrqClear {ch : Nat} (hd : s.cfg.hasDma = true) (hc : ch < 8) (hm : m < 256) :
    exec (.dmaIrqClear p b ch m) s = .next ((s.modDmaCh ch fun c =>
      { c with irq := c.irq &&& (7 - m % 2 ^ 3 % 8) }).answered p b opWrite 0 1) := by
  show Host.Outcome.next (s.putNum p b (unitObj 0x7800 8 ch) 0x10 m) = _
  rw [unitObj_of_lt hc]
  have hw := putNum_low h (by omega) (by decide) (find_dma_irq hc hd) (n := 3) ⟨rfl, rfl, rfl, rfl, rfl⟩ rfl
    (Nat.le_of_ble_eq_true rfl) hm rfl
  exact congrArg _ hw

/-- R155: the service reasons are cleared in a keeper session. -/
theorem exec_serviceClear (hk : (s.session k).keeper = true) (hm : m < 2 ^ 32) :
    exec (.serviceClear p b m) s =
      .next ((s.clrBits Obj.service_reasons (m % 2 ^ 10)).answered p b opWrite 0 4) :=
  congrArg _ (putNum_does h (by decide) (by decide) (find_service_reasons s.cfg) rfl rfl (by rw [hk]; rfl)
    (Nat.le_of_ble_eq_true rfl) rfl (apply_bits_num 10 rfl hm) rfl)

end

/-- Settles O43: each clear register takes the bits that it has of what is written to the clearing of its status. -/
theorem irqAndReasonClears : Obligations.IrqAndReasonClears := by
  unfold Obligations.IrqAndReasonClears
  intro s p b k m h hm
  refine ⟨exec_capIrqClear h hm, exec_hintIrqClear h hm, exec_thermalIrqClear h hm, fun hl => exec_learnIrqClear h hl hm,
    fun ch hd hc => ?_, fun w hk hw => exec_serviceClear h hk hw⟩
  have hmask : m % 2 ^ 3 % 8 = m % 8 := Nat.mod_mod ..
  rw [exec_dmaIrqClear h hd hc hm, hmask]

end Sys2Proof.Machine
end

section
/-! SUPPORT. The string commands (R142, R149, R158): a value 1 to 4 written to a populated string's `string_cmd` reaches
the rule of its command, and what each rule answers by the state of the string. -/

namespace Sys2Proof.Machine

/-- What a served write of one byte leaves and answers, from what its object's rule answers. -/
def byteAnswer (p : Path) (b : Nat) (a : Ans) : State := a.2.answered p b opWrite a.1 (if a.1 = 0 then 1 else 0)

/-! ## The write of a command -/

section
variable {s : State} {p : Path} {b k i : Nat} (h : s.Serves p b k) (hi : Config.popString s.cfg i = true)
include h hi

theorem putNum_stringCmd {v : Nat} (h1 : 1 ≤ v) (h4 : v ≤ 4) {a : Ans}
    (ha : s.writeString k ⟨.u8, .cmd, .only 1 4, 0, Obj.string_cmd i, 0x3000, i, 0x0C⟩ v = a) :
    s.putNum p b (unitObj 0x3000 1120 i) 0x0C v = byteAnswer p b a := by
  have hl := popString_lt hi
  have hv : v < 2 ^ (8 * Ty.u8.length) := Nat.lt_of_le_of_lt h4 (by decide)
  have hr : (Rng.only 1 4).apply (Ty.u8.decode (Ty.u8.encode v)) = some (v : Int) := by
    rw [decode_encode rfl hv]
    exact if_pos ⟨by omega, by omega⟩
  obtain ⟨st, u⟩ := a
  rw [unitObj_of_lt hl]
  have hw := putNum_does h (by omega) (by decide) (find_string_cmd hl hi) rfl rfl rfl (Nat.le_of_ble_eq_true rfl) rfl hr
    ha
  exact hw

theorem exec_stringCmdMute : exec (.stringCmdMute p b i) s = .next (byteAnswer p b (s.stringMute i)) :=
  congrArg _ (putNum_stringCmd h hi (v := 1) (by decide) (by decide) rfl)

theorem exec_stringCmdReturn :
    exec (.stringCmdReturn p b i) s = .next (byteAnswer p b (s.stringReturn i (s.session k).keeper)) :=
  congrArg _ (putNum_stringCmd h hi (v := 2) (by decide) (by decide) rfl)

theorem exec_stringCmdSetBlind : exec (.stringCmdSetBlind p b i) s = .next (byteAnswer p b (s.stringSetBlind i)) :=
  congrArg _ (putNum_stringCmd h hi (v := 3) (by decide) (by decide) rfl)

theorem exec_stringCmdClearBlind :
    exec (.stringCmdClearBlind p b i) s = .next (byteAnswer p b (s.stringClearBlind i)) :=
  congrArg _ (putNum_stringCmd h hi (v := 4) (by decide) (by decide) rfl)

end

/-! ## The rules of the commands -/

section
variable {s : State} {i : Nat}

/-- R149: a muted string returns by a host that may return it, where its cause and its course allow it. -/
theorem State.stringReturn_returns {keeper : Bool} (hm : (s.str i).st = .muted)
    (hk : (s.str i).cause = 1 ∨ keeper = true) (h5 : (s.str i).cause ≠ 5) (h7 : (s.str i).cause ≠ 7)
    (hr : s.runs = true) (ho : s.returnOk i = true) :
    s.stringReturn i keeper = (0, s.modStr i fun y => { y with retPending := true }) := by
  have hkeeper : (!keeper && (s.str i).st == .muted && (s.str i).cause != 1) = false := by
    rcases hk with hk | hk
    · simp only [hk, bne_self_eq_false, Bool.and_false]
    · simp only [hk, Bool.not_true, Bool.false_and]
  have hm' : ((s.str i).st != .muted) = false := by rw [hm]; rfl
  simp only [State.stringReturn, hkeeper, hm', h5, h7, hr, ho, decide_false, Bool.not_true, Bool.or_self,
    Bool.false_eq_true, if_false]

theorem State.stringReturn_keeper (hm : (s.str i).st = .muted) (hc : (s.str i).cause ≠ 1) :
    s.stringReturn i false = (abortKeeper, s) :=
  if_pos (by rw [hm, bne_iff_ne.mpr hc]; rfl)

theorem State.stringReturn_not_muted {keeper : Bool} (hm : (s.str i).st ≠ .muted) :
    s.stringReturn i keeper = (abortAccess, s.fire 15 0 (srcString i)) := by
  have hb : ((s.str i).st == .muted) = false := beq_eq_false_iff_ne.mpr hm
  simp only [State.stringReturn, hb, bne, Bool.not_false, Bool.and_false, Bool.false_and, Bool.true_or,
    Bool.false_eq_true, if_false, if_true]

theorem State.stringSetBlind_active (hb : (s.str i).blind = false) (ha : (s.str i).st = .active) :
    s.stringSetBlind i = (0, s.makeBlind i 6) := by
  rw [State.stringSetBlind, hb, if_neg Bool.false_ne_true, if_pos ha]

theorem State.stringSetBlind_other (hb : (s.str i).blind = false) (ha : (s.str i).st ≠ .active) :
    s.stringSetBlind i = (0, s.flagBlind i 6) := by
  rw [State.stringSetBlind, hb, if_neg Bool.false_ne_true, if_neg ha]

theorem State.stringSetBlind_blind (hb : (s.str i).blind = true) : s.stringSetBlind i = (abortAccess, s) := if_pos hb

theorem State.stringClearBlind_blind (hb : (s.str i).blind = true) (hs : (s.str i).st = .blind) :
    s.stringClearBlind i =
      (0, s.strTo i .active fun y => { y with shI := 0, shMet := 0, blind := false, blindCause := 0 }) := by
  rw [State.stringClearBlind, hb, if_neg (by decide), if_pos hs]

theorem State.stringClearBlind_other (hb : (s.str i).blind = true) (hs : (s.str i).st ≠ .blind) :
    s.stringClearBlind i = (0, s.modStr i fun y => { y with blind := false, blindCause := 0 }) := by
  rw [State.stringClearBlind, hb, if_neg (by decide), if_neg hs]

theorem State.stringClearBlind_unflagged (hb : (s.str i).blind = false) : s.stringClearBlind i = (abortAccess, s) :=
  if_pos (by rw [hb]; rfl)

end

/-- Settles O21: each command is the rule of its object's value, and each rule answers by the state of the string. -/
theorem stringCommands : Obligations.StringCommands := by
  unfold Obligations.StringCommands
  intro s p b k i h hi
  rw [exec_stringCmdMute h hi, exec_stringCmdReturn h hi, exec_stringCmdSetBlind h hi, exec_stringCmdClearBlind h hi]
  refine ⟨rfl, fun hm hk h5 h7 hr ho => ?_, fun hm hc hk => ?_, fun hm => ?_, fun hb ha => ?_, fun hb ha => ?_,
    fun hb => ?_, fun hb hs => ?_, fun hb hs => ?_, fun hb => ?_⟩
  · rw [State.stringReturn_returns hm hk h5 h7 hr ho]; rfl
  · rw [hk, State.stringReturn_keeper hm hc]; rfl
  · rw [State.stringReturn_not_muted hm]; rfl
  · rw [State.stringSetBlind_active hb ha]; rfl
  · rw [State.stringSetBlind_other hb ha]; rfl
  · rw [State.stringSetBlind_blind hb]; rfl
  · rw [State.stringClearBlind_blind hb hs]; rfl
  · rw [State.stringClearBlind_other hb hs]; rfl
  · rw [State.stringClearBlind_unflagged hb]; rfl

end Sys2Proof.Machine
end

section
/-! SUPPORT. Muting (R124, R126) and the parity of the scoreboard (R127): what a mute and a rebuilt entry make of the
string, and that they touch no other. -/

namespace Sys2Proof.Machine

/-! ## A mute -/

/-- R126, R139: what a string becomes as it enters MUTED in supervisor cycle `cyc`. -/
def Str.muted (y : Str) (cause cyc : Nat) : Str :=
  { y.dropTest.zeroOpen with
    st := .muted, cause := cause, rampAt := none, rampStep := 0, rampCmd := false, retPending := false
    satRun := 0, activeRun := 0, parAt := none, movedAt := some cyc }

theorem Str.dropTest_test (y : Str) : y.dropTest.test = none := by
  unfold Str.dropTest
  split
  next h => exact h
  next => rfl

theorem Str.dropTest_pulse (y : Str) : y.dropTest.pulse = y.pulse := by unfold Str.dropTest; split <;> rfl
theorem Str.dropTest_blind (y : Str) : y.dropTest.blind = y.blind := by unfold Str.dropTest; split <;> rfl

section
variable {s : State} {i cause : Nat}

/-- R126: an entry into MUTED. -/
theorem State.mute_enters (h : (s.str i).st ≠ .muted) :
    (s.mute i cause).strings = s.strings.modify i fun y => y.muted cause (s.now / 4) := by
  simp only [State.mute, if_neg h, State.stUpdate_strings, State.fire_strings]
  split <;> rfl

/-- R124: of a MUTED string a cause of higher priority is taken. -/
theorem State.mute_raises (h : (s.str i).st = .muted) (hp : causePriority cause < causePriority (s.str i).cause) :
    (s.mute i cause).strings =
      s.strings.modify i fun y => { y with cause := cause, retPending := false, parAt := none } := by
  simp only [State.mute, if_pos h, if_pos hp, State.stUpdate_strings, State.fire_strings]
  rfl

/-- R124: of a MUTED string no other cause is taken. -/
theorem State.mute_stays (h : (s.str i).st = .muted) (hp : causePriority (s.str i).cause ≤ causePriority cause) :
    s.mute i cause = s := by
  simp only [State.mute, if_pos h, if_neg (Nat.not_lt.mpr hp)]

/-- A mute is an update of its own string. -/
theorem State.mute_strings (s : State) (i cause : Nat) : ∃ f, (s.mute i cause).strings = s.strings.modify i f := by
  by_cases h : (s.str i).st = .muted
  · rcases Nat.lt_or_ge (causePriority cause) (causePriority (s.str i).cause) with hp | hp
    · exact ⟨_, State.mute_raises h hp⟩
    · exact ⟨id, by rw [State.mute_stays h hp, List.modify_id]⟩
  · exact ⟨_, State.mute_enters h⟩

theorem State.mute_str_other {j : Nat} (h : j ≠ i) : (s.mute i cause).str j = s.str j := by
  obtain ⟨f, hf⟩ := s.mute_strings i cause
  rw [State.str, hf]
  exact getD_modify_other _ f _ h

theorem State.mute_length : (s.mute i cause).strings.length = s.strings.length := by
  obtain ⟨f, hf⟩ := s.mute_strings i cause
  rw [hf, List.length_modify]

theorem State.mute_str_enters (hi : i < s.strings.length) (h : (s.str i).st ≠ .muted) :
    (s.mute i cause).str i = (s.str i).muted cause (s.now / 4) := by
  rw [State.str, State.mute_enters h]
  exact getD_modify_same _ _ hi

theorem State.mute_str_raises (hi : i < s.strings.length) (h : (s.str i).st = .muted)
    (hp : causePriority cause < causePriority (s.str i).cause) :
    (s.mute i cause).str i = { s.str i with cause := cause, retPending := false, parAt := none } := by
  rw [State.str, State.mute_raises h hp]
  exact getD_modify_same _ _ hi

end

/-! ## A rebuilt entry -/

/-- R127: the block with an entry about to be rebuilt: a string that was not MUTED has entered it. -/
def State.mutedForParity (s : State) (i : Nat) : State :=
  if (s.str i).st == .muted then s else s.mute i (s.rebuildCause i)

section
variable (s : State) (i : Nat)

theorem State.mutedForParity_length : (s.mutedForParity i).strings.length = s.strings.length := by
  unfold State.mutedForParity
  split
  · rfl
  · exact State.mute_length

theorem State.mutedForParity_str_other {j : Nat} (h : j ≠ i) : (s.mutedForParity i).str j = s.str j := by
  unfold State.mutedForParity
  split
  · rfl
  · exact State.mute_str_other h

theorem State.mutedForParity_blk : (s.mutedForParity i).blk = s.blk := by
  unfold State.mutedForParity
  split
  · rfl
  · exact State.mute_blk ..

/-- R127: a rebuilt entry is the one of a string MUTED with the cause of its inputs; the rest of the block is as a mute
leaves it. -/
theorem State.rebuildString_eq : ∃ f, s.rebuildString i = (s.mutedForParity i).modStr i f ∧
    ∀ x, (f x).st = .muted ∧ (f x).cause = s.rebuildCause i ∧ (f x).blind = false ∧ (f x).openCtr = 0 ∧
      (f x).hicHist = [] :=
  ⟨_, rfl, fun _ => ⟨rfl, rfl, rfl, rfl, rfl⟩⟩

end

section
variable {s : State} {i : Nat} (hi : Config.popString s.cfg i = true)
include hi

theorem exec_scoreboardParityError : exec (.scoreboardParityError i false) s = .next (s.parityError.rebuildString i) :=
  onString_pop hi

theorem exec_scoreboardParityError_copy :
    exec (.scoreboardParityError i true) s = .next (s.parityError.modStr i fun x => { x with islBad := true }) :=
  onString_pop hi

/-- R127: a millisecond after the parity error of a string that is still MUTED for it, its return is due. -/
theorem exec_parityReturnTimer {u : Nat} (hu : (s.str i).parAt = some u) (hm : (s.str i).st = .muted)
    (hc : (s.str i).cause = 6) (ht : u + 1000000 ≤ s.now) :
    exec (.parityReturnTimer i) s = .next (s.modStr i fun y => { y with parAt := none, retPending := true }) := by
  show execParityReturnTimer i s = _
  rw [execParityReturnTimer, onString_pop hi]
  simp only [hu, hm, hc, ht, decide_true, Bool.and_self, if_true]

end

/-- Settles O20: a mute by the state of its string; a parity error by what it rebuilds. -/
theorem mutingRules : Obligations.MutingRules := by
  unfold Obligations.MutingRules
  intro s i hi hl
  refine ⟨fun cause hm => ?_, fun cause => State.mute_stays, fun cause => State.mute_str_raises hl, ?_,
    exec_scoreboardParityError_copy hi, fun u => exec_parityReturnTimer hi⟩
  · intro y
    have hy : y = (s.str i).muted cause (s.now / 4) := State.mute_str_enters hl hm
    rw [hy]
    exact ⟨rfl, rfl, Str.dropTest_test _, rfl, rfl, rfl, Str.dropTest_pulse _, Str.dropTest_blind _,
      fun j hj => State.mute_str_other hj⟩
  · obtain ⟨f, ht, hf⟩ := s.parityError.rebuildString_eq i
    have hlen : i < (s.parityError.mutedForParity i).strings.length := by
      rwa [State.mutedForParity_length, State.parityError_strings]
    refine ⟨_, exec_scoreboardParityError hi, ?_⟩
    rw [ht, State.modStr_str_same _ f hlen, State.modStr_blk, State.mutedForParity_blk, State.parityError_blk]
    obtain ⟨hst, hcause, hblind, hopen, hhist⟩ := hf ((s.parityError.mutedForParity i).str i)
    refine ⟨hst, hcause, hblind, hopen, hhist, rfl, fun j hj => ?_⟩
    rw [State.modStr_str_other _ f hj, State.mutedForParity_str_other _ _ hj, State.parityError_str]

end Sys2Proof.Machine
end

section
/-! SUPPORT. Course faults (R131, R132), the copy of a fault record (R404, R497, R498) and alerts (R457): what each
command does by the state of its course. -/

namespace Sys2Proof.Machine

theorem onCourse_pop {s t : State} {c : Nat} (h : Config.popCourse s.cfg c = true) : onCourse s c t = .next t := by
  simp only [onCourse, within, h, popCourse_lt h, if_true]

theorem within_lt {s t : State} {n i : Nat} (h : i < n) : within s n i t = .next t := congrArg _ (if_pos h)

/-! ## CRS_FLT_N -/

section
variable {s : State} {c : Nat} (hc : Config.popCourse s.cfg c = true)
include hc

theorem exec_crsFltNFall (ha : s.blk.st.active = true) : exec (.crsFltNFall c) s =
    .next ((s.modCourse c fun x => { x with flt := true, fltAt := s.now }).followCause c) := by
  show execCrsFltNFall c s = _
  rw [execCrsFltNFall, onCourse_pop hc, ha, State.when_true]

theorem exec_crsFltNRise (hl : (s.course c).lost = false) :
    exec (.crsFltNRise c) s = .next (s.modCourse c fun x => { x with flt := false }) := by
  show execCrsFltNRise c s = _
  rw [execCrsFltNRise, onCourse_pop hc, hl]
  rfl

/-- R131: with the lane lost the rise takes the place of the frames that would end the hiccups. -/
theorem exec_crsFltNRise_lost (hl : (s.course c).lost = true) : exec (.crsFltNRise c) s =
    .next (overAll (s.modCourse c fun x => { x with flt := false })
      ((Config.courseStrings s.cfg c).filter fun i => (s.str i).st == .hiccup) fun s i =>
        s.strTo i .returning fun y =>
          { y with rampAt := if s.runs then some (s.eng.period + 1) else none, rampCmd := false }) := by
  show execCrsFltNRise c s = _
  rw [execCrsFltNRise, onCourse_pop hc, hl]
  rfl

/-! ## Follow-ups -/

theorem exec_followUp {w : Nat} {iout : List (Nat × Nat)} (hf : (s.course c).follow = .waiting)
    (hs : s.blk.st.serves = true) : exec (.followUp c w iout) s =
      .next (((s.modCourse c fun x =>
        { x with follow := .running false, status := w % 65536, iout
                 sent := (followReads iout).map (courseAddr c, ·) }).courseFault c).fire 18 (w % 256) (srcCourse c)) := by
  show execFollowUp c w s iout = _
  rw [execFollowUp, onCourse_pop hc, if_pos ⟨hf, hs⟩]

theorem exec_followUp_none {w : Nat} {iout : List (Nat × Nat)} (hf : (s.course c).follow ≠ .waiting) :
    exec (.followUp c w iout) s = .next s := by
  show execFollowUp c w s iout = _
  rw [execFollowUp, onCourse_pop hc, if_neg fun h => hf h.1]

/-- R497: a follow-up that runs copies the fault record. -/
theorem exec_courseRecordCopy {b d e : List Byte} {more : Bool} (hf : (s.course c).follow = .running more)
    (hs : s.blk.st.serves = true) : exec (.courseRecordCopy c b d e) s = .next (s.recordCopy c b d) := by
  show execCourseRecordCopy c b d s e = _
  rw [execCourseRecordCopy, onCourse_pop hc, if_neg (by rw [hs]; decide), if_pos (by rw [hf]; rfl)]

end

/-- R132, R497: a course whose follow-up has ended with a record that checks and that was not acknowledged before. -/
def Course.recordKept (x : Course) (b : List Byte) (c tmon : Nat) : Course :=
  { x with record := slice b 0 128, recState := 1, recTmon := tmon, follow := .idle
           sent := x.sent ++ (recordReads ++ [PmbusTxn.recordAck, PmbusTxn.clearFaults]).map (courseAddr c, ·) }

/-- R404, R498: the copy of such a record is queued with its first part, on the routes of its type. -/
theorem State.recordCopy_unacknowledged {s : State} {c : Nat} {b d : List Byte}
    (hf : (s.course c).follow = .running false) (hg : recordGood b = true) (ha : bit (b.getD 1 0) 1 = false) :
    s.recordCopy c b d =
      let t := ((s.modCourse c fun x => x.recordKept b c (s.tmonOf c)).count (Obj.course_record_copies c) 32).count
        (Obj.trig_count 19) 32
      t.enqueue { ty := 19, detail := 0, src := srcCourse c, part := some 0
                  words := some ((List.range 32).map fun k => fieldAt b (4 * k) 4), route := t.routeOf 19 } := by
  simp only [State.recordCopy, hg, ha, if_true, if_false, Bool.true_or, Bool.not_true, Bool.not_false, Bool.and_true,
    Bool.false_eq_true]
  rw [State.modCourse_congr (g := fun x => x.recordKept b c (s.tmonOf c))]
  simp only [Course.recordKept, hf, Follow.isRunning, if_true, Bool.true_and, List.append_nil, List.append_assoc,
    List.cons_append, List.nil_append]

/-! ## Alerts -/

section
variable {s : State} {k : Nat} (hk : k < 10) (ha : s.blk.st.active = true)
include hk ha

theorem exec_smbusAlert_silent : exec (.smbusAlert k none) s = .next (s.fire 20 0 (srcSegment k)) := by
  show execSmbusAlert k none s = _
  rw [execSmbusAlert, within_lt hk, ha]
  rfl

theorem exec_smbusAlert {a c : Nat} (hc : courseAt s.cfg k a = some c) :
    exec (.smbusAlert k (some a)) s = .next (s.followCause c) := by
  show execSmbusAlert k (some a) s = _
  rw [execSmbusAlert, within_lt hk, ha, Option.bind_some, hc]
  rfl

theorem exec_smbusAlert_unknown {a : Nat} (hc : courseAt s.cfg k a = none) :
    exec (.smbusAlert k (some a)) s = .next (s.fire 20 0 (srcSegment k)) := by
  show execSmbusAlert k (some a) s = _
  rw [execSmbusAlert, within_lt hk, ha, Option.bind_some, hc]
  rfl

end

theorem courseAt_none {cfg : Config} {k a : Nat}
    (h : ∀ d ∈ Config.courses cfg, segmentOf d = k → 0x50 + d % 14 ≠ a) : courseAt cfg k a = none := by
  refine List.find?_eq_none.mpr fun d hd hb => ?_
  obtain ⟨hseg, haddr⟩ : segmentOf d = k ∧ courseAddr d = a := by simpa only [Bool.and_eq_true, beq_iff_eq] using hb
  exact h d hd hseg haddr

/-- Settles O23: each command by the course's lane, its follow-up and its answer on the segment. A follow-up without a
further cause ends with the copy, and an alert is recorded only where no course answers (log 37); the strings concerned
are those whose pages the command gives (log 97). -/
theorem courseFaultsAndFollowUps : Obligations.CourseFaultsAndFollowUps := by
  unfold Obligations.CourseFaultsAndFollowUps
  intro s c hc x ask
  refine ⟨exec_crsFltNFall hc, exec_crsFltNRise hc, exec_crsFltNRise_lost hc, fun w iout hf hs hw => ?_,
    fun w iout => exec_followUp_none hc, fun b d e hf hs hg ha => ?_, fun k hk ha => ⟨exec_smbusAlert_silent hk ha,
      fun a => ⟨exec_smbusAlert hk ha, fun hd => exec_smbusAlert_unknown hk ha (courseAt_none hd)⟩⟩, rfl⟩
  · rw [exec_followUp hc hf hs, Nat.mod_eq_of_lt hw]
    rfl
  · rw [exec_courseRecordCopy hc hf hs, State.recordCopy_unacknowledged hf hg ha]
    rfl

end Sys2Proof.Machine
end

section
/-! SUPPORT. Lanes and their frames (R130, R131, R133): a lane that is lost, a frame that is rejected or accepted, and a
first hiccup. -/

namespace Sys2Proof.Machine

/-! ## Updates of which at most one does something -/

theorem overAll_stays {α : Type} {f : State → α → State} {l : List α} (h : ∀ x ∈ l, ∀ t, f t x = t) (s : State) :
    overAll s l f = s := by
  induction l generalizing s with
  | nil => rfl
  | cons a l ih =>
    rw [overAll_cons, h a List.mem_cons_self, ih fun x hx => h x (List.mem_cons_of_mem _ hx)]

theorem overAll_only {α : Type} {f : State → α → State} {l : List α} {n : α} (hd : l.Nodup) (hn : n ∈ l)
    (h : ∀ x ∈ l, x ≠ n → ∀ t, f t x = t) (s : State) : overAll s l f = f s n := by
  induction l generalizing s with
  | nil => cases hn
  | cons a l ih =>
    obtain ⟨ha, hl⟩ := List.nodup_cons.mp hd
    rw [overAll_cons]
    rcases List.mem_cons.mp hn with rfl | hnl
    · exact overAll_stays (fun x hx => h x (List.mem_cons_of_mem _ hx) fun e => ha (e ▸ hx)) _
    · rw [h a List.mem_cons_self (fun e => ha (e ▸ hnl)), ih hl hnl fun x hx => h x (List.mem_cons_of_mem _ hx)]

/-! ## A lane is lost -/

/-- R131, R254: what the loss of a lane does at once: a sense is at fault, the loss is recorded, a follow-up is asked
for, the reason is noted and the learner's fault window told. -/
def State.losesLane (s : State) (c : Nat) : State :=
  ((((s.senseSeen.modCourse c fun x => { x with lost := true, okRun := 0 }).fire 17 0 (srcCourse c)).followCause
    c).noteReason 9).learnFault (regionOfCourse c)

theorem State.laneLost_eq {s : State} {c : Nat} (h : (s.course c).lost = false) : s.laneLost c = s.losesLane c :=
  if_neg (by rw [h]; exact Bool.false_ne_true)

/-! ## A rejected frame -/

/-- R130: a rejected frame is counted; the next good one is exempt from the check of the count. -/
def State.frameRejected (s : State) (c : Nat) : State :=
  (s.countSat (Obj.course_lane_errors c) 16).modCourse c fun x =>
    { x with ref := none, rejRun := x.rejRun + 1, okRun := 0 }

section
variable {s : State} {c : Nat} (hl : c < s.courses.length)
include hl

theorem State.frameRejected_course :
    (s.frameRejected c).course c =
      { s.course c with ref := none, rejRun := (s.course c).rejRun + 1, okRun := 0 } := by
  have hl' : c < (s.countSat (Obj.course_lane_errors c) 16).courses.length := by rwa [State.countSat_courses]
  rw [State.frameRejected, State.modCourse_course_same _ _ hl', State.countSat_course]

/-- R131: the fourth rejected frame in a row loses the lane. -/
theorem State.rejectFrame_eq : s.rejectFrame c =
    if 3 ≤ (s.course c).rejRun then (s.frameRejected c).laneLost c else s.frameRejected c := by
  show (if 4 ≤ ((s.frameRejected c).course c).rejRun then (s.frameRejected c).laneLost c else s.frameRejected c) = _
  have hfour : 4 ≤ (s.course c).rejRun + 1 ↔ 3 ≤ (s.course c).rejRun := Nat.succ_le_succ_iff
  simp only [State.frameRejected_course hl, hfour]

end

/-! ## An accepted frame -/

/-- R130: the fields of an accepted frame take effect. -/
def State.frameTaken (s : State) (c w : Nat) : State :=
  s.modCourse c fun y =>
    { y with frame := w, ref := some (bits w 7 4), okAt := s.now, rejRun := 0, okRun := y.okRun + 1
             prevNew := some (bit w 9) }

/-- A frame on a lane in use without a backstop and without news to follow up leaves its hiccup bits to be heard. -/
theorem State.acceptFrame_plain {s : State} {c w : Nat} (hl : (s.course c).lost = false) (hb : bit w 11 = false)
    (hn : bit w 9 = false ∨ (s.course c).prevNew ≠ some false) :
    s.acceptFrame c w = overAll (s.frameTaken c w) (List.range 8) fun t n => t.hiccupBit c w (s.course c).frame n := by
  have hnews : (bit w 9 && (s.course c).prevNew == some false) = false := by
    rcases hn with hn | hn
    · rw [hn, Bool.false_and]
    · rw [beq_eq_false_iff_ne.mpr hn, Bool.and_false]
  simp only [State.acceptFrame, hl, hb, hnews, Bool.false_and, Bool.or_false, Bool.false_eq_true, if_false]
  rfl

section
variable {s : State} {c w old n : Nat}

theorem State.hiccupBit_clear (h : bit w (20 + n) = false) : s.hiccupBit c w old n = s :=
  if_pos (by rw [h]; rfl)

theorem State.hiccupBit_active (h : bit w (20 + n) = true) (hp : Config.popString s.cfg (8 * c + n) = true)
    (ha : (s.str (8 * c + n)).st = .active) : s.hiccupBit c w old n = s.hiccupReport (8 * c + n) := by
  simp only [State.hiccupBit, h, hp, ha, Bool.not_true, Bool.or_self, Bool.false_eq_true, if_false]

/-- R133: the first hiccup of an ACTIVE string that may have two is one that it recovers from. -/
theorem State.hiccupReport_first {i : Nat} (ha : (s.str i).st = .active) (hh : (s.str i).hicHist = [])
    (hm : 2 ≤ s.getN Obj.hiccup_max) : s.hiccupReport i =
      ((s.modStr i fun y => { y with hicHist := [s.now] }).toHiccup i).followCause (courseOf i) := by
  have hold : [s.now][s.getN Obj.hiccup_max - 1]? = none := List.getElem?_eq_none (Nat.le_sub_of_add_le hm)
  have hreturning : (StrSt.active == StrSt.returning) = false := rfl
  simp only [State.hiccupReport, ha, hh, List.take_succ_cons, List.take_nil, State.modStr_getN, hold, Option.any_none,
    hreturning, Bool.false_and, Bool.or_self, Bool.false_eq_true, if_false]

end

/-! ## The commands -/

section
variable {s : State} {c w : Nat} {ok : Bool} (hc : Config.popCourse s.cfg c = true)
include hc

theorem exec_crsStatFrame_unsupervised (h : (s.course c).sup = false) : exec (.crsStatFrame c w ok) s = .next s := by
  show execCrsStatFrame c w ok s = _
  rw [execCrsStatFrame, onCourse_pop hc, if_pos (by rw [h]; rfl)]

theorem exec_crsStatFrame (hw : w < 2 ^ 32) (h : (s.course c).sup = true) : exec (.crsStatFrame c w ok) s =
    .next (if (s.course c).accepts w ok then s.acceptFrame c w else s.rejectFrame c) := by
  show execCrsStatFrame c w ok s = _
  rw [execCrsStatFrame, onCourse_pop hc, Nat.mod_eq_of_lt hw, if_neg (by rw [h]; decide)]

theorem exec_laneTimeout (hs : (s.course c).sup = true) (ht : (s.course c).okAt + 6000 ≤ s.now) :
    exec (.laneTimeout c) s = .next (s.laneLost c) := by
  show execLaneTimeout c s = _
  rw [execLaneTimeout, onCourse_pop hc]
  simp only [hs, ht, decide_true, Bool.and_self, State.when_true]

section
variable (hl : (s.course c).lost = true) (hf : (s.course c).flt = true)
include hl hf

theorem exec_laneFltDamper (ht : (s.course c).fltAt + 300000 ≤ s.now) :
    exec (.laneFltDamper c) s = .next (s.damper (railOfCourse c) 2 (srcCourse c)) := by
  show execLaneFltDamper c s = _
  rw [execLaneFltDamper, onCourse_pop hc]
  simp only [hl, hf, ht, decide_true, Bool.and_self, State.when_true]

theorem exec_laneVminDamper {u : Nat} (hu : (s.region (regionOfCourse c)).loop.lowSince = some u)
    (hlow : u + 10000 ≤ s.now) (ht : (s.course c).fltAt + 10000 ≤ s.now) :
    exec (.laneVminDamper c) s = .next (s.damper (railOfCourse c) 2 (srcCourse c)) := by
  have hboth : max u (s.course c).fltAt + 10000 ≤ s.now := by omega
  show execLaneVminDamper c s = _
  rw [execLaneVminDamper, onCourse_pop hc]
  simp only [hl, hf, hu, hboth, decide_true, Bool.and_self, State.when_true]

end

end

/-- Settles O22: a frame by its acceptance, an accepted one by its hiccup bits; a lost lane's reason is noted for the
next latch (log 12). -/
theorem lanesAndFrames : Obligations.LanesAndFrames := by
  unfold Obligations.LanesAndFrames
  intro s c w ok hc hl hw x lost
  refine ⟨exec_crsStatFrame_unsupervised hc, fun hs ha => ?_, fun hs ha hlost hb hn => ?_, fun hs ht hlost => ?_,
    exec_laneFltDamper hc, fun hlost hf u => exec_laneVminDamper hc hlost hf⟩
  · intro t
    rw [exec_crsStatFrame hc hw hs, ha, if_neg Bool.false_ne_true, State.rejectFrame_eq hl]
    refine ⟨fun hr => ?_, fun hr hlost => ?_⟩
    · rw [if_neg (Nat.not_le.mpr hr)]
      rfl
    · have hlost' : ((s.frameRejected c).course c).lost = false := by rw [State.frameRejected_course hl]; exact hlost
      rw [if_pos (Nat.le_of_eq hr.symm), State.laneLost_eq hlost']
      rfl
  · intro t
    rw [exec_crsStatFrame hc hw hs, ha, if_pos rfl, State.acceptFrame_plain hlost hb hn]
    refine ⟨fun hclear => ?_, fun n hn8 hbits hp hst hhist hmax => ?_⟩
    · rw [overAll_stays fun m hm _ => State.hiccupBit_clear (hclear m (List.mem_range.mp hm))]
      rfl
    · have hbit : bit w (20 + n) = true := by rw [hbits n hn8, decide_eq_true rfl]
      have hother : ∀ m ∈ List.range 8, m ≠ n → ∀ t : State, t.hiccupBit c w (s.course c).frame m = t :=
        fun m hm hne _ => State.hiccupBit_clear (by rw [hbits m (List.mem_range.mp hm), decide_eq_false hne])
      have hcourse : courseOf (8 * c + n) = c := by unfold courseOf; omega
      rw [overAll_only List.nodup_range (List.mem_range.mpr hn8) hother,
        State.hiccupBit_active (s := s.frameTaken c w) hbit hp hst,
        State.hiccupReport_first (s := s.frameTaken c w) hst hhist hmax, hcourse]
      rfl
  · rw [exec_laneTimeout hc hs ht, State.laneLost_eq hlost]
    rfl

end Sys2Proof.Machine
end

section
/-! SUPPORT. Conversions (R137, R362, R363, R365, R369 to R374): the instant at which a string's pulse holds one, the ends
of its waits, urgent requests, full speed, and the trigger of a capture. -/

namespace Sys2Proof.Machine

theorem onConv_pop {s t : State} {n : Nat} (h : Config.popConv s.cfg n = true) : onConv s n t = .next t := by
  simp only [onConv, within, h, popConv_lt h, if_true]

/-! ## The hold instant of a pulse -/

theorem Conv.settledAt_iff {c : Conv} {q : Nat} : c.settledAt q = true ↔ c.armedAt * 32 + c.ts * 125 ≤ q * 8 :=
  decide_eq_true_iff

section
variable {s : State} {c : Conv} {x : Str} {p : Pulse}

/-- R362: a FIRE-mode entry is held within an ordinary pulse that rises after its sampling time. -/
theorem State.holdAt_fire (hu : c.urgent = none) (hl : x.last = some p) (hk : p.kind = .ordinary)
    (hs : c.settledAt p.riseQ = true) : s.holdAt c x = some (s.strobeAt p) := by
  simp only [State.holdAt, hu, hl, hk, hs, Option.filter_some, beq_self_eq_true, Bool.and_self, if_true,
    Option.map_some]

theorem State.holdAt_fire_none (hu : c.urgent = none) (hl : x.last = some p)
    (h : p.kind ≠ .ordinary ∨ c.settledAt p.riseQ = false) : s.holdAt c x = none := by
  have hno : (p.kind == .ordinary && c.settledAt p.riseQ) = false := by
    rcases h with hk | hs
    · rw [beq_eq_false_iff_ne.mpr hk, Bool.false_and]
    · rw [hs, Bool.and_false]
  simp only [State.holdAt, hu, hl, Option.filter_some, hno, Bool.false_eq_true, if_false, Option.map_none]

/-- R369: an urgent conversion is held at the edge that it asks for. -/
theorem State.holdAt_rise {u : Urgent} (hu : c.urgent = some u) (hm : u.mode = 1) (hl : x.last = some p)
    (hs : c.settledAt p.riseQ = true) : s.holdAt c x = some p.riseQ := by
  simp only [State.holdAt, hu, hm, hl, hs, Option.map_some, Option.filter_some, if_true]

theorem State.holdAt_fall {u : Urgent} {q : Nat} (hu : c.urgent = some u) (hm : u.mode = 2) (ho : x.offEnd = some q)
    (hs : c.settledAt q = true) : s.holdAt c x = some q := by
  have hne : ¬ (2 = 1) := by decide
  simp only [State.holdAt, hu, hm, ho, hs, hne, Option.filter_some, if_true, if_false]

end

/-! ## What holds a conversion, or ends its wait -/

section
variable {s : State} {n : Nat} (hn : Config.popConv s.cfg n = true)
include hn

section
variable {i : Nat} (hi : s.strobeString n = some i)
include hi

theorem exec_fireStrobe {q : Nat} (hh : (s.conv n).held = none) (hq : s.holdAt (s.conv n) (s.str i) = some q) :
    exec (.fireStrobe n) s =
      .next (if q < 4 * (s.now + 1) then s.modConv n fun c => { c with held := some q } else s) := by
  show execFireStrobe n s = _
  rw [execFireStrobe, onConv_pop hn]
  simp only [hi, hq, hh, State.when, Option.isNone_none, Bool.true_and, decide_eq_true_eq]

theorem exec_fireStrobe_none (hq : s.holdAt (s.conv n) (s.str i) = none) : exec (.fireStrobe n) s = .next s := by
  show execFireStrobe n s = _
  rw [execFireStrobe, onConv_pop hn]
  simp only [hi, hq]

theorem exec_fireWaitTimeout (hh : (s.conv n).held = none) : exec (.fireWaitTimeout n) s =
    .next (if s.getN Obj.fire_wait * 1000 ≤ (s.now - (s.conv n).armedAt) * 256 then
      s.modConv n fun c => { c with held := some (4 * s.now), timed := true } else s) := by
  show execFireWaitTimeout n s = _
  rw [execFireWaitTimeout, onConv_pop hn]
  simp only [hi, hh, State.when, cyclesPassed, Option.isSome_some, Option.isNone_none, Bool.true_and,
    decide_eq_true_eq]

end

/-- R374: of a conversion that is held, 128 cycles of the island are waited for its result. -/
theorem exec_conversionTimeout {t : Nat} (hh : (s.conv n).held = some t) (hr : s.convRuns = true) :
    exec (.conversionTimeout n) s = .next (if t * 8 + 128 * 125 ≤ s.now * 32 then s.failConverter n else s) := by
  show execConversionTimeout n s = _
  rw [execConversionTimeout, onConv_pop hn]
  simp only [State.holdLate, hh, hr, State.when, Bool.true_and, decide_eq_true_eq]

theorem State.failConverter_working (hf : (s.conv n).failed = false) :
    s.failConverter n = (s.modConv n fun c => { c with failed := true }).fire 36 0 (srcConv n) := by
  rw [State.failConverter, if_neg (Nat.ne_of_lt (popConv_lt hn)), if_neg (by rw [hf]; exact Bool.false_ne_true)]

end

/-! ## Urgent requests -/

/-- R369: a request that was on its way to a converter has reached it, and `l` are still on theirs. -/
def State.takeComing (s : State) (n : Nat) (l : List Urgent) : State := s.modConv n fun c => { c with coming := l }

section
variable {s : State} {n : Nat} {u : Urgent} {l : List Urgent} (hc : (s.conv n).coming = u :: l)
include hc

theorem State.takeComing_conv : (s.takeComing n l).conv n = { s.conv n with coming := l } := by
  refine State.modConv_conv_same _ _ (Nat.lt_of_not_le fun hlen => ?_)
  rw [State.conv, List.getD_eq_getElem?_getD, List.getElem?_eq_none hlen] at hc
  cases hc

theorem State.urgentArrives_low (hf : s.convFull = false) :
    s.urgentArrives n = (s.takeComing n l).count Obj.urgent_refused 32 := by
  have hf' : (s.takeComing n l).convFull = false := hf
  simp only [State.urgentArrives, hc]
  exact if_pos (by rw [← State.takeComing, hf']; rfl)

/-- R371, R372: at full speed a request stops a scheduled conversion, waits behind an urgent one, or finds 8 waiting. -/
theorem State.urgentArrives_full (hf : s.convFull = true) : s.urgentArrives n =
    let a := s.takeComing n l
    if (s.conv n).urgent.isNone then a.modConv n fun c => ({ c with urgent := some u } : Conv).track s.now
    else if 8 ≤ (s.conv n).queue.length then
      let b := a.count Obj.urgent_refused 32
      if u.owner.isSome && !u.slope then { b with cg := { b.cg with retry := b.cg.retry ++ [(n, u)] } } else b
    else a.modConv n fun c => { c with queue := c.queue ++ [u] } := by
  have hf' : (s.takeComing n l).convFull = true := hf
  simp only [State.urgentArrives, hc]
  rw [← State.takeComing, State.takeComing_conv hc, hf', if_neg (by decide)]
  rfl

end

/-! ## The trigger of a capture -/

/-- R366: converter `n` as a sweep starts on it at block time `now`. -/
def Conv.joinSweep (c : Conv) (cfg : Config) (n now : Nat) : Conv :=
  let d := (c.startA cfg n now).getD { c with idx := 16 }
  let d := if c.urgent.isSome then { d with armedAt := c.armedAt, held := c.held, timed := c.timed } else d
  { d with
    sync := true, late := c.urgent.isSome, resampled := c.urgent.isSome
    sinceB := if c.inB then 64 else d.sinceB
    refOff := if c.inB then c.refBad else d.refOff }

/-- R365: a sweep has started on every populated converter. -/
def State.sweepStarted (s : State) : State :=
  { s with
    cg := { s.cg with running := true, trigAt := s.now, words := List.replicate 1120 0, doneGroups := [] }
    convs := s.convs.zipIdx.map fun (c, n) => if !Config.popConv s.cfg n then c else c.joinSweep s.cfg n s.now }

theorem getD_zipIdx_map {α β : Type} {l : List α} {n : Nat} (f : α × Nat → β) (d : α) (e : β) (h : n < l.length) :
    (l.zipIdx.map f).getD n e = f (l.getD n d, n) := by
  simp only [List.getD_eq_getElem?_getD, List.getElem?_map, List.getElem?_zipIdx, List.getElem?_eq_getElem h,
    Option.map_some, Option.getD_some, Nat.zero_add]

section
variable {s : State}

theorem State.sweepStarted_conv {n : Nat} (hn : Config.popConv s.cfg n = true) (hl : n < s.convs.length) :
    s.sweepStarted.conv n = (s.conv n).joinSweep s.cfg n s.now := by
  have hg := getD_zipIdx_map (fun (c, n) => if !Config.popConv s.cfg n then c else c.joinSweep s.cfg n s.now) {} {} hl
  exact hg.trans (if_neg (by rw [hn]; decide))

theorem State.moves_sweepStarted (s : State) : s.Moves [.cg, .convs] s.sweepStarted := by
  have hlen : s.sweepStarted.convs.length = s.convs.length := by
    rw [State.sweepStarted, List.length_map, List.length_zipIdx]
  exact ((State.Moves.refl [.cg, .convs] s).put_cg (v := s.sweepStarted.cg) rfl).put_convs rfl hlen

section
variable (hf : s.convFull = true) (ha : s.cg.arm ≠ 0)
include hf ha

theorem State.syncTrigger_running (hr : s.cg.running = true) : s.syncTrigger = s.count Obj.sync_missed 32 := by
  simp only [State.syncTrigger, hf, ha, hr, decide_false, Bool.not_true, Bool.or_self, Bool.false_eq_true, if_false,
    if_true]

theorem State.syncTrigger_starts (hr : s.cg.running = false) : s.syncTrigger = s.sweepStarted := by
  simp only [State.syncTrigger, hf, ha, hr, decide_false, Bool.not_true, Bool.or_self, Bool.false_eq_true, if_false]
  rfl

end

/-- R365: a trigger lies within 4 ns of `sync_delay` after a cycle 0, or of an edge of `sync_string`. -/
theorem State.triggerDue_iff : s.triggerDue = true ↔ if s.getN Obj.sync_source = 0 then
      s.engineOn = true ∧ ((s.now + 66000 - s.getN Obj.sync_delay) % 1000 ≤ 4 ∨
        996 ≤ (s.now + 66000 - s.getN Obj.sync_delay) % 1000)
    else ∃ q ∈ s.cg.trigs, q ≤ 4 * s.now + 16 ∧ 4 * s.now ≤ q + 16 := by
  unfold State.triggerDue
  split
  · rw [Bool.and_eq_true, decide_eq_true_iff]
  · simp only [List.any_eq_true, decide_eq_true_eq]

theorem exec_syncTrigger_none (h : s.triggerDue = false) : exec .syncTrigger s = .next s := by
  show execSyncTrigger s = _
  rw [execSyncTrigger, h, State.when_false]

theorem exec_syncTrigger (h : s.triggerDue = true) : exec .syncTrigger s = .next s.syncTrigger.useTriggers := by
  show execSyncTrigger s = _
  rw [execSyncTrigger, h, State.when_true]

end

/-! ## The slope test and full speed -/

theorem exec_slopeTestEnd {s : State} {i : Nat} {t : SenseTest} (hi : Config.popString s.cfg i = true)
    (ht : (s.str i).test = some t) (hs : t.slope = none) (hp : 16 ≤ t.pairs) :
    exec (.slopeTestEnd i) s = .next (s.modStr i fun x => { x with test := some { t with
      slope := some (decide (8 * s.getN Obj.slope_min * t.dI ≤ t.rise * 100 * t.dL)) } }) := by
  show execSlopeTestEnd i s = _
  rw [execSlopeTestEnd, onString_pop hi]
  simp only [ht, hs, hp, ge_iff_le, decide_true, Option.isNone_none, Bool.and_self, State.when_true]

section
variable {s : State} {t : Nat} (ht : s.blk.fullAt = some t)
include ht

theorem exec_fullSpeedStart_early (h : s.now < t) : exec .fullSpeedStart s = .next s := by
  show execFullSpeedStart s = _
  simp only [execFullSpeedStart, ht, Nat.not_le.mpr h, decide_false, Bool.and_false, Bool.false_eq_true, if_false]

/-- R373: the table B conversion in progress is finished, and table A begins. -/
theorem exec_fullSpeedStart (hf : s.blk.st.full = true) (h : t ≤ s.now) : exec .fullSpeedStart s =
    .next { (s.modBlk fun b => { b with fullSpeed := true, fullAt := none }) with
      convs := s.convs.map fun c => { c with toA := true } } := by
  show execFullSpeedStart s = _
  simp only [execFullSpeedStart, ht, hf, h, decide_true, Bool.and_self, if_true]

end

/-- Settles O41: a conversion by the pulse it waits for and by the ends of its waits; an urgent request by what the
converter does (in low power it is refused, log 22); a trigger by the capture (the instants of `sync_string` are used
once, log 104). -/
theorem conversionsAreScheduled : Obligations.ConversionsAreScheduled := by
  unfold Obligations.ConversionsAreScheduled
  refine ⟨fun s n hn => ⟨fun i p hi hh => ⟨fun hu hl hk hs => ?_, fun hu hl hno => ?_, fun u hu hl => ⟨?_, ?_⟩, ?_, ?_⟩,
    fun t hh hr => ⟨fun ht hf => ?_, fun ht => ?_⟩, fun u l hc => ?_⟩, fun s i t => exec_slopeTestEnd,
    fun s t ht hf => ⟨exec_fullSpeedStart_early ht, fun h => ?_⟩,
    fun s hf ha => ⟨exec_syncTrigger_none, State.triggerDue_iff, fun hd hr => ?_, fun hd hr hl => ?_⟩⟩
  · intro q
    have hexec : exec (.fireStrobe n) s = .next (if q < _ then _ else s) :=
      exec_fireStrobe hn hi hh (State.holdAt_fire hu hl hk (Conv.settledAt_iff.mpr hs))
    exact ⟨fun h => by rw [hexec, if_pos h], fun h => by rw [hexec, if_neg (Nat.not_lt.mpr h)]⟩
  · refine exec_fireStrobe_none hn hi (State.holdAt_fire_none hu hl (hno.imp_right fun h => ?_))
    exact Bool.eq_false_iff.mpr fun hs => absurd (Conv.settledAt_iff.mp hs) (Nat.not_le.mpr h)
  · intro hm hs h
    rw [exec_fireStrobe hn hi hh (State.holdAt_rise hu hm hl (Conv.settledAt_iff.mpr hs)), if_pos h]
  · intro hm q hq hs h
    rw [exec_fireStrobe hn hi hh (State.holdAt_fall hu hm hq (Conv.settledAt_iff.mpr hs)), if_pos h]
  · intro h
    rw [exec_fireWaitTimeout hn hi hh, if_pos h]
  · intro h
    rw [exec_fireWaitTimeout hn hi hh, if_neg (Nat.not_le.mpr h)]
  · rw [exec_conversionTimeout hn hh hr, if_pos ht, State.failConverter_working hn hf]
  · rw [exec_conversionTimeout hn hh hr, if_neg (Nat.not_le.mpr ht)]
  · have hexec : exec (.urgentRequest n) s = .next (s.urgentArrives n) := onConv_pop hn
    have hbusy : (s.conv n).urgent ≠ none → (s.conv n).urgent.isNone = false := fun hu =>
      Option.isNone_eq_false_iff.mpr (Option.isSome_iff_ne_none.mpr hu)
    rw [hexec]
    refine ⟨fun hf => ?_, fun hf hu => ?_, fun hf hu hq => ?_, fun hf hu hq ho => ?_⟩
    · rw [State.urgentArrives_low hc hf]; rfl
    · rw [State.urgentArrives_full hc hf, hu]; rfl
    · simp only [State.urgentArrives_full hc hf, hbusy hu, Nat.not_le.mpr hq, Bool.false_eq_true, if_false]
      rfl
    · simp only [State.urgentArrives_full hc hf, hbusy hu, hq, ho, Option.isSome_none, Bool.false_and, Bool.false_eq_true,
        if_false, if_true]
      rfl
  · have hexec := exec_fullSpeedStart ht hf h
    exact ⟨_, hexec, Bool.and_eq_true_iff.mpr ⟨hf, rfl⟩, rfl, rfl, (moves_execFullSpeedStart s _ hexec).frame⟩
  · rw [exec_syncTrigger hd, State.syncTrigger_running hf ha hr]
  · refine ⟨s.sweepStarted.useTriggers, by rw [exec_syncTrigger hd, State.syncTrigger_starts hf ha hr], rfl, rfl, rfl,
      fun n hn => ?_, (s.moves_sweepStarted.step (State.moves_useTriggers _) rfl).frame⟩
    have hconv : s.sweepStarted.useTriggers.conv n = _ := State.sweepStarted_conv hn (hl ▸ popConv_lt hn)
    rw [hconv]
    exact ⟨rfl, rfl⟩

end Sys2Proof.Machine
end

section
/-! SUPPORT. The outputs of a control period (R163, R165): written together, and taken together by the region islands
(R59, R68, R81, R102). -/

namespace Sys2Proof.Machine

/-! ## One unit of a list that is updated once -/

theorem overAll_keepOn {α β : Type} {f : State → α → State} {l : List α} (g : State → β)
    (h : ∀ x ∈ l, ∀ t, g (f t x) = g t) (s : State) : g (overAll s l f) = g s := by
  induction l generalizing s with
  | nil => rfl
  | cons a l ih =>
    rw [overAll_cons, ih fun x hx => h x (List.mem_cons_of_mem _ hx), h a List.mem_cons_self]

/-- What only the update of unit `n` changes is, after all updates, what that one made of it. -/
theorem overAll_once {α β : Type} {f : State → α → State} {l : List α} {n : α} (g : State → β) (hd : l.Nodup)
    (hn : n ∈ l) (h : ∀ x ∈ l, x ≠ n → ∀ t, g (f t x) = g t) (s : State) :
    ∃ t, g t = g s ∧ g (overAll s l f) = g (f t n) := by
  induction l generalizing s with
  | nil => cases hn
  | cons a l ih =>
    obtain ⟨ha, hl⟩ := List.nodup_cons.mp hd
    have htail : ∀ x ∈ l, x ≠ n → ∀ t, g (f t x) = g t := fun x hx => h x (List.mem_cons_of_mem _ hx)
    rw [overAll_cons]
    rcases List.mem_cons.mp hn with rfl | hnl
    · exact ⟨s, rfl, overAll_keepOn g (fun x hx => htail x hx fun e => ha (e ▸ hx)) _⟩
    · obtain ⟨t, ht, he⟩ := ih hl hnl htail (f s a)
      exact ⟨t, ht.trans (h a List.mem_cons_self (fun e => ha (e ▸ hnl)) s), he⟩

theorem Config.regions_nodup (c : Config) : (Config.regions c).Nodup := List.nodup_range.filter _

/-! ## The outputs are written -/

theorem exec_engineOutputs {s : State} (hon : s.engineOn = true) (hc : s.eng.computed = true) :
    exec .engineOutputs s = .next s.engineOutputs := by
  show execEngineOutputs s = _
  rw [execEngineOutputs, hon, hc, Bool.and_self, State.when_true]

theorem exec_engineOutputs_none {s : State} (h : s.engineOn = false ∨ s.eng.computed = false) :
    exec .engineOutputs s = .next s := by
  show execEngineOutputs s = _
  rw [execEngineOutputs, Bool.and_eq_false_iff.mpr h, State.when_false]

/-! ## The outputs arrive -/

/-- R59, R68: region `y` has taken the outputs that the supervisor holds in region `x`: the base of its on-times, and a
reference whose interpolation starts anew from the value that `x` had reached. -/
structure Region.Delivered (x y : Region) : Prop where
  tonBase : y.loop.tonBase = x.sup.tbOut
  refBase : y.loop.refBase = x.sup.vrOut
  refFrom : y.loop.refFrom = x.loop.vref
  refK : y.loop.refK = 0

theorem State.islandOutputs_regions_length (s : State) (r : Nat) :
    (s.islandOutputs r).regions.length = s.regions.length :=
  (List.length_modify ..).trans (List.length_modify ..)

theorem State.islandOutputs_region_other (s : State) {r j : Nat} (h : j ≠ r) :
    (s.islandOutputs r).region j = s.region j :=
  (State.modRegion_region_other _ _ h).trans (State.modRegion_region_other s _ h)

theorem State.islandOutputs_delivered {s : State} {r : Nat} (hr : r < s.regions.length) :
    (s.region r).Delivered ((s.islandOutputs r).region r) := by
  unfold State.islandOutputs State.fretSettle
  extract_lets u a q
  have hl : r < (a.set (Obj.region_ton_base r) u.tbOut).regions.length := (s.modRegion_length r _).symm ▸ hr
  have ha : (a.set (Obj.region_ton_base r) u.tbOut).region r = _ := s.modRegion_region_same _ hr
  rw [State.modFret_eq, State.modRegion_region_same _ _ hl, ha]
  exact ⟨rfl, rfl, rfl, rfl⟩

/-- R81, R102: the state in which the islands find their outputs: the committed sets applied, the trims delivered. -/
def State.islandsApplied (s : State) : State :=
  { s.applyIsland with
    eng := { s.eng with written := false }
    strings := s.strings.map fun x => { x with trim := x.trimOut } }

theorem State.outputsArrival_eq (s : State) : s.outputsArrival =
    overAll (overAll s.islandsApplied (Config.regions s.cfg) State.islandOutputs) (Config.regions s.cfg)
      State.takeDoubt := rfl

theorem State.outputsArrival_moves (s : State) :
    s.islandsApplied.Moves [.regions, .chans, .convs, .recd, .regs] s.outputsArrival := by
  rw [State.outputsArrival_eq]
  exact .overAll (fun _ _ => (State.moves_takeDoubt ..).mono rfl)
    (.overAll (fun _ _ => (State.moves_islandOutputs ..).mono rfl) (.refl _ _))

/-- Applying the sets changes the twins of a region alone. -/
theorem State.islandsApplied_region (s : State) {r : Nat} (hr : r < s.regions.length) :
    (s.islandsApplied.region r).loop = (s.region r).loop ∧ (s.islandsApplied.region r).sup = (s.region r).sup := by
  simp only [State.region, State.islandsApplied, State.applyIsland, List.getD_eq_getElem?_getD, List.getElem?_map,
    List.getElem?_eq_getElem hr, Option.map_some, Option.getD_some, and_self]

/-- R59, R68: an arrival delivers to every populated region what its supervisor holds. -/
theorem State.outputsArrival_delivered {s : State} {r : Nat} (hr : r ∈ Config.regions s.cfg)
    (hl : r < s.regions.length) : (s.region r).Delivered (s.outputsArrival.region r) := by
  have hdoubt (u : State) : (overAll u (Config.regions s.cfg) State.takeDoubt).regions = u.regions :=
    overAll_keep State.regions (fun _ _ => (State.moves_takeDoubt ..).frame .regions (by decide)) _ _
  obtain ⟨t, ht, he⟩ := overAll_once (f := State.islandOutputs) (fun t => (t.region r, t.regions.length))
    (Config.regions_nodup s.cfg) hr
    (fun x _ hx t => Prod.ext (t.islandOutputs_region_other (Ne.symm hx)) (t.islandOutputs_regions_length x))
    s.islandsApplied
  obtain ⟨htr, htl⟩ := Prod.mk.inj ht
  have hlen : r < t.regions.length := by
    rw [htl, State.islandsApplied, State.applyIsland, List.length_map]
    exact hl
  have hregion : s.outputsArrival.region r = (t.islandOutputs r).region r := by
    rw [State.outputsArrival_eq]
    exact (congrArg (·.getD r {}) (hdoubt _)).trans (Prod.mk.inj he).1
  obtain ⟨hloop, hsup⟩ := s.islandsApplied_region hl
  obtain ⟨hton, hbase, hfrom, hk⟩ := State.islandOutputs_delivered hlen
  rw [htr, hsup] at hton hbase
  rw [htr, hloop] at hfrom
  rw [hregion]
  exact ⟨hton, hbase, hfrom, hk⟩

theorem exec_outputsArrival {s : State} (h : s.eng.written = true) :
    exec .outputsArrival s = .next s.outputsArrival := by
  show execOutputsArrival s = _
  rw [execOutputsArrival, h, State.when_true]

theorem exec_outputsArrival_none {s : State} (h : s.eng.written = false) : exec .outputsArrival s = .next s := by
  show execOutputsArrival s = _
  rw [execOutputsArrival, h, State.when_false]

/-- Settles O25: all outputs are written in one update; of an arrival, the trims, the sets and the engine's flag come
from the state in which the islands find their outputs, and the rest from what each island takes. -/
theorem outputsAreWrittenAndArrive : Obligations.OutputsAreWrittenAndArrive := by
  unfold Obligations.OutputsAreWrittenAndArrive
  intro s
  refine ⟨exec_engineOutputs, exec_engineOutputs_none, fun hw hlen => ?_, exec_outputsArrival_none⟩
  have hexec := exec_outputsArrival hw
  have hm := s.outputsArrival_moves
  have hused : s.outputsArrival.used = s.islandsApplied.used := hm.frame .used (by decide)
  refine ⟨_, hexec, hm.frame .strings (by decide), congrArg InUse.g1 hused, congrArg InUse.g4 hused,
    hm.frame .eng (by decide), fun r hr => ?_, ((moves_execOutputsArrival s _ hexec).mono rfl).frame⟩
  have hl : r < s.regions.length := hlen ▸ List.mem_range.mp (List.mem_filter.mp hr).1
  obtain ⟨hton, hbase, hfrom, hk⟩ := State.outputsArrival_delivered hr hl
  exact ⟨hton, hbase, hfrom, hk⟩

end Sys2Proof.Machine
end

section
/-! SUPPORT. The coefficient banks (R196 to R198) and the trim input (R188 to R190): what each of their events does by its
condition. -/

namespace Sys2Proof.Machine

/-! ## The banks -/

/-- R196: a copy puts what the active bank holds into the other one. -/
theorem Chan.setShadow_active (c : Chan) :
    c.setShadow c.active = if c.actB then { c with bankA := c.bankB } else { c with bankB := c.bankA } := by
  unfold Chan.setShadow Chan.active
  split <;> rfl

/-- R196, R197: the copy, and then the writes that were stalled. -/
theorem Chan.copyEnd_eq (c : Chan) : c.copyEnd =
    let d := if c.copying then (if c.actB then { c with bankA := c.bankB } else { c with bankB := c.bankA }) else c
    c.stalled.foldl Chan.land { d with copying := false, stalled := [] } := by
  rw [← Chan.setShadow_active]
  rfl

theorem exec_swapSample {s : State} (h : s.engineOn = true) : exec .swapSample s = .next { s with
    eng := { s.eng with stall := true }
    chans := s.chans.map fun c => { c with sampled := c.sampled || c.req, req := false } } := by
  show execSwapSample s = _
  rw [execSwapSample, h, State.when_true]

theorem exec_bankCopyEnd (s : State) : exec .bankCopyEnd s =
    .next { s with eng := { s.eng with stall := false }, chans := s.chans.map Chan.copyEnd } := rfl

/-- A string belongs to the populated channel of its region. -/
theorem popChan_regionOf {c : Config} {i : Nat} (h : Config.popString c i = true) :
    Config.popChan c (regionOf i) = true := by
  simp only [Config.popString, Bool.and_eq_true] at h
  obtain ⟨⟨-, hr⟩, -⟩ := h
  have hl : regionOf i < 79 := Nat.lt_of_lt_of_le (popRegion_lt hr) (by decide)
  simp only [Config.popChan, hl, hr, decide_true, Bool.or_true, Bool.and_self]

/-- R198: a parity error counts while the engine runs, in a bank or an integrator of a populated channel. -/
theorem exec_bankParityError {s : State} {ch : Nat} {t : ParityTarget} (hp : Config.popChan s.cfg ch = true)
    (hon : s.engineOn = true) (ht : s.ownsTarget ch t = true) :
    exec (.bankParityError ch t) s = .next (s.bankParity ch t) := by
  show execBankParityError ch t s = _
  rw [execBankParityError, within, if_pos (popChan_lt hp), hp, hon, ht, Bool.and_self, Bool.and_self, State.when_true]

/-- R198: a region's bank gets its default coefficients; outside a computation the next outputs are held. -/
theorem State.bankParity_idle {s : State} {ch : Nat} (hc : ch < 76) (h : s.eng.computed = false) :
    s.bankParity ch .bank = ((s.parityError.modChan ch fun c =>
      let d := if c.actB then { c with bankB := regionBank } else { c with bankA := regionBank }
      { d with flags := c.flags ||| 16, live := c.live ||| 16 }).modChan ch fun c => { c with hold := true }).fire 26 0
        (srcChan ch) := by
  unfold State.bankParity State.holdOutputs
  simp only [hc, if_true]
  rw [if_pos (by simp only [State.modChan_eng, State.parityError_eng, h, Bool.not_false])]
  rfl

/-! ## The trim input -/

/-- In the states in which the engine runs RESET is over. -/
theorem BState.active_of_engine {b : BState} (h : b.engine = true) : b.active = true := by
  cases b with
  | ramp | run | service => rfl
  | _ => exact absurd h (by decide)

theorem exec_trimPwmPeriod {s : State} (h : s.engineOn = true) (high low : Nat) :
    exec (.trimPwmPeriod high low) s = .next (s.pwmPeriod high low) := by
  show execTrimPwmPeriod high low s = _
  rw [execTrimPwmPeriod, BState.active_of_engine h, State.when_true]

/-- R188: a period in range, while the input is not lost, gives the raw trim. -/
theorem State.pwmPeriod_usable {s : State} {high low : Nat} (hm : s.used.g6.mode = 1) (hmin : 250 ≤ high + low)
    (hmax : high + low ≤ 31250) (hh : 5 ≤ high) (hl : 5 ≤ low) (hlost : s.eng.lost = false) :
    s.pwmPeriod high low = { s with eng := { s.eng with
      raw := roundUp (1016 * high : Nat) (high + low) - 512, usable := true, decay := false, pwmTicks := high + low
      pwmAt := s.now } } := by
  simp only [State.pwmPeriod, State.trimFound, hm, hlost, gt_iff_lt, Nat.not_lt.mpr hmin, Nat.not_lt.mpr hmax,
    Nat.not_lt.mpr hh, Nat.not_lt.mpr hl, bne_self_eq_false, decide_false, Bool.or_self, Bool.false_eq_true, if_false]

theorem State.pwmPeriod_unusable {s : State} {high low : Nat} (hm : s.used.g6.mode = 1)
    (h : high + low < 250 ∨ 31250 < high + low ∨ high < 5 ∨ low < 5) : s.pwmPeriod high low = s := by
  unfold State.pwmPeriod
  refine if_pos ?_
  simpa only [hm, bne_self_eq_false, Bool.false_or, Bool.or_eq_true, decide_eq_true_eq, gt_iff_lt, or_assoc] using h

/-- R190: the loss of the PWM input, which is recorded once. -/
theorem exec_trimInputLost {s : State} (hm : s.used.g6.mode = 1) (hn : 0 < s.eng.pwmTicks)
    (ht : s.eng.pwmAt + 16 * s.eng.pwmTicks ≤ s.now) (hl : s.eng.lost = false) : exec .trimInputLost s =
      .next (({ s with eng := { s.eng with lost := true, lostAt := s.now, decay := false } } : State).fire 27 0) := by
  have hg : s.trimGone = true := by simp only [State.trimGone, hm, hn, ht, decide_true, Bool.and_self]
  show execTrimInputLost s = _
  rw [execTrimInputLost, hg, hl, Bool.not_false, Bool.and_self, State.when_true]

theorem exec_trimHoldExpiry {s : State} (hl : s.eng.lost = true)
    (ht : s.eng.lostAt + 1000000 * s.getN Obj.trim_hold ≤ s.now) :
    exec .trimHoldExpiry s = .next { s with eng := { s.eng with decay := true } } := by
  show execTrimHoldExpiry s = _
  rw [execTrimHoldExpiry, hl, decide_eq_true ht, Bool.and_self, State.when_true]

/-- Settles O26: each event of the banks and of the trim input by its condition. -/
theorem banksAndTrimInput : Obligations.BanksAndTrimInput := by
  unfold Obligations.BanksAndTrimInput
  intro s hon
  refine ⟨exec_swapSample hon, ?_, fun ch hp hc hidle => ?_, fun i hi => ?_, fun h l hm hmin hmax hh hl hlost => ?_,
    fun h l hm hbad => ?_, exec_trimInputLost, exec_trimHoldExpiry⟩
  · rw [exec_bankCopyEnd, funext Chan.copyEnd_eq]
  · rw [exec_bankParityError hp hon rfl, State.bankParity_idle hc hidle]
    rfl
  · have howns : s.ownsTarget (regionOf i) (.share i) = true := by
      simp only [State.ownsTarget, hi, beq_self_eq_true, Bool.and_self]
    rw [exec_bankParityError (popChan_regionOf hi) hon howns]
    rfl
  · rw [exec_trimPwmPeriod hon, State.pwmPeriod_usable hm hmin hmax hh hl hlost]
  · rw [exec_trimPwmPeriod hon, State.pwmPeriod_unusable hm hbad]

end Sys2Proof.Machine
end

section
/-! SUPPORT. The trim value (R187): how far it moves in a period. -/

namespace Sys2Proof.Machine

/-- A slew moves a value toward its target by at most `k`, and by the remainder where that is smaller. -/
theorem slewTo_sub {k : Int} (x t : Int) (hk : 0 ≤ k) : slewTo x t k k - x = clampI (-k) k (t - x) := by
  unfold slewTo clampI
  split <;> omega

/-- R187: unless the input of its mode is lost, the trim value slews to its target by 1 mV. -/
theorem State.trimPeriod_val {s : State} (h : s.used.g6.mode = 0 ∨ s.eng.lost = false) :
    s.trimPeriod.eng.val = slewTo s.eng.val s.trimTarget 1000 1000 := by
  have hf : (s.used.g6.mode != 0 && s.eng.lost) = false := by
    simpa only [Bool.and_eq_false_iff, bne_eq_false_iff_eq] using h
  simp only [State.trimPeriod, hf, Bool.false_eq_true, if_false]

/-- Settles O27: the step of the trim value is its distance from the target, clamped to 1 mV. -/
theorem trimMovesAtMostOneMillivolt : Obligations.TrimMovesAtMostOneMillivolt := by
  unfold Obligations.TrimMovesAtMostOneMillivolt
  intro s h
  have hstep : s.trimPeriod.eng.val - s.eng.val = clampI (-1000) 1000 (s.trimTarget - s.eng.val) := by
    rw [State.trimPeriod_val h, slewTo_sub _ _ (by decide)]
  refine ⟨?_, fun g => congrArg Engine.val (State.takeGroup_eng s g)⟩
  intro d m
  have hm : m = clampI (-1000) 1000 d := hstep
  rw [hm, clampI]
  omega

end Sys2Proof.Machine
end

section
/-! SUPPORT. The dictionary commands of the engine (R196, R197, R223) and of the converters (R357 to R359, R365, R369):
each reaches the rule of its object with the value that it carries. -/

namespace Sys2Proof.Machine

/-! ## Written values in their ranges -/

theorem clampI_self {lo hi v : Int} (h : lo ≤ v ∧ v ≤ hi) : clampI lo hi v = v := by
  unfold clampI
  omega

theorem clampI_clampI {lo hi : Int} (v : Int) (h : lo ≤ hi) : clampI lo hi (clampI lo hi v) = clampI lo hi v :=
  clampI_self (by unfold clampI; omega)

/-- A number clamped twice, once as it is written and once by its object's rule. -/
theorem clampN_clampI {lo hi : Nat} (v : Nat) (h : lo ≤ hi) :
    clampN lo hi (clampI lo hi (v : Int)).toNat = clampN lo hi v := by
  unfold clampN clampI
  omega

/-- One byte is a number. -/
theorem apply_clamp_byte {lo hi : Int} {v : Nat} (hv : v < 256) :
    (Rng.clamp lo hi).apply (Ty.u8.decode [v]) = some (clampI lo hi v) := by
  have hd : Ty.u8.decode [v] = v := congrArg Nat.cast (Nat.mod_eq_of_lt hv)
  rw [hd, Rng.apply]

/-! ## Objects that take a value of `n` bytes -/

/-- An object that session `k` may write, with no staging, and whose value has `n` bytes. -/
structure State.TakesValue (s : State) (k : Nat) (o : Obj') (n : Nat) : Prop where
  present : s.selectionAbsent o = false
  writable : (o.acc == .ro) = false
  allowed : (o.acc == .rwk && !(s.session k).keeper) = false
  direct : o.grp = 0
  length : o.ty.length = n

section
variable {s u : State} {p : Path} {b k idx sub n : Nat} {o : Obj'} {v w : Int} (h : s.Serves p b k)
  (hi : idx < 65536) (hs : sub < 256) (hf : findObj s.cfg idx sub = .ok o) (ho : s.TakesValue k o n) (hn : n ≤ 48)
include h hi hs hf ho hn

/-- A number that is in its object's range, or is brought into it, and what its object does with it. -/
theorem putNum_takes (hr : o.rng.apply (o.ty.decode (o.ty.encode v)) = some w)
    (hv : s.writeValue p k o w (o.ty.encode v) = (0, u)) :
    s.putNum p b idx sub v = u.answered p b opWrite 0 n := by
  obtain ⟨hsel, ha, hk, hg, rfl⟩ := ho
  exact putNum_does h hi hs hf hsel ha hk hn hg hr hv

/-- Bytes that one frame holds, as many as the object has. -/
theorem putBytes_takes {l : List Byte} (hl : ∀ x ∈ l, x < 256) (hlen : l.length = n)
    (hr : o.rng.apply (o.ty.decode l) = some w) (hv : s.writeValue p k o w l = (0, u)) :
    s.putBytes p b idx sub l = u.answered p b opWrite 0 n := by
  obtain ⟨hsel, ha, hk, hg, rfl⟩ := ho
  exact putBytes_does h hl hi hs hf hsel ha hk hlen (hlen ▸ hn) hg hr hv

end

/-! ## Objects of the shadow banks (R197, R201) -/

section
variable {w : ObjRow} (hb : w.base = 0x4200)
include hb

theorem shadowObj_ty (idx sub : Nat) : (w.obj idx sub).ty = w.ty :=
  if_neg fun h => absurd (hb.symm.trans h.1) (by decide)

theorem shadowObj_present (s : State) (idx sub : Nat) : s.selectionAbsent (w.obj idx sub) = false := by
  have hbase : (w.obj idx sub).base = 0x4200 := hb
  simp [State.selectionAbsent, hbase]

theorem writeValue_shadow (s : State) (p : Path) (k ch sub : Nat) (v : Int) (l : List Byte) :
    s.writeValue p k (w.obj (0x4200 + ch) sub) v l = (0, s.shadowWrite ch sub v) := by
  have hbase : (w.obj (0x4200 + ch) sub).base = 0x4200 := hb
  have hi : (w.obj (0x4200 + ch) sub).i = ch := by
    show 0x4200 + ch - w.base = ch
    rw [hb, Nat.add_sub_cancel_left]
  simp only [State.writeValue, hbase, hi]
  rfl

end

section
variable {s : State} {p : Path} {b k : Nat} (h : s.Serves p b k)
include h

/-! ## The engine -/

/-- A write of a value that the object's range leaves as `u` reaches the shadow bank. -/
theorem exec_shadowWrite {ch sub : Nat} {v u : Int} {w : ObjRow} (hc : Config.popChan s.cfg ch = true)
    (hsub : sub < 256) (hb : w.base = 0x4200) (ha : w.acc = .rw) (hg : w.grp = 0) (hl : w.ty.length ≤ 48)
    (hf : findObj s.cfg (0x4200 + ch) sub = .ok (w.obj (0x4200 + ch) sub))
    (hu : w.rng.apply (w.ty.decode (w.ty.encode v)) = some u) :
    exec (.shadowWrite p b ch sub v) s = .next ((s.shadowWrite ch sub u).answered p b opWrite 0 w.ty.length) := by
  have hch := popChan_lt hc
  have hacc : (w.obj (0x4200 + ch) sub).acc = .rw := ha
  show Host.Outcome.next (s.putNum p b (unitObj 0x4200 79 ch) sub v) = _
  rw [unitObj_of_lt hch, ← shadowObj_ty hb (0x4200 + ch) sub]
  rw [← shadowObj_ty hb (0x4200 + ch) sub] at hl hu
  exact congrArg _ (putNum_takes h (by omega) hsub hf
    ⟨shadowObj_present hb .., by rw [hacc]; rfl, by rw [hacc]; rfl, hg, rfl⟩ hl hu (writeValue_shadow hb ..))

theorem exec_shadowWrite_coef {ch sub : Nat} {v : Int} (hc : Config.popChan s.cfg ch = true) (h1 : 1 ≤ sub)
    (h2 : sub ≤ 24) (hlo : -2 ^ 31 ≤ v) (hhi : v < 2 ^ 31) :
    exec (.shadowWrite p b ch sub v) s = .next ((s.shadowWrite ch sub v).answered p b opWrite 0 4) := by
  obtain ⟨w, hty, ha, hr, hg, hb, hf⟩ := find_coef (popChan_lt hc) hc h1 h2
  have hu : w.rng.apply (w.ty.decode (w.ty.encode v)) = some v := by
    rw [hr, hty, decode_encode_signed rfl (by decide) hlo hhi]
    rfl
  rw [exec_shadowWrite h hc (by omega) hb ha hg (by rw [hty]; decide) hf hu, hty]
  rfl

theorem exec_shadowWrite_shift {ch sub v : Nat} (hc : Config.popChan s.cfg ch = true) (h1 : 0x21 ≤ sub)
    (h2 : sub ≤ 0x38) (hv : v < 256) : exec (.shadowWrite p b ch sub (v : Nat)) s =
      .next ((s.shadowWrite ch sub (clampI 0 31 v)).answered p b opWrite 0 1) := by
  obtain ⟨w, hty, ha, hr, hg, hb, hf⟩ := find_shift (popChan_lt hc) hc h1 h2
  have hu : w.rng.apply (w.ty.decode (w.ty.encode v)) = some (clampI 0 31 v) := by
    rw [hr, hty]
    exact apply_clamp_num rfl hv
  rw [exec_shadowWrite h hc (by omega) hb ha hg (by rw [hty]; decide) hf hu, hty]
  rfl

theorem exec_bankSwap {m : Nat} (hm : m < 2 ^ 80) :
    exec (.bankSwap p b m) s = .next ((s.bankSwap m).answered p b opWrite 0 10) := by
  have hw := putBytes_low h (n := 80) (by decide) (by decide) (find_bank_swap s.cfg) ⟨rfl, rfl, rfl, rfl, rfl⟩ rfl
    (by decide) hm rfl
  rw [Nat.mod_eq_of_lt hm] at hw
  exact congrArg _ hw

theorem exec_matchedEnableWrite {v : Nat} (hk : (s.session k).keeper = true) (hv : v < 256) :
    exec (.matchedEnableWrite p b v) s =
      .next ((s.setMatched (clampI 0 1 v).toNat).answered p b opWrite 0 1) :=
  congrArg _ (putNum_takes h (by decide) (by decide) (find_matched_enable s.cfg) ⟨rfl, rfl, by rw [hk]; rfl, rfl, rfl⟩
    (by decide) (apply_clamp_num rfl hv) rfl)

/-! ## Captures -/

/-- `sync_arm` takes 0, 1 and 2 as they are. -/
theorem putNum_syncArm {v : Nat} (hv : v ≤ 2) :
    s.putNum p b 0x7060 0x0B v = (s.syncArm v).answered p b opWrite 0 1 := by
  have hr : (Rng.clamp 0 2).apply (Ty.u8.decode (Ty.u8.encode v)) = some (v : Int) :=
    (apply_clamp_num rfl (Nat.lt_of_le_of_lt hv (by decide))).trans (congrArg some (clampI_self (by omega)))
  exact putNum_takes h (by decide) (by decide) (find_sync_arm s.cfg) ⟨rfl, rfl, rfl, rfl, rfl⟩ (by decide) hr rfl

theorem exec_syncArmSingle : exec (.syncArmSingle p b) s = .next ((s.syncArm 1).answered p b opWrite 0 1) :=
  congrArg _ (putNum_syncArm h (v := 1) (by decide))

theorem exec_syncArmSweeps : exec (.syncArmSweeps p b) s = .next ((s.syncArm 2).answered p b opWrite 0 1) :=
  congrArg _ (putNum_syncArm h (v := 2) (by decide))

theorem exec_syncCancel : exec (.syncCancel p b) s = .next ((s.syncArm 0).answered p b opWrite 0 1) :=
  congrArg _ (putNum_syncArm h (v := 0) (by decide))

/-! ## Converters -/

section
variable {n : Nat} (hn : Config.popConv s.cfg n = true)
include hn

theorem exec_convUrgent {v : Nat} {u : State} (hv : v < 2 ^ 32) (hu : s.hostUrgent n v = (0, u)) :
    exec (.convUrgent p b n v) s = .next (u.answered p b opWrite 0 4) := by
  have hl := popConv_lt hn
  show Host.Outcome.next (s.putNum p b (unitObj 0x7000 70 n) 0x0C v) = _
  rw [unitObj_of_lt hl]
  exact congrArg _ (putNum_takes h (by omega) (by decide) (find_conv_urgent hl hn) ⟨rfl, rfl, rfl, rfl, rfl⟩ (by decide)
    (apply_whole_num rfl hv) hu)

/-- A write of a table, or of its length, reaches the staged copy with the data `d` that its range leaves. -/
theorem exec_convTableWrite {t : TableObj} {l d : List Byte} {o : Obj'} {w : Int} {m : Nat}
    (hf : findObj s.cfg (0x7000 + n) (tableSub t) = .ok o) (ho : s.TakesValue k o m) (hm : m ≤ 48)
    (hl : ∀ x ∈ l, x < 256) (hlen : l.length = m) (hr : o.rng.apply (o.ty.decode l) = some w)
    (hv : s.writeValue p k o w l = (0, s.convTableSet n t d)) :
    exec (.convTableWrite p b n t l) s = .next ((s.convTableSet n t d).answered p b opWrite 0 m) := by
  have hlt := popConv_lt hn
  have hsub : tableSub t < 256 := by cases t <;> decide
  show Host.Outcome.next (s.putBytes p b (unitObj 0x7000 70 n) (tableSub t) l) = _
  rw [unitObj_of_lt hlt]
  exact congrArg _ (putBytes_takes h (by omega) hsub hf ho hm hl hlen hr hv)

/-- R357: a table of 16 words is staged, each word clamped. -/
theorem exec_convTableWrite_words {l : List Byte} (hl : ∀ x ∈ l, x < 256) (hlen : l.length = 32) :
    exec (.convTableWrite p b n .a l) s = .next ((s.convTableSet n .a l).answered p b opWrite 0 32) ∧
    exec (.convTableWrite p b n .b l) s = .next ((s.convTableSet n .b l).answered p b opWrite 0 32) := by
  have hlt := popConv_lt hn
  constructor
  · exact exec_convTableWrite h hn (find_conv_table_a hlt hn) ⟨rfl, rfl, rfl, rfl, rfl⟩ (by decide) hl hlen rfl rfl
  · exact exec_convTableWrite h hn (find_conv_table_b hlt hn) ⟨rfl, rfl, rfl, rfl, rfl⟩ (by decide) hl hlen rfl rfl

/-- A length of one byte is clamped to 1 to 16 as it is written. -/
theorem exec_convTableWrite_len {v : Nat} (hv : v < 256) :
    exec (.convTableWrite p b n .aLen [v]) s =
      .next ((s.convTableSet n .aLen [(clampI 1 16 v).toNat]).answered p b opWrite 0 1) ∧
    exec (.convTableWrite p b n .bLen [v]) s =
      .next ((s.convTableSet n .bLen [(clampI 1 16 v).toNat]).answered p b opWrite 0 1) := by
  have hlt := popConv_lt hn
  have hb : ∀ x ∈ [v], x < 256 := List.forall_mem_singleton.mpr hv
  have hr := apply_clamp_byte (lo := 1) (hi := 16) hv
  constructor
  · exact exec_convTableWrite h hn (find_conv_len_a hlt hn) ⟨rfl, rfl, rfl, rfl, rfl⟩ (by decide) hb rfl hr rfl
  · exact exec_convTableWrite h hn (find_conv_len_b hlt hn) ⟨rfl, rfl, rfl, rfl, rfl⟩ (by decide) hb rfl hr rfl

end

end

/-! ## What the rules do with these values -/

theorem State.shadowWrite_coef (s : State) (ch : Nat) {sub : Nat} (v : Int) (h : sub ≤ 24) : s.shadowWrite ch sub v =
    s.modChan ch fun c =>
      if s.engineOn && s.eng.stall then
        { c with stalled := c.stalled ++ [(sub, clampI (coefRange ch (sub - 1)).1 (coefRange ch (sub - 1)).2 v)] }
      else c.land (sub, clampI (coefRange ch (sub - 1)).1 (coefRange ch (sub - 1)).2 v) := by
  have hs : sub < 0x21 := by omega
  simp only [State.shadowWrite, hs, if_true]

theorem State.shadowWrite_shift (s : State) (ch : Nat) {sub : Nat} (v : Int) (h : 0x21 ≤ sub) : s.shadowWrite ch sub v =
    s.modChan ch fun c =>
      if s.engineOn && s.eng.stall then { c with stalled := c.stalled ++ [(sub, clampI 0 31 v)] }
      else c.land (sub, clampI 0 31 v) := by
  simp only [State.shadowWrite, Nat.not_lt.mpr h, if_false]

/-- A clamp to 0 or 1 changes nothing of whether matched operation is asked for. -/
theorem State.setMatched_clamp (s : State) (v : Nat) : s.setMatched (clampI 0 1 v).toNat = s.setMatched v := by
  have hv : (clampI 0 1 v).toNat ≥ 1 ↔ v ≥ 1 := by
    unfold clampI
    omega
  simp only [State.setMatched, hv]

/-- R382: a capture is cancelled at once where no sweep runs, else at the present sweep. -/
theorem State.syncArm_zero (s : State) : s.syncArm 0 =
    if s.cg.running then ({ s with cg := { s.cg with left := 1 } } : State).captureStep
    else { s with cg := { s.cg with arm := 0, left := 0, trigs := [] } } := rfl

/-- R369: a request for a connected input, in a mode that fits it, sets out. -/
theorem State.hostUrgent_fits {s : State} {n v : Nat} (hc : Config.connected s.cfg n (min 19 (v % 32)) = true)
    (h3 : v / 65536 % 4 ≠ 3) (h12 : (v / 65536 % 4 = 1 ∨ v / 65536 % 4 = 2) → v % 32 < 16) :
    s.hostUrgent n v = (0, s.askUrgent n {
      input := min 19 (v % 32), ts := clampN 4 64 (v / 128 % 128), gain := v / 16384 % 4, mode := v / 65536 % 4 }) := by
  have hfit : ¬ ((v / 65536 % 4 = 1 ∨ v / 65536 % 4 = 2) ∧ 16 ≤ min 19 (v % 32)) := fun ⟨hm, hi⟩ =>
    Nat.not_lt.mpr (Nat.le_trans hi (Nat.min_le_right ..)) (h12 hm)
  unfold State.hostUrgent
  refine if_neg ?_
  simpa only [hc, Bool.not_true, Bool.false_or, Bool.or_eq_true, Bool.and_eq_true, decide_eq_true_eq, h3, false_or]
    using hfit

/-- R359: a length that is clamped as it is written is clamped once. -/
theorem State.convTableSet_len (s : State) (n v : Nat) :
    s.convTableSet n .aLen [(clampI 1 16 v).toNat] = (s.modConv n fun c => { c with saLen := clampN 1 16 v }) ∧
    s.convTableSet n .bLen [(clampI 1 16 v).toNat] = (s.modConv n fun c => { c with sbLen := clampN 1 16 v }) := by
  have hv : clampN 1 16 (clampI 1 16 v).toNat = clampN 1 16 v := clampN_clampI v (by decide)
  rw [← hv]
  exact ⟨rfl, rfl⟩

/-- Settles O28: each command by the object that it writes. While the engine does not run a shadow write lands at once
(log 90); arming and cancelling forget the trigger instants (log 104); a model entry of 0xFFFF allows no matched
operation (log 26). -/
theorem engineAndConverterWrites : Obligations.EngineAndConverterWrites := by
  unfold Obligations.EngineAndConverterWrites
  refine ⟨fun s p b k h => ⟨fun m => exec_bankSwap h, fun ch sub v hc h1 h2 hlo hhi => ?_,
    fun ch sub v hc h1 h2 hv => ?_, fun v hk hv => ?_⟩,
    fun s p b k h => ⟨exec_syncArmSingle h, exec_syncArmSweeps h, fun hr => ?_, fun hr => ?_, fun n v hn hv hc h3 h12 =>
      exec_convUrgent h hn hv (State.hostUrgent_fits hc h3 h12),
    fun n l hn hlen hl => exec_convTableWrite_words h hn hl hlen,
    fun n v hn hv => ?_⟩⟩
  · rw [exec_shadowWrite_coef h hc h1 h2 hlo hhi, State.shadowWrite_coef _ _ _ h2]
  · rw [exec_shadowWrite_shift h hc h1 h2 hv, State.shadowWrite_shift _ _ _ h1, clampI_clampI _ (by decide)]
  · rw [exec_matchedEnableWrite h hk hv, State.setMatched_clamp]
    rfl
  · rw [exec_syncCancel h, State.syncArm_zero, if_neg (by rw [hr]; decide)]
  · rw [exec_syncCancel h, State.syncArm_zero, if_pos hr]
  · rw [← (s.convTableSet_len n v).1, ← (s.convTableSet_len n v).2]
    exact exec_convTableWrite_len h hn hv

end Sys2Proof.Machine
end

section
/-! SUPPORT. Fret steps and their handshake (R202 to R204, R212 to R216, R535), and the hold of margin recovery (R222):
what each of their commands does by the region's step and its lines. -/

namespace Sys2Proof.Machine

/-- R203: frets are stepped in RUN and SERVICE. -/
theorem State.fretStates_of_runs {s : State} (h : s.runs = true) : s.fretStates = true := by
  rw [State.fretStates, h, Bool.true_or]

/-- R216: only a step that waits for its voltage is abandoned. -/
theorem State.abandonFret_other {s : State} {r : Nat} (h : (s.region r).fret.step ≠ .upWait) : s.abandonFret r = s :=
  if_neg fun e => h (eq_of_beq (Bool.and_eq_true_iff.mp e).1)

/-- R216: a step whose target is still above its fret goes on. -/
theorem State.abandonFret_below {s : State} {r : Nat} (h : (s.region r).fret.fret < s.fretTarget r) :
    s.abandonFret r = s :=
  if_neg fun e => Nat.not_le.mpr h (of_decide_eq_true (Bool.and_eq_true_iff.mp e).2)

section
variable {s : State} {r : Nat} (hp : Config.popRegion s.cfg r = true)
include hp

/-! ## Steps -/

section
variable (hs : s.runs = true)
include hs

/-- R203, R212: an idle region starts a step toward its target. -/
theorem exec_fretStepStart (hi : (s.region r).fret.step = .idle) (hq : (s.region r).fret.req = false)
    (ha : (s.region r).fret.ack = false) : exec (.fretStepStart r) s = .next (
      if s.fretTarget r = (s.region r).fret.fret then s
      else if (s.region r).fret.fret < s.fretTarget r then
        s.modFret r fun f => { f with step := .upWait, settled := 0, val := f.fret + 1 }
      else s.modFret r fun f =>
        { f with step := .down, val := f.fret - 1, req := true, reqAt := s.now, late := false }) := by
  have hkeep : s.abandonFret r = s := State.abandonFret_other (by rw [hi]; decide)
  show execFretStepStart r s = _
  rw [execFretStepStart, onRegion_pop hp, State.fretStepStart]
  simp only [hkeep, State.fretStates_of_runs hs, hi, hq, ha, bne_self_eq_false, Bool.not_true, Bool.false_or,
    Bool.or_self, decide_eq_true_eq]

/-- R213: a raising step's request rises after its second settled period. -/
theorem exec_fretCmdReqRaise (hw : (s.region r).fret.step = .upWait)
    (ht : (s.region r).fret.fret < s.fretTarget r) : exec (.fretCmdReqRaise r) s = .next (
      s.when (decide (2 ≤ (s.region r).fret.settled))
        (s.modFret r fun f => { f with step := .up, req := true, reqAt := s.now, late := false })) := by
  show execFretCmdReqRaise r s = _
  rw [execFretCmdReqRaise, onRegion_pop hp]
  simp only [State.abandonFret_below ht, State.fretStates_of_runs hs, hw, beq_self_eq_true, Bool.true_and,
    Bool.and_true]

/-! ## The acknowledge -/

/-- R204, R214: the fret changes as the acknowledge rises. -/
theorem exec_fretCmdAckRise (hq : (s.region r).fret.req = true) (ho : (s.region r).fret.overtaken = false) :
    exec (.fretCmdAckRise r) s = .next ((s.modFret r fun f =>
      { f with ack := true, ackAt := s.now, req := false, fret := f.val }).modSup r fun u =>
        { u with distNow := true }) := by
  have hfret : (s.modFret r fun f =>
      { f with ack := true, ackAt := s.now, req := false, fret := if f.overtaken then f.fret else f.val }) =
      s.modFret r fun f => { f with ack := true, ackAt := s.now, req := false, fret := f.val } :=
    State.modRegion_congr (by simp only [ho, Bool.false_eq_true, if_false])
  show execFretCmdAckRise r s = _
  rw [execFretCmdAckRise, onRegion_pop hp]
  simp only [BState.active_of_runs hs, hq, ho, hfret, Bool.not_true, Bool.false_eq_true, if_false]

/-- R535: an acknowledge without a request is breach 3. -/
theorem exec_fretCmdAckRise_breach (hq : (s.region r).fret.req = false) (ha : (s.region r).fret.ack = false) :
    exec (.fretCmdAckRise r) s = .next (s.breach 3) := by
  show execFretCmdAckRise r s = _
  rw [execFretCmdAckRise, onRegion_pop hp]
  simp only [BState.active_of_runs hs, hq, ha, Bool.not_true, Bool.not_false, Bool.false_eq_true, if_false, if_true]

/-- R204, R212, R535: the step ends and is counted as the acknowledge falls; a fall in the supervisor cycle of the rise
is breach 4 before. -/
theorem exec_fretCmdAckFall (ha : (s.region r).fret.ack = true) (ho : (s.region r).fret.overtaken = false) :
    exec (.fretCmdAckFall r) s = .next (
      ((if (s.region r).fret.ackAt / 4 = s.now / 4 then s.breach 4 else s).count (Obj.region_fret_changes r)
        32).modFret r fun f => { fret := f.fret, val := f.fret }) := by
  have hd : s.blk.st ≠ .discover := fun e => by
    rw [State.runs, e] at hs
    exact absurd hs (by decide)
  show execFretCmdAckFall r s = _
  rw [execFretCmdAckFall, onRegion_pop hp]
  simp only [ha, ho, Bool.not_true, Bool.false_eq_true, if_false, State.count_blk, apply_ite State.blk,
    State.breach_blk, ite_self, hd]

end

/-- R215: a late acknowledge is counted and recorded once. -/
theorem exec_fretAckLate (hq : (s.region r).fret.req = true) (hl : (s.region r).fret.late = false)
    (ht : (s.region r).fret.reqAt + s.getN Obj.fret_ack_timeout ≤ s.now) : exec (.fretAckLate r) s =
      .next (((s.modFret r fun f => { f with late := true }).count Obj.fret_ack_late 32).fire 28
        (s.region r).fret.val (srcRegion r)) := by
  show execFretAckLate r s = _
  rw [execFretAckLate, onRegion_pop hp]
  simp only [hq, hl, ht, decide_true, Bool.not_false, Bool.and_self, State.when_true]

end

/-! ## The hold of margin recovery -/

theorem exec_recoveryHoldExpiry {s : State} {q t : Nat} (hq : q < 3) (ht : (s.rail q).recHold = some t) :
    exec (.recoveryHoldExpiry q) s =
      .next (s.when (decide (t ≤ s.now)) (s.modRail q fun x => { x with recHold := none })) := by
  show execRecoveryHoldExpiry q s = _
  rw [execRecoveryHoldExpiry, onRail, within_lt hq]
  simp only [ht]

/-- Settles O29: each command by the step of the region and its handshake. An acknowledge that falls in the supervisor
cycle of its rise comes before the request has fallen (log 24). -/
theorem fretStepsAndHandshake : Obligations.FretStepsAndHandshake := by
  unfold Obligations.FretStepsAndHandshake
  intro s r hp _ hs f
  refine ⟨fun hi hq ha => ?_, fun hw ht h2 => ?_, fun hw ht h2 => ?_, exec_fretCmdAckRise hp hs,
    exec_fretCmdAckRise_breach hp hs, fun ha ho hc => ?_, fun ha ho hc => ?_, exec_fretAckLate hp, fun q t hq ht => ?_⟩
  · have h := exec_fretStepStart hp hs hi hq ha
    refine ⟨fun hu => ?_, fun hd => ?_, fun he => ?_⟩
    · rwa [if_neg (Nat.ne_of_gt hu), if_pos hu] at h
    · rwa [if_neg (Nat.ne_of_lt hd), if_neg (Nat.not_lt.mpr (Nat.le_of_lt hd))] at h
    · rwa [if_pos he] at h
  · rw [exec_fretCmdReqRaise hp hs hw ht, decide_eq_true h2, State.when_true]
  · rw [exec_fretCmdReqRaise hp hs hw ht, decide_eq_false (Nat.not_le.mpr h2), State.when_false]
  · rw [exec_fretCmdAckFall hp hs ha ho, if_neg hc]
  · rw [exec_fretCmdAckFall hp hs ha ho, if_pos hc]
    rfl
  · have h := exec_recoveryHoldExpiry hq ht
    refine ⟨fun hle => ?_, fun hlt => ?_⟩
    · rwa [decide_eq_true hle, State.when_true] at h
    · rwa [decide_eq_false (Nat.not_le.mpr hlt), State.when_false] at h

end Sys2Proof.Machine
end

section
/-! SUPPORT. Throttle and recovery (R339 to R341): which regions are hot, what a throttle step makes of a hot region and
of the rest, and a recovery step. -/

namespace Sys2Proof.Machine

/-! ## Hot regions -/

/-- R339, R391: the level of a decision, from the group in use where the group was committed in the same cycle. -/
def State.throttleAt (s : State) : Int := if s.sameCycle 2 then s.used.g2t.thr else s.get Obj.throttle_level

/-- R339: the populated regions whose temperature has reached the throttle level in use. -/
def State.hotRegions (s : State) : List Nat :=
  (Config.regions s.cfg).filter fun r => (s.diode r).hasTemp && decide ((s.diode r).temp ≥ s.used.g2t.thr)

theorem State.takeThrottle_thr (s : State) : s.takeThrottle.used.g2t.thr = s.throttleAt := by
  unfold State.takeThrottle State.throttleAt
  split <;> rfl

theorem State.takeThrottle_g3 (s : State) : s.takeThrottle.used.g3 = s.used.g3 := by
  unfold State.takeThrottle
  split <;> rfl

theorem State.takeThrottle_frame (s : State) : State.Frame [.used] s s.takeThrottle := s.moves_takeThrottle.frame

theorem State.mem_hotRegions (s : State) (r : Nat) : r ∈ s.takeThrottle.hotRegions ↔
    Config.popRegion s.cfg r = true ∧ (s.diode r).hasTemp = true ∧ s.throttleAt ≤ (s.diode r).temp := by
  have hcfg : s.takeThrottle.cfg = s.cfg := s.takeThrottle_frame .cfg (by decide)
  have hdiode : s.takeThrottle.diode r = s.diode r :=
    congrArg (fun t : Thermal => t.diodes.getD r {}) (s.takeThrottle_frame .therm (by decide))
  simp only [State.hotRegions, Config.regions, List.mem_filter, List.mem_range, hcfg, hdiode, s.takeThrottle_thr,
    Bool.and_eq_true, decide_eq_true_eq, ge_iff_le]
  exact ⟨fun ⟨⟨_, hp⟩, hot⟩ => ⟨hp, hot⟩, fun ⟨hp, hot⟩ => ⟨⟨popRegion_lt hp, hp⟩, hot⟩⟩

theorem State.hotRegions_nodup (s : State) : s.hotRegions.Nodup := (Config.regions_nodup s.cfg).filter _

/-! ## A throttle step -/

/-- R339: the capo limit of a hot region falls below its fret, and its capo with it. -/
def State.throttleRegion (s : State) (r : Nat) : State :=
  let l := min (s.region r).sup.limit (s.region r).fret.fret - 1
  (s.modSup r fun u => { u with limit := l }).lowerCapo r l

/-- R339: n after a throttle step. -/
def State.throttleN (s : State) : Nat := if 1000 ≤ s.therm.n * s.used.g3.step then s.therm.n else s.therm.n + 1

/-- R339: the state in which every hot region has been limited. -/
def State.hotLimited (s : State) : State :=
  overAll { s.takeThrottle with therm := { s.therm with n := s.throttleN } } s.takeThrottle.hotRegions
    State.throttleRegion

theorem State.thermalDecision_cool {s : State} (h : s.takeThrottle.hotRegions = []) :
    s.thermalDecision = s.takeThrottle := by
  unfold State.hotRegions at h
  simp only [State.thermalDecision, h]

/-- R339: a decision with hot regions limits them, counts and records the step, and starts margin recovery again. -/
theorem State.thermalDecision_hot {s : State} {r : Nat} {l : List Nat} (h : s.takeThrottle.hotRegions = r :: l) :
    s.thermalDecision = ((((s.hotLimited.count Obj.throttle_step_count 32).orBits Obj.thermal_irq_status 2).fire 10 0
      (srcRegion r)).resetRecovery).abandonFrets := by
  have htherm : s.takeThrottle.therm = s.therm := s.takeThrottle_frame .therm (by decide)
  unfold State.hotLimited State.throttleN
  rw [h]
  unfold State.hotRegions at h
  simp only [State.thermalDecision, h, htherm, s.takeThrottle_g3]
  rfl

/-- Moves of a throttled region: the region, and its capo among the registers. -/
theorem State.moves_throttleRegion (s : State) (r : Nat) : s.Moves [.regions, .regs] (s.throttleRegion r) :=
  .step ((s.moves_modSup r _).mono rfl) (State.moves_lowerCapo ..) rfl

/-- R251: a new capo disturbs a shift test of its region; of the regions nothing else changes. -/
theorem State.setCapo_regions (s : State) (r v : Nat) :
    ∃ b : Region → Bool, (s.setCapo r v).regions =
      s.regions.modify r fun x => { x with sup := { x.sup with distNow := b x } } := by
  unfold State.setCapo
  split
  · exact ⟨fun x => x.sup.distNow, (List.modify_id ..).symm⟩
  · exact ⟨fun _ => true, rfl⟩

theorem State.throttleRegion_regions (s : State) (r : Nat) :
    ∃ f, (s.throttleRegion r).regions = s.regions.modify r f ∧
      (f (s.region r)).sup.limit = min (s.region r).sup.limit (s.region r).fret.fret - 1 := by
  obtain ⟨b, hb⟩ := State.setCapo_regions (s.modSup r fun u =>
    { u with limit := min (s.region r).sup.limit (s.region r).fret.fret - 1 }) r _
  exact ⟨_, hb.trans (List.modify_modify_eq ..), rfl⟩

theorem State.throttleRegion_length (s : State) (r : Nat) :
    (s.throttleRegion r).regions.length = s.regions.length := by
  obtain ⟨f, hf, -⟩ := s.throttleRegion_regions r
  rw [hf, List.length_modify]

theorem State.throttleRegion_other (s : State) {r x : Nat} (h : x ≠ r) :
    (s.throttleRegion r).region x = s.region x := by
  obtain ⟨f, hf, -⟩ := s.throttleRegion_regions r
  exact (congrArg (·.getD x {}) hf).trans (getD_modify_other _ f _ h)

theorem State.throttleRegion_limit (s : State) {r : Nat} (h : r < s.regions.length) :
    ((s.throttleRegion r).region r).sup.limit = min (s.region r).sup.limit (s.region r).fret.fret - 1 := by
  obtain ⟨f, hf, hlimit⟩ := s.throttleRegion_regions r
  have hsame : (s.throttleRegion r).region r = f (s.region r) :=
    (congrArg (·.getD r {}) hf).trans (getD_modify_same f _ h)
  rw [hsame, hlimit]

/-- R339: once all hot regions are limited, a hot one has its new limit and any other the one before. -/
theorem State.hotLimited_limit (s : State) {x : Nat} (hx : x < s.regions.length) :
    (s.hotLimited.region x).sup.limit = if x ∈ s.takeThrottle.hotRegions then
      min (s.region x).sup.limit (s.region x).fret.fret - 1 else (s.region x).sup.limit := by
  have hregions : s.takeThrottle.regions = s.regions := s.takeThrottle_frame .regions (by decide)
  have hregion : s.takeThrottle.region x = s.region x := congrArg (·.getD x {}) hregions
  by_cases hot : x ∈ s.takeThrottle.hotRegions
  · obtain ⟨t, ht, he⟩ := overAll_once (f := State.throttleRegion) (fun t => (t.region x, t.regions.length))
      s.takeThrottle.hotRegions_nodup hot
      (fun r _ hr t => Prod.ext (t.throttleRegion_other (Ne.symm hr)) (t.throttleRegion_length r))
      { s.takeThrottle with therm := { s.therm with n := s.throttleN } }
    obtain ⟨htr, htl⟩ := Prod.mk.inj ht
    have hxt : x < t.regions.length := by
      rw [htl]
      exact hregions.symm ▸ hx
    have htx : t.region x = s.region x := htr.trans hregion
    rw [if_pos hot, State.hotLimited, (Prod.mk.inj he).1, t.throttleRegion_limit hxt, htx]
  · rw [if_neg hot, State.hotLimited,
      overAll_keepOn (State.region · x) fun r hr t => t.throttleRegion_other (fun e => hot (e ▸ hr))]
    exact congrArg (·.sup.limit) hregion

/-- Limiting regions leaves n at what the step made of it. -/
theorem State.hotLimited_n (s : State) : s.hotLimited.therm.n = s.throttleN :=
  congrArg Thermal.n (overAll_keep State.therm (fun t r => (t.moves_throttleRegion r).frame .therm (by decide)) _ _)

/-- R216: abandoning a raising step leaves what a region's supervisor holds. -/
theorem State.abandonFret_sup (s : State) (r x : Nat) : ((s.abandonFret r).region x).sup = (s.region x).sup := by
  unfold State.abandonFret State.region
  extract_lets f
  split
  · simp only [State.modFret, State.modRegion, List.getD_eq_getElem?_getD, List.getElem?_modify]
    cases s.regions[x]? with
    | none => rfl
    | some y => simp only [Option.map_eq_map, Option.map_some, Option.getD_some, apply_ite Region.sup, ite_self]
  · rfl

theorem State.abandonFrets_sup (s : State) (x : Nat) : (s.abandonFrets.region x).sup = (s.region x).sup :=
  overAll_keep (fun t => (t.region x).sup) (fun t r => t.abandonFret_sup r x) _ _

theorem State.resetRecovery_recov (s : State) : ∀ x ∈ s.resetRecovery.rails, x.recov = 0 :=
  List.forall_mem_map.mpr fun _ _ => rfl

/-! ## The commands -/

theorem exec_thermalDecision {s : State} (h : s.runs = true) : exec .thermalDecision s = .next s.thermalDecision := by
  show execThermalDecision s = _
  rw [execThermalDecision, h, State.when_true]

theorem exec_recoveryStep {s : State} (h : s.runs = true) (ht : s.therm.notCool + 2000000 ≤ s.now) :
    exec .recoveryStep s = .next { s with
      therm := { s.therm with n := s.therm.n - 1 }
      regions := s.regions.map fun x => { x with sup := { x.sup with limit := min 15 (x.sup.limit + 1) } } } := by
  show execRecoveryStep s = _
  rw [execRecoveryStep, h, decide_eq_true ht, Bool.and_self, State.when_true]

theorem exec_recoveryStep_early {s : State} (ht : s.now < s.therm.notCool + 2000000) :
    exec .recoveryStep s = .next s := by
  show execRecoveryStep s = _
  rw [execRecoveryStep, decide_eq_false (Nat.not_le.mpr ht), Bool.and_false, State.when_false]

/-- R339, R340: neither happens outside RUN and SERVICE. -/
theorem exec_throttle_outside {s : State} (h : s.runs = false) :
    exec .thermalDecision s = .next s ∧ exec .recoveryStep s = .next s := by
  show execThermalDecision s = _ ∧ execRecoveryStep s = _
  rw [execThermalDecision, execRecoveryStep, h, Bool.false_and, State.when_false, State.when_false]
  exact ⟨rfl, rfl⟩

/-- Settles O40: a decision by whether some region is hot; of a throttle step, the limits come from the hot regions,
each limited once, and what follows leaves them. -/
theorem throttleAndRecovery : Obligations.ThrottleAndRecovery := by
  unfold Obligations.ThrottleAndRecovery
  intro s hlen
  refine ⟨exec_throttle_outside, fun hr => ⟨fun hcool => ?_, fun r hp ht hthr => ?_, exec_recoveryStep hr,
    exec_recoveryStep_early⟩⟩
  · rw [exec_thermalDecision hr, State.thermalDecision_cool (List.eq_nil_iff_forall_not_mem.mpr fun r hr => ?_)]
    obtain ⟨hp, ht, hthr⟩ := (s.mem_hotRegions r).mp hr
    exact absurd (hcool r hp ht) (Int.not_lt.mpr hthr)
  · have hexec := exec_thermalDecision hr
    obtain ⟨a, l, hot⟩ := List.exists_cons_of_ne_nil (List.ne_nil_of_mem ((s.mem_hotRegions r).mpr ⟨hp, ht, hthr⟩))
    have heq := State.thermalDecision_hot hot
    refine ⟨_, hexec, ?_, fun x hx => ?_, ?_, ((moves_execThermalDecision s _ hexec).mono rfl).frame⟩
    · rw [heq, show ∀ t : State, t.abandonFrets.therm = t.therm from
        fun t => t.moves_abandonFrets.frame .therm (by decide)]
      simp only [State.resetRecovery_therm, State.fire_therm, State.orBits_therm, State.count_therm]
      exact s.hotLimited_n
    · rw [heq, State.abandonFrets_sup]
      simp only [State.resetRecovery_region, State.fire_region, State.orBits_region, State.count_region]
      rw [s.hotLimited_limit (hlen.symm ▸ popRegion_lt hx)]
      exact ite_congr (propext ((s.mem_hotRegions x).trans (and_iff_right hx))) (fun _ => rfl) (fun _ => rfl)
    · rw [heq, show ∀ t : State, t.abandonFrets.rails = t.rails from
        fun t => t.moves_abandonFrets.frame .rails (by decide)]
      exact State.resetRecovery_recov _

end Sys2Proof.Machine
end

section
/-! SUPPORT. The fuse image (R206, R401, R538): what the check of its tuning part and its load leave in the state, and
the entry into DISCOVER from FUSELOAD. -/

namespace Sys2Proof.Machine

/-! ## The tuning part -/

theorem State.tuneCheck_fused {s : State} {b : List Byte} (h : fieldAt b 0x11C 4 = crc32c (slice b 0x10 0x10C)) :
    (s.tuneCheck b).tune = { (tuningOf b).checked with grade := min 15 (b.getD 1 0) } := by
  unfold State.tuneCheck
  extract_lets grade t u
  rw [if_neg (not_not_intro h), overAll_keep State.tune fun t _ => t.fire_tune 4 1 _]

theorem State.tuneCheck_fallback {s : State} {b : List Byte} (h : fieldAt b 0x11C 4 ≠ crc32c (slice b 0x10 0x10C)) :
    (s.tuneCheck b).tune = { tuningFallback with grade := min 15 (b.getD 1 0) } := by
  unfold State.tuneCheck
  rw [if_pos h, State.fire_tune]

theorem State.tuneCheck_grade (s : State) (b : List Byte) : (s.tuneCheck b).tune.grade = min 15 (b.getD 1 0) := by
  by_cases h : fieldAt b 0x11C 4 = crc32c (slice b 0x10 0x10C)
  · rw [State.tuneCheck_fused h]
  · rw [State.tuneCheck_fallback h]

/-! ## The load -/

/-- R401: the state in which the image is loaded and its tuning part checked, before DISCOVER is entered. -/
def State.fused (s : State) (b : List Byte) : State := (s.loadImage b).tuneCheck b

theorem State.fused_moves (s : State) (b : List Byte) : (s.loadImage b).Moves [.tune, .recd, .regs] (s.fused b) :=
  (s.loadImage b).moves_tuneCheck b

theorem State.fused_st (s : State) (b : List Byte) : (s.fused b).blk.st = s.blk.st :=
  (congrArg Block.st ((s.fused_moves b).frame .blk (by decide))).trans ((s.moves_loadImage b).frame .st (by decide))

theorem State.fused_courses (s : State) (b : List Byte) : (s.fused b).courses = s.courses :=
  ((s.fused_moves b).frame .courses (by decide)).trans ((s.moves_loadImage b).frame .courses (by decide))

theorem State.fused_key (s : State) (b : List Byte) : (s.fused b).dict.key = slice b 0x1B00 32 :=
  congrArg Dict.key ((s.fused_moves b).frame .dict (by decide))

theorem State.fused_shutdown (s : State) (b : List Byte) :
    (s.fused b).therm.shutdown = clampI 880 1000 (signedAt b 6 2) :=
  congrArg Thermal.shutdown ((s.fused_moves b).frame .therm (by decide))

theorem State.fused_classes (s : State) (b : List Byte) :
    (s.fused b).hints.cur = (List.range 2432).map fun k => imgU16 b (0x780 + 2 * k) := by
  have hload : (s.loadImage b).hints = Hints.loadStatic _ b := rfl
  have hfused : (s.fused b).hints = (s.loadImage b).hints := (s.fused_moves b).frame .hints (by decide)
  rw [hfused, hload, Hints.loadStatic]

/-! ## Into DISCOVER -/

/-- R402: a course as discovery begins: one that was absent stays absent. -/
def Course.rediscovered (c : Course) : Course :=
  { c with done := c.absent, outcome := if c.absent then 2 else 0, fail := none }

/-- R421: from FUSELOAD, DISCOVER is entered with nothing attached that reaches levels, classes or courses. -/
theorem State.startDiscover_fuseload {s : State} (h : s.blk.st = .fuseload) :
    s.startDiscover.therm = s.therm ∧ s.startDiscover.hints = s.hints ∧
      s.startDiscover.courses = s.courses.map Course.rediscovered := by
  have henter : s.startDiscover = _ :=
    State.enter_discover (s := { s with courses := s.courses.map Course.rediscovered }) h
  rw [henter, State.fire_therm, State.fire_hints, State.fire_courses]
  exact ⟨rfl, rfl, rfl⟩

theorem exec_fuseloadComplete {s : State} (b : List Byte) (h : s.blk.st = .fuseload) :
    exec (.fuseloadComplete b) s = .next (s.fused b).startDiscover := by
  show execFuseloadComplete b s = _
  rw [execFuseloadComplete, h, beq_self_eq_true, State.when_true]
  rfl

/-- Settles O9: the entry into DISCOVER keeps what the load and the check of the tuning part have left. -/
theorem fuseImageIsLoaded : Obligations.FuseImageIsLoaded := by
  unfold Obligations.FuseImageIsLoaded
  intro s b h
  obtain ⟨htherm, hhints, hcourses⟩ := State.startDiscover_fuseload ((s.fused_st b).trans h)
  have htune : (s.fused b).startDiscover.tune = ((s.loadImage b).tuneCheck b).tune := State.startDiscover_tune _
  refine ⟨_, exec_fuseloadComplete b h, State.enter_st .., ?_, ?_, ?_, ?_, fun hc => ?_, fun hc => ?_, ?_⟩
  · rw [State.startDiscover_dict, s.fused_key]
  · rw [htherm, s.fused_shutdown]
  · rw [hhints, s.fused_classes]
  · rw [htune, State.tuneCheck_grade]
  · rw [htune, State.tuneCheck_fused hc]
    exact ⟨rfl, rfl, rfl⟩
  · rw [htune, State.tuneCheck_fallback hc]
    exact ⟨rfl, rfl⟩
  · rw [hcourses, s.fused_courses]
    rfl

end Sys2Proof.Machine
end

section
/-! SUPPORT. The millisecond boundary (R223, R231, R232, R237, R252): the order of its stages, what the last of them
clears, and the power figures of the first; and a frame that is ready (R241, R258). -/

namespace Sys2Proof.Machine

/-! ## The stages in order -/

theorem exec_millisecondBoundary {s : State} (h : s.blk.st.active = true) :
    exec .millisecondBoundary s = .next s.millisecond := by
  show execMillisecondBoundary s = _
  rw [execMillisecondBoundary, h, State.when_true]

/-- R231: the stages before the frame, of which RUN and SERVICE alone have the last two. -/
def State.msChecked (s : State) : State :=
  if s.msFigures.msMatched.runs then s.msFigures.msMatched.msDisagree.msFloor else s.msFigures.msMatched

theorem State.millisecond_eq (s : State) : s.millisecond = s.msChecked.frameBoundary.msClear := rfl

/-! ## The learner's millisecond -/

theorem State.stopPass_msRun (s : State) (k code : Nat) : (s.stopPass k code).learn.msRun = s.learn.msRun := by
  unfold State.stopPass
  split
  · rfl
  · extract_lets done sats t u
    rw [State.fire_learn]
    rfl

theorem State.setDisagree_msRun (s : State) : s.setDisagree.learn.msRun = s.learn.msRun := by
  unfold State.setDisagree
  extract_lets own shards cap t u v
  have hu : u.learn = s.learn := State.fire_learn ..
  split
  · rw [hu]
  · rw [overAll_keep (fun t : State => t.learn.msRun) fun t k => t.stopPass_msRun k 8, State.resetRecovery_learn]
    exact congrArg Learner.msRun hu

theorem State.msDisagree_msRun (s : State) : s.msDisagree.learn.msRun = s.learn.msRun := by
  unfold State.msDisagree
  extract_lets fails cap t
  split
  · exact t.setDisagree_msRun
  · split
    · rw [State.fire_learn]
      rfl
    · rfl

/-- No stage before the last changes whether the millisecond counts for the learner, nor the configuration. -/
theorem State.msChecked_msRun (s : State) : s.msChecked.frameBoundary.learn.msRun = s.learn.msRun := by
  have hframe (t : State) : t.frameBoundary.learn = t.learn := t.moves_frameBoundary.frame .learn (by decide)
  have hfloor (t : State) : t.msFloor.learn = t.learn := t.moves_msFloor.frame .learn (by decide)
  have hmatched (t : State) : t.msMatched.learn = t.learn := t.moves_msMatched.frame .learn (by decide)
  have hfigures : s.msFigures.learn = s.learn := s.moves_msFigures.frame .learn (by decide)
  rw [hframe, State.msChecked]
  split
  · rw [hfloor, State.msDisagree_msRun, hmatched, hfigures]
  · rw [hmatched, hfigures]

theorem State.msChecked_cfg (s : State) : s.msChecked.frameBoundary.cfg = s.cfg :=
  s.moves_millisecond.frame .cfg (by decide)

/-! ## The power figures -/

theorem State.msPowers_delivered (s : State) (h : rfWf s.regs = true) :
    s.msPowers.get Obj.power_delivered = s.msDelivered := by
  have hw : rfWf (overAll s [0, 1, 2] fun s q => s.set (Obj.power_rail q) (meanMw (s.rail q).pMs s.cap.nMs : Nat)).regs
      = true := (State.Moves.overAll (fun t _ => t.moves_set _ _) (.refl [.regs] s)).kept.regs h
  unfold State.msPowers
  extract_lets n a b
  rw [State.get_set_other _ _ (by decide)]
  exact a.get_set_same _ hw

/-- The figures of power are no figure of energy. -/
theorem State.msPowers_energy (s : State) : s.msPowers.get Obj.energy_delivered = s.get Obj.energy_delivered := by
  unfold State.msPowers
  simp only [overAll_cons, overAll_nil]
  iterate 5 rw [State.get_set_other _ _ (by decide)]

theorem State.msInputs_get (s : State) (x : Int) {g : Reg} (hp : g.addr ≠ Obj.power_input.addr)
    (hi : g.addr ≠ Obj.iin_current.addr) (he : g.addr ≠ Obj.energy_input.addr) : (s.msInputs x).get g = s.get g := by
  unfold State.msInputs
  split
  · rw [State.get_set_other _ _ he, State.get_set_other _ _ hi, State.get_set_other _ _ hp]
  · rfl

theorem State.effStep_get (s : State) (del inp : Int) {g : Reg} (h : g.addr ≠ Obj.cap_eff.addr) :
    (s.effStep del inp).get g = s.get g := by
  unfold State.effStep
  extract_lets hist cap t d i
  split
  · exact t.get_set_other _ h
  · split
    · exact t.get_set_other _ h
    · rfl

/-- R237: the delivered energy of a millisecond in nJ, with the remainder of the one before. -/
def State.msNj (s : State) : Nat := (sumI (s.rails.map (·.pMs)) / 640).toNat + s.cap.remDel

/-- R232, R237: the figures of delivered power and energy are in place. -/
def State.msEnergy (s : State) : State :=
  s.msPowers.set Obj.energy_delivered ((s.msPowers.get Obj.energy_delivered + (s.msNj / 1000 : Nat)) % (2 ^ 64 : Nat))

/-- The figures of the input and of the efficiency leave those delivered. -/
theorem State.msFigures_get (s : State) {g : Reg} (hp : g.addr ≠ Obj.power_input.addr)
    (hi : g.addr ≠ Obj.iin_current.addr) (he : g.addr ≠ Obj.energy_input.addr) (hf : g.addr ≠ Obj.cap_eff.addr) :
    s.msFigures.get g = s.msEnergy.get g := by
  unfold State.msFigures
  extract_lets del nj inNj inTot n a b c d t flags
  have hd : d.get g = c.get g := by
    unfold d
    split
    · exact c.effStep_get _ _ hf
    · rfl
  exact hd.trans (b.msInputs_get _ hp hi he)

theorem State.msFigures_power (s : State) (h : rfWf s.regs = true) :
    s.msFigures.getN Obj.power_delivered = s.msDelivered := by
  rw [State.getN, s.msFigures_get (by decide) (by decide) (by decide) (by decide), State.msEnergy,
    State.get_set_other _ _ (by decide), s.msPowers_delivered h, Int.toNat_natCast]

theorem State.msFigures_energy (s : State) (h : rfWf s.regs = true) : s.msFigures.get Obj.energy_delivered =
    (s.get Obj.energy_delivered + (s.msNj / 1000 : Nat)) % (2 ^ 64 : Nat) := by
  have hw : rfWf s.msPowers.regs = true := s.moves_msPowers.kept.regs h
  rw [s.msFigures_get (by decide) (by decide) (by decide) (by decide), State.msEnergy, State.get_set_same _ _ hw,
    s.msPowers_energy]

/-! ## A frame is ready -/

theorem exec_frameReady_none {s : State} (h : s.telem.done = none) : exec .frameReady s = .next s := by
  show execFrameReady s = _
  rw [execFrameReady, h]

/-- R241: a frame becomes the latest one, which the interrupt notes. -/
def State.frameLatest (s : State) (f : List Byte) : State :=
  State.orBits { s with telem := { s.telem with done := none, latest := f, lastSeq := fieldAt f 0 4 } }
    Obj.cap_irq_status 4

theorem exec_frameReady_alone {s : State} {f : List Byte} (h : s.telem.done = some f) (hd : s.cfg.hasDma = false) :
    exec .frameReady s = .next (s.frameLatest f) := by
  show execFrameReady s = _
  rw [execFrameReady, h]
  simp only [State.frameReady, hd, State.orBits_cfg, Bool.false_and, Bool.not_false, Bool.false_eq_true, if_true,
    if_false]
  rfl

/-- R241: with a DMA engine that holds no frame, the frame is offered. -/
theorem exec_frameReady_offers {s : State} {f : List Byte} (h : s.telem.done = some f) (hd : s.cfg.hasDma = true)
    (ho : s.telem.offered = none) : exec .frameReady s = .next ((s.frameLatest f).offer f) := by
  show execFrameReady s = _
  rw [execFrameReady, h]
  simp only [State.frameReady, hd, ho, State.orBits_cfg, State.orBits_telem, Option.isSome_none, Bool.false_and,
    Bool.and_false, Bool.not_true, Bool.false_eq_true, if_false]
  rfl

/-- Settles O32: the stages by their definition; the frame by whether one is done and where it goes. With no period in
the millisecond the mean is 0 (log 51). -/
theorem millisecondInOrder : Obligations.MillisecondInOrder := by
  unfold Obligations.MillisecondInOrder
  intro s ha
  have hexec := exec_millisecondBoundary ha
  refine ⟨⟨_, hexec, rfl, List.forall_mem_map.mpr fun _ _ => rfl, rfl, rfl,
    List.forall_mem_map.mpr fun _ _ => ⟨rfl, rfl⟩, ?_, (moves_execMillisecondBoundary s _ hexec).frame⟩,
    fun u hu => ⟨fun hr => ?_, fun hr => ?_⟩, fun hw => ⟨s.msFigures_power hw, s.msFigures_energy hw, rfl⟩,
    exec_frameReady_none, fun f u hf hu => ⟨fun hd => ?_, fun hd ho => ?_⟩⟩
  · have hrun := s.msChecked_msRun
    have hcfg := s.msChecked_cfg
    rw [s.millisecond_eq]
    show (s.msChecked.frameBoundary.learn.msRun && s.msChecked.frameBoundary.cfg.hasLearner) = _
    rw [hrun, hcfg]
  · rw [hexec, s.millisecond_eq, State.msChecked, ← hu, if_pos hr]
  · rw [hexec, s.millisecond_eq, State.msChecked, ← hu, if_neg (by rw [hr]; decide)]
  · rw [hu]
    exact exec_frameReady_alone hf hd
  · rw [hu]
    exact exec_frameReady_offers hf hd ho

end Sys2Proof.Machine
end

section
/-! SUPPORT. The allocation of frets (R246, R248): the raise that the loop takes, one round of the loop, and what every
round keeps. -/

namespace Sys2Proof.Machine

/-! ## The raise taken -/

/-- A fold that takes its first element, and then keeps what it holds or takes what it meets, ends with one of them. -/
theorem foldl_choice_mem {α : Type} {f : Option α → α → Option α} (hfirst : ∀ x, f none x = some x)
    (hnext : ∀ y x, f (some y) x = some x ∨ f (some y) x = some y) {l : List α} {b : Option α} {c : α}
    (h : l.foldl f b = some c) : c ∈ l ∨ b = some c := by
  induction l generalizing b with
  | nil => exact .inr h
  | cons x l ih =>
    rcases ih h with hl | hb
    · exact .inl (List.mem_cons_of_mem _ hl)
    · cases b with
      | none => exact .inl (Option.some.inj ((hfirst x).symm.trans hb) ▸ List.mem_cons_self)
      | some y =>
        rcases hnext y x with hk | hk
        · exact .inl (Option.some.inj (hk.symm.trans hb) ▸ List.mem_cons_self)
        · exact .inr (hk.symm.trans hb)

theorem ite_choice {α : Type} (p : Prop) [Decidable p] (a b : α) :
    (if p then a else b) = a ∨ (if p then a else b) = b :=
  (Decidable.em p).imp (fun h => if_pos h) fun h => if_neg h

/-- R248: the raise that comes first is one of those weighed. -/
theorem bestRaise_mem {l : List Raise} {c : Raise} (h : bestRaise l = some c) : c ∈ l := by
  unfold bestRaise at h
  extract_lets up at h
  split at h
  · exact (foldl_choice_mem (fun _ => rfl) (fun _ _ => ite_choice ..) h).resolve_right nofun
  · have hup : c ∈ up := (foldl_choice_mem (fun _ => rfl) (fun _ _ => ite_choice ..) h).resolve_right nofun
    exact (List.mem_filter.mp hup).1

/-! ## One round -/

/-- R248: a round that goes on raises by one the fret of a region that stands below its f_max, and the power with that
raise is within the budget. -/
structure State.Raised (s : State) (cs : List Cand) (budget : Int) (a b : List Nat) (k : Nat) (c : Cand) (f : Nat) :
    Prop where
  cand : cs[k]? = some c
  fret : a[k]? = some f
  room : f < c.fmax
  eq : b = a.set k (f + 1)
  power : (s.allocPower cs b : Int) ≤ budget

/-- R248: a round ends the allocation where it stands, or raises one region and goes on. -/
theorem State.allocLoop_succ (s : State) (cs : List Cand) (budget : Int) (n : Nat) (a : List Nat) :
    (s.allocLoop cs budget (n + 1) a).1 = a ∨
      ∃ b k c f, s.Raised cs budget a b k c f ∧ s.allocLoop cs budget (n + 1) a = s.allocLoop cs budget n b := by
  rw [State.allocLoop]
  split
  case h_1 => exact .inl rfl
  case h_2 x hx =>
    split
    case isTrue => exact .inl rfl
    case isFalse hfits =>
      obtain ⟨⟨⟨c, f⟩, k⟩, hy, rfl⟩ := List.mem_map.mp (bestRaise_mem hx)
      obtain ⟨hk, hroom⟩ := List.mem_filter.mp hy
      obtain ⟨hc, hf⟩ := List.getElem?_zip_eq_some.mp (List.mem_zipIdx_iff_getElem?.mp hk)
      have hget : a.getD k 0 = f := by rw [List.getD_eq_getElem?_getD, hf, Option.getD_some]
      dsimp only at hfits hf hc ⊢
      refine .inr ⟨_, k, c, f, ⟨hc, hf, of_decide_eq_true hroom, rfl, ?_⟩, by rw [hget]⟩
      omega

/-! ## What every round keeps -/

/-- Where one value changes, a pair of two lists is the changed one or a pair as before. -/
theorem mem_zip_set {α β : Type} {l : List α} {m : List β} {k : Nat} {v : β} {p : α × β}
    (h : p ∈ l.zip (m.set k v)) : (l[k]? = some p.1 ∧ p.2 = v) ∨ p ∈ l.zip m := by
  obtain ⟨i, hi⟩ := List.mem_iff_getElem?.mp h
  obtain ⟨hl, hm⟩ := List.getElem?_zip_eq_some.mp hi
  by_cases hk : k = i
  · subst hk
    rw [List.getElem?_set_self'] at hm
    obtain ⟨_, -, hv⟩ := Option.map_eq_some_iff.mp hm
    exact .inl ⟨hl, hv.symm⟩
  · rw [List.getElem?_set_ne hk] at hm
    exact .inr (List.mem_iff_getElem?.mpr ⟨i, List.getElem?_zip_eq_some.mpr ⟨hl, hm⟩⟩)

section Raised
variable {s : State} {cs : List Cand} {budget : Int} {a b : List Nat} {k : Nat} {c : Cand} {f : Nat}

theorem State.Raised.length (h : s.Raised cs budget a b k c f) : b.length = a.length := by
  rw [h.eq, List.length_set]

theorem State.Raised.fmax (h : s.Raised cs budget a b k c f) (ha : ∀ p ∈ cs.zip a, p.2 ≤ p.1.fmax) :
    ∀ p ∈ cs.zip b, p.2 ≤ p.1.fmax := by
  intro p hp
  rw [h.eq] at hp
  rcases mem_zip_set hp with ⟨hc, hv⟩ | hp
  · rw [hv, ← Option.some.inj (h.cand.symm.trans hc)]
    exact h.room
  · exact ha p hp

end Raised

/-- Settles O30, by induction on the rounds: an allocation that a raise has reached is within the budget already, so
that it may be the one the rest of the loop ends with. -/
theorem allocationStaysInBudget : Obligations.AllocationStaysInBudget := by
  unfold Obligations.AllocationStaysInBudget
  intro s cs budget n
  induction n with
  | zero => exact fun a hlen hfmax => ⟨hlen, hfmax, .inl rfl⟩
  | succ n ih =>
    intro a hlen hfmax
    rcases s.allocLoop_succ cs budget n a with hend | ⟨b, k, c, f, hraised, hgo⟩
    · rw [hend]
      exact ⟨hlen, hfmax, .inl rfl⟩
    · obtain ⟨hlen', hfmax', hpower⟩ := ih b (hraised.length.trans hlen) (hraised.fmax hfmax)
      rw [hgo]
      refine ⟨hlen', hfmax', .inr ?_⟩
      rcases hpower with hsame | hbudget
      · rw [hsame]
        exact hraised.power
      · exact hbudget

end Sys2Proof.Machine
end

section
/-! SUPPORT. A cap step (R242, R244, R391), f_max as it now stands (R247) and the delivery of the capos (R251). -/

namespace Sys2Proof.Machine

/-! ## A cap step -/

theorem exec_capStep {s : State} (h : s.runs = true) : exec .capStep s = .next s.capStep := by
  show execCapStep s = _
  rw [execCapStep, if_pos h]

theorem exec_capStep_outside {s : State} (h : s.runs = false) : exec .capStep s = .next s.stepClear := by
  show execCapStep s = _
  rw [execCapStep, if_neg (by rw [h]; decide)]

/-- R391: the G3 set of a step, the one in use where the group was committed in the same cycle. -/
def State.stepG3 (s : State) : G3 :=
  if s.sameCycle 3 then s.used.g3 else ⟨s.getN Obj.cap_w, s.getN Obj.thermal_step⟩

theorem State.takeGroup_g3 (s : State) : (s.takeGroup 3).used.g3 = s.stepG3 := by
  unfold State.takeGroup State.stepG3
  split <;> rfl

/-- R249: with a dither region or without, capos are allotted. -/
theorem State.ditherStep_next (s : State) (cs : List Cand) (d : Option (Raise × Int)) (capos : List Nat) :
    (s.ditherStep cs d capos).cap.next.isSome = true := by
  cases d with
  | none => rfl
  | some x => rfl

/-- R390: a step changes what is in use by taking G3 alone. -/
theorem State.capStep_used (s : State) : s.capStep.used = (s.takeGroup 3).used := by
  unfold State.capStep
  extract_lets a n pDel used lim b cs budget res spread nominal bind c d e
  have hb : b.used = a.used := (a.moves_integralStep ..).frame .used (by decide)
  have hc : c.used = b.used := ((b.set Obj.cap_binding bind).moves_stepObjects cs nominal).frame .used (by decide)
  have hd : d.used = c.used := (c.moves_ditherStep ..).frame .used (by decide)
  clear_value d
  have he : e.used = d.used := (State.count_used ..).trans (State.set_used ..)
  clear_value e
  exact he.trans (hd.trans (hc.trans hb))

theorem State.capStep_g3 (s : State) : s.capStep.used.g3 = s.stepG3 := by
  rw [s.capStep_used, s.takeGroup_g3]

/-- R242: a step sets P_lim from the `cap_w` it took, with the throttle's share taken off. -/
theorem State.capStep_pLim (s : State) :
    s.capStep.cap.pLim = s.stepG3.cap * (1000 - s.therm.n * s.stepG3.step) := by
  have hlim : s.capStep.cap.pLim = (s.takeGroup 3).limitMw := rfl
  rw [hlim, State.limitMw, s.takeGroup_g3, s.takeGroup_therm]

theorem State.capStep_next (s : State) : s.capStep.cap.next.isSome = true := by
  unfold State.capStep
  extract_lets a n pDel used lim b cs budget res spread nominal bind c d e
  have hd : d.cap.next.isSome = true := c.ditherStep_next ..
  clear_value d
  have he : e.cap = d.cap := (State.count_cap ..).trans (State.set_cap ..)
  clear_value e
  rwa [← he] at hd

/-! ## f_max as it now stands -/

theorem maxN_le {l : List Nat} {b : Nat} (h : ∀ x ∈ l, x ≤ b) : maxN l ≤ b :=
  List.foldlRecOn (motive := (· ≤ b)) l max (Nat.zero_le b) fun _ ha x hx =>
    Nat.max_le.mpr ⟨ha, h x hx⟩

/-- R247: the region current limit lies among the frets up to the terms before it. -/
theorem Cand.limited_le (c : Cand) (matched : Bool) (util cAct top : Nat) : c.limited matched util cAct top ≤ top :=
  maxN_le fun _ hx => Nat.le_of_lt_succ (List.mem_range.mp (List.mem_filter.mp hx).1)

theorem State.fmaxNow_le (s : State) (r : Nat) :
    s.fmaxNow r ≤ (s.region r).sup.ceiling ∧ s.fmaxNow r ≤ s.getN (Obj.region_fret_request r) ∧
      s.fmaxNow r ≤ s.getN (Obj.rail_fret_fit (railOf r)) ∧ s.fmaxNow r ≤ (s.region r).sup.limit := by
  have hle : s.fmaxNow r ≤ min (s.fretTerms r).1 (s.fretTerms r).2 := Cand.limited_le ..
  obtain ⟨hterms, hlimit⟩ := Nat.le_min.mp hle
  obtain ⟨hceiling, hobjects⟩ := Nat.le_min.mp hterms
  obtain ⟨hrequest, hfit⟩ := Nat.le_min.mp hobjects
  exact ⟨hceiling, hrequest, hfit, hlimit⟩

/-! ## One capo -/

theorem State.setCapo_capo {s : State} (r v : Nat) (h : rfWf s.regs = true) :
    (s.setCapo r v).getN (Obj.region_capo r) = v := by
  unfold State.setCapo
  split
  case isTrue hv => exact hv
  case isFalse => exact s.getN_set_same _ h

theorem State.setCapo_getN_other (s : State) {r v : Nat} {g : Reg} (h : g.addr ≠ (Obj.region_capo r).addr) :
    (s.setCapo r v).getN g = s.getN g := by
  unfold State.setCapo
  split
  · rfl
  · exact s.getN_set_other _ h

/-- R251: of a region's supervisor, a new capo changes at most the mark that disturbs a shift test. -/
theorem State.setCapo_sup (s : State) (x v r : Nat) :
    ∃ b, ((s.setCapo x v).region r).sup = { (s.region r).sup with distNow := b } := by
  obtain ⟨b, hb⟩ := s.setCapo_regions x v
  have hregion : (s.setCapo x v).region r = (s.regions.modify x _).getD r {} := congrArg (·.getD r {}) hb
  rw [hregion, State.region, List.getD_eq_getElem?_getD, List.getD_eq_getElem?_getD, List.getElem?_modify]
  cases s.regions[r]? with
  | none => exact ⟨_, rfl⟩
  | some y =>
    by_cases hx : x = r
    · exact ⟨b y, by simp [hx]⟩
    · exact ⟨y.sup.distNow, by simp [hx]⟩

/-- R247: no capo is among the terms of f_max. -/
theorem State.setCapo_fmaxNow (s : State) (x v r : Nat) : (s.setCapo x v).fmaxNow r = s.fmaxNow r := by
  obtain ⟨b, hsup⟩ := s.setCapo_sup x v r
  have hrequest := s.setCapo_getN_other (r := x) (v := v) (g := Obj.region_fret_request r) (by
    simp only [Obj.region_fret_request, Obj.region_capo]; omega)
  have hfit := s.setCapo_getN_other (r := x) (v := v) (g := Obj.rail_fret_fit (railOf r)) (by
    simp only [Obj.rail_fret_fit, Obj.region_capo]; omega)
  have hutil := s.setCapo_getN_other (r := x) (v := v) (g := Obj.cap_util_max) (by
    simp only [Obj.cap_util_max, Obj.region_capo]; omega)
  simp only [State.fmaxNow, State.fretTerms, State.matchedActs, hsup, hrequest, hfit, hutil, State.setCapo_cap]

/-! ## The delivery -/

/-- R251: region `r` takes the capo that `l` allots it, held under f_max. -/
def State.deliverCapo (l : List Nat) (s : State) (r : Nat) : State := s.setCapo r (min (l.getD r 0) (s.fmaxNow r))

theorem State.overAll_deliverCapo {l : List Nat} (xs : List Nat) {r : Nat} {s : State} (hw : rfWf s.regs = true) :
    (overAll s xs (State.deliverCapo l)).getN (Obj.region_capo r) =
      if r ∈ xs then min (l.getD r 0) (s.fmaxNow r) else s.getN (Obj.region_capo r) := by
  induction xs generalizing s with
  | nil => rfl
  | cons x xs ih =>
    rw [overAll_cons, State.deliverCapo, ih ((State.moves_setCapo ..).kept.regs hw), State.setCapo_fmaxNow]
    by_cases hx : r = x
    · subst hx
      rw [State.setCapo_capo r _ hw, ite_self, if_pos List.mem_cons_self]
    · have haddr : (Obj.region_capo r).addr ≠ (Obj.region_capo x).addr := by
        simp only [Obj.region_capo]
        omega
      simp only [s.setCapo_getN_other haddr, List.mem_cons, hx, false_or]

theorem State.capoDelivery_eq (s : State) (l : List Nat) : s.capoDelivery l =
    State.abandonFrets { overAll s (Config.regions s.cfg) (State.deliverCapo l) with
      cap := { (overAll s (Config.regions s.cfg) (State.deliverCapo l)).cap with next := none } } := rfl

theorem State.capoDelivery_next (s : State) (l : List Nat) : (s.capoDelivery l).cap.next = none := by
  rw [State.capoDelivery_eq]
  exact congrArg Cap.next ((State.moves_abandonFrets _).frame .cap (by decide))

theorem State.capoDelivery_capo {s : State} (l : List Nat) {r : Nat} (hw : rfWf s.regs = true)
    (hr : r ∈ Config.regions s.cfg) :
    (s.capoDelivery l).getN (Obj.region_capo r) = min (l.getD r 0) (s.fmaxNow r) := by
  have hregs : (s.capoDelivery l).regs = (overAll s (Config.regions s.cfg) (State.deliverCapo l)).regs := by
    rw [State.capoDelivery_eq]
    exact (State.moves_abandonFrets _).frame .regs (by decide)
  rw [State.getN, State.get, hregs]
  exact (State.overAll_deliverCapo _ hw).trans (if_pos hr)

theorem exec_capoDelivery {s : State} {l : List Nat} (hr : s.runs = true) (h : s.cap.next = some l) :
    exec .capoDelivery s = .next (s.capoDelivery l) := by
  show execCapoDelivery s = _
  rw [execCapoDelivery, h]
  simp only [hr, State.when_true]

theorem exec_capoDelivery_none {s : State} (h : s.cap.next = none ∨ s.runs = false) :
    exec .capoDelivery s = .next s := by
  show execCapoDelivery s = _
  rw [execCapoDelivery]
  rcases h with hnone | hr
  · rw [hnone]
  · cases hl : s.cap.next with
    | none => rfl
    | some l => simp only [hr, State.when_false]

/-- Settles O31: a step by what it leaves of its last update, what is in use by the group it took; a delivery by the
capos, none of which is a term of another region's f_max. -/
theorem capStepAndDelivery : Obligations.CapStepAndDelivery := by
  unfold Obligations.CapStepAndDelivery
  intro s
  refine ⟨fun hr => ?_, exec_capStep_outside, fun l hr hl hw => ?_, s.fmaxNow_le, exec_capoDelivery_none⟩
  · exact ⟨s.capStep, exec_capStep hr, s.capStep_pLim, s.capStep_next, rfl, rfl,
      List.forall_mem_map.mpr fun _ _ => rfl, s.capStep_g3, (s.moves_capStep.mono rfl).frame⟩
  · exact ⟨_, exec_capoDelivery hr hl, s.capoDelivery_next l, fun r hmem => s.capoDelivery_capo l hw hmem,
      (s.moves_capoDelivery l).frame⟩

end Sys2Proof.Machine
end

section
/-! SUPPORT. A hint at the port (R262 to R265, R268 to R272): an invalid hint, one outside RUN and SERVICE, and one that
finds room in the scoreboard. -/

namespace Sys2Proof.Machine

/-! ## The port -/

/-- R262: a hint has been seen at the port, with its word and its time. -/
def State.seeHint (s : State) (w : Nat) : State := { s with hints := { s.hints with last := w, lastAt := some s.now } }

theorem exec_hint {s : State} (hs : s.blk.st.active = true) (w par : Nat) :
    exec (.hint w par) s = .next (s.takeHint w par) := by
  show execHint w par s = _
  rw [execHint, hs, State.when_true]

/-- R264: at least 4 ns have passed since the last hint. -/
def State.hintSpaced (s : State) : Bool :=
  match s.hints.lastAt with
  | some t => decide (t + 4 ≤ s.now)
  | none => true

theorem State.hintSpaced_iff {s : State} : s.hintSpaced = true ↔ ∀ t, s.hints.lastAt = some t → t + 4 ≤ s.now := by
  unfold State.hintSpaced
  cases s.hints.lastAt with
  | none => simp only [reduceCtorEq, false_implies, implies_true]
  | some t => simp only [decide_eq_true_eq, Option.some.injEq, forall_eq']

/-- R263, R264: a hint in good form. -/
def State.hintValid (s : State) (w par : Nat) : Bool :=
  hintParityOk w par && s.hintSpaced && bits w 110 95 != 0 &&
    !(s.named (hintEntryOf w s.now s.hints.nextId).mask).isEmpty

theorem State.hintValid_iff {s : State} {w par : Nat} : s.hintValid w par = true ↔
    ((hintParityOk w par = true ∧ ∀ t, s.hints.lastAt = some t → t + 4 ≤ s.now) ∧ bits w 110 95 ≠ 0) ∧
      s.named (hintEntryOf w s.now s.hints.nextId).mask ≠ [] := by
  simp only [State.hintValid, Bool.and_eq_true, bne_iff_ne, Bool.not_eq_true', List.isEmpty_eq_false_iff,
    State.hintSpaced_iff]

section
variable {s : State} {w par : Nat} (hw : w < 2 ^ 128)
include hw

/-- R263 to R265, R269, R272: what becomes of a hint at the port. -/
theorem State.takeHint_eq : s.takeHint w par =
    let x := if hintParityOk w par then s.seeHint w else (s.seeHint w).parityError
    if !s.hintValid w par then (x.count Obj.hint_invalid 32).orBits Obj.hint_irq_status 4
    else if !s.runs then x.count Obj.hint_discarded_state 32
    else
      let h := hintEntryOf w s.now s.hints.nextId
      let u := (if h.late then x.count Obj.hint_late 32 else x).retireDue
      if u.hints.entries.length < 16384 then u.enterHint h else u.coalesceHint h := by
  simp only [State.hintValid, Bool.not_and, Bool.not_not, bne, State.takeHint, Nat.mod_eq_of_lt hw]
  cases hintParityOk w par <;> rfl

/-- R263, R160: a word that fails its parity is invalid, and a parity error besides. -/
theorem State.takeHint_parity (hp : hintParityOk w par = false) : s.takeHint w par =
    ((s.seeHint w).parityError.count Obj.hint_invalid 32).orBits Obj.hint_irq_status 4 := by
  have hv : s.hintValid w par = false := by simp only [State.hintValid, hp, Bool.false_and]
  simp only [State.takeHint_eq hw, hv, hp, Bool.not_false, if_true, Bool.false_eq_true, if_false]

variable (hp : hintParityOk w par = true)
include hp

/-- R263, R264: a hint without a region or a length, or one that follows the last too closely, is invalid. -/
theorem State.takeHint_invalid (h : (s.named (hintEntryOf w s.now s.hints.nextId).mask = [] ∨ bits w 110 95 = 0) ∨
      ∃ t, s.hints.lastAt = some t ∧ s.now < t + 4) : s.takeHint w par =
    ((s.seeHint w).count Obj.hint_invalid 32).orBits Obj.hint_irq_status 4 := by
  have hv : s.hintValid w par = false := by
    refine Bool.eq_false_iff.mpr fun hv => ?_
    obtain ⟨⟨⟨-, hsp⟩, hl⟩, hn⟩ := State.hintValid_iff.mp hv
    rcases h with (hnone | hzero) | ⟨t, ht, hlt⟩
    · exact hn hnone
    · exact hl hzero
    · exact Nat.not_le.mpr hlt (hsp t ht)
  simp only [State.takeHint_eq hw, hv, hp, Bool.not_false, if_true]

variable (hv : s.hintValid w par = true)
include hv

/-- R272: a valid hint outside RUN and SERVICE is discarded. -/
theorem State.takeHint_discarded (hr : s.runs = false) :
    s.takeHint w par = (s.seeHint w).count Obj.hint_discarded_state 32 := by
  simp only [State.takeHint_eq hw, hv, hp, hr, Bool.not_true, Bool.not_false, if_true, Bool.false_eq_true, if_false]

/-- R265, R269: a valid hint in RUN and SERVICE is entered where the entries that have not come to their end leave
room. -/
theorem State.takeHint_enters (hr : s.runs = true) {h : HintEntry} (hh : h = hintEntryOf w s.now s.hints.nextId)
    {u : State} (hu : u = (if h.late then (s.seeHint w).count Obj.hint_late 32 else s.seeHint w).retireDue)
    (hlen : u.hints.entries.length < 16384) : s.takeHint w par = u.enterHint h := by
  subst hu hh
  simp only [State.takeHint_eq hw, hv, hp, hr, Bool.not_true, if_true, Bool.false_eq_true, if_false, if_pos hlen]

end

/-! ## Entering the scoreboard (R268) -/

theorem insertHint_length (h : HintEntry) (l : List HintEntry) : (insertHint h l).length = l.length + 1 := by
  induction l with
  | nil => rfl
  | cons e l ih =>
    rw [insertHint]
    split
    · rfl
    · rw [List.length_cons, ih, List.length_cons]

/-- R268: a hint is listed and counted. -/
def State.listHint (s : State) (h : HintEntry) : State :=
  ({ s with hints := { s.hints with
    entries := insertHint h s.hints.entries, nextId := s.hints.nextId + 1
    max := Nat.max s.hints.max (s.hints.entries.length + 1) } } : State).count Obj.hint_accepted 32

section
variable {s : State} {h : HintEntry} (hlen : s.hints.entries.length < 16383)
include hlen

/-- R270: a hint that leaves the scoreboard with room is listed without a record. -/
theorem State.enterHint_room : s.enterHint h =
    (let a := if h.late = true then s.listHint h else (s.listHint h).armHint h ((s.listHint h).named h.mask)
     if a.prepDue h = true then a.prepare h else a) := by
  have hne : (insertHint h s.hints.entries).length ≠ 16384 := by
    rw [insertHint_length]
    omega
  simp only [State.enterHint, State.count_hints, if_neg hne]
  rfl

/-- R276: a late hint has no preparation. -/
theorem State.enterHint_late (hl : h.late = true) : s.enterHint h = s.listHint h := by
  have hd : (s.listHint h).prepDue h = false := by
    rw [State.prepDue, hl, Bool.not_true, Bool.false_and, Bool.false_and]
  rw [State.enterHint_room hlen]
  simp only [hl, hd, if_true, Bool.false_eq_true, if_false]

/-- R109, R276: a hint in time arms its pre-strums, and prepares where its preparation time has come. -/
theorem State.enterHint_inTime (hl : h.late = false) : s.enterHint h =
    (let a := (s.listHint h).armHint h ((s.listHint h).named h.mask)
     if (s.listHint h).prepDue h = true then a.prepare h else a) := by
  have harm (rs : List Nat) : ((s.listHint h).armHint h rs).prepDue h = (s.listHint h).prepDue h :=
    overAll_keep (f := fun x r => x.armPre r h.start (h.start - x.hintLead h) (some h.id)) (·.prepDue h)
      (fun _ _ => rfl) _ rs
  rw [State.enterHint_room hlen]
  simp only [hl, Bool.false_eq_true, if_false, harm]

end

/-- Settles O33: the port by the cases of the word, the scoreboard by the cases of the entry. -/
theorem hintsAreTaken : Obligations.HintsAreTaken := by
  unfold Obligations.HintsAreTaken
  intro s w par hw hs h seen
  rw [exec_hint hs]
  refine ⟨fun hp => congrArg _ (State.takeHint_parity hw hp), fun hp hx => congrArg _ (State.takeHint_invalid hw hp hx),
    fun hp hn hl hsp => ?_⟩
  have hv : s.hintValid w par = true := State.hintValid_iff.mpr ⟨⟨⟨hp, hsp⟩, hl⟩, hn⟩
  refine ⟨fun hr => congrArg _ (State.takeHint_discarded hw hp hv hr), fun hr => ?_⟩
  intro v u hlen e
  have henter : s.takeHint w par = u.enterHint h :=
    State.takeHint_enters hw hp hv hr rfl rfl (Nat.lt_succ_of_lt hlen)
  refine ⟨fun hlate => congrArg _ (henter.trans (State.enterHint_late hlen hlate)), fun hlate => ?_⟩
  have htime := henter.trans (State.enterHint_inTime hlen hlate)
  exact ⟨fun hd => congrArg _ (htime.trans (if_neg (ne_true_of_eq_false hd))),
    fun hd => congrArg _ (htime.trans (if_pos hd))⟩

end Sys2Proof.Machine
end

section
/-! SUPPORT. The learner's own fields (R219, R291, R297, R302, R303, R315, R316): what a change of recovery, a step of a
shard, a stopped pass and a reset cell leave of them, and what a step start and a commit make of them. -/

namespace Sys2Proof.Machine

/-! ## Sparse tables -/

theorem tabGet_tabPut_other {α : Type} (d : α) (l : List (Nat × α)) {a b : Nat} (x : α) (h : b ≠ a) :
    tabGet d (tabPut l a x) b = tabGet d l b := by
  induction l with
  | nil => exact if_neg h
  | cons p l ih =>
    rw [tabPut]
    split
    · exact if_neg h
    · split
      case isTrue hk => rw [tabGet, tabGet, if_neg h, if_neg (hk ▸ h)]
      case isFalse => rw [tabGet, tabGet, ih]

/-! ## What recovery leaves alone (R219) -/

section
variable {β : Type} (g : Learner → β) (hg : ∀ l x, g { l with rcv := x } = g l)
include hg

theorem State.rcvStep_keeps (s : State) (c q : Nat) : g (s.rcvStep c q).learn = g s.learn := by
  unfold State.rcvStep
  split <;> exact hg ..

theorem State.rcvUpdate_keeps (s : State) : g s.rcvUpdate.learn = g s.learn :=
  overAll_keep (f := fun u k => u.rcvStep (k / 3) (k % 3)) (fun u => g u.learn) (fun u _ => u.rcvStep_keeps g hg ..) _ _

theorem State.rcvForget_keeps (s : State) (c q : Nat) : g (s.rcvForget c q).learn = g s.learn := by
  unfold State.rcvForget
  split
  · exact hg ..
  · rfl

/-- R315: the end of a step. -/
theorem State.stepDone_keeps (s : State) : g s.stepDone.learn = g s.learn := by
  unfold State.stepDone
  split
  · rfl
  · rw [State.raiseReq_learn, State.rcvUpdate_keeps g hg]

/-- R289: a stored cell, whatever becomes of its confidence. -/
theorem State.storeCell_keeps (s : State) (r c : Nat) (x : Cell) :
    g (s.storeCell r c x).learn = g (s.putCell r c x).learn := by
  unfold State.storeCell
  extract_lets old t u
  have hu : u.learn = t.learn := State.count_learn ..
  split
  · rfl
  · split
    · rw [hu]
    · rw [State.rcvForget_keeps g hg, hu]

/-- R291: a cell with its reset values. -/
theorem State.resetCell_keeps (s : State) (r c : Nat) :
    g (s.resetCell r c).learn = g (s.putCell r c {}).learn := by
  have hfault (t : State) : (t.learnFault r).learn = t.learn := (t.moves_learnFault r).frame .learn (by decide)
  rw [State.resetCell, State.fire_learn, hfault, State.storeCell_keeps g hg]
  simp only [State.putCell, State.count_learn, State.parityError_learn]

end

/-- A stored cell is the one read. -/
theorem State.storeCell_cell (s : State) (r c : Nat) (x : Cell) : (s.storeCell r c x).cell r c = x := by
  have hcells : (s.storeCell r c x).learn.cells = tabPut s.learn.cells (cellKey r c) x :=
    s.storeCell_keeps Learner.cells (fun _ _ => rfl) r c x
  rw [State.cell, hcells, tabGet_tabPut_same]

theorem State.resetCell_cells (s : State) (r c : Nat) :
    (s.resetCell r c).learn.cells = tabPut s.learn.cells (cellKey r c) {} :=
  s.resetCell_keeps Learner.cells (fun _ _ => rfl) r c

theorem State.resetCell_shards (s : State) (r c : Nat) : (s.resetCell r c).learn.shards = s.learn.shards :=
  s.resetCell_keeps Learner.shards (fun _ _ => rfl) r c

theorem State.resetCell_blk (s : State) (r c : Nat) :
    (s.resetCell r c).blk = { s.blk with parityHour := s.blk.parityHour + 1 } := by
  have hfault (t : State) : (t.learnFault r).blk = t.blk := (t.moves_learnFault r).frame .blk (by decide)
  have hstore (t : State) : (t.storeCell r c {}).blk = t.blk := (t.moves_storeCell r c {}).frame .blk (by decide)
  rw [State.resetCell, State.fire_blk, hfault, hstore, State.count_blk, State.parityError_blk]

/-! ## What the steps and the stops of shards leave alone (R313 to R316) -/

section
variable {β : Type} (g : Learner → β) (hg : ∀ l x, g { l with shards := x } = g l)
include hg

theorem State.checkCounter_keeps (s : State) (bad : Bool) (k : Nat) : g (s.checkCounter bad k).learn = g s.learn := by
  unfold State.checkCounter
  extract_lets top t u
  have ht : t.learn = s.learn := by
    simp only [t]
    split
    · exact State.parityError_learn _
    · rfl
  split
  · rfl
  · rw [State.fire_learn, State.orBits_learn]
    simp only [u, State.countSat_learn]
    exact (hg ..).trans (congrArg g ht)

theorem State.stepShard_keeps (bad : List Nat) (s : State) (k : Nat) :
    g (State.stepShard bad s k).learn = g s.learn := by
  have hshard (t : State) (f : Shard → Shard) : g (t.modShard k f).learn = g t.learn := hg ..
  unfold State.stepShard
  extract_lets t p code cycles u
  have ht : g t.learn = g s.learn := s.checkCounter_keeps g hg ..
  split
  · rw [State.count_learn, hshard, ht]
  · exact (hshard ..).trans ht

theorem State.stopPass_keeps (s : State) (k code : Nat) : g (s.stopPass k code).learn = g s.learn := by
  unfold State.stopPass
  split
  · rfl
  · extract_lets done sats t u
    rw [State.fire_learn]
    exact hg ..

end

/-- R316: a running pass that has been stopped. -/
theorem State.stopPass_shard {s : State} {k : Nat} (code : Nat) (hk : k < s.learn.shards.length)
    (hr : (s.shard k).running = true) : (s.stopPass k code).shard k =
      { s.shard k with
        running := false, shadow := [], upd := [], sats := [], stepOpen := false, outcome := code
        stopped := (s.shard k).processed s.now } := by
  have hlearn : (s.stopPass k code).learn = (s.modShard k fun x => { x with
      running := false, shadow := [], upd := [], sats := [], stepOpen := false, outcome := code
      stopped := (s.shard k).processed s.now }).learn := by
    rw [State.stopPass, hr, Bool.not_true, if_neg Bool.false_ne_true]
    exact State.fire_learn ..
  rw [State.shard, hlearn]
  exact s.modShard_shard_same _ hk

/-! ## The settings of a group (R302, R303) -/

/-- R302, R303: what a step start latches for a group. -/
def State.groupSettings (s : State) (g : Nat) : GroupLatch :=
  { eta := if s.get (Obj.group_eta_written g) = 1 then s.get (Obj.group_eta g) else (s.latched g).eta
    decay := s.get (Obj.group_decay g), slot := s.getN (Obj.group_rule g)
    frozen := s.get (Obj.group_frozen g) == 1 }

/-- The settings of a group are its five registers and the rate that it had. -/
theorem State.groupSettings_congr {s t : State} {g : Nat} (hl : t.latched g = s.latched g)
    (h : ∀ (n : Nat) (d : Int), 1 ≤ n → n ≤ 5 → t.get ⟨0x610000 + n + 256 * g, d⟩ = s.get ⟨0x610000 + n + 256 * g, d⟩) :
    t.groupSettings g = s.groupSettings g := by
  have heta : t.get (Obj.group_eta g) = s.get (Obj.group_eta g) := h 1 256 (by decide) (by decide)
  have hdecay : t.get (Obj.group_decay g) = s.get (Obj.group_decay g) := h 2 0 (by decide) (by decide)
  have hrule : t.get (Obj.group_rule g) = s.get (Obj.group_rule g) := h 3 8 (by decide) (by decide)
  have hfrozen : t.get (Obj.group_frozen g) = s.get (Obj.group_frozen g) := h 4 0 (by decide) (by decide)
  have hwritten : t.get (Obj.group_eta_written g) = s.get (Obj.group_eta_written g) := h 5 0 (by decide) (by decide)
  simp only [State.groupSettings, State.getN, heta, hdecay, hrule, hfrozen, hwritten, hl]

/-- The registers that the latching of group `x` writes. -/
theorem State.latchGroup_get (s : State) {x : Nat} {r : Reg} (hw : r.addr ≠ (Obj.group_eta_written x).addr)
    (ho : r.addr ≠ (Obj.group_eta_stale x).addr) (hc : r.addr ≠ Obj.learn_eta_stale_count.addr)
    (hi : r.addr ≠ Obj.learn_irq_status.addr) : (s.latchGroup x).get r = s.get r := by
  unfold State.latchGroup
  extract_lets old written new t u cells
  have ht : t.get r = s.get r := by rw [State.get_set_other _ _ ho, State.get_set_other _ _ hw]
  show u.get r = _
  simp only [u]
  split
  · exact ht
  · rw [State.orBits, State.get_set_other _ _ hi, State.get_count_other _ _ _ hc, ht]

/-- R302, R311: latching changes the group's settings, and the marks of cells whose rule has changed. -/
theorem State.latchGroup_learn (s : State) (x : Nat) : ∃ cells, (s.latchGroup x).learn =
    { s.learn with latch := s.learn.latch.set x (s.groupSettings x), cells } := by
  unfold State.latchGroup
  extract_lets old written new t u cells
  have hu : u.learn = s.learn := by
    simp only [u, apply_ite State.learn, State.orBits_learn, State.count_learn, ite_self]
    rfl
  have hnew : new = s.groupSettings x := by simp only [new, written, State.groupSettings, beq_iff_eq, old]
  refine ⟨cells, ?_⟩
  show ({ u.learn with latch := u.learn.latch.set x new, cells } : Learner) = _
  rw [hu, hnew]

theorem State.latchGroup_keeps {β : Type} (f : Learner → β) (hf : ∀ l x c, f { l with latch := x, cells := c } = f l)
    (s : State) (x : Nat) : f (s.latchGroup x).learn = f s.learn := by
  obtain ⟨cells, h⟩ := s.latchGroup_learn x
  rw [h, hf]

theorem State.latchGroup_latch (s : State) (x : Nat) :
    (s.latchGroup x).learn.latch = s.learn.latch.set x (s.groupSettings x) := by
  obtain ⟨cells, h⟩ := s.latchGroup_learn x
  rw [h]

theorem State.latchGroup_latched_same {s : State} {x : Nat} (h : x < s.learn.latch.length) :
    (s.latchGroup x).latched x = s.groupSettings x := by
  rw [State.latched, State.latchGroup_latch, List.getD_eq_getElem?_getD, List.getElem?_set_self h, Option.getD_some]

theorem State.latchGroup_latched_other (s : State) {x g : Nat} (h : x ≠ g) :
    (s.latchGroup x).latched g = s.latched g := by
  rw [State.latched, State.latchGroup_latch, List.getD_eq_getElem?_getD, List.getElem?_set_ne h,
    ← List.getD_eq_getElem?_getD]
  rfl

/-- The settings of one group are none of another's. -/
theorem State.latchGroup_groupSettings (s : State) {x g : Nat} (h : x ≠ g) :
    (s.latchGroup x).groupSettings g = s.groupSettings g := by
  refine State.groupSettings_congr (s.latchGroup_latched_other h) fun n d h1 h5 => ?_
  apply State.latchGroup_get <;>
    simp only [Obj.group_eta_written, Obj.group_eta_stale, Obj.learn_eta_stale_count, Obj.learn_irq_status] <;> omega

/-- R302: every group listed latches its settings. -/
theorem State.overAll_latchGroup {l : List Nat} (hl : l.Nodup) {s : State} {g : Nat}
    (h : g < s.learn.latch.length) :
    (overAll s l State.latchGroup).latched g = if g ∈ l then s.groupSettings g else s.latched g := by
  induction l generalizing s with
  | nil => rfl
  | cons x l ih =>
    obtain ⟨hx, hnd⟩ := List.nodup_cons.mp hl
    have hlen : g < (s.latchGroup x).learn.latch.length := by
      rw [State.latchGroup_latch, List.length_set]
      exact h
    rw [overAll_cons, ih hnd hlen]
    by_cases hg : x = g
    · subst hg
      rw [if_neg hx, if_pos List.mem_cons_self, State.latchGroup_latched_same h]
    · simp only [s.latchGroup_groupSettings hg, s.latchGroup_latched_other hg, List.mem_cons, Ne.symm hg, false_or]

/-! ## The step start (R297) -/

/-- R297: the accumulators of the millisecond are handed to the pass. -/
def State.handAcc (s : State) : State :=
  let s := s.count Obj.learn_global_steps 32
  { s with learn := { s.learn with accOld := s.learn.acc, acc := [], stepPending := false } }

theorem State.handAcc_learn (s : State) :
    s.handAcc.learn = { s.learn with accOld := s.learn.acc, acc := [], stepPending := false } := by
  simp only [State.handAcc, State.count_learn]

/-- R302, R310: the accumulators handed over and every group latched. -/
def State.stepLatched (s : State) : State := overAll s.handAcc (List.range 64) State.latchGroup

theorem exec_learnerStep {s : State} (bad : List Nat) (hl : s.cfg.hasLearner = true)
    (hp : s.learn.stepPending = true) (he : s.engineOn = true) (ht : s.eng.zeroAt + 900 ≤ s.now) :
    exec (.learnerStep bad) s = .next (s.learnerStep bad) := by
  show execLearnerStep s bad = _
  simp only [execLearnerStep, hl, hp, he, ht, decide_true, Bool.and_self, State.when_true]

/-- After the latching, the shards and the recovery are all that changes, and the slots that go into service. -/
theorem State.learnerStep_keeps {β : Type} (f : Learner → β) (hr : ∀ l x, f { l with rcv := x } = f l)
    (hs : ∀ l x, f { l with shards := x } = f l) (bad : List Nat) (s : State) :
    f (s.learnerStep bad).learn = f s.stepLatched.slotsServe.learn := by
  have hshards (t : State) : f (overAll t (List.range 8) (State.stepShard bad)).learn = f t.learn :=
    overAll_keep (fun u => f u.learn) (fun u k => State.stepShard_keeps f hs bad u k) _ _
  exact (State.stepDone_keeps f hr _).trans ((hshards _).trans (hr ..))

theorem State.stepLatched_keeps {β : Type} (f : Learner → β) (hf : ∀ l x c, f { l with latch := x, cells := c } = f l)
    (s : State) : f s.stepLatched.learn = f s.handAcc.learn :=
  overAll_keep (fun u => f u.learn) (fun u x => u.latchGroup_keeps f hf x) _ _

theorem State.stepLatched_latched {s : State} {g : Nat} (hlen : s.learn.latch.length = 64) (hg : g < 64) :
    s.stepLatched.latched g = s.groupSettings g := by
  have hsettings : s.handAcc.groupSettings g = s.groupSettings g :=
    State.groupSettings_congr (by rw [State.latched, State.latched, State.handAcc_learn]) fun n d _ _ =>
      s.get_count_other _ _ (by simp only [Obj.learn_global_steps]; omega)
  have hlen' : g < s.handAcc.learn.latch.length := hlen.symm ▸ hg
  rw [State.stepLatched, State.overAll_latchGroup List.nodup_range hlen', if_pos (List.mem_range.mpr hg), hsettings]

/-! ## A commit (R315) -/

theorem cellKey_div_mod (a : Nat) : cellKey (a / 32) (a % 32) = a := Nat.div_add_mod a 32

theorem State.commitCell_learn (s : State) (a : Nat) (y : Cell) : (s.commitCell a y).learn =
    { s.learn with cells := tabPut s.learn.cells a ((tabGet {} s.learn.cells a).commit y) } := by
  unfold State.commitCell
  extract_lets x t
  have ht : t.learn = s.learn := by simp only [t, apply_ite State.learn, State.count_learn, ite_self]
  have hx : x = tabGet {} s.learn.cells a := by simp only [x, State.cell, cellKey_div_mod]
  rw [State.putCell, cellKey_div_mod, ht, hx]

/-- R315: the cells of a shadow copy. -/
def State.commitCells (s : State) (l : List (Nat × Cell)) : State := overAll s l fun s p => s.commitCell p.1 p.2

/-- A commit changes nothing of the learner but the cells. -/
theorem State.commitCells_keeps {β : Type} (f : Learner → β) (hf : ∀ l x, f { l with cells := x } = f l) (s : State)
    (l : List (Nat × Cell)) : f (s.commitCells l).learn = f s.learn :=
  overAll_keep (f := fun s (p : Nat × Cell) => s.commitCell p.1 p.2) (fun u => f u.learn)
    (fun u p => by rw [State.commitCell_learn, hf]) _ _

theorem State.commitCells_other {l : List (Nat × Cell)} {a : Nat} (h : a ∉ l.map (·.1)) (s : State) :
    tabGet {} (s.commitCells l).learn.cells a = tabGet {} s.learn.cells a := by
  induction l generalizing s with
  | nil => rfl
  | cons p l ih =>
    obtain ⟨hp, hl⟩ := not_or.mp (mt List.mem_cons.mpr h)
    show tabGet {} ((s.commitCell p.1 p.2).commitCells l).learn.cells a = _
    rw [ih hl, State.commitCell_learn]
    exact tabGet_tabPut_other _ _ _ hp

theorem State.commitCells_mem {l : List (Nat × Cell)} (hl : (l.map (·.1)).Nodup) {p : Nat × Cell} (hp : p ∈ l)
    (s : State) : tabGet {} (s.commitCells l).learn.cells p.1 = (tabGet {} s.learn.cells p.1).commit p.2 := by
  induction l generalizing s with
  | nil => exact absurd hp List.not_mem_nil
  | cons x l ih =>
    obtain ⟨hx, hnd⟩ := List.nodup_cons.mp hl
    show tabGet {} ((s.commitCell x.1 x.2).commitCells l).learn.cells p.1 = _
    rcases List.mem_cons.mp hp with rfl | hmem
    · rw [State.commitCells_other hx, State.commitCell_learn]
      exact tabGet_tabPut_same ..
    · have hne : p.1 ≠ x.1 := fun he => hx (List.mem_map.mpr ⟨p, hmem, he⟩)
      rw [ih hnd hmem, State.commitCell_learn]
      exact congrArg (Cell.commit · p.2) (tabGet_tabPut_other _ _ _ hne)

/-- R315: a shard whose pass has committed. -/
def Shard.committed (x : Shard) : Shard :=
  { x with running := false, shadow := [], upd := [], sats := [], stepOpen := false, outcome := 0
           counter := min 16777215 (x.counter + 1) }

/-- R315: a commit is the commit of the cells and the end of the shard's pass, but for the recovery. -/
theorem State.passCommit_keeps {β : Type} (f : Learner → β) (hr : ∀ l x, f { l with rcv := x } = f l) (s : State)
    (k : Nat) : f (s.passCommit k).learn =
      f ((s.commitCells (s.shard k).shadow).modShard k Shard.committed).learn := by
  unfold State.passCommit
  extract_lets x t u v w
  have hu : u.learn = t.learn :=
    overAll_keep (f := fun s (p : Nat × Nat) => s.count (Obj.group_updates p.1) 32 p.2) State.learn
      (fun _ _ => State.count_learn ..) _ _
  have hv : v.learn = t.learn := by simp only [v, State.count_learn, hu]
  have hw : w.learn = (t.modShard k Shard.committed).learn := by
    show ({ v.learn with shards := v.learn.shards.modify k Shard.committed } : Learner) = _
    rw [hv]
    rfl
  split
  · rw [State.stepDone_keeps f hr, hw]
    rfl
  · rw [hw]
    rfl

theorem State.passCommit_cells (s : State) (k : Nat) :
    (s.passCommit k).learn.cells = (s.commitCells (s.shard k).shadow).learn.cells :=
  s.passCommit_keeps Learner.cells (fun _ _ => rfl) k

theorem State.passCommit_shard {s : State} {k : Nat} (hk : k < s.learn.shards.length) :
    (s.passCommit k).shard k = (s.shard k).committed := by
  have hshards : (s.passCommit k).learn.shards = s.learn.shards.modify k Shard.committed := by
    rw [s.passCommit_keeps Learner.shards (fun _ _ => rfl) k]
    exact congrArg (List.modify · k Shard.committed) (s.commitCells_keeps Learner.shards (fun _ _ => rfl) _)
  rw [State.shard, hshards]
  exact getD_modify_same _ _ hk

theorem exec_passCommit {s : State} {k : Nat} (hk : k < 8) (hr : (s.shard k).running = true) : exec (.passCommit k) s =
    .next (if ((s.shard k).doneAt ≤ s.now ∧ (s.shard k).xfer ≠ 1) ∧
      s.eng.zeroAt + 800 ≤ s.now ∧ s.now < s.eng.zeroAt + 1000 then s.passCommit k else s) := by
  show execPassCommit k s = _
  simp only [execPassCommit, within, if_pos hk, State.when, hr, State.commitWindow, Bool.true_and, Bool.and_eq_true,
    decide_eq_true_eq, bne_iff_ne]

/-! ## A discard and a parity error (R291, R316) -/

theorem exec_passDiscard {s : State} {k : Nat} (hk : k < 8) (hl : s.cfg.hasLearner = true)
    (hr : (s.shard k).running = true) (x : Option (Nat × Nat)) :
    exec (.passDiscard k x) s = .next (s.passDiscard k x) := by
  show execPassDiscard k x s = _
  simp only [execPassDiscard, within, if_pos hk, hl, hr, Bool.and_self, State.when_true]

theorem State.passDiscard_none (s : State) (k : Nat) :
    (s.passDiscard k none).learn = (s.stopPass k 9).learn := State.parityError_learn _

theorem State.passDiscard_cell {s : State} (k : Nat) {r c : Nat} (hr : Config.popRegion s.cfg r = true) (hc : c < 32) :
    s.passDiscard k (some (r, c)) = (s.stopPass k 9).resetCell r c := by
  simp only [State.passDiscard, State.stopPass_cfg, hr, hc, decide_true, Bool.and_self, if_true]

theorem State.stopPass_cells (s : State) (k code : Nat) : (s.stopPass k code).learn.cells = s.learn.cells :=
  s.stopPass_keeps Learner.cells (fun _ _ => rfl) k code

theorem exec_cellParityError_cell {s : State} {r c : Nat} (hl : s.cfg.hasLearner = true)
    (hr : Config.popRegion s.cfg r = true) (hc : c < 32) :
    exec (.cellParityError (.cell r c)) s = .next ((s.stopPass (shardOf r) 9).resetCell r c) := by
  show onRegion s r _ = _
  rw [onRegion_pop hr]
  simp only [hl, hc, decide_true, Bool.and_self, State.when_true, State.cellParity]

theorem exec_cellParityError_droop {s : State} {c q : Nat} (hl : s.cfg.hasLearner = true) (hc : c < 32) (hq : q < 3) :
    exec (.cellParityError (.droop c q)) s = .next (s.cellParity (.droop c q)) := by
  show onRail s q _ = _
  simp only [onRail, within, if_pos hq, hl, hc, decide_true, Bool.and_self, State.when_true]

theorem State.moves_cellParity_droop (s : State) (c q : Nat) :
    s.Moves [.blk, .learn, .recd, .regs] (s.cellParity (.droop c q)) :=
  ((s.moves_parityError.mono rfl).put_learn rfl).step (State.moves_fire ..) rfl

/-! ## The build of a slot (R310) -/

theorem exec_slotBuildEnd {s : State} {k n : Nat} {x : SlotSet} (hk : k < 8) (hb : (s.slot k).build = some (x, n)) :
    exec (.slotBuildEnd k) s = .next (s.modSlot k fun y => { y with build := none, ready := some x }) := by
  show execSlotBuildEnd k s = _
  simp only [execSlotBuildEnd, within, if_pos hk, hb]

/-! ## What a step start and a commit leave -/

theorem State.slotsServe_latch (s : State) : s.slotsServe.learn.latch = s.learn.latch := rfl

theorem State.slotsServe_slots (s : State) : s.slotsServe.learn.slots =
    s.learn.slots.map fun x => { x with serve := x.ready.getD x.serve, ready := none } := rfl

section
variable (s : State) (bad : List Nat)

/-- R297: beside the slots, what a step start hands over is not touched again. -/
theorem State.learnerStep_handed {β : Type} (f : Learner → β) (hr : ∀ l x, f { l with rcv := x } = f l)
    (hs : ∀ l x, f { l with shards := x } = f l) (hf : ∀ l x c, f { l with latch := x, cells := c } = f l)
    (hv : ∀ l x, f { l with slots := x } = f l) : f (s.learnerStep bad).learn =
      f { s.learn with accOld := s.learn.acc, acc := [], stepPending := false } := by
  have hserve : f s.stepLatched.slotsServe.learn = f s.stepLatched.learn := hv ..
  rw [State.learnerStep_keeps f hr hs, hserve, State.stepLatched_keeps f hf, State.handAcc_learn]

theorem State.learnerStep_accOld : (s.learnerStep bad).learn.accOld = s.learn.acc :=
  s.learnerStep_handed bad Learner.accOld (fun _ _ => rfl) (fun _ _ => rfl) (fun _ _ _ => rfl) fun _ _ => rfl

theorem State.learnerStep_acc : (s.learnerStep bad).learn.acc = [] :=
  s.learnerStep_handed bad Learner.acc (fun _ _ => rfl) (fun _ _ => rfl) (fun _ _ _ => rfl) fun _ _ => rfl

theorem State.learnerStep_stepPending : (s.learnerStep bad).learn.stepPending = false :=
  s.learnerStep_handed bad Learner.stepPending (fun _ _ => rfl) (fun _ _ => rfl) (fun _ _ _ => rfl) fun _ _ => rfl

/-- R310: built sets go into service. -/
theorem State.learnerStep_slots : (s.learnerStep bad).learn.slots =
    s.learn.slots.map fun x => { x with serve := x.ready.getD x.serve, ready := none } := by
  rw [State.learnerStep_keeps Learner.slots (fun _ _ => rfl) fun _ _ => rfl, State.slotsServe_slots,
    s.stepLatched_keeps Learner.slots fun _ _ _ => rfl, State.handAcc_learn]

theorem State.learnerStep_latched (hlen : s.learn.latch.length = 64) {g : Nat} (hg : g < 64) :
    (s.learnerStep bad).latched g = s.groupSettings g := by
  rw [State.latched, State.learnerStep_keeps Learner.latch (fun _ _ => rfl) fun _ _ => rfl, State.slotsServe_latch,
    ← State.latched, State.stepLatched_latched hlen hg]

end

/-- R315: what a commit leaves of the cells. -/
theorem State.passCommit_cell {s : State} {k : Nat} (hnd : ((s.shard k).shadow.map (·.1)).Nodup) :
    (∀ p ∈ (s.shard k).shadow,
      (s.passCommit k).cell (p.1 / 32) (p.1 % 32) = (s.cell (p.1 / 32) (p.1 % 32)).commit p.2) ∧
    ∀ r c, c < 32 → cellKey r c ∉ (s.shard k).shadow.map (·.1) → (s.passCommit k).cell r c = s.cell r c := by
  simp only [State.cell, State.passCommit_cells, cellKey_div_mod]
  exact ⟨fun p hp => State.commitCells_mem hnd hp s, fun r c _ h => State.commitCells_other h s⟩

/-- Settles O36: a step start by what no later part of it touches, a commit by induction on the shadow copy, whose
keys differ. -/
theorem learnerStepsAndPasses : Obligations.LearnerStepsAndPasses := by
  unfold Obligations.LearnerStepsAndPasses
  refine ⟨fun s bad hl hp he ht hlen => ⟨_, exec_learnerStep bad hl hp he ht, s.learnerStep_accOld bad,
      s.learnerStep_acc bad, s.learnerStep_stepPending bad, s.learnerStep_slots bad,
      fun _ hg => s.learnerStep_latched bad hlen hg⟩,
    fun s k hk h8 hr => ?_, fun s hl => ⟨fun r c hpop hc => ?_, fun c q hc hq => ?_⟩,
    fun s k n x hk hb => exec_slotBuildEnd hk hb⟩
  · have hlen : k < s.learn.shards.length := h8.symm ▸ hk
    have hstop := State.stopPass_shard 9 hlen hr
    refine ⟨fun hd hx h800 h1000 hnd => ?_, fun hnot => ?_, fun hl => ⟨?_, fun r c hpop hc => ?_⟩⟩
    · obtain ⟨hcommit, hother⟩ := State.passCommit_cell hnd
      refine ⟨s.passCommit k, (exec_passCommit hk hr).trans (congrArg _ (if_pos ⟨⟨hd, hx⟩, h800, h1000⟩)), ?_⟩
      rw [State.passCommit_shard hlen]
      exact ⟨rfl, rfl, rfl, rfl, hcommit, hother⟩
    · rw [exec_passCommit hk hr, if_neg]
      omega
    · refine ⟨_, exec_passDiscard hk hl hr none, ?_⟩
      rw [State.shard, State.passDiscard_none, ← State.shard, hstop]
      exact ⟨rfl, rfl, rfl, rfl, s.stopPass_cells k 9⟩
    · refine ⟨_, exec_passDiscard hk hl hr _, ?_⟩
      rw [State.passDiscard_cell k hpop hc, State.resetCell_cells, State.stopPass_cells, State.shard,
        State.resetCell_shards, ← State.shard, hstop]
      exact ⟨rfl, rfl, rfl⟩
  · have hcells : ((s.stopPass (shardOf r) 9).resetCell r c).learn.cells = tabPut s.learn.cells (cellKey r c) {} := by
      rw [State.resetCell_cells, State.stopPass_cells]
    refine ⟨_, exec_cellParityError_cell hl hpop hc, hcells, ?_, ?_⟩
    · rw [State.cell, hcells, tabGet_tabPut_same]
    · rw [State.resetCell_blk, State.stopPass_blk]
  · have hexec := exec_cellParityError_droop hl hc hq
    refine ⟨_, hexec, ?_, (s.moves_cellParity_droop c q).frame⟩
    simp only [State.cellParity, State.fire_learn, State.parityError_learn]

end Sys2Proof.Machine
end

section
/-! SUPPORT. Activity frames (R280) and predictions (R283 to R289): which frames are taken, and the cell of a region
after a usable period. -/

namespace Sys2Proof.Machine

/-! ## Activity frames -/

/-- R280: every byte of a frame agrees with its parity bit. -/
def frameParityOk (data par : Nat) : Bool :=
  (List.range 16).all fun n => (ones 8 (byteOf data n) + b2n (bit par n)) % 2 == 0

theorem frameParityOk_iff {data par : Nat} :
    frameParityOk data par = true ↔ ∀ n, n < 16 → (ones 8 (byteOf data n) + b2n (bit par n)) % 2 = 0 := by
  simp only [frameParityOk, List.all_eq_true, List.mem_range, beq_iff_eq]

theorem frameParityOk_false {data par : Nat} (h : ∃ n, n < 16 ∧ (ones 8 (byteOf data n) + b2n (bit par n)) % 2 = 1) :
    frameParityOk data par = false := by
  obtain ⟨n, hn, hodd⟩ := h
  refine Bool.eq_false_iff.mpr fun hok => ?_
  have heven := frameParityOk_iff.mp hok n hn
  omega

section
variable {s : State} {r : Nat} (data par : Nat)

theorem exec_activityFrame (hr : r < 128) (ha : s.blk.st.active = true) :
    exec (.activityFrame r data par) s = .next (s.activityFrame r data par) := by
  show execActivityFrame r data par s = _
  simp only [execActivityFrame, within, if_pos hr, ha, State.when_true]

/-- R280, R293: a frame that is not taken counts where there is a learner. -/
theorem State.actReject_counts (hl : s.cfg.hasLearner = true) : s.actReject = s.count Obj.learn_act_missing 32 :=
  if_pos hl

theorem State.activityFrame_unpopulated (hp : Config.popRegion s.cfg r = false) :
    s.activityFrame r data par = s.actReject := by
  simp only [State.activityFrame, hp, Bool.not_false, if_true]

/-- R280: of a populated region a frame in good form and in time is taken; any other leaves the region none. -/
theorem State.activityFrame_eq (hp : Config.popRegion s.cfg r = true) : s.activityFrame r data par =
    if frameParityOk data par = true ∧ s.engineOn = true ∧ s.now ≤ s.eng.tickAt + 300 then
      s.modSup r fun u => { u with frame := some ((List.range 16).map (byteOf data)), frameBad := false }
    else s.actReject.modSup r fun u => { u with frame := none, frameBad := true } := by
  unfold State.activityFrame
  extract_lets good
  have hgood : good = frameParityOk data par := rfl
  have htaken : (!good || !s.engineOn || decide (s.eng.tickAt + 300 < s.now)) = true ↔
      ¬ (frameParityOk data par = true ∧ s.engineOn = true ∧ s.now ≤ s.eng.tickAt + 300) := by
    rw [hgood, Bool.or_eq_true, Bool.or_eq_true, Bool.not_eq_true', Bool.not_eq_true', decide_eq_true_eq,
      Decidable.not_and_iff_not_or_not, Decidable.not_and_iff_not_or_not, Bool.not_eq_true, Bool.not_eq_true, Nat.not_le,
      or_assoc]
  rw [if_neg (by rw [hp]; exact Bool.false_ne_true)]
  simp only [htaken, ite_not]

end

/-! ## The cell after a usable period (R284, R288, R289) -/

/-- R284, R288: means, watchdog and count after a period with features `x`. -/
def State.liveMeans (s : State) (r c : Nat) (x : List Nat) : Cell :=
  let y := s.cell r c
  { y with
    xbar := List.zipWith meanStep y.xbar x
    a := watchdogStep y.a (((s.region r).sup.iReg : Int) - s.clampPred r c (y.raw x)).natAbs (s.getN Obj.conf_shift)
    n := min 65535 (y.n + 1) }

/-- R287: the clamp that a prediction meets is counted. -/
def State.countClamp (s : State) (r c : Nat) (raw : Int) : State :=
  if raw < s.predFloor r c then s.count Obj.learn_clamp_floor 32
  else if raw > s.predCeil r c then s.count Obj.learn_clamp_ceil 32 else s

/-- R297, R298: a period of a millisecond with a step enters its accumulators. -/
def State.accumulateDue (s : State) (r c : Nat) (g : Int) (x : List Nat) : State :=
  if s.learn.dueRun then s.accumulate r c g x else s

section
variable (s : State) (r c : Nat)

theorem State.countClamp_getN (raw : Int) {g : Reg} (hf : g.addr ≠ Obj.learn_clamp_floor.addr)
    (hc : g.addr ≠ Obj.learn_clamp_ceil.addr) : (s.countClamp r c raw).getN g = s.getN g := by
  unfold State.countClamp
  split
  · exact s.getN_set_other _ hf
  · split
    · exact s.getN_set_other _ hc
    · rfl

theorem State.moves_countClamp (raw : Int) : s.Moves [.regs] (s.countClamp r c raw) :=
  .ite (s.moves_count ..) (.ite (s.moves_count ..) (.refl _ s))

/-- A count is no term of a prediction's clamps. -/
theorem State.countClamp_clampPred (raw y : Int) : (s.countClamp r c raw).clampPred r c y = s.clampPred r c y := by
  have hpct : (s.countClamp r c raw).getN Obj.pred_floor_pct = s.getN Obj.pred_floor_pct :=
    s.countClamp_getN r c raw (by decide) (by decide)
  have hframe := (s.moves_countClamp r c raw).frame
  have hhints : (s.countClamp r c raw).hints = s.hints := hframe .hints (by decide)
  have hregions : (s.countClamp r c raw).regions = s.regions := hframe .regions (by decide)
  simp only [State.clampPred, State.predCeil, State.predFloor, State.staticCurrent, State.region, hpct, hhints,
    hregions]

theorem State.accumulateDue_getN (v : Int) (x : List Nat) {g : Reg}
    (h : g.addr ≠ (Obj.shard_grad_sat (shardOf r)).addr) :
    (s.accumulateDue r c v x).getN g = s.getN g := by
  unfold State.accumulateDue
  split
  · exact State.getN_set_other _ _ h
  · rfl

theorem State.liveOne_eq (x : List Nat) : s.liveOne r c x =
    let y := s.cell r c
    let raw := y.raw x
    let t := s.countClamp r c raw
    let u := t.accumulateDue r c (clampI (-4096) 4095 (raw - (s.region r).sup.iReg)) x
    let z : Cell := { y with
      xbar := List.zipWith meanStep y.xbar x
      a := watchdogStep y.a (((s.region r).sup.iReg : Int) - t.clampPred r c raw).natAbs (u.getN Obj.conf_shift)
      n := min 65535 (y.n + 1) }
    u.storeCell r c { z with conf := u.confAfter z } := rfl

/-- R284, R288, R289: the cell follows from the measured current and the clamped prediction. -/
theorem State.liveOne_cell (x : List Nat) : (s.liveOne r c x).cell r c =
    { s.liveMeans r c x with conf := s.confAfter (s.liveMeans r c x) } := by
  have hget {g : Reg} (hf : g.addr ≠ Obj.learn_clamp_floor.addr) (hc : g.addr ≠ Obj.learn_clamp_ceil.addr)
      (hs : g.addr < 0x63000B) (raw v : Int) :
      ((s.countClamp r c raw).accumulateDue r c v x).getN g = s.getN g := by
    have hne : g.addr ≠ (Obj.shard_grad_sat (shardOf r)).addr := by
      simp only [Obj.shard_grad_sat]
      omega
    rw [State.accumulateDue_getN _ _ _ _ _ hne, State.countClamp_getN _ _ _ _ hf hc]
  have hshift := @hget Obj.conf_shift (by decide) (by decide) (by decide)
  have hlimit := @hget Obj.conf_limit (by decide) (by decide) (by decide)
  have hobs := @hget Obj.conf_min_obs (by decide) (by decide) (by decide)
  rw [State.liveOne_eq]
  simp only [State.storeCell_cell, State.countClamp_clampPred, hshift, State.confAfter, hlimit, hobs]
  rfl

/-- R279: a region with a frame reports its tag. -/
theorem State.liveRegion_frame {x : List Nat} (hr : r < s.regions.length) (hd : (s.region r).sup.tagDue = some c)
    (hf : (s.region r).sup.frame = some x) :
    (s.liveRegion r).cell r c = { s.liveMeans r c x with conf := s.confAfter (s.liveMeans r c x) } ∧
    ((s.liveRegion r).region r).sup.tag = c ∧ ((s.liveRegion r).region r).sup.tagDue = none := by
  have heq : s.liveRegion r = (s.liveOne r c x).modSup r fun u => { u with tag := c, tagDue := none } := by
    simp only [State.liveRegion, hd, hf]
  have hregions : (s.liveOne r c x).regions = s.regions := (s.moves_liveOne r c x).frame .regions (by decide)
  have hregion := (s.liveOne r c x).modRegion_region_same
    (fun y => { y with sup := { y.sup with tag := c, tagDue := none } }) (hregions.symm ▸ hr)
  rw [heq, State.modSup_eq, hregion]
  exact ⟨s.liveOne_cell r c x, rfl, rfl⟩

/-- R279: a period without a frame is unusable. -/
theorem State.liveRegion_unusable (hd : (s.region r).sup.tagDue = some c) (hf : (s.region r).sup.frame = none) :
    s.liveRegion r = s.modSup r fun u => { u with tag := 0xFF, tagDue := none } := by
  simp only [State.liveRegion, hd, hf]

end

/-! ## The commands (R286) -/

theorem exec_livePredictions {s : State} (hl : s.cfg.hasLearner = true) :
    exec .livePredictions s = .next (overAll s (Config.regions s.cfg) State.liveRegion) := by
  show execLivePredictions s = _
  rw [execLivePredictions, hl, State.when_true]

theorem exec_forwardRefresh {s : State} (hl : s.cfg.hasLearner = true) (ha : s.blk.st.active = true) :
    exec .forwardRefresh s = .next { s with learn := { s.learn with
      fwd := (Config.regions s.cfg).flatMap fun r =>
        (List.range 32).map fun c => (cellKey r c, (s.clampPred r c (s.cell r c).forward).toNat) } } := by
  show execForwardRefresh s = _
  rw [execForwardRefresh, hl, ha]
  rfl

/-- Settles O35: a frame by the cases of the port, a period by the one cell that it stores, whose settings no count
of the period touches. -/
theorem predictionsFollowActivity : Obligations.PredictionsFollowActivity := by
  unfold Obligations.PredictionsFollowActivity
  refine ⟨fun s r data par hr ha => ?_, fun s hl => ⟨exec_livePredictions hl, fun r c hlen hd =>
    ⟨s.liveRegion_unusable r c hd, ?_⟩⟩, fun s hl ha => ?_⟩
  · rw [exec_activityFrame data par hr ha]
    refine ⟨fun hp hl => ?_, fun hp he ht => ⟨fun hok => ?_, fun hbad hl => ?_⟩⟩
    · rw [State.activityFrame_unpopulated data par hp, State.actReject_counts hl]
    · rw [State.activityFrame_eq data par hp, if_pos ⟨frameParityOk_iff.mpr hok, he, ht⟩]
    · rw [State.activityFrame_eq data par hp, if_neg fun h => ne_true_of_eq_false (frameParityOk_false hbad) h.1,
        State.actReject_counts hl]
  · rintro x y hf rfl
    obtain ⟨hcell, htag, hdue⟩ := s.liveRegion_frame r c hlen hd hf
    refine ⟨_, rfl, ?_⟩
    rw [hcell]
    exact ⟨rfl, rfl, rfl, rfl, rfl, rfl, rfl, rfl, htag, hdue⟩
  · exact ⟨_, exec_forwardRefresh hl ha, ((State.Moves.refl _ s).put_learn rfl).frame, rfl⟩

end Sys2Proof.Machine
end

section
/-! SUPPORT. A BLOB of several segments as one write (R441): every frame but the last fills the session's buffer, and
the last one brings the whole value to the object's rule. -/

namespace Sys2Proof.Machine

/-- Segments that have come change nothing but the sessions and the count of requests. -/
structure State.SegmentsCame (s u : State) : Prop where
  frame : State.Frame [.dict, .regs] s u
  get : ∀ g : Reg, g.addr ≠ Obj.request_count.addr → u.get g = s.get g

/-- R441: frame `j` of the `n` frames that carry `l`. -/
def State.putSegment (p : Path) (b idx sub : Nat) (l : List Byte) (n : Nat) (s : State) (j : Nat) : State :=
  s.request p { op := opWrite, sess := b, idx, sub, flags := if j + 1 = n then 1 else 0, off := pathRoom p * j
                data := slice l (pathRoom p * j) (min (pathRoom p) (l.length - pathRoom p * j)) }

theorem State.putBytes_eq (s : State) (p : Path) (b idx sub : Nat) (l : List Byte) :
    s.putBytes p b idx sub l = overAll s (List.range (max 1 (ceilDiv l.length (pathRoom p))))
      (State.putSegment p b idx sub l (max 1 (ceilDiv l.length (pathRoom p)))) := rfl

theorem overAll_range_succ (s : State) (n : Nat) (f : State → Nat → State) :
    overAll s (List.range (n + 1)) f = f (overAll s (List.range n) f) n := by
  simp only [overAll, List.range_succ, List.foldl_append, List.foldl_cons, List.foldl_nil]

theorem pathRoom_pos (p : Path) : 0 < pathRoom p := by cases p <;> decide

theorem pathRoom_le (p : Path) : pathRoom p ≤ 64 := by cases p <;> decide

/-- The frames before the last are full, and the last holds what is left. -/
theorem exists_segments {m n : Nat} (hm : 0 < m) (hn : 0 < n) :
    ∃ j, max 1 (ceilDiv m n) = j + 1 ∧ n * j < m ∧ m ≤ n * (j + 1) := by
  have hq : ceilDiv m n = (m - 1) / n + 1 := by
    rw [← Nat.add_div_right _ hn, ceilDiv]
    congr 1
    omega
  have hlow := Nat.mul_div_le (m - 1) n
  have hhigh := Nat.lt_mul_div_succ (m - 1) hn
  exact ⟨(m - 1) / n, by rw [hq]; exact Nat.max_eq_right (Nat.le_add_left ..), by omega, by omega⟩

section
variable {s : State} {p : Path} {b k idx sub : Nat} {o : Obj'} {l : List Byte} (h : s.Serves p b k)
  (hl : ∀ x ∈ l, x < 256) (hi : idx < 65536) (hs : sub < 256)
  (ho : s.lookup true (s.session k).keeper idx sub = .ok o) (hblob : o.ty.isBlob = true)
  (hlen : l.length = o.ty.length) (hsize : l.length < 65536)
include h hl hi hs ho hblob hlen hsize

/-- After `m` full frames the buffer of the session holds their bytes. -/
theorem mid_putSegments {m n : Nat} (hmn : m < n) (hm : pathRoom p * m ≤ l.length) :
    State.Mid s p b k o l (pathRoom p * m) (overAll s (List.range m) (State.putSegment p b idx sub l n)) := by
  induction m with
  | zero => exact mid_start o l h
  | succ m ih =>
    rw [Nat.mul_succ] at hm ⊢
    have hlast : m + 1 ≠ n := Nat.ne_of_lt hmn
    have hfull : min (pathRoom p) (l.length - pathRoom p * m) = pathRoom p := by omega
    rw [overAll_range_succ, State.putSegment, if_neg hlast, hfull]
    exact mid_step h (ih (by omega) (by omega)) hl hi hs ho hblob hlen (pathRoom_pos p) (pathRoom_le p) hm hsize

/-- R441: the segments of a BLOB bring its value to the rule of its object. -/
theorem putBytes_blob (hpos : 0 < l.length) : ∃ u, s.SegmentsCame u ∧ s.putBytes p b idx sub l =
    (u.writeWhole p k o l).2.answered p b opWrite (u.writeWhole p k o l).1
      (if (u.writeWhole p k o l).1 = 0 then o.ty.length else 0) := by
  obtain ⟨j, hn, hlow, hhigh⟩ := exists_segments hpos (pathRoom_pos p)
  rw [Nat.mul_succ] at hhigh
  have hmid := mid_putSegments (n := j + 1) h hl hi hs ho hblob hlen hsize (Nat.lt_succ_self j) (Nat.le_of_lt hlow)
  have hrest : min (pathRoom p) (l.length - pathRoom p * j) = l.length - pathRoom p * j := by omega
  have hroom := pathRoom_le p
  obtain ⟨u, hu, hreq⟩ := mid_last (n := l.length - pathRoom p * j) h hmid hl hi hs ho hblob hlen (by omega) (by omega)
    hsize
  have hframe : State.Frame [.dict, .regs] _ u := hu ▸ ((State.moves_modSession ..).mono rfl).frame
  refine ⟨u, ⟨fun q hq => State.same_trans (hmid.frame q hq) (hframe q hq), fun g hg => ?_⟩, ?_⟩
  · rw [hu, ← hmid.regs g hg]
    rfl
  · rw [State.putBytes_eq, hn, overAll_range_succ, State.putSegment, if_pos rfl, hrest, hreq]

end

end Sys2Proof.Machine
end

section
/-! SUPPORT. The dictionary commands of the learner (R303, R305, R310, R316 to R318): each reaches the rule of its
object with the value that it carries. -/

namespace Sys2Proof.Machine

/-- A signed number of two bytes in its range (R429). -/
theorem apply_clamp_q15 {lo hi v : Int} (hlo : -32768 ≤ v) (hhi : v < 32768) :
    (Rng.clamp lo hi).apply (Ty.q15.decode (Ty.q15.encode v)) = some (clampI lo hi v) := by
  rw [decode_encode_signed rfl (by decide) hlo hhi]
  rfl

/-- R318: a transfer of shard `j` has begun, to the host (1) or from it (2). -/
def State.xferBegun (s : State) (j v : Nat) : State :=
  { s with learn := { s.learn with
      lastXfer := j
      shards := s.learn.shards.modify j fun x =>
        { x with xfer := v, pos := 0, buf := [], refusedAll := false, xferSteps := s.getN Obj.learn_global_steps } } }

/-- R318, R321: a transfer to the host always begins, one from it on a halted shard alone. -/
theorem State.setXfer_begins {s : State} {j v : Nat} (h : v = 2 → s.get (Obj.shard_halt j) ≠ 0) :
    s.setXfer j v = (0, s.xferBegun j v) := if_neg fun ⟨hv, hh⟩ => h hv hh

theorem State.setXfer_refused {s : State} {j : Nat} (h : s.get (Obj.shard_halt j) = 0) :
    s.setXfer j 2 = (abortAccess, s) := if_pos ⟨rfl, h⟩

section
variable {s : State} {p : Path} {b k : Nat} (h : s.Serves p b k) (hl : s.cfg.hasLearner = true)
include h hl

theorem exec_groupEtaWrite {g : Nat} {v : Int} (hg : g < 64) (hlo : -32768 ≤ v) (hhi : v < 32768) :
    exec (.groupEtaWrite p b g v) s = .next ((s.groupEta g (clampI 0 32767 v)).answered p b opWrite 0 2) := by
  show Host.Outcome.next (s.putNum p b (unitObj 0x6100 64 g) 0x01 v) = _
  rw [unitObj_of_lt hg]
  exact congrArg _ (putNum_takes h (by omega) (by decide) (find_group_eta hg hl) ⟨rfl, rfl, rfl, rfl, rfl⟩ (by decide)
    (apply_clamp_q15 hlo hhi) rfl)

theorem exec_groupFrozenWrite {g v : Nat} (hg : g < 64) (hv : v < 256) : exec (.groupFrozenWrite p b g v) s =
    .next ((s.set (Obj.group_frozen g) (clampI 0 1 v)).answered p b opWrite 0 1) := by
  show Host.Outcome.next (s.putNum p b (unitObj 0x6100 64 g) 0x04 v) = _
  rw [unitObj_of_lt hg]
  exact congrArg _ (putNum_takes h (by omega) (by decide) (find_group_frozen hg hl) ⟨rfl, rfl, rfl, rfl, rfl⟩
    (by decide) (apply_clamp_num rfl hv) rfl)

section
variable {j : Nat} (hj : j < 8)
include hj

/-- R310, R325: slots 0 to 7 have sets of their own. -/
theorem exec_slotApply :
    exec (.slotApply p b j) s = .next ((s.applySlot j).answered p b opWrite 0 1) := by
  have hv (v : Int) (l : List Byte) :
      s.writeValue p k ⟨.u8, .cmd, .clamp 1 1, 0, Obj.slot_apply j, 0x6200, j, 0x09⟩ v l = (0, s.applySlot j) :=
    if_neg (Nat.not_le.mpr hj)
  show Host.Outcome.next (s.putNum p b (unitObj 0x6200 11 j) 0x09 1) = _
  rw [unitObj_of_lt (Nat.lt_trans hj (by decide))]
  exact congrArg _ (putNum_takes h (by omega) (by decide) (find_slot_apply hj hl) ⟨rfl, rfl, rfl, rfl, rfl⟩ (by decide)
    rfl (hv ..))

section
variable {v st : Nat} {u : State}

/-- R316, R481: `shard_halt` takes 0 and 1 as they are, but no 0 while an import runs. -/
theorem putNum_shardHalt (hv : v ≤ 1)
    (hrule : (if (v : Int) = 0 ∧ (s.shard j).xfer = 2 then (abortAccess, s) else (0, s.setHalt j v)) = (st, u)) :
    s.putNum p b (unitObj 0x6300 8 j) 0x03 v = u.answered p b opWrite st (if st = 0 then 1 else 0) := by
  have hr : (Rng.clamp 0 1).apply (Ty.u8.decode (Ty.u8.encode v)) = some (v : Int) :=
    (apply_clamp_num rfl (Nat.lt_of_le_of_lt hv (by decide))).trans (congrArg some (clampI_self (by omega)))
  have hput := putNum_does h (by omega) (by decide) (find_shard_halt hj hl) rfl rfl rfl (Nat.le_of_ble_eq_true rfl) rfl
    hr hrule
  rw [unitObj_of_lt hj, hput]
  rfl

/-- R318: `shard_xfer` takes 1 and 2 as they are. -/
theorem putNum_shardXfer (h1 : 1 ≤ v) (h2 : v ≤ 2) (hrule : s.setXfer j v = (st, u)) :
    s.putNum p b (unitObj 0x6300 8 j) 0x0D v = u.answered p b opWrite st (if st = 0 then 1 else 0) := by
  have hr : (Rng.clamp 1 2).apply (Ty.u8.decode (Ty.u8.encode v)) = some (v : Int) :=
    (apply_clamp_num rfl (Nat.lt_of_le_of_lt h2 (by decide))).trans (congrArg some (clampI_self (by omega)))
  have hput := putNum_does h (by omega) (by decide) (find_shard_xfer hj hl) rfl rfl rfl (Nat.le_of_ble_eq_true rfl) rfl
    hr hrule
  rw [unitObj_of_lt hj, hput]
  rfl

end

theorem exec_shardHalt :
    exec (.shardHalt p b j) s = .next (((s.set (Obj.shard_halt j) 1).stopPass j 7).answered p b opWrite 0 1) :=
  congrArg _ (putNum_shardHalt h hl hj (v := 1) (by decide) (if_neg fun hx => absurd hx.1 (by decide)))

theorem exec_shardResume (hx : (s.shard j).xfer ≠ 2) :
    exec (.shardResume p b j) s = .next ((s.set (Obj.shard_halt j) 0).answered p b opWrite 0 1) :=
  congrArg _ (putNum_shardHalt h hl hj (v := 0) (by decide) (if_neg fun h0 => hx h0.2))

theorem exec_shardResume_importing (hx : (s.shard j).xfer = 2) :
    exec (.shardResume p b j) s = .next (s.answered p b opWrite abortAccess 0) :=
  congrArg _ (putNum_shardHalt h hl hj (v := 0) (by decide) (if_pos ⟨rfl, hx⟩))

theorem exec_shardExport :
    exec (.shardExport p b j) s = .next ((s.xferBegun j 1).answered p b opWrite 0 1) :=
  congrArg _ (putNum_shardXfer h hl hj (v := 1) (by decide) (by decide)
    (State.setXfer_begins fun hv => absurd hv (by decide)))

theorem exec_shardImport (hh : s.get (Obj.shard_halt j) ≠ 0) :
    exec (.shardImport p b j) s = .next ((s.xferBegun j 2).answered p b opWrite 0 1) :=
  congrArg _ (putNum_shardXfer h hl hj (v := 2) (by decide) (by decide) (State.setXfer_begins fun _ => hh))

theorem exec_shardImport_refused (hh : s.get (Obj.shard_halt j) = 0) :
    exec (.shardImport p b j) s = .next (s.answered p b opWrite abortAccess 0) :=
  congrArg _ (putNum_shardXfer h hl hj (v := 2) (by decide) (by decide) (State.setXfer_refused hh))

end

end

end Sys2Proof.Machine
end

section
/-! SUPPORT. Cell records as the dictionary writes them (R320 to R322): which record a halted shard takes, and what its
segments leave. -/

namespace Sys2Proof.Machine

theorem answered_status (u : State) (p : Path) (b op st len : Nat) (d : List Byte) :
    (u.answered p b op st len d).dict.status = st := by cases p <;> rfl

theorem answered_learn (u : State) (p : Path) (b op st len : Nat) (d : List Byte) :
    (u.answered p b op st len d).learn = u.learn := answered_frame u p b op st len d .learn (by decide)

/-! ## A record and its cell -/

/-- R321: a record that shard `k` takes for the cell of region `r` and class `c`. -/
structure State.TakesRecord (s : State) (k : Nat) (l : List Byte) (r c : Nat) : Prop where
  crc : fieldAt l 188 4 = crc32c (slice l 0 188)
  region : r = fieldAt l 0 1
  cls : c = fieldAt l 1 1
  populated : Config.popRegion s.cfg r = true
  shard : shardOf r = k
  classLow : c < 32
  weightsFree : s.get (Obj.group_frozen (s.groupW c)) ≠ 1
  biasFree : s.get (Obj.group_frozen (s.groupB c)) ≠ 1

/-- R321: an accepted record replaces its cell and no other. -/
theorem State.importCell_takes {s : State} {k r c : Nat} {l : List Byte} (h : s.TakesRecord k l r c) :
    (s.importCell k l).1 = 0 ∧
    (s.importCell k l).2.learn.cells = tabPut s.learn.cells (cellKey r c) (cellOfRecord l) := by
  obtain ⟨hcrc, rfl, rfl, hpop, hshard, hc, hw, hb⟩ := h
  have hstore (t : State) (ht : t.learn = s.learn) :
      (t.storeCell (fieldAt l 0 1) (fieldAt l 1 1) (cellOfRecord l)).learn.cells =
        tabPut s.learn.cells (cellKey (fieldAt l 0 1) (fieldAt l 1 1)) (cellOfRecord l) := by
    rw [State.storeCell_keeps Learner.cells (fun _ _ => rfl), State.putCell, ht]
  rw [State.importCell, if_neg (not_not_intro hcrc), if_neg (by simp [hpop, hshard]), if_neg (Nat.not_le.mpr hc),
    if_neg (not_or_intro hw hb)]
  refine ⟨rfl, hstore _ ?_⟩
  split
  · exact State.count_learn ..
  · rfl

/-- R321: a record with a bad CRC is refused. -/
theorem State.importCell_badCrc {s : State} {k : Nat} {l : List Byte}
    (h : fieldAt l 188 4 ≠ crc32c (slice l 0 188)) : s.importCell k l = s.importRefuse abortLength := if_pos h

/-- R322: with its shard halted, a populated cell's record reaches the import's rule. -/
theorem State.writeCell_halted {s : State} (l : List Byte) (hpop : Config.popRegion s.cfg s.cellSel.1 = true)
    (hh : s.get (Obj.shard_halt (shardOf s.cellSel.1)) ≠ 0) :
    s.writeCell l = s.importCell (shardOf s.cellSel.1) l := by
  simp only [State.writeCell, hpop, Bool.not_true, Bool.false_eq_true, if_false, if_neg hh]

/-! ## After the segments -/

section
variable {s u : State} (h : s.SegmentsCame u)
include h

theorem State.SegmentsCame.cellSel : u.cellSel = s.cellSel := by
  rw [State.cellSel, State.cellSel, State.getN, State.getN, h.get _ (by decide)]

theorem State.SegmentsCame.groupW (c : Nat) : u.groupW c = s.groupW c := by
  rw [State.groupW, State.groupW, State.getN, State.getN, h.get _ (by decide)]

theorem State.SegmentsCame.groupB (c : Nat) : u.groupB c = s.groupB c := by
  rw [State.groupB, State.groupB, State.getN, State.getN, h.get _ (by decide)]

theorem State.SegmentsCame.frozen (g : Nat) : u.get (Obj.group_frozen g) = s.get (Obj.group_frozen g) :=
  h.get _ (by simp only [Obj.group_frozen, Obj.request_count]; omega)

theorem State.SegmentsCame.halt (j : Nat) : u.get (Obj.shard_halt j) = s.get (Obj.shard_halt j) :=
  h.get _ (by simp only [Obj.shard_halt, Obj.request_count]; omega)

theorem State.SegmentsCame.takesRecord {k r c : Nat} {l : List Byte} (ht : s.TakesRecord k l r c) :
    u.TakesRecord k l r c := by
  obtain ⟨hcrc, hr, hc, hpop, hshard, hlow, hw, hb⟩ := ht
  refine ⟨hcrc, hr, hc, (h.frame .cfg (by decide)).symm ▸ hpop, hshard, hlow, ?_, ?_⟩
  · rwa [h.groupW, h.frozen]
  · rwa [h.groupB, h.frozen]

end

/-! ## The command (R322) -/

section
variable {s : State} {p : Path} {b k : Nat} {l : List Byte} (h : s.Serves p b k) (hl : s.cfg.hasLearner = true)
  (hlen : l.length = 192) (hbytes : ∀ x ∈ l, x < 256) (hpop : Config.popRegion s.cfg s.cellSel.1 = true)
  (hh : s.get (Obj.shard_halt (shardOf s.cellSel.1)) ≠ 0)
include h hl hlen hbytes hpop hh

/-- A whole record is imported after its segments, and answered with what the import says. -/
theorem exec_learnCellWrite : ∃ u, s.SegmentsCame u ∧ exec (.learnCellWrite p b l) s =
    .next ((u.importCell (shardOf s.cellSel.1) l).2.answered p b opWrite (u.importCell (shardOf s.cellSel.1) l).1
      (if (u.importCell (shardOf s.cellSel.1) l).1 = 0 then 192 else 0)) := by
  have hsel : s.selectionAbsent ⟨.blob 192, .rw, .whole, 0, Obj.learn_cell, 0x6000, 0, 0x16⟩ = false := by
    simp [State.selectionAbsent, hpop]
  obtain ⟨u, hu, hput⟩ := putBytes_blob h hbytes (by decide) (by decide)
    (lookup_write (find_learn_cell hl) hsel rfl rfl) rfl hlen (by omega) (by omega)
  have hcell := u.writeCell_halted l (by rw [hu.cellSel, hu.frame .cfg (by decide)]; exact hpop)
    (by rw [hu.cellSel, hu.halt]; exact hh)
  have hwhole : u.writeWhole p k ⟨.blob 192, .rw, .whole, 0, Obj.learn_cell, 0x6000, 0, 0x16⟩ l =
      u.importCell (shardOf s.cellSel.1) l := by
    rw [writeWhole_value rfl rfl, ← hu.cellSel, ← hcell]
    rfl
  rw [hwhole] at hput
  exact ⟨u, hu, congrArg _ hput⟩

/-- R320 to R322: a record that is taken replaces its cell. -/
theorem learnCellWrite_takes {r c : Nat} (ht : s.TakesRecord (shardOf s.cellSel.1) l r c) :
    ∃ t, exec (.learnCellWrite p b l) s = .next t ∧ t.dict.status = 0 ∧ t.cell r c = cellOfRecord l ∧
      t.learn.cells = tabPut s.learn.cells (cellKey r c) (cellOfRecord l) ∧
      State.Frame [.learn, .dict, .regs] s t := by
  obtain ⟨u, hu, hexec⟩ := exec_learnCellWrite h hl hlen hbytes hpop hh
  obtain ⟨hstatus, hcells⟩ := State.importCell_takes (hu.takesRecord ht)
  have hlearn : u.learn = s.learn := hu.frame .learn (by decide)
  rw [hlearn] at hcells
  rw [hstatus] at hexec
  refine ⟨_, hexec, answered_status .., ?_, ?_, fun q hq => ?_⟩
  · rw [State.cell, answered_learn, hcells, tabGet_tabPut_same]
  · rw [answered_learn, hcells]
  · obtain ⟨hnl, hnd, hnr⟩ : q ≠ .learn ∧ q ≠ .dict ∧ q ≠ .regs := by simpa using hq
    exact State.same_trans (hu.frame q (by simp [hnd, hnr])) (State.same_trans
      ((State.moves_importCell ..).frame q (by simp [hnl, hnr])) (answered_frame _ _ _ _ _ _ _ q (by simp [hnd, hnr])))

/-- R321: a record with a bad CRC leaves the learner as it was. -/
theorem learnCellWrite_badCrc (hcrc : fieldAt l 188 4 ≠ crc32c (slice l 0 188)) :
    ∃ t, exec (.learnCellWrite p b l) s = .next t ∧ t.dict.status = abortLength ∧ t.learn = s.learn ∧
      State.Frame [.dict, .regs] s t := by
  obtain ⟨u, hu, hexec⟩ := exec_learnCellWrite h hl hlen hbytes hpop hh
  rw [State.importCell_badCrc hcrc] at hexec
  have hframe : State.Frame [.dict, .regs] s _ := fun q hq => State.same_trans (hu.frame q hq) (State.same_trans
    ((u.moves_importRefuse abortLength).frame q fun hr => hq (List.mem_cons_of_mem _ hr))
    (answered_frame _ p b opWrite abortLength 0 [] q hq))
  exact ⟨_, hexec, answered_status .., hframe .learn (by decide), hframe⟩

end

/-- Settles O37: each setting by the rule of its object, a rate clamped to its range of R324 and a resume refused while
an import runs (R481); a cell record by its segments, of which the last brings it to the rule of an import. The cell of
a record has none of the marks that a record has no field for (log 56). -/
theorem learnerWritesAndTransfers : Obligations.LearnerWritesAndTransfers := by
  unfold Obligations.LearnerWritesAndTransfers
  refine ⟨fun s p b k h hl => ⟨fun g v => exec_groupEtaWrite h hl, fun g v => exec_groupFrozenWrite h hl, fun j hj =>
      ⟨exec_slotApply h hl hj, exec_shardHalt h hl hj, exec_shardResume h hl hj, exec_shardResume_importing h hl hj⟩⟩,
    fun s p b k j h hl hj => ⟨exec_shardExport h hl hj, fun hh => exec_shardImport h hl hj (by rw [hh]; decide),
      exec_shardImport_refused h hl hj⟩,
    fun s p b k r c l h hl hlen hbytes hpop hh => ⟨fun hcrc hr hc hpr hshard hlow hw hb => ?_,
      learnCellWrite_badCrc h hl hlen hbytes hpop hh⟩⟩
  exact learnCellWrite_takes h hl hlen hbytes hpop hh ⟨hcrc, hr, hc, hpr, hshard, hlow, hw, hb⟩

end Sys2Proof.Machine
end

section
/-! SUPPORT. The judgement of a diode (R331, R332), what a reading and a calibration slot leave of it (R329, R330), and
the confirmation reads (R343). -/

namespace Sys2Proof.Machine

/-! ## The judgement -/

/-- R331, R332: a diode once a reading has been judged, `c` the first cause that holds, 0 for none. -/
def Diode.judged (d : Diode) (c : Nat) : Diode :=
  if d.cause = 0 then if c = 0 then d else { d with cause := c, prob := 0 }
  else if d.cause = 7 then
    if c ≠ 0 then { d with cause := c, prob := 0 }
    else if d.prob ≤ 1 then { d with cause := 0, prob := 0 }
    else { d with prob := d.prob - 1 }
  else d

theorem Diode.judged_valid {d : Diode} (c : Nat) (h : d.cause = 0) : (d.judged c).cause = c := by
  rw [Diode.judged, if_pos h]
  split
  next hc => rw [h, hc]
  next => rfl

theorem Diode.judged_suspect {d : Diode} (c : Nat) (h : d.cause ≠ 0) (h7 : d.cause ≠ 7) : d.judged c = d := by
  rw [Diode.judged, if_neg h, if_neg h7]

theorem Diode.judged_lastPass {d : Diode} (h : d.cause = 7) (hp : d.prob ≤ 1) :
    d.judged 0 = { d with cause := 0, prob := 0 } := by
  simp only [Diode.judged, h, hp, if_true, ne_eq, not_true_eq_false, if_false, Nat.reduceEqDiff]

theorem Diode.judged_pass {d : Diode} (h : d.cause = 7) (hp : 1 < d.prob) :
    d.judged 0 = { d with prob := d.prob - 1 } := by
  simp only [Diode.judged, h, Nat.not_le.mpr hp, if_true, ne_eq, not_true_eq_false, if_false, Nat.reduceEqDiff]

/-- R331: a reading out of range, or with a parity error, is RANGE before any other cause. -/
theorem State.diodeCause_range (s : State) (r : Nat) {v : Int} {p : Bool} (h : v < -320 ∨ 1200 < v ∨ p = false) :
    s.diodeCause r v p = 1 := by
  have hbad : (!inRange v || !p) = true := by
    simp only [inRange, Bool.or_eq_true, Bool.not_eq_true', Bool.and_eq_false_iff, decide_eq_false_iff_not, Int.not_le,
      or_assoc]
    exact h
  exact if_pos hbad

theorem State.takeGroup_diodeCause (s : State) (g r : Nat) (v : Int) (p : Bool) :
    (s.takeGroup g).diodeCause r v p = s.diodeCause r v p := by
  unfold State.takeGroup
  split <;> rfl

theorem State.declareDiode_therm (s : State) (r c : Nat) :
    (s.declareDiode r c).therm = (s.modDiode r fun d => { d with cause := c, prob := 0 }).therm := by
  simp only [State.declareDiode, State.orBits_therm, State.noteReason_therm, State.fire_therm]

theorem State.modDiode_congr {s : State} {r : Nat} {f g : Diode → Diode} (h : f (s.diode r) = g (s.diode r)) :
    s.modDiode r f = s.modDiode r g := by
  unfold State.modDiode
  rw [modify_congr {} h]

/-- R331, R332: of the thermal unit a judgement changes the diode judged alone. -/
theorem State.judgeDiode_therm (s : State) (r : Nat) (v : Int) (p : Bool) :
    (s.judgeDiode r v p).therm = (s.modDiode r (·.judged (s.diodeCause r v p))).therm := by
  have hmod : ∀ f : Diode → Diode, f (s.diode r) = (s.diode r).judged (s.diodeCause r v p) →
      (s.modDiode r f).therm = (s.modDiode r (·.judged (s.diodeCause r v p))).therm := fun _ hf =>
    congrArg State.therm (State.modDiode_congr hf)
  have hsame : s.diode r = (s.diode r).judged (s.diodeCause r v p) →
      s.therm = (s.modDiode r (·.judged (s.diodeCause r v p))).therm := fun h => by
    rw [← hmod id h, State.modDiode, List.modify_id]
  simp only [State.judgeDiode]
  split
  next h0 =>
    split
    next hc => exact hsame (by rw [Diode.judged, if_pos h0, if_pos hc])
    next hc => exact (State.declareDiode_therm ..).trans (hmod _ (by rw [Diode.judged, if_pos h0, if_neg hc]))
  next h0 =>
    split
    next h7 =>
      split
      next hc =>
        exact (State.declareDiode_therm ..).trans
          (hmod _ (by rw [Diode.judged, if_neg h0, if_pos h7, if_pos (bne_iff_ne.mp hc)]))
      next hc =>
        have hc0 : s.diodeCause r v p = 0 := by simpa using hc
        split
        next hp => exact (State.fire_therm ..).trans (hmod _ (by rw [hc0, Diode.judged_lastPass h7 hp]))
        next hp => exact hmod _ (by rw [hc0, Diode.judged_pass h7 (Nat.not_le.mp hp)])
    next h7 => exact hsame (Diode.judged_suspect _ h0 h7).symm

/-! ## What the temperatures leave alone (R335) -/

/-- The part of a diode that its readings and their judgement make, and no temperature. -/
def Diode.judgement (d : Diode) : Int × Bool × Nat × Nat := (d.reading, d.has, d.cause, d.prob)

/-- What temperatures and the restart timer leave of the thermal unit. -/
def Thermal.judgements (t : Thermal) : List (Int × Bool × Nat × Nat) × List Front × Int :=
  (t.diodes.map Diode.judgement, t.fronts, t.shutdown)

theorem map_modify_keep {α β : Type} {g : α → β} {f : α → α} (h : ∀ x, g (f x) = g x) (l : List α) (i : Nat) :
    (l.modify i f).map g = l.map g := by
  apply List.ext_getElem?
  intro j
  simp only [List.getElem?_map, List.getElem?_modify]
  cases l[j]? with
  | none => rfl
  | some x => by_cases hj : i = j <;> simp [hj, h]

theorem State.setTemp_judgements (s : State) (r : Nat) (t : Int) :
    (s.setTemp r t).therm.judgements = s.therm.judgements := by
  have hmod : ∀ f : Diode → Diode, (∀ d, (f d).judgement = d.judgement) →
      (s.modDiode r f).therm.judgements = s.therm.judgements := fun f hf =>
    congrArg (fun l => (l, s.therm.fronts, s.therm.shutdown)) (map_modify_keep hf _ _)
  unfold State.setTemp
  extract_lets d g warn first u x w
  have hu : u.therm.judgements = s.therm.judgements := hmod _ fun _ => rfl
  have hw : w.therm.judgements = u.therm.judgements := by
    simp only [w]
    split <;> rfl
  split
  · rw [State.fire_therm, State.count_therm, State.orBits_therm, hw, hu]
  · rw [hw, hu]

theorem State.updateTemps_judgements (s : State) (r : Nat) :
    (s.updateTemps r).therm.judgements = s.therm.judgements := by
  refine overAll_keep (fun t => t.therm.judgements) (fun t n => ?_) _ _
  split
  · exact State.setTemp_judgements ..
  · rfl

theorem State.restartTimer_judgements (s : State) : s.restartTimer.therm.judgements = s.therm.judgements := by
  unfold State.restartTimer
  split <;> rfl

theorem diode_judgement_of_judgements {s t : State} (h : s.therm.judgements = t.therm.judgements) (r : Nat) :
    (s.diode r).judgement = (t.diode r).judgement := by
  have hl : s.therm.diodes.map Diode.judgement = t.therm.diodes.map Diode.judgement := congrArg (·.1) h
  have hr := congrArg (·.getD r (Diode.judgement {})) hl
  simpa only [State.diode, List.getD_map] using hr

/-! ## A reading (R329) -/

/-- R343: a reading above shut-down, of good parity, starts a confirmation. -/
def State.confirmAbove (s : State) (r : Nat) (w : Int) (p : Bool) : State :=
  if p && decide (w > s.therm.shutdown) then s.modFront (frontOf r) fun f => f.confirm (frontOf r) s.now r else s

theorem State.confirmAbove_diode (s : State) (r : Nat) (w : Int) (p : Bool) (n : Nat) :
    (s.confirmAbove r w p).diode n = s.diode n := by
  unfold State.confirmAbove
  split <;> rfl

theorem State.confirmAbove_now (s : State) (r : Nat) (w : Int) (p : Bool) : (s.confirmAbove r w p).now = s.now := by
  unfold State.confirmAbove
  split <;> rfl

/-- R329: a reading is judged and kept, then come the temperatures, the restart timer and its confirmation. -/
theorem State.scanReading_stages (s : State) (r : Nat) (v : Int) (p : Bool) :
    ∃ f : Diode → Diode,
      (∀ d, (f d).judgement = (v + (s.diode r).trim, true, d.cause, d.prob)) ∧
      s.scanReading r v p =
        ((((s.takeGroup 2).judgeDiode r (v + (s.diode r).trim) p).modDiode r f).updateTemps
          r).restartTimer.confirmAbove r (v + (s.diode r).trim) p :=
  ⟨_, fun _ => rfl, rfl⟩

section
variable {s : State} {r : Nat} {v w : Int} {p : Bool} (hw : w = v + (s.diode r).trim)
include hw

/-- R329, R331, R332: a reading leaves its diode judged, and the front ends to the confirmation. -/
theorem State.scanReading_judges : ∃ t : State, s.scanReading r v p = t.confirmAbove r w p ∧ t.now = s.now ∧
    t.therm.fronts = s.therm.fronts ∧ t.therm.shutdown = s.therm.shutdown ∧
    (r < s.therm.diodes.length → (t.diode r).judgement =
      (w, true, ((s.diode r).judged (s.diodeCause r w p)).cause, ((s.diode r).judged (s.diodeCause r w p)).prob)) := by
  obtain ⟨f, hf, he⟩ := s.scanReading_stages r v p
  rw [← hw] at hf he
  have hkeep := (State.restartTimer_judgements _).trans
    (State.updateTemps_judgements (((s.takeGroup 2).judgeDiode r w p).modDiode r f) r)
  have htherm := (s.takeGroup 2).judgeDiode_therm r w p
  rw [s.takeGroup_diodeCause] at htherm
  have hfronts : (s.takeGroup 2).therm.fronts = s.therm.fronts := by rw [State.takeGroup_therm]
  have hshutdown : (s.takeGroup 2).therm.shutdown = s.therm.shutdown := by rw [State.takeGroup_therm]
  refine ⟨_, he, ?_, ?_, ?_, fun hr => ?_⟩
  · rw [← State.confirmAbove_now _ r w p, ← he]
    exact (s.moves_scanReading ..).frame .now (by decide)
  · exact (congrArg (·.2.1) hkeep).trans ((congrArg Thermal.fronts htherm).trans hfronts)
  · exact (congrArg (·.2.2) hkeep).trans ((congrArg Thermal.shutdown htherm).trans hshutdown)
  · have hr2 : r < (s.takeGroup 2).therm.diodes.length := by rwa [State.takeGroup_therm]
    have hjudged : ((s.takeGroup 2).judgeDiode r w p).diode r = (s.diode r).judged (s.diodeCause r w p) :=
      (congrArg (fun x : Thermal => x.diodes.getD r {}) htherm).trans
        (((s.takeGroup 2).modDiode_diode_same _ hr2).trans (by rw [State.takeGroup_diode]))
    have hlen : r < ((s.takeGroup 2).judgeDiode r w p).therm.diodes.length := by
      rw [htherm]
      exact hr2.trans_eq (List.length_modify ..).symm
    rw [diode_judgement_of_judgements hkeep r, State.modDiode_diode_same _ _ hlen, hf, hjudged]

theorem State.scanReading_judgement (hr : r < s.therm.diodes.length) :
    ((s.scanReading r v p).diode r).judgement =
      (w, true, ((s.diode r).judged (s.diodeCause r w p)).cause, ((s.diode r).judged (s.diodeCause r w p)).prob) := by
  obtain ⟨t, he, -, -, -, hdiode⟩ := State.scanReading_judges (p := p) hw
  rw [he, State.confirmAbove_diode, hdiode hr]

/-- R343: the front ends after a reading. -/
theorem State.scanReading_fronts : (s.scanReading r v p).therm.fronts =
    if p && decide (w > s.therm.shutdown) then
      s.therm.fronts.modify (frontOf r) fun f => f.confirm (frontOf r) s.now r
    else s.therm.fronts := by
  obtain ⟨t, he, hnow, hfronts, hshutdown, -⟩ := State.scanReading_judges (p := p) hw
  rw [he, State.confirmAbove, hshutdown]
  split
  · rw [State.modFront, hfronts, hnow]
  · exact hfronts

end

theorem exec_scanReading {s : State} {r : Nat} (v : Int) (p : Bool) (hs : s.blk.st.scans = true)
    (hr : Config.popRegion s.cfg r = true) : exec (.scanReading r v p) s = .next (s.scanReading r v p) := by
  show execScanReading r v p s = _
  rw [execScanReading, onRegion_pop hr, hs, State.when_true]

/-! ## A calibration slot (R330) -/

theorem exec_calibrationSlot {s : State} {q : Nat} (v : Int) (hs : s.blk.st.scans = true) (hq : q < 4) :
    exec (.calibrationSlot q v) s = .next (s.calibration q v) := by
  show execCalibrationSlot q v s = _
  rw [execCalibrationSlot, within_lt hq, hs, State.when_true]

theorem State.calibration_leftOut {s : State} {q : Nat} (v : Int) (h : s.now ≤ (s.front q).skip) :
    s.calibration q v = s := if_pos (by rw [decide_eq_true h, Bool.or_true])

/-- R330: the diodes of a failed front end are declared together. -/
def State.failDiodes (s : State) (q : Nat) : State :=
  overAll s ((Config.regions s.cfg).filter fun r => frontOf r == q) fun s r =>
    s.modDiode r fun d => { d with cause := 4, prob := 0 }

theorem State.failDiodes_fronts (s : State) (q : Nat) : (s.failDiodes q).therm.fronts = s.therm.fronts :=
  overAll_keep (f := fun s r => State.modDiode s r fun d => { d with cause := 4, prob := 0 }) (·.therm.fronts)
    (fun _ _ => rfl) _ _

theorem State.failDiodes_cause (s : State) (q : Nat) {r : Nat} (hr : r < s.therm.diodes.length) :
    ((s.failDiodes q).diode r).cause =
      if Config.popRegion s.cfg r = true ∧ frontOf r = q then 4 else (s.diode r).cause := by
  have hmem : r ∈ (Config.regions s.cfg).filter (fun r => frontOf r == q) ↔
      Config.popRegion s.cfg r = true ∧ frontOf r = q := by
    simp only [Config.regions, List.mem_filter, List.mem_range, beq_iff_eq]
    exact ⟨fun ⟨⟨_, hp⟩, hf⟩ => ⟨hp, hf⟩, fun ⟨hp, hf⟩ => ⟨⟨popRegion_lt hp, hp⟩, hf⟩⟩
  by_cases h : Config.popRegion s.cfg r = true ∧ frontOf r = q
  · obtain ⟨t, ht, he⟩ := overAll_once (f := fun s r => State.modDiode s r fun d => { d with cause := 4, prob := 0 })
      (fun t => (t.diode r, t.therm.diodes.length)) ((Config.regions_nodup s.cfg).filter _) (hmem.mpr h)
      (fun x _ hx t => Prod.ext (t.modDiode_diode_other _ hx.symm) (List.length_modify ..)) s
    obtain ⟨-, hlen⟩ := Prod.mk.inj ht
    rw [if_pos h, State.failDiodes, (Prod.mk.inj he).1, t.modDiode_diode_same _ (hlen ▸ hr)]
  · rw [if_neg h, State.failDiodes,
      overAll_keepOn (State.diode · r) fun x hx t => t.modDiode_diode_other _ fun e => h (hmem.mp (e ▸ hx))]

section
variable {s : State} {q : Nat} {v : Int} (hf : (s.front q).failed = false) (hskip : (s.front q).skip < s.now)
include hf hskip

theorem State.calibration_measures : ((s.front q).failed || decide (s.now ≤ (s.front q).skip)) ≠ true := by
  rw [hf, decide_eq_false (Nat.not_le.mpr hskip)]
  decide

theorem State.calibration_passes (h : (v - (s.front q).ref).natAbs ≤ 24) :
    s.calibration q v = s.modFront q fun f => { f with calBad := 0 } :=
  (if_neg (State.calibration_measures hf hskip)).trans (if_pos h)

theorem State.calibration_firstFailure (h : 24 < (v - (s.front q).ref).natAbs) (hb : (s.front q).calBad = 0) :
    s.calibration q v = s.modFront q fun f => { f with calBad := 1 } :=
  (if_neg (State.calibration_measures hf hskip)).trans ((if_neg (Nat.not_le.mpr h)).trans (if_pos hb))

/-- R330: the second failure in a row fails the front end and its diodes. -/
theorem State.calibration_secondFailure (h : 24 < (v - (s.front q).ref).natAbs) (hb : (s.front q).calBad ≠ 0) :
    s.calibration q v = (((((s.modFront q fun f => { f with calBad := 2, failed := true }).failDiodes q).fire 11 4
      (srcFront q)).noteReason 4).orBits Obj.thermal_irq_status 4).restartTimer :=
  (if_neg (State.calibration_measures hf hskip)).trans ((if_neg (Nat.not_le.mpr h)).trans (if_neg hb))

end

/-! ## Confirmation reads (R343) -/

theorem exec_confirmationRead {s : State} {q : Nat} (v : Int) (p : Bool) (hs : s.blk.st.scans = true) (hq : q < 4) :
    exec (.confirmationRead q v p) s = .next (s.confirmationRead q v p) := by
  show execConfirmationRead q v p s = _
  rw [execConfirmationRead, within_lt hq, hs, State.when_true]

theorem State.confirmationRead_first {s : State} {q d : Nat} (v : Int) (p : Bool)
    (h : (s.front q).conf = some (d, [])) : s.confirmationRead q v p = s.modFront q fun f =>
      { f with conf := some (d, [p && decide (v + (s.diode d).trim > s.therm.shutdown)]) } := by
  simp only [State.confirmationRead, h, List.isEmpty_nil, if_true]

/-- R343, R345: after the second read the front end turns to the diode that waits next, and the trip is decided. -/
theorem State.confirmationRead_second {s u : State} {q d : Nat} {b : Bool} (v : Int) (p : Bool)
    (h : (s.front q).conf = some (d, [b])) (hu : u = s.modFront q fun f => f.nextConf q s.now) :
    s.confirmationRead q v p = u.when (b && (p && decide (v + (s.diode d).trim > s.therm.shutdown)) &&
      u.corroborated d && !u.tripDisabled) (u.trip d) := by
  simp only [State.confirmationRead, h, hu, List.isEmpty_cons, Bool.false_eq_true, if_false, List.all_cons,
    List.all_nil, Bool.and_true, id_eq]

theorem State.confirmationRead_second_below {s : State} {q d : Nat} {b : Bool} {v : Int} {p : Bool}
    (h : (s.front q).conf = some (d, [b]))
    (hb : b = false ∨ p = false ∨ v + (s.diode d).trim ≤ s.therm.shutdown) :
    s.confirmationRead q v p = s.modFront q fun f => f.nextConf q s.now := by
  have hno : (b && (p && decide (v + (s.diode d).trim > s.therm.shutdown))) = false := by
    rwa [Bool.and_eq_false_iff, Bool.and_eq_false_iff, decide_eq_false_iff_not, gt_iff_lt, Int.not_lt]
  rw [State.confirmationRead_second v p h rfl, hno, Bool.false_and, Bool.false_and, State.when_false]

/-- Settles O38: of a reading the clauses are cases of the judgement and of its confirmation; a calibration slot and a
confirmation read go by the state of their front end. -/
theorem diodeReadingsAreJudged : Obligations.DiodeReadingsAreJudged := by
  unfold Obligations.DiodeReadingsAreJudged
  intro s hs hl
  refine ⟨fun r v p hp w hw => ?_, fun q v hq hskip => ?_, fun q v hq hlf hf hskip => ⟨fun h => ?_, fun h hb => ?_,
    fun h hb => ⟨_, exec_calibrationSlot v hs hq, ?_⟩⟩, fun q v p d hq h => ?_, fun q v p d b hq h hb => ?_⟩
  · have hj := State.scanReading_judgement (p := p) hw (hl.symm ▸ popRegion_lt hp)
    have hfronts := State.scanReading_fronts (p := p) hw
    obtain ⟨hreading, hhas, hcause, hprob⟩ := by simpa only [Diode.judgement, Prod.mk.injEq] using hj
    refine ⟨_, exec_scanReading v p hs hp, hreading, hhas, fun h0 => ?_, fun h0 hbad => ?_, fun h0 h7 => ?_,
      fun h7 hc hlast => ?_, fun h7 hc hmore => ?_, fun hlow => ?_, fun hgood hhigh => ?_,
      (s.moves_scanReading ..).frame⟩
    · rw [hcause, Diode.judged_valid _ h0]
    · rw [hcause, Diode.judged_valid _ h0, s.diodeCause_range r hbad]
    · rw [hcause, Diode.judged_suspect _ h0 h7]
    · rw [hcause, hc, Diode.judged_lastPass h7 hlast]
    · rw [hcause, hprob, hc, Diode.judged_pass h7 hmore]
      exact ⟨h7, rfl⟩
    · rw [hfronts, if_neg]
      simp only [Bool.and_eq_true, decide_eq_true_eq, not_and_or, Bool.not_eq_true, gt_iff_lt, Int.not_lt]
      exact hlow
    · rw [hfronts, if_pos]
      rw [hgood, decide_eq_true hhigh, Bool.and_true]
  · rw [exec_calibrationSlot v hs hq, State.calibration_leftOut v hskip]
  · rw [exec_calibrationSlot v hs hq, State.calibration_passes hf hskip h]
  · rw [exec_calibrationSlot v hs hq, State.calibration_firstFailure hf hskip h hb]
  · have hkeep : (s.calibration q v).therm.judgements =
        ((s.modFront q fun f => { f with calBad := 2, failed := true }).failDiodes q).therm.judgements := by
      rw [State.calibration_secondFailure hf hskip h hb, State.restartTimer_judgements, State.orBits_therm,
        State.noteReason_therm, State.fire_therm]
    refine ⟨?_, fun r hr => ?_⟩
    · have hfronts := (congrArg (·.2.1) hkeep).trans (State.failDiodes_fronts ..)
      have hfront := congrArg (·.getD q {}) hfronts
      exact (congrArg Front.failed hfront).trans
        (congrArg Front.failed (s.modFront_front_same _ (hlf.symm ▸ hq)))
    · have hcause := congrArg (·.2.2.1) (diode_judgement_of_judgements hkeep r)
      exact hcause.trans (State.failDiodes_cause _ q (hl.symm ▸ hr))
  · rw [exec_confirmationRead v p hs hq, State.confirmationRead_first v p h]
  · rw [exec_confirmationRead v p hs hq, State.confirmationRead_second_below h hb]

end Sys2Proof.Machine
end

section
/-! SUPPORT. The trip (R342, R345, R346, R349) and the restart after it (R348). -/

namespace Sys2Proof.Machine

/-! ## The restart timer through a change of state (R348) -/

/-- A change of state not into RAMP leaves the thermal unit, but for the restart timer where it leaves COOLDOWN. -/
theorem State.enter_therm (s : State) {b : BState} (hb : b ≠ .ramp) :
    (s.enter b).therm = if s.blk.st = .cooldown then { s.therm with coolAt := none } else s.therm := by
  have hdiscover : ∀ t : State, t.enterDiscover.therm = t.therm := fun _ => rfl
  have hstop : ∀ t : State, t.stopRestart.therm = { t.therm with coolAt := none } := fun _ => rfl
  simp only [State.enter, State.fire_therm, State.modBlk_therm, State.attached, apply_ite State.therm, hb, if_false,
    hdiscover, hstop, State.stStartFlush_therm, State.freshCap_therm, State.orderFull_therm, State.convStart_therm,
    State.convLow_therm, State.leaveRun_therm, ite_self]

theorem State.enter_coolAt {s : State} {b : BState} (hb : b ≠ .ramp) (h : s.blk.st = .cooldown) :
    (s.enter b).therm.coolAt = none := by rw [State.enter_therm s hb, if_pos h]

theorem State.restartTimer_cooled (s : State) : s.restartTimer.cooled = s.cooled := by
  unfold State.restartTimer
  split <;> rfl

/-- In COOLDOWN a timer at 0 starts now where its condition holds. -/
theorem State.restartTimer_starts {s : State} (h : s.blk.st = .cooldown) (hc : s.therm.coolAt = none) :
    s.restartTimer = { s with therm := { s.therm with coolAt := if s.cooled then some s.now else none } } := by
  rw [State.restartTimer, if_pos h, hc]
  rfl

/-! ## The trip -/

/-- R349: the second trip before this one lies within an hour. -/
def State.thirdTrip (s : State) : Bool := s.therm.trips[1]?.any fun x => decide (s.now - x ≤ 3600000000000)

/-- R346: what a trip does before the state changes. -/
def State.tripped (s : State) (d : Nat) : State :=
  let u := (s.haltAll.allEnLow.railsOff.count Obj.trip_count 32).set Obj.trip_last_diode d
  let v : State := { u with therm := { u.therm with trips := (s.now :: s.therm.trips).take 3, coolAt := none } }
  v.modBlk fun b =>
    { b with tripN := true, irqSafety := true, downLeft := [], downBegun := false
             haltLimit := b.haltLimit || (s.thirdTrip && b.st != .halted) }

theorem State.trip_cooldown {s : State} (d : Nat) (h : s.blk.st = .cooldown) : s.trip d = s.fire 9 2 (srcRegion d) :=
  if_pos h

theorem State.tripped_therm (s : State) (d : Nat) : (s.tripped d).therm =
    { s.therm with trips := (s.now :: s.therm.trips).take 3, coolAt := none } := by
  simp only [State.tripped, State.modBlk_therm, State.set_therm, State.count_therm, State.railsOff_therm,
    State.allEnLow_therm, State.haltAll_therm]

theorem State.tripped_courses (s : State) (d : Nat) :
    (s.tripped d).courses = s.courses.map fun c => { c with en := false, sup := false } := by
  simp only [State.tripped, State.modBlk_courses, State.set_courses, State.count_courses, State.railsOff_courses,
    State.allEnLow, State.haltAll_courses]

theorem State.tripped_now (s : State) (d : Nat) : (s.tripped d).now = s.now := by
  simp only [State.tripped, State.modBlk_now, State.set_now, State.count_now, State.railsOff_now, State.allEnLow_now,
    State.haltAll_now]

theorem State.tripped_st (s : State) (d : Nat) : (s.tripped d).blk.st = s.blk.st := by
  simp only [State.tripped, State.modBlk_blk, State.set_blk, State.count_blk, State.railsOff_blk, State.allEnLow_blk,
    State.haltAll_blk]

section
variable {s : State} (d : Nat) (hc : s.blk.st ≠ .cooldown) (hh : s.blk.st ≠ .halted)
include hc hh

/-- R346, R349: outside COOLDOWN and HALTED the third trip within an hour halts the block, any other cools it down. -/
theorem State.trip_eq : s.trip d =
    if s.thirdTrip then (((s.tripped d).fire 9 1 (srcRegion d)).enter .halted).setReason 8
    else (((s.tripped d).fire 9 0 (srcRegion d)).enter .cooldown).restartTimer := by
  have hst : (s.tripped d).blk.st ≠ .halted := by rwa [State.tripped_st]
  have hthird : ((s.now :: s.therm.trips).take 3)[2]? = s.therm.trips[1]? := by
    rw [List.getElem?_take_of_lt (by decide), List.getElem?_cons_succ]
  rw [State.trip, if_neg hc]
  simp only [hthird]
  exact if_neg hst

end

/-- What a trip from `s` leaves in `t`, whichever state it enters: outputs, courses, times, and which state it is. -/
structure State.Tripped (s : State) (b : BState) (t : State) : Prop where
  st : t.blk.st = b
  since : t.blk.since = s.now
  tripN : t.blk.tripN = true
  irqSafety : t.blk.irqSafety = true
  courses : t.courses = s.courses.map fun c => { c with en := false, sup := false }
  trips : t.therm.trips = (s.now :: s.therm.trips).take 3

theorem State.tripped_enter (s : State) (d k : Nat) (x : Source) {b : BState} (hb : b ≠ .ramp) :
    s.Tripped b (((s.tripped d).fire 9 k x).enter b) ∧ (((s.tripped d).fire 9 k x).enter b).therm.coolAt = none := by
  have htherm : (((s.tripped d).fire 9 k x).enter b).therm = (s.tripped d).therm := by
    rw [State.enter_therm _ hb, State.fire_therm, s.tripped_therm d, ite_self]
  refine ⟨⟨State.enter_st .., ?_, ?_, ?_, ?_, ?_⟩, ?_⟩
  · rw [State.enter_since, State.fire_now, s.tripped_now]
  · rw [State.enter_tripN, State.fire_blk]
    rfl
  · rw [State.enter_irqSafety, State.fire_blk]
    rfl
  · rw [State.enter_courses, State.fire_courses, s.tripped_courses]
  · rw [htherm, s.tripped_therm]
  · rw [htherm, s.tripped_therm]

theorem State.Tripped.setReason {s t : State} {b : BState} (h : s.Tripped b t) (k : Nat) :
    s.Tripped b (t.setReason k) where
  st := by rw [State.setReason_blk, h.st]
  since := by rw [State.setReason_blk, h.since]
  tripN := by rw [State.setReason_blk, h.tripN]
  irqSafety := by rw [State.setReason_blk, h.irqSafety]
  courses := by rw [State.setReason_courses, h.courses]
  trips := by rw [State.setReason_therm, h.trips]

theorem State.Tripped.restartTimer {s t : State} (h : s.Tripped .cooldown t) (hc : t.therm.coolAt = none) :
    s.Tripped .cooldown t.restartTimer := by
  rw [State.restartTimer_starts h.st hc]
  exact ⟨h.st, h.since, h.tripN, h.irqSafety, h.courses, h.trips⟩

/-- R346, R348, R349: a trip enters HALTED or COOLDOWN, with the restart timer running where it may. -/
theorem State.trip_trips {s : State} (d : Nat) (hc : s.blk.st ≠ .cooldown) (hh : s.blk.st ≠ .halted) :
    s.Tripped (if s.thirdTrip then .halted else .cooldown) (s.trip d) ∧
      (s.trip d).therm.coolAt =
        if (s.trip d).blk.st = .cooldown ∧ (s.trip d).cooled = true then some s.now else none := by
  rw [State.trip_eq d hc hh]
  cases s.thirdTrip with
  | true =>
    obtain ⟨ht, hcool⟩ := s.tripped_enter d 1 (srcRegion d) (b := .halted) (by decide)
    simp only [if_true]
    refine ⟨ht.setReason 8, ?_⟩
    rw [(ht.setReason 8).st, State.setReason_therm, hcool, if_neg (fun h => absurd h.1 (by decide))]
  | false =>
    obtain ⟨ht, hcool⟩ := s.tripped_enter d 0 (srcRegion d) (b := .cooldown) (by decide)
    have htimer := ht.restartTimer hcool
    simp only [Bool.false_eq_true, if_false]
    refine ⟨htimer, ?_⟩
    rw [htimer.st, State.restartTimer_cooled, State.restartTimer_starts ht.st hcool,
      State.enter_now, State.fire_now, s.tripped_now]
    simp only [true_and]

/-! ## The decision (R342, R345) -/

/-- R342, R345: two reads above shut-down trip the block where a further diode corroborates, unless it is disabled. -/
theorem State.confirmationRead_decides {s u : State} {q d : Nat} {v : Int} (h : (s.front q).conf = some (d, [true]))
    (hv : v + (s.diode d).trim > s.therm.shutdown) (hu : u = s.modFront q fun f => f.nextConf q s.now) :
    s.confirmationRead q v true = u.when (u.corroborated d && !u.tripDisabled) (u.trip d) := by
  rw [State.confirmationRead_second v true h hu, decide_eq_true hv]
  simp only [Bool.true_and]

/-! ## The restart (R348) -/

/-- R348, R419: the block as it starts again. -/
def State.restarted (s : State) : State :=
  let u : State := { s with therm := { s.therm with coolAt := none } }
  ((u.modBlk fun b => { b with tripN := false, irqSafety := false }).count Obj.trip_restart_count 32).startDiscover

/-- R348, R421: the restart releases the outputs and discovers every course again. -/
theorem State.restarted_discovers {s : State} (h : s.blk.st = .cooldown) :
    s.restarted.blk.st = .discover ∧ s.restarted.blk.tripN = false ∧ s.restarted.blk.irqSafety = false ∧
      s.restarted.therm.coolAt = none ∧ s.restarted.blk.since = s.now ∧
      s.restarted.courses = s.courses.map Course.rediscovered := by
  exact ⟨State.enter_st .., State.enter_tripN .., State.enter_irqSafety .., State.enter_coolAt (by decide) h,
    State.enter_since .., State.enter_courses ..⟩

theorem exec_restartTimerExpiry {s : State} {x : Nat} (h : s.blk.st = .cooldown) (hx : s.therm.coolAt = some x) :
    exec .restartTimerExpiry s = .next (s.when (decide (x + 1000000000 ≤ s.now)) s.restarted) := by
  show execRestartTimerExpiry s = _
  simp only [execRestartTimerExpiry, h, hx]
  rfl

/-- Settles O39: a second read decides by its own diode, the other diodes and the test bit; a trip goes by the trips
before it and by the state of the block; a restart timer that has run out starts discovery. -/
theorem tripAndRestart : Obligations.TripAndRestart := by
  unfold Obligations.TripAndRestart
  intro s u q d v hq hs hconf hv hu
  have hexec := exec_confirmationRead v true hs hq
  rw [State.confirmationRead_decides hconf hv hu] at hexec
  have hst : u.blk.st = s.blk.st := by rw [hu, State.modFront_blk]
  refine ⟨fun h => ?_, fun htest hcorr => ?_, fun h x hx => ⟨fun hearly => ?_, fun hdue => ?_⟩⟩
  · have hno : (u.corroborated d && !u.tripDisabled) = false := by
      rw [Bool.and_eq_false_iff, Bool.not_eq_false']
      exact h.symm
    rw [hexec, hno, State.when_false]
  · rw [htest, hcorr, Bool.not_false, Bool.and_self, State.when_true] at hexec
    refine ⟨fun h => ?_, fun hc hh _ => ⟨_, hexec, ?_⟩⟩
    · rw [hexec, State.trip_cooldown d (hst.trans h)]
    · obtain ⟨ht, hcool⟩ := State.trip_trips d (hst ▸ hc) (hst ▸ hh)
      have hthird : u.thirdTrip = s.thirdTrip := by rw [hu]; rfl
      refine ⟨?_, ?_, ht.tripN, ht.irqSafety, ?_, ?_, ?_, ?_⟩
      · rw [ht.st, hthird, State.thirdTrip]
        cases s.therm.trips[1]? with
        | none => rfl
        | some x => simp only [Option.any_some, decide_eq_true_eq]
      · rw [ht.since, hu, State.modFront_now]
      · rw [ht.courses]
        intro x hx
        obtain ⟨_, _, rfl⟩ := List.mem_map.mp hx
        exact ⟨rfl, rfl⟩
      · rw [ht.courses, hu, State.modFront_courses, List.map_map]
        rfl
      · rw [ht.trips, hu]
        rfl
      · rw [hcool, hu, State.modFront_now]
  · rw [exec_restartTimerExpiry h hx, decide_eq_false (Nat.not_le.mpr hearly), State.when_false]
  · rw [exec_restartTimerExpiry h hx, decide_eq_true hdue, State.when_true]
    exact ⟨_, rfl, State.restarted_discovers h⟩

end Sys2Proof.Machine
end

section
/-! SUPPORT. The transitions of the block (R399): a change of state is an entry along the table, and everything else that
a command does leaves the block state as it was. -/

namespace Sys2Proof.Machine

/-- Moves that leave the block state alone. -/
theorem State.Moves.st_eq {l : List Part} {s t : State} (h : s.Moves l t) (hl : l.contains .st = false) :
    t.blk.st = s.blk.st := h.frame .st (by simpa using hl)

/-- R399: the block has stayed in its state, or has made a transition of the table. -/
def State.Goes (s t : State) : Prop := t.blk.st = s.blk.st ∨ (s.blk.st, t.blk.st) ∈ stateGraph

theorem State.Goes.stay (s : State) : s.Goes s := .inl rfl

theorem State.Moves.goes {l : List Part} {s t : State} (h : s.Moves l t) (hl : l.contains .st = false) : s.Goes t :=
  .inl (h.st_eq hl)

theorem State.Goes.of_st {s u t : State} (hu : u.blk.st = s.blk.st) (h : u.Goes t) : s.Goes t := by
  unfold State.Goes at h ⊢
  rwa [hu] at h

theorem State.Goes.to_st {s u t : State} (h : s.Goes u) (ht : t.blk.st = u.blk.st) : s.Goes t := by
  unfold State.Goes at h ⊢
  rwa [ht]

theorem State.Goes.when {s t : State} {b : Bool} (h : b = true → s.Goes t) : s.Goes (s.when b t) := by
  cases b with
  | true => exact h rfl
  | false => exact .stay s

theorem State.Goes.ite {c : Prop} [Decidable c] {s a b : State} (ha : c → s.Goes a) (hb : ¬ c → s.Goes b) :
    s.Goes (if c then a else b) := by
  split
  case isTrue h => exact ha h
  case isFalse h => exact hb h

theorem State.goes_enter {s : State} {b : BState} (h : (s.blk.st, b) ∈ stateGraph) : s.Goes (s.enter b) :=
  .inr (by rwa [State.enter_st])

theorem State.goes_enterFrom {s u : State} {b : BState} (hu : u.blk.st = s.blk.st) (h : (s.blk.st, b) ∈ stateGraph) :
    s.Goes (u.enter b) := .of_st hu (State.goes_enter (by rwa [hu]))

/-! ## What changes the state -/

/-- R154, R155: the service evaluation. -/
theorem State.goes_latchService (s : State) : s.Goes s.latchService := by
  unfold State.latchService
  extract_lets due u any
  have hu : u.blk.st = s.blk.st := overAll_keep (fun x => x.blk.st) (fun x b => by rw [State.setReason_blk]) _ _
  refine .of_st hu (.ite (fun h => ?_) fun _ => .ite (fun h => ?_) fun _ => .stay u)
  · have hr : u.blk.st = .run := (by simpa using h : u.blk.st = .run ∧ _).1
    exact State.goes_enter (by rw [hr]; decide)
  · have hr : u.blk.st = .service := (by simpa using h : u.blk.st = .service ∧ _).1
    exact State.goes_enter (by rw [hr]; decide)

/-- R99: the damper halts the block from every state that scans. -/
theorem State.goes_damper (s : State) (q d : Nat) (x : Source) : s.Goes (s.damper q d x) := by
  by_cases hd : s.get (Obj.rail_damped q) = 1
  · rw [State.damper_of_damped hd]
    exact .stay s
  · cases hs : s.blk.st.scans with
    | false =>
      have hno : s.damper q d x = s := if_pos (by rw [hs, Bool.not_false, Bool.or_true])
      rw [hno]
      exact .stay s
    | true =>
      unfold State.Goes
      rw [(State.damper_halts hd hs).1]
      revert hs
      cases s.blk.st <;> decide

/-- R346: a trip decided in HALTED is recorded and starts no other action (log 40). -/
theorem State.trip_halted {s : State} (d : Nat) (h : s.blk.st = .halted) :
    s.trip d = (s.tripped d).fire 9 2 (srcRegion d) := by
  have hst : (s.tripped d).blk.st = .halted := by rwa [State.tripped_st]
  have hthird : ((s.now :: s.therm.trips).take 3)[2]? = s.therm.trips[1]? := by
    rw [List.getElem?_take_of_lt (by decide), List.getElem?_cons_succ]
  rw [State.trip, if_neg (by rw [h]; decide)]
  simp only [hthird]
  exact if_pos hst

/-- R346, R349: a trip. -/
theorem State.goes_trip {s : State} (d : Nat) (hs : s.blk.st.scans = true) : s.Goes (s.trip d) := by
  by_cases hc : s.blk.st = .cooldown
  · rw [State.trip_cooldown d hc]
    exact (State.moves_fire ..).goes rfl
  by_cases hh : s.blk.st = .halted
  · rw [State.trip_halted d hh]
    exact .inl (by rw [State.fire_blk, State.tripped_st])
  · unfold State.Goes
    rw [(State.trip_trips d hc hh).1.st]
    cases s.thirdTrip <;> (revert hs hc hh; cases s.blk.st <;> decide)

/-- R421: the entry into DISCOVER. -/
theorem State.goes_startDiscover {s u : State} (hu : u.blk.st = s.blk.st)
    (h : (s.blk.st, BState.discover) ∈ stateGraph) : s.Goes u.startDiscover := State.goes_enterFrom hu h

/-- R412: after the last rail's turn RAMP is left, for RUN or SERVICE. -/
theorem State.goes_leaveRampIfDone (s : State) : s.Goes s.leaveRampIfDone := by
  unfold State.leaveRampIfDone
  refine .ite (fun h => ?_) fun _ => .stay s
  have hr : s.blk.st = .ramp := (by simpa using h : s.blk.st = .ramp ∧ _).1
  extract_lets a b good k c d
  have ha : s.Goes a := State.goes_enter (by rw [hr]; split <;> decide)
  clear_value a
  have hb : b.blk.st = a.blk.st := (State.moves_resumeWakes _).st_eq rfl
  refine ha.to_st (Eq.trans ?_ hb)
  split
  · split <;> rfl
  · rfl

theorem State.goes_nextRailFrom {s u : State} (hu : u.blk.st = s.blk.st) : s.Goes u.nextRail :=
  .of_st hu (.of_st rfl (State.goes_leaveRampIfDone _))

/-- R416: `block_cmd` = 1. -/
theorem State.goes_cmdShutdown (s : State) : s.Goes s.cmdShutdown.2 := by
  unfold State.cmdShutdown
  split
  · next h => exact State.goes_enterFrom rfl (by rw [h]; decide)
  · next h => exact State.goes_enterFrom rfl (by rw [h]; decide)
  · next h => exact State.goes_enterFrom rfl (by rw [h]; decide)
  · exact .inl rfl
  · exact .inl rfl
  · exact (State.moves_fire ..).goes rfl

/-- R416: `block_cmd` = 2. -/
theorem State.goes_cmdStart (s : State) : s.Goes s.cmdStart.2 := by
  unfold State.cmdStart
  split
  case isTrue h =>
    have hs : s.blk.st = .shutdown := (by simpa using h : s.blk.st = .shutdown ∧ _).1
    exact State.goes_startDiscover rfl (by rw [hs]; decide)
  case isFalse => exact (State.moves_fire ..).goes rfl

/-! ## Requests of the dictionary -/

theorem State.goes_writeBlock (s : State) (o : Obj') (v : Int) : s.Goes (s.writeBlock o v).2 := by
  unfold State.writeBlock
  split
  · split
    · exact s.goes_cmdShutdown
    · exact s.goes_cmdStart
  · exact (State.moves_clrBits ..).goes rfl
  · exact (State.moves_set ..).goes rfl
  · exact (State.moves_plain ..).goes rfl

/-- Of the objects' own rules only the block's may change its state. -/
theorem State.goes_writeValue (s : State) (p : Path) (k : Nat) (o : Obj') (v : Int) (b : List Byte) :
    s.Goes (s.writeValue p k o v b).2 := by
  unfold State.writeValue
  split
  · exact s.goes_writeBlock o v
  · exact (State.moves_writeCommit ..).goes rfl
  · exact (State.moves_writeRegion ..).goes rfl
  · exact (State.moves_writeString ..).goes rfl
  · exact (State.moves_writeEngine ..).goes rfl
  · exact (State.moves_writeChannel ..).goes rfl
  · exact (State.moves_shadowWrite ..).goes rfl
  · exact (State.moves_writeTune ..).goes rfl
  · exact (State.moves_writeCap ..).goes rfl
  · exact (State.moves_writeThermal ..).goes rfl
  · exact (State.moves_writeLearner ..).goes rfl
  · exact (State.moves_writeGroup ..).goes rfl
  · exact (State.moves_writeSlot ..).goes rfl
  · exact (State.moves_writeShard ..).goes rfl
  · exact (State.moves_writeHints ..).goes rfl
  · exact (State.moves_writeConv ..).goes rfl
  · exact (State.moves_writeConvGlobal ..).goes rfl
  · exact (State.moves_writeDma ..).goes rfl
  · exact (State.moves_writeTable ..).goes rfl
  · exact (State.moves_writeFaultLog ..).goes rfl
  · exact (State.moves_writeTraceLog ..).goes rfl
  · exact (State.moves_writeTrig ..).goes rfl
  · exact (State.moves_writeKeeper ..).goes rfl
  · exact (State.moves_closeSession ..).goes rfl
  · exact (State.moves_plain ..).goes rfl

theorem State.goes_writeWhole (s : State) (p : Path) (k : Nat) (o : Obj') (b : List Byte) :
    s.Goes (s.writeWhole p k o b).2 := by
  unfold State.writeWhole
  extract_lets v
  split
  · exact (State.moves_stage ..).goes rfl
  · split
    · exact .stay s
    · exact s.goes_writeValue ..

/-- A segment that is not the last one never completes a value (R441). -/
theorem gather_not_last (buf : Option (Nat × List Byte)) (a len off : Nat) (data b : List Byte) :
    gather buf a len off false data ≠ .whole b := by
  unfold gather
  extract_lets h f all
  split
  · exact Gathered.noConfusion
  · exact Gathered.noConfusion

theorem State.goes_writeBlob (s : State) (p : Path) (k : Nat) (o : Obj') (q : Req) : s.Goes (s.writeBlob p k o q).2 := by
  unfold State.writeBlob
  split
  · exact (State.moves_modSession ..).goes rfl
  · exact (State.moves_modSession ..).goes rfl
  · exact .of_st (u := s.modSession k _) rfl (State.goes_writeWhole ..)

theorem State.writeBlob_st {s : State} {q : Req} (h : bit q.flags 0 = false) (p : Path) (k : Nat) (o : Obj') :
    (s.writeBlob p k o q).2.blk.st = s.blk.st := by
  unfold State.writeBlob
  rw [h]
  split
  · rfl
  · rfl
  · next hw => exact absurd hw (gather_not_last _ _ _ _ _ _)

theorem State.goes_writeScalar (s : State) (p : Path) (k : Nat) (o : Obj') (q : Req) :
    s.Goes (s.writeScalar p k o q).2 := by
  unfold State.writeScalar
  split
  · exact .stay s
  · exact s.goes_writeWhole ..

theorem State.writeScalar_st {s : State} {q : Req} (h : bit q.flags 0 = false) (p : Path) (k : Nat) (o : Obj') :
    (s.writeScalar p k o q).2.blk.st = s.blk.st := by
  unfold State.writeScalar
  rw [if_pos (.inr (.inr (by rw [h, Bool.not_false])))]

theorem State.goes_serveWrite (s : State) (p : Path) (q : Req) : s.Goes (s.serveWrite p q).2 := by
  unfold State.serveWrite
  split
  · exact .stay s
  · split
    · exact .stay s
    · next o _ =>
      cases hb : o.ty.isBlob
      · exact s.goes_writeScalar ..
      · exact s.goes_writeBlob ..

theorem State.serveWrite_st {s : State} {q : Req} (h : bit q.flags 0 = false) (p : Path) :
    (s.serveWrite p q).2.blk.st = s.blk.st := by
  unfold State.serveWrite
  split
  · rfl
  · split
    · rfl
    · next o _ =>
      cases hb : o.ty.isBlob
      · exact State.writeScalar_st h ..
      · exact State.writeBlob_st h ..

theorem State.goes_serve (s : State) (p : Path) (q : Req) : s.Goes (s.serve p q).2 := by
  unfold State.serve
  split
  · exact (State.moves_serveOpen ..).goes rfl
  split
  · exact (State.moves_serveClose ..).goes rfl
  split
  · exact (State.moves_serveRead ..).goes rfl
  split
  · exact s.goes_serveWrite p q
  · exact .stay s

theorem State.serve_st {s : State} {q : Req} (h : bit q.flags 0 = false) (p : Path) :
    (s.serve p q).2.blk.st = s.blk.st := by
  unfold State.serve
  split
  · exact (State.moves_serveOpen ..).st_eq rfl
  split
  · exact (State.moves_serveClose ..).st_eq rfl
  split
  · exact (State.moves_serveRead ..).st_eq rfl
  split
  · exact State.serveWrite_st h p
  · rfl

/-- A request leaves the block state that its service leaves, or the one before where it is not served. -/
theorem State.request_st (s : State) (p : Path) (q : Req) :
    (s.request p q).blk.st = s.blk.st ∨ (s.request p q).blk.st = (s.serve p q.fit).2.blk.st := by
  unfold State.request
  extract_lets f r
  split
  · exact .inl rfl
  split
  · left
    split
    · exact ((State.moves_deliver ..).st_eq rfl).trans ((State.moves_count ..).st_eq rfl)
    · exact (State.moves_deliver ..).st_eq rfl
  right
  split
  · exact ((State.moves_noteLines _).st_eq rfl).trans
      (((State.moves_deliver ..).st_eq rfl).trans ((State.moves_complete ..).st_eq rfl))
  · cases p <;> rfl

theorem State.goes_request (s : State) (p : Path) (q : Req) : s.Goes (s.request p q) := by
  rcases s.request_st p q with h | h
  · exact .inl h
  · exact (s.goes_serve p q.fit).to_st h

/-- A frame that is not the last one of its value leaves the block state as it is. -/
theorem State.request_st_not_last {s : State} {q : Req} (h : bit (q.flags % 256) 0 = false) (p : Path) :
    (s.request p q).blk.st = s.blk.st := by
  rcases s.request_st p q with hs | hs
  · exact hs
  · exact hs.trans (State.serve_st h p)

/-- Of the frames of a value only the last one may change the block state. -/
theorem State.goes_putBytes (s : State) (p : Path) (b idx sub : Nat) (l : List Byte) :
    s.Goes (s.putBytes p b idx sub l) := by
  obtain ⟨n, hn⟩ : ∃ n, max 1 (ceilDiv l.length (pathRoom p)) = n + 1 :=
    ⟨_, (Nat.sub_add_cancel (Nat.le_max_left 1 _)).symm⟩
  rw [State.putBytes_eq, hn, overAll_range_succ]
  refine .of_st (overAll_keepOn (fun u => u.blk.st) (fun j hj u => ?_) s) (State.goes_request ..)
  have hj : ¬ j + 1 = n + 1 := fun h => absurd (List.mem_range.mp hj) (by omega)
  exact State.request_st_not_last (by show bit ((if j + 1 = n + 1 then 1 else 0) % 256) 0 = false; rw [if_neg hj]; rfl) p

theorem State.goes_putNum (s : State) (p : Path) (b idx sub : Nat) (v : Int) : s.Goes (s.putNum p b idx sub v) :=
  State.goes_putBytes ..

theorem State.goes_go (s : State) (m : Nat) : s.Goes (s.go m) := by
  unfold State.go
  extract_lets x
  split
  · exact .stay s
  · exact .of_st (u := s.modMbx m _) rfl (State.goes_request ..)

theorem State.goes_hregWrite (s : State) (m : Nat) (g : MbxReg) (v : Nat) : s.Goes (s.hregWrite m g v) := by
  unfold State.hregWrite
  extract_lets u
  have hu : u.blk.st = s.blk.st := rfl
  refine .of_st hu ?_
  split
  · split
    · exact u.goes_go m
    · exact .stay u
  · split
    · exact .stay u
    · exact .inl rfl
  · exact .stay u
  · exact .stay u

theorem State.goes_execRecord (s : State) (b : List Byte) : s.Goes (s.execRecord b) := by
  unfold State.execRecord
  refine .ite (fun _ => .inl rfl) fun _ => .ite (fun _ => .inl rfl) fun _ => .ite (fun _ => .inl rfl) fun _ =>
    .ite (fun _ => .inl rfl) fun _ => State.goes_request ..

theorem State.goes_ringRecord (s : State) : s.Goes s.ringRecord := by
  unfold State.ringRecord
  extract_lets c u v
  refine .ite (fun _ => .stay s) fun _ => ?_
  have hv : s.Goes v := .of_st (u := u) rfl (State.goes_execRecord ..)
  exact hv.to_st (((State.moves_waitPace ..).st_eq rfl).trans ((State.moves_memIssue ..).st_eq rfl))

/-! ## The other commands that change the state -/

/-- Where an outcome is a next state, the block goes there along the table. -/
def outGoes (s : State) (o : Out) : Prop := ∀ t, o = .next t → s.Goes t

theorem outGoes.next {s t : State} (h : s.Goes t) : outGoes s (.next t) :=
  fun u hu => by injection hu with e; exact e ▸ h

/-- A command that does not move the block state. -/
theorem outMoves.goes {l : List Part} {s : State} {o : Out} (h : outMoves l s o) (hl : l.contains .st = false) :
    outGoes s o := fun t ht => (h t ht).goes hl

/-- A command of a unit, which an index beyond the range or an unpopulated one turns into nothing. -/
theorem outGoes.within {s t : State} {n i : Nat} (h : s.Goes t) : outGoes s (within s n i t) :=
  .next (.ite (fun _ => h) fun _ => .stay s)

theorem outGoes.onRegion {s t : State} {r : Nat} (h : s.Goes t) : outGoes s (onRegion s r t) :=
  .within (.ite (fun _ => h) fun _ => .stay s)

theorem outGoes.onCourse {s t : State} {c : Nat} (h : s.Goes t) : outGoes s (onCourse s c t) :=
  .within (.ite (fun _ => h) fun _ => .stay s)

section
variable (s : State)

theorem goes_execSuppliesGood : outGoes s (execSuppliesGood s) :=
  .next (.ite (fun h => .inr (by show (s.blk.st, BState.reset) ∈ stateGraph; rw [h]; decide)) fun _ => .stay s)

theorem goes_execSuppliesLost : outGoes s (execSuppliesLost s) := by
  refine .next ?_
  have hoff : s.powerOff.blk.st = .off := rfl
  unfold State.Goes
  rw [hoff]
  cases s.blk.st <;> decide

theorem goes_execResetNLow (logs : List LogCheck) : outGoes s (execResetNLow s logs) := by
  refine .next (.ite (fun _ => .stay s) fun h => ?_)
  extract_lets lost i _ _ _ t u
  have hu : u.blk.st = .reset :=
    overAll_keep (fun x => x.blk.st) (fun x _ => by rw [State.parityError_blk]) _ _
  unfold State.Goes
  rw [State.set_blk, hu]
  revert h
  cases s.blk.st <;> decide

theorem goes_execResetExit (v : Nat) : outGoes s (execResetExit v s) := by
  refine .next (.when fun h => ?_)
  have hr : s.blk.st = .reset := by
    simp only [Bool.and_eq_true, beq_iff_eq] at h
    exact h.1.1.1
  unfold State.enterSelftest
  refine State.goes_enterFrom ?_ (by rw [hr]; decide)
  rw [State.fire_blk]
  split <;> rfl

theorem goes_execSelftestComplete (m w : Bool) (l : List RefCheck) : outGoes s (execSelftestComplete m w l s) := by
  refine .next (.ite (fun _ => .stay s) fun h => ?_)
  have hs : s.blk.st = .selftest := by simpa using h
  extract_lets bad res a b c d
  have hb : b.blk = s.blk := by show (ite _ _ _ : State).blk = _; split; exacts [rfl, State.fire_blk ..]
  have hc : c.blk = s.blk := by
    refine Eq.trans ?_ hb; show (ite _ _ _ : State).blk = _; split; exacts [State.setReason_blk .., rfl]
  have hd : d.blk = s.blk := by
    refine Eq.trans ?_ hc; show (ite _ _ _ : State).blk = _; split; exacts [State.setReason_blk .., rfl]
  have he : (overAll d bad State.failConverter).blk.st = d.blk.st :=
    overAll_keep (fun x => x.blk.st) (fun x n => (State.moves_failConverter x n).st_eq rfl) _ _
  exact State.goes_enterFrom (he.trans (congrArg Block.st hd)) (by rw [hs]; decide)

theorem goes_execFuseloadComplete (b : List Byte) : outGoes s (execFuseloadComplete b s) :=
  .next (.when fun h => State.goes_startDiscover
    (((State.moves_tuneCheck ..).st_eq rfl).trans ((State.moves_loadImage ..).st_eq rfl))
    (by rw [beq_iff_eq.mp h]; decide))

theorem goes_execDiscoverEnd (v : Bool) : outGoes s (execDiscoverEnd v s) := by
  refine .next ?_
  extract_lets all
  refine .ite (fun _ => .stay s) fun h => ?_
  have hs : s.blk.st = .discover := by
    simp only [Bool.or_eq_true, not_or, bne_iff_ne, ne_eq, not_not] at h
    exact h.1
  exact .ite (fun _ => State.goes_enterFrom rfl (by rw [hs]; decide)) fun _ =>
    .ite (fun _ => State.goes_enterFrom rfl (by rw [hs]; decide)) fun _ => .stay s

theorem goes_execRailRampStart : outGoes s (execRailRampStart s) := by
  refine .next ?_
  split
  · refine .ite (fun _ => ?_) fun _ => .stay s
    unfold State.railRampStart
    extract_lets crs strs here
    refine .ite (fun _ => ?_) fun _ => ?_
    · exact State.goes_nextRailFrom (by rw [State.fire_blk]; rfl)
    · refine .inl (congrArg Block.st (Eq.trans (overAll_keep State.blk ?_ _ _) ?_))
      · exact fun _ _ => rfl
      · refine (State.modRail_blk ..).trans (overAll_keep State.blk ?_ _ _)
        exact fun _ _ => rfl
  · exact .stay s

theorem goes_execRailPowerGood (q : Nat) : outGoes s (execRailPowerGood q s) :=
  .within (.when fun _ => State.goes_nextRailFrom rfl)

theorem goes_execRailFailed (q : Nat) : outGoes s (execRailFailed q s) := by
  refine .within ?_
  extract_lets x
  split
  · refine .when fun _ => State.goes_nextRailFrom ?_
    rw [State.fire_blk, State.modRail_blk, State.railEnLow_blk]
  · exact .stay s

theorem State.goes_vinOkLost {u : State} (hu : u.blk.st = s.blk.st)
    (h : u.blk.st = .shutdown ∨ (s.blk.st, BState.shutdown) ∈ stateGraph) :
    s.Goes (if u.blk.st = .shutdown then u else u.enter .shutdown) :=
  .ite (fun _ => .inl hu) fun hn => State.goes_enterFrom hu (h.resolve_left hn)

theorem goes_execVinOkLoss : outGoes s (execVinOkLoss s) := by
  have hpre : (((s.haltAll.allEnLow.railsOff).count Obj.vin_loss_count 32).fire 7 0).blk.st = s.blk.st := by
    rw [State.fire_blk, State.count_blk, State.railsOff_blk, State.allEnLow_blk, State.haltAll_blk]
  refine .next ?_
  split
  · next h => exact State.goes_vinOkLost s hpre (.inr (by rw [h]; decide))
  · next h => exact State.goes_vinOkLost s hpre (.inr (by rw [h]; decide))
  · next h => exact State.goes_vinOkLost s hpre (.inr (by rw [h]; decide))
  · next h => exact State.goes_vinOkLost s hpre (.inl (hpre.trans h))
  · exact .stay s

theorem goes_execVinRestart : outGoes s (execVinRestart s) :=
  .next (.when fun h => State.goes_startDiscover (by rw [State.fire_blk]; rfl) (by
    simp only [Bool.and_eq_true, beq_iff_eq] at h
    rw [h.1.1.1]; decide))

/-! ## Frames of the lanes -/

theorem goes_execDamper (r : Nat) : outGoes s (execDamper r s) := .onRegion (.when fun _ => State.goes_damper ..)

theorem State.goes_acceptFrame (c word : Nat) : s.Goes (s.acceptFrame c word) := by
  unfold State.acceptFrame
  extract_lets x back u v w z
  have hu : u.blk = s.blk := rfl
  have hv : v.blk = s.blk := by
    show (ite _ _ _ : State).blk = _
    split
    · exact (State.fire_blk ..).trans hu
    · exact hu
  have hw : s.Goes w := by
    refine .ite (fun _ => .of_st ?_ (State.goes_damper ..)) fun _ => .inl (congrArg Block.st hv)
    split
    · exact congrArg Block.st hv
    · rw [State.followCause_blk, hv]
  have hz : z.blk.st = w.blk.st := overAll_keep (fun x => x.blk.st) (fun _ _ => (State.moves_hiccupBit ..).st_eq rfl) _ _
  refine hw.to_st (Eq.trans ?_ hz)
  split
  · rw [State.followCause_blk]
  · rfl

theorem goes_execCrsStatFrame (c word : Nat) (ok : Bool) : outGoes s (execCrsStatFrame c word ok s) :=
  .onCourse (.ite (fun _ => .stay s) fun _ => .ite (fun _ => State.goes_acceptFrame ..) fun _ =>
    (State.moves_rejectFrame ..).goes rfl)

theorem goes_execLaneFltDamper (c : Nat) : outGoes s (execLaneFltDamper c s) :=
  .onCourse (.when fun _ => State.goes_damper ..)

theorem goes_execLaneVminDamper (c : Nat) : outGoes s (execLaneVminDamper c s) :=
  .onCourse (.when fun _ => State.goes_damper ..)

/-! ## Temperature -/

theorem goes_execConfirmationRead (q : Nat) (v : Int) (ok : Bool) : outGoes s (execConfirmationRead q v ok s) := by
  refine .within (.when fun hs => ?_)
  unfold State.confirmationRead
  split
  · exact .stay s
  · extract_lets good u
    have hu : u.blk.st = s.blk.st := rfl
    refine .ite (fun _ => .inl rfl) fun _ => .of_st hu (.when fun _ => State.goes_trip _ ?_)
    rw [hu]
    exact hs

theorem goes_execRestartTimerExpiry : outGoes s (execRestartTimerExpiry s) := by
  refine .next ?_
  split
  · next h _ =>
    refine .when fun _ => State.goes_startDiscover ?_ (by rw [h]; decide)
    rw [State.count_blk]
    rfl
  · exact .stay s

/-! ## The control period -/

/-- R42: of what the latch decides only the service evaluation may move the block state. -/
theorem State.goes_latch : s.Goes s.latch := by
  unfold State.latch
  extract_lets regs a b c d e u
  have ha : a.blk.st = s.blk.st := rfl
  have hb : b.blk.st = a.blk.st :=
    State.Moves.st_eq (.step (.step (.overAll (fun _ _ => (State.moves_latchDisturb ..).mono rfl) (.refl [.blk, .regions, .strings, .cap, .dma, .recd, .regs] a))
      (State.moves_latchStates ..) rfl) (State.moves_latchFigures ..) rfl) rfl
  have hd : d.blk.st = b.blk.st := State.Moves.st_eq
    (.overAll (fun _ _ => (State.moves_latchString ..).mono rfl)
      (.step (.overAll (fun _ _ => (State.moves_pickEvaluate ..).mono rfl)
        (.refl [.regions, .strings, .cap, .convs, .cg, .dma, .recd, .regs] b)) (State.moves_latchRetry ..) rfl)) rfl
  have hx : (overAll e.latchAssist regs State.latchDerate).blk.st = d.blk.st := State.Moves.st_eq
    (.overAll (fun _ _ => (State.moves_latchDerate ..).mono rfl)
      (.step (.overAll (fun _ _ => (State.moves_latchRotation ..).mono rfl)
        (.refl [.regions, .strings, .cap, .recd, .regs] d)) (State.moves_latchAssist ..) rfl)) rfl
  have hu : s.Goes u := .of_st (hx.trans (hd.trans (hb.trans ha))) (State.goes_latchService _)
  refine hu.to_st ?_
  split
  · exact (State.moves_holdCapos _).st_eq rfl
  · rfl

/-- What follows the tags of a period: ACT_TICK, and with the engine running the computation and the power sums. -/
def State.endPeriod (v : State) : State :=
  if v.closePeriod.engineOn then
    { v.closePeriod.compute.powerPeriod with
      eng := { v.closePeriod.compute.powerPeriod.eng with computed := true } }
  else v.closePeriod

theorem State.closePeriod_st (v : State) : v.closePeriod.blk.st = v.blk.st := (State.moves_pulseTick _).st_eq rfl

theorem State.powerPeriod_compute_st (w : State) : w.compute.powerPeriod.blk.st = w.blk.st :=
  ((State.moves_powerPeriod w.compute).st_eq rfl).trans ((State.moves_compute w).st_eq rfl)

theorem State.endPeriod_st (v : State) : v.endPeriod.blk.st = v.blk.st := by
  unfold State.endPeriod
  split
  · dsimp only
    exact (State.powerPeriod_compute_st _).trans v.closePeriod_st
  · exact v.closePeriod_st

theorem State.controlPeriod_eq_endPeriod :
    s.controlPeriod = (overAll s.beginPeriod.latch (Config.regions s.beginPeriod.latch.cfg)
      (State.takeTag · s.eng.zeroAt s.beginPeriod.latch.now)).endPeriod := by
  unfold State.controlPeriod State.endPeriod State.closePeriod
  dsimp only

theorem goes_execControlPeriod : outGoes s (execControlPeriod s) := by
  refine .next (.when fun _ => ?_)
  have hl : s.Goes s.beginPeriod.latch := .of_st ((State.moves_beginPeriod s).st_eq rfl) (State.goes_latch _)
  rw [State.controlPeriod_eq_endPeriod]
  refine hl.to_st ((State.endPeriod_st _).trans (overAll_keep (fun x => x.blk.st) (fun _ _ => ?_) _ _))
  exact (State.moves_takeTag ..).st_eq rfl

/-! ## Mailboxes and the ring -/

theorem goes_execRegisterPortAccess (wr : Bool) (a d p : Nat) : outGoes s (execRegisterPortAccess wr a d p s) := by
  refine .next (.when fun _ => ?_)
  extract_lets o
  refine .ite (fun _ => (State.moves_parityError s).goes rfl) fun _ => ?_
  split
  · exact .inl rfl
  · exact .ite (fun _ => State.goes_hregWrite ..) fun _ => (State.moves_hregRead ..).goes rfl

theorem goes_execMbxGo (m : Nat) : outGoes s (execMbxGo m s) := .within (State.goes_go s m)

theorem goes_execRingRecord : outGoes s (execRingRecord s) := .next (.when fun _ => State.goes_ringRecord s)

end


/-! ## Every command -/

/-- R399, of every command. -/
theorem exec_goes (c : Instr) (s : State) : outGoes s (exec c s) := by
  cases c with
  | suppliesGood => exact goes_execSuppliesGood s
  | suppliesLost => exact goes_execSuppliesLost s
  | resetNLow logs => exact goes_execResetNLow s logs
  | resetExit riseAt => exact goes_execResetExit s riseAt
  | selftestComplete memFail twinFail refs =>
    exact goes_execSelftestComplete s memFail twinFail refs
  | fuseloadComplete image => exact goes_execFuseloadComplete s image
  | courseDiscovery c res ident => exact (moves_execCourseDiscovery c res ident s).goes rfl
  | pmbusRetry c res ident => exact (moves_execPmbusRetry c res ident s).goes rfl
  | discoverEnd vinOk => exact goes_execDiscoverEnd s vinOk
  | railRampStart => exact goes_execRailRampStart s
  | rampReferenceStart rail => exact (moves_execRampReferenceStart rail s).goes rfl
  | positionJoin rail p => exact (moves_execPositionJoin rail p s).goes rfl
  | railPowerGood rail => exact goes_execRailPowerGood s rail
  | railFailed rail => exact goes_execRailFailed s rail
  | blockCmdShutdown => exact .next (State.goes_putNum ..)
  | blockCmdStart => exact .next (State.goes_putNum ..)
  | rampDownStart => exact (moves_execRampDownStart s).goes rfl
  | railRampDownEnd rail => exact (moves_execRailRampDownEnd rail s).goes rfl
  | vinOkLoss => exact goes_execVinOkLoss s
  | vinRestart => exact goes_execVinRestart s
  | regionCycle r samples => exact (moves_execRegionCycle r samples s).goes rfl
  | fireFallingEdge n => exact (moves_execFireFallingEdge n s).goes rfl
  | fixedRateFire r => exact (moves_execFixedRateFire r s).goes rfl
  | vminSourceChange r => exact (moves_execVminSourceChange r s).goes rfl
  | strumDisagreeWindow => exact (moves_execStrumDisagreeWindow s).goes rfl
  | twinOvDisagreement r => exact (moves_execTwinOvDisagreement r s).goes rfl
  | twinParityReload r t => exact (moves_execTwinParityReload r t s).goes rfl
  | strumRoundDue r => exact (moves_execStrumRoundDue r s).goes rfl
  | lockoutEnd r => exact (moves_execLockoutEnd r s).goes rfl
  | spreadStrobe r froms => exact (moves_execSpreadStrobe r froms s).goes rfl
  | strumReport r => exact (moves_execStrumReport r s).goes rfl
  | damper r => exact goes_execDamper s r
  | shedArrival n => exact (moves_execShedArrival n s).goes rfl
  | scoreboardChangeArrival n => exact (moves_execScoreboardChangeArrival n s).goes rfl
  | pickupValidityArrival r => exact (moves_execPickupValidityArrival r s).goes rfl
  | bandChangeArrival r => exact (moves_execBandChangeArrival r s).goes rfl
  | preparationTime id => exact (moves_execPreparationTime id s).goes rfl
  | preStrumStart r => exact (moves_execPreStrumStart r s).goes rfl
  | preStrumEnd r => exact (moves_execPreStrumEnd r s).goes rfl
  | bumpHoldEnd id => exact (moves_execBumpHoldEnd id s).goes rfl
  | wakeReqRise r => exact (moves_execWakeReqRise r s).goes rfl
  | wakeGrant => exact (moves_execWakeGrant s).goes rfl
  | wakeTimeout => exact (moves_execWakeTimeout s).goes rfl
  | rejoinAck r => exact (moves_execRejoinAck r s).goes rfl
  | wakeReqFall r => exact (moves_execWakeReqFall r s).goes rfl
  | crsStatFrame c word codingOk => exact goes_execCrsStatFrame s c word codingOk
  | laneTimeout c => exact (moves_execLaneTimeout c s).goes rfl
  | laneFltDamper c => exact goes_execLaneFltDamper s c
  | laneVminDamper c => exact goes_execLaneVminDamper s c
  | crsFltNFall c => exact (moves_execCrsFltNFall c s).goes rfl
  | crsFltNRise c => exact (moves_execCrsFltNRise c s).goes rfl
  | followUp c statusWord iout => exact (moves_execFollowUp c statusWord iout s).goes rfl
  | courseRecordCopy c first second ident => exact (moves_execCourseRecordCopy c first second ident s).goes rfl
  | smbusAlert seg addr => exact (moves_execSmbusAlert seg addr s).goes rfl
  | controlPeriod => exact goes_execControlPeriod s
  | engineOutputs => exact (moves_execEngineOutputs s).goes rfl
  | outputsArrival => exact (moves_execOutputsArrival s).goes rfl
  | swapSample => exact (moves_execSwapSample s).goes rfl
  | bankCopyEnd => exact (moves_execBankCopyEnd s).goes rfl
  | bankSwap => exact .next (State.goes_putBytes ..)
  | shadowWrite => exact .next (State.goes_putNum ..)
  | chFlagsClear => exact .next (State.goes_putNum ..)
  | bankParityError ch t => exact (moves_execBankParityError ch t s).goes rfl
  | trimPwmPeriod high low => exact (moves_execTrimPwmPeriod high low s).goes rfl
  | trimInputLost => exact (moves_execTrimInputLost s).goes rfl
  | trimHoldExpiry => exact (moves_execTrimHoldExpiry s).goes rfl
  | fretStepStart r => exact (moves_execFretStepStart r s).goes rfl
  | fretCmdReqRaise r => exact (moves_execFretCmdReqRaise r s).goes rfl
  | fretCmdAckRise r => exact (moves_execFretCmdAckRise r s).goes rfl
  | fretCmdAckFall r => exact (moves_execFretCmdAckFall r s).goes rfl
  | fretAckLate r => exact (moves_execFretAckLate r s).goes rfl
  | recoveryHoldExpiry rail => exact (moves_execRecoveryHoldExpiry rail s).goes rfl
  | matchedEnableWrite => exact .next (State.goes_putNum ..)
  | millisecondBoundary => exact (moves_execMillisecondBoundary s).goes rfl
  | frameReady => exact (moves_execFrameReady s).goes rfl
  | capStep => exact (moves_execCapStep s).goes rfl
  | capoDelivery => exact (moves_execCapoDelivery s).goes rfl
  | thermalDecision => exact (moves_execThermalDecision s).goes rfl
  | recoveryStep => exact (moves_execRecoveryStep s).goes rfl
  | capIrqClear => exact .next (State.goes_putNum ..)
  | hint word par => exact (moves_execHint word par s).goes rfl
  | hintRetire id => exact (moves_execHintRetire id s).goes rfl
  | hintIrqClear => exact .next (State.goes_putNum ..)
  | hintEntriesMaxRead => exact .next (State.goes_request ..)
  | scoreboardEntryParity id => exact (moves_execScoreboardEntryParity id s).goes rfl
  | staticTableParity => exact (moves_execStaticTableParity s).goes rfl
  | staticTableReloaded image => exact (moves_execStaticTableReloaded image s).goes rfl
  | activityFrame r data par => exact (moves_execActivityFrame r data par s).goes rfl
  | livePredictions => exact (moves_execLivePredictions s).goes rfl
  | forwardRefresh => exact (moves_execForwardRefresh s).goes rfl
  | droopObservation id => exact (moves_execDroopObservation id s).goes rfl
  | learnerStep badCounters => exact (moves_execLearnerStep badCounters s).goes rfl
  | passCommit k => exact (moves_execPassCommit k s).goes rfl
  | passDiscard k parityIn => exact (moves_execPassDiscard k parityIn s).goes rfl
  | cellParityError t => exact (moves_execCellParityError t s).goes rfl
  | groupEtaWrite => exact .next (State.goes_putNum ..)
  | groupFrozenWrite => exact .next (State.goes_putNum ..)
  | slotApply => exact .next (State.goes_putNum ..)
  | slotBuildEnd slot => exact (moves_execSlotBuildEnd slot s).goes rfl
  | shardHalt => exact .next (State.goes_putNum ..)
  | shardResume => exact .next (State.goes_putNum ..)
  | shardExport => exact .next (State.goes_putNum ..)
  | shardImport => exact .next (State.goes_putNum ..)
  | learnCellWrite => exact .next (State.goes_putBytes ..)
  | learnIrqClear => exact .next (State.goes_putNum ..)
  | scanReading r value parityOk => exact (moves_execScanReading r value parityOk s).goes rfl
  | calibrationSlot q value => exact (moves_execCalibrationSlot q value s).goes rfl
  | confirmationRead q value parityOk => exact goes_execConfirmationRead s q value parityOk
  | restartTimerExpiry => exact goes_execRestartTimerExpiry s
  | diodeClear => exact .next (State.goes_putBytes ..)
  | diodeForceWrite => exact .next (State.goes_putBytes ..)
  | thermalIrqClear => exact .next (State.goes_putNum ..)
  | pickupClear => exact .next (State.goes_putNum ..)
  | pickupForceWrite => exact .next (State.goes_putNum ..)
  | conversionResult n nv parityOk storeOk =>
    exact (moves_execConversionResult n nv parityOk storeOk s).goes rfl
  | slopeTestEnd n => exact (moves_execSlopeTestEnd n s).goes rfl
  | fireStrobe n => exact (moves_execFireStrobe n s).goes rfl
  | fireWaitTimeout n => exact (moves_execFireWaitTimeout n s).goes rfl
  | conversionTimeout n => exact (moves_execConversionTimeout n s).goes rfl
  | syncArmSingle => exact .next (State.goes_putNum ..)
  | syncArmSweeps => exact .next (State.goes_putNum ..)
  | syncCancel => exact .next (State.goes_putNum ..)
  | syncTrigger => exact (moves_execSyncTrigger s).goes rfl
  | convUrgent => exact .next (State.goes_putNum ..)
  | urgentRequest n => exact (moves_execUrgentRequest n s).goes rfl
  | convTableWrite => exact .next (State.goes_putBytes ..)
  | boardAnalogConversion x res => exact (moves_execBoardAnalogConversion x res s).goes rfl
  | energyQuarter vs => exact (moves_execEnergyQuarter vs s).goes rfl
  | scoreboardParityError n islandCopy => exact (moves_execScoreboardParityError n islandCopy s).goes rfl
  | parityReturnTimer n => exact (moves_execParityReturnTimer n s).goes rfl
  | stringCmdMute => exact .next (State.goes_putNum ..)
  | stringCmdReturn => exact .next (State.goes_putNum ..)
  | stringCmdSetBlind => exact .next (State.goes_putNum ..)
  | stringCmdClearBlind => exact .next (State.goes_putNum ..)
  | serviceClear => exact .next (State.goes_putNum ..)
  | open_ => exact .next (State.goes_request ..)
  | close => exact .next (State.goes_request ..)
  | read => exact .next (State.goes_request ..)
  | write => exact .next (State.goes_request ..)
  | registerWrite => exact .next (State.goes_putNum ..)
  | sessionExpiry slot => exact (moves_execSessionExpiry slot s).goes rfl
  | i3cPrivateRead => exact (moves_execI3cPrivateRead s).goes rfl
  | i3cFrameDiscard => exact (moves_execI3cFrameDiscard s).goes rfl
  | entdaa addr => exact (moves_execEntdaa addr s).goes rfl
  | setdasa static addr => exact (moves_execSetdasa static addr s).goes rfl
  | rstdaa => exact (moves_execRstdaa s).goes rfl
  | getpid => exact (moves_execGetpid s).goes rfl
  | getbcr => exact (moves_execGetbcr s).goes rfl
  | getdcr => exact (moves_execGetdcr s).goes rfl
  | getstatus => exact (moves_execGetstatus s).goes rfl
  | enec events => exact (moves_execEnec events s).goes rfl
  | disec events => exact (moves_execDisec events s).goes rfl
  | inBandInterrupt won => exact (moves_execInBandInterrupt won s).goes rfl
  | mbxGo m => exact goes_execMbxGo s m
  | ringRecord => exact goes_execRingRecord s
  | commit => exact .next (State.goes_putNum ..)
  | commitDiscard => exact .next (State.goes_putNum ..)
  | commitGroupTaken g => exact (moves_execCommitGroupTaken g s).goes rfl
  | keeperChallenge => exact .next (State.goes_request ..)
  | keeperResponse => exact .next (State.goes_putBytes ..)
  | challengeLapse slot => exact (moves_execChallengeLapse slot s).goes rfl
  | keeperLockoutEnd => exact (moves_execKeeperLockoutEnd s).goes rfl
  | keeperDrop => exact .next (State.goes_putNum ..)
  | sessionEvict => exact .next (State.goes_putNum ..)
  | dmaStart => exact .next (State.goes_putNum ..)
  | dmaAbort => exact .next (State.goes_putNum ..)
  | dmaKick => exact .next (State.goes_putNum ..)
  | descriptorFetch ch => exact (moves_execDescriptorFetch ch s).goes rfl
  | dmaBurst ch holdOk => exact (moves_execDmaBurst ch holdOk s).goes rfl
  | memoryWriteResponse id err => exact (moves_execMemoryWriteResponse id err s).goes rfl
  | memoryReadBeat id data parityOk last err =>
    exact (moves_execMemoryReadBeat id data parityOk last err s).goes rfl
  | descriptorComplete ch => exact (moves_execDescriptorComplete ch s).goes rfl
  | ownPoll ch => exact (moves_execOwnPoll ch s).goes rfl
  | paceTimeout ch => exact (moves_execPaceTimeout ch s).goes rfl
  | memoryTimeout id => exact (moves_execMemoryTimeout id s).goes rfl
  | dmaIrqClear => exact .next (State.goes_putNum ..)
  | stEnable => exact .next (State.goes_putNum ..)
  | stDisable => exact .next (State.goes_putNum ..)
  | stSweepEnd => exact (moves_execStSweepEnd s).goes rfl
  | stEntryFetched n => exact (moves_execStEntryFetched n s).goes rfl
  | stWritebackDue n => exact (moves_execStWritebackDue n s).goes rfl
  | stFlush => exact .next (State.goes_putNum ..)
  | stHostFieldsWrite => exact .next (State.goes_putBytes ..)
  | stCacheParity n => exact (moves_execStCacheParity n s).goes rfl
  | recordFormed => exact (moves_execRecordFormed s).goes rfl
  | trigSnapCountWrite => exact .next (State.goes_putNum ..)
  | faultFreeze => exact .next (State.goes_putNum ..)
  | faultUnfreeze => exact .next (State.goes_putNum ..)
  | freezeExpired => exact (moves_execFreezeExpired s).goes rfl
  | faultClear => exact .next (State.goes_putNum ..)
  | traceClear => exact .next (State.goes_putNum ..)
  | recQueueMaxRead => exact .next (State.goes_request ..)
  | refclkLost => exact (moves_execRefclkLost s).goes rfl
  | refclkRegained => exact (moves_execRefclkRegained s).goes rfl
  | clockCheck faulty hmemMhz => exact (moves_execClockCheck faulty hmemMhz s).goes rfl
  | registerPortAccess wr addr wdata wpar => exact goes_execRegisterPortAccess s wr addr wdata wpar
  | trstNLow => exact (moves_execTrstNLow s).goes rfl
  | testModeFall => exact (moves_execTestModeFall s).goes rfl
  | bypass => exact (moves_execBypass s).goes rfl
  | idcode => exact (moves_execIdcode s).goes rfl
  | samplePreload pins shiftIn => exact (moves_execSamplePreload pins shiftIn s).goes rfl
  | extest testMode => exact (moves_execExtest testMode s).goes rfl
  | testctrl bitsIn testMode => exact (moves_execTestctrl bitsIn testMode s).goes rfl
  | twinReloadComplete r t => exact (moves_execTwinReloadComplete r t s).goes rfl
  | hourWindow => exact (moves_execHourWindow s).goes rfl
  | fullSpeedStart => exact (moves_execFullSpeedStart s).goes rfl
  | testLogicReset => exact (moves_execTestLogicReset s).goes rfl

/-- Settles O6: only entries move the block state, each along the table; every other command leaves it. -/
theorem blockStateFollowsTheTransitions : Obligations.BlockStateFollowsTheTransitions := by
  unfold Obligations.BlockStateFollowsTheTransitions
  exact exec_goes

end Sys2Proof.Machine
end

section
/-! SUPPORT. The step itself, the state after reset, and the passing of block time. -/

namespace Sys2Proof.Machine

/-- Settles O1: the queue's front is what `step` matches on. -/
theorem stepRunsFrontCommand : Obligations.StepRunsFrontCommand := by
  unfold Obligations.StepRunsFrontCommand
  exact fun _ _ _ => rfl

/-! ## After reset (R14, R396, R397) -/

theorem State.reset_rail (q : Nat) : State.reset.rail q = {} :=
  List.getElem?_getD_replicate_default_eq _ 3 q

theorem State.reset_sound : State.reset.Sound where
  legal := by decide
  units := ⟨rfl, rfl, List.length_replicate, List.length_replicate, rfl, rfl⟩
  time := by decide
  regs := rfl
  staged := rfl
  rails q _ := by
    rw [State.reset_rail]
    exact ⟨.inl rfl, .inl rfl⟩

/-- Settles O2: every unit stands at its reset values, in the tables of a sound state. -/
theorem resetStateIsSound : Obligations.ResetStateIsSound := by
  unfold Obligations.ResetStateIsSound
  refine ⟨State.reset_sound, rfl, rfl, rfl, rfl, rfl, fun i => ?_, fun c => ?_, rfl, rfl, rfl, rfl, rfl, rfl,
    fun q _ => ?_⟩
  · have hi : State.reset.str i = {} := List.getElem?_getD_replicate_default_eq _ 1120 i
    rw [hi]
  · have hc : State.reset.course c = {} := List.getElem?_getD_replicate_default_eq _ 140 c
    rw [hc]
    exact ⟨rfl, rfl⟩
  · rw [State.reset_rail]

/-! ## Block time (R546, log 2) -/

theorem State.tick_off {s : State} (h : s.blk.st = .off) : s.tick = s := if_pos h

theorem State.tick_on {s : State} (h : s.blk.st ≠ .off) :
    s.tick = ({ s with now := (s.now + 1) % 2 ^ 64 } : State).noteLines := if_neg h

theorem step_empty {s : State} (h : s.pending = []) : step s = .next s.tick := by
  unfold step
  rw [h]

/-- R444: the lines that stand asserted do not depend on the time. -/
theorem State.irqLines_now (s : State) (n : Nat) : ({ s with now := n } : State).irqLines = s.irqLines := rfl

theorem State.tick_frame (s : State) : State.Frame [.now, .dict] s s.tick := by
  by_cases h : s.blk.st = .off
  · rw [State.tick_off h]
    exact fun p _ => s.same_refl p
  · rw [State.tick_on h]
    intro p hp
    cases p with
    | now => exact absurd (by decide) hp
    | dict => exact absurd (by decide) hp
    | _ => rfl

theorem Core.run_succ_of_next {M : Host.Core} {n : Nat} {s t : M.State} (h : M.step s = .next t) :
    M.run (n + 1) s = M.run n t := by
  rw [Host.Core.run, h]

theorem Core.run_empty (n : Nat) {s t : State} (hp : s.pending = []) (ho : s.blk.st ≠ .off)
    (h : Host.Core.run Sys2Proof.core n s = .next t) :
    t.now % 2 ^ 64 = (s.now + n) % 2 ^ 64 ∧ t.blk = s.blk ∧ t.pending = [] := by
  induction n generalizing s with
  | zero =>
    obtain rfl : s = t := by injection h
    exact ⟨rfl, rfl, hp⟩
  | succ n ih =>
    have hstep : Sys2Proof.core.step s = .next s.tick := step_empty hp
    rw [Core.run_succ_of_next hstep] at h
    have htick := State.tick_on ho
    obtain ⟨hnow, hblk, hpend⟩ := ih (s := s.tick) (by rw [htick]; exact hp) (by rw [htick]; exact ho) h
    refine ⟨?_, hblk.trans (by rw [htick]; rfl), hpend⟩
    rw [hnow, htick]
    show ((s.now + 1) % 2 ^ 64 + n) % 2 ^ 64 = _
    rw [Nat.mod_add_mod, Nat.add_assoc, Nat.add_comm 1 n]

/-- Settles O3: a step on an empty queue is a nanosecond, and a run of them counts the nanoseconds. -/
theorem emptyQueueAdvancesTime : Obligations.EmptyQueueAdvancesTime := by
  unfold Obligations.EmptyQueueAdvancesTime
  refine ⟨fun s hp ho => ?_, fun s hp ho => ⟨s.tick, step_empty hp, ?_, s.tick_frame, ?_⟩,
    fun n s t hp ho h => Core.run_empty n hp ho h⟩
  · rw [step_empty hp, State.tick_off ho]
  · rw [State.tick_on ho]
    rfl
  · rw [State.tick_on ho]
    rfl

/-! ## The trip-disable bit (R543) -/

theorem State.powered_of_ne {s : State} (h : s.blk.st ≠ .off) : s.powered = true := bne_iff_ne.mpr h

theorem exec_testctrl {s : State} (h : s.blk.st ≠ .off) (b : Nat) (m : Bool) :
    exec (.testctrl b m) s = .next { s.setTestMode m with clk := { (s.setTestMode m).clk with
      tap := .testctrl, shift := (s.setTestMode m).clk.ctrl, ctrl := if m then b % 2 else 0 } } := by
  show execTestctrl b m s = _
  rw [execTestctrl, State.powered_of_ne h, State.when_true]

theorem State.setTestMode_testMode (s : State) (m : Bool) : (s.setTestMode m).clk.testMode = m := by
  cases m <;> rfl

theorem State.setTestMode_ctrl (s : State) (m : Bool) :
    (s.setTestMode m).clk.ctrl = if m then s.clk.ctrl else 0 := by
  cases m <;> rfl

theorem State.tripDisabled_of_ctrl_zero {s : State} (h : s.clk.ctrl = 0) : s.tripDisabled = false := by
  unfold State.tripDisabled
  rw [h]
  exact Bool.and_false _

theorem exec_clears_testctrl {s : State} (h : s.blk.st ≠ .off) {c : Instr}
    (hc : c = .trstNLow ∨ c = .testLogicReset ∨ c = .testModeFall) : ∃ t, exec c s = .next t ∧ t.clk.ctrl = 0 := by
  have hp := State.powered_of_ne h
  rcases hc with rfl | rfl | rfl
  · exact ⟨s.tapReset, congrArg Host.Outcome.next (congrArg (s.when · s.tapReset) hp), rfl⟩
  · exact ⟨s.tapReset, congrArg Host.Outcome.next (congrArg (s.when · s.tapReset) hp), rfl⟩
  · exact ⟨s.setTestMode false, congrArg Host.Outcome.next (congrArg (s.when · (s.setTestMode false)) hp), rfl⟩

/-- Settles O59: TESTCTRL holds one bit, which is 0 whenever TEST_MODE is low. -/
theorem testctrlDisablesTheTrip : Obligations.TestctrlDisablesTheTrip := by
  unfold Obligations.TestctrlDisablesTheTrip
  refine fun s b h => ⟨⟨_, exec_testctrl h b true, rfl, ?_⟩, ⟨_, exec_testctrl h b false, rfl, ?_⟩,
    fun m => ⟨_, exec_testctrl h b m, rfl, fun hlt _ hm => ?_⟩, fun c hc => ?_⟩
  · show (true && bit (b % 2) 0) = _
    rcases Nat.mod_two_eq_zero_or_one b with h2 | h2 <;> rw [h2] <;> rfl
  · exact State.tripDisabled_of_ctrl_zero rfl
  · have hs : (s.setTestMode m).clk.ctrl = s.clk.ctrl := by rw [State.setTestMode_ctrl, hm]; rfl
    exact ⟨hs, hs.trans_lt hlt⟩
  · obtain ⟨t, ht, h0⟩ := exec_clears_testctrl h hc
    exact ⟨t, ht, h0, State.tripDisabled_of_ctrl_zero h0⟩

end Sys2Proof.Machine
end

section
/-! SUPPORT. The ports: the I3C target (R442 to R444), the reference clock and the clock checks (R526, R544), and the
test access port (R540 to R543). -/

namespace Sys2Proof.Machine

/-! ## Guarded commands -/

theorem next_when {s t : State} {b : Bool} (h : b = true) : (.next (s.when b t) : Out) = .next t := by
  rw [h, State.when_true]

theorem next_unless {s t : State} {b : Bool} (h : b = false) : (.next (s.when b t) : Out) = .next s := by
  rw [h, State.when_false]

/-- A command of a port has its effect while a supply is present. -/
theorem next_powered {s t : State} (h : s.blk.st ≠ .off) : (.next (s.when s.powered t) : Out) = .next t :=
  next_when (State.powered_of_ne h)

/-! ## Sessions that close -/

theorem State.session_closeSession (s : State) (j k : Nat) :
    (s.closeSession j).session k = if k = j then { gen := (s.session k).gen } else s.session k := by
  split
  case isTrue h =>
    subst h
    by_cases hk : k < s.dict.sessions.length
    · exact session_mod _ hk
    · have hd (t : State) (ht : t.dict.sessions.length = s.dict.sessions.length) : t.session k = {} := by
        rw [State.session, List.getD_eq_getElem?_getD, List.getElem?_eq_none (by omega)]
        rfl
      rw [hd s rfl, hd _ (List.length_modify ..)]
  case isFalse h => exact getD_modify_other _ _ _ h

theorem State.session_closeAll (l : List Nat) (s : State) (k : Nat) :
    (overAll s l State.closeSession).session k =
      if k ∈ l then { gen := (s.session k).gen } else s.session k := by
  induction l generalizing s with
  | nil => rfl
  | cons j l ih =>
    rw [overAll_cons, ih, State.session_closeSession]
    by_cases hj : k = j <;> by_cases hl : k ∈ l <;> simp [hj, hl]

/-! ## The I3C target -/

theorem exec_rstdaa {s : State} (h : s.blk.st ≠ .off) :
    exec .rstdaa s = .next (overAll (s.setDynamic 0) (pathSlots .i3c) State.closeSession) := next_powered h

theorem State.setDynamic_lt {a : Nat} (s : State) (h : a < 128) :
    s.setDynamic a = s.modI3c fun c => { c with dyn := a } := by
  unfold State.setDynamic
  rw [Nat.mod_eq_of_lt h]

theorem bit_zero_of_odd {e : Nat} (h : e % 2 = 1) : bit e 0 = true := by
  simpa [bit, Nat.testBit_zero] using h

/-- Settles O56: each command has its effect while a supply is present and its own condition holds. -/
theorem targetCommands : Obligations.TargetCommands := by
  unfold Obligations.TargetCommands
  intro s h
  have hp := State.powered_of_ne h
  refine ⟨next_powered h, fun hb => ?_, fun a ha => ⟨?_, ?_, fun n hn => ?_⟩, ?_, next_powered h, next_powered h,
    next_powered h, next_powered h, fun e he => ⟨fun hi => next_when ?_, next_when ?_⟩,
    fun hi hd => ⟨next_when ?_, next_when ?_⟩, fun w hi => next_unless ?_⟩
  · have hx : exec .i3cFrameDiscard s = .next _ := next_when (by rw [hp, hb]; rfl)
    exact ⟨_, _, _, hx, Nat.mod_lt _ (by decide), Nat.mod_lt _ (by decide), rfl, rfl,
      (moves_execI3cFrameDiscard s _ hx).frame⟩
  · exact (next_powered h).trans (congrArg _ (s.setDynamic_lt ha))
  · exact (next_when (by rw [hp, beq_self_eq_true]; rfl)).trans (congrArg _ (s.setDynamic_lt ha))
  · exact next_unless (by rw [beq_false_of_ne hn, Bool.and_false])
  · refine ⟨_, exec_rstdaa h, ?_, fun k hk => ?_, fun k hk => ?_, (moves_execRstdaa s _ (exec_rstdaa h)).frame⟩
    · exact overAll_keep (f := State.closeSession) (fun u => u.dict.i3c) (fun _ _ => rfl) _ _
    · rw [State.session_closeAll, if_pos]
      simp only [pathSlots, List.mem_cons]
      omega
    · rw [State.session_closeAll, if_neg]
      · rfl
      · simp only [pathSlots, List.mem_cons, List.not_mem_nil, or_false]
        omega
  · rw [hp, bit_zero_of_odd he, hi]
    rfl
  · rw [hp, bit_zero_of_odd he]
    rfl
  · rw [hp]
    simpa [State.ibiDue, hi] using hd
  · rw [hp]
    simpa [State.ibiDue, hi] using hd
  · rw [State.ibiDue, hi, Bool.false_and, Bool.and_false]

/-! ## The dictionary ring -/

theorem exec_ringRecord {s : State} (hd : s.cfg.hasDma = true) : exec .ringRecord s = .next s.ringRecord := next_when hd

theorem State.ringRecord_ready {s : State} (h : s.ringReady = true) :
    s.ringRecord = ((State.execRecord
      (s.modDmaCh 2 fun c => { c with hold := c.hold.drop 64, pos := c.pos + 64, burst := c.burst - 64 })
      ((s.dmaCh 2).hold.take 64)).memIssue
        { ch := 2, kind := .ringWr, addr := (s.dmaCh 2).src + (s.dmaCh 2).pos + 58, len := 2
          data := [(State.execRecord
            (s.modDmaCh 2 fun c => { c with hold := c.hold.drop 64, pos := c.pos + 64, burst := c.burst - 64 })
            ((s.dmaCh 2).hold.take 64)).dict.ring.1, (State.execRecord
            (s.modDmaCh 2 fun c => { c with hold := c.hold.drop 64, pos := c.pos + 64, burst := c.burst - 64 })
            ((s.dmaCh 2).hold.take 64)).dict.ring.2] }).waitPace 2 := by
  unfold State.ringRecord
  rw [h]
  rfl

section
variable {s : State} {b : List Byte}

theorem State.execRecord_torn (h : crc32c (b.take 58) ≠ fieldAt b 60 4) :
    s.execRecord b = { s with dict := { s.dict with ring := (3, 0) } } := if_pos h

variable (h : crc32c (b.take 58) = fieldAt b 60 4)
include h

theorem State.execRecord_noop (h0 : b.getD 2 0 = 0) :
    s.execRecord b = { s with dict := { s.dict with ring := (1, 0) } } :=
  (if_neg (not_not.mpr h)).trans (if_pos h0)

theorem State.execRecord_other (h0 : b.getD 2 0 ≠ 0) (h4 : b.getD 2 0 ≠ opWrite) :
    s.execRecord b = { s with dict := { s.dict with ring := (2, abortAccess) } } :=
  (if_neg (not_not.mpr h)).trans ((if_neg h0).trans (if_pos h4))

theorem State.execRecord_write (h4 : b.getD 2 0 = opWrite) (hl : b.getD 7 0 ≤ 48) :
    s.execRecord b = s.request .ring
      { op := opWrite, sess := noSession, idx := fieldAt b 4 2, sub := b.getD 6 0, flags := b.getD 3 0
        off := fieldAt b 8 2, data := slice b 10 (b.getD 7 0) } :=
  (if_neg (not_not.mpr h)).trans ((if_neg (by rw [h4]; decide)).trans
    ((if_neg (not_not.mpr h4)).trans (if_neg (Nat.not_lt.mpr hl))))

end

/-! ## The test access port -/

theorem State.setTestMode_tap_ne (s : State) : (s.setTestMode false).clk.tap ≠ .extest := by
  show (if s.clk.tap = .extest then s.selectBypass else s).clk.tap ≠ .extest
  split
  · exact nofun
  · assumption

theorem State.setTestMode_true (s : State) : s.setTestMode true = { s with clk := { s.clk with testMode := true } } :=
  rfl

theorem State.setTestMode_false_bypass (s : State) : (s.setTestMode false).selectBypass =
    { s with clk := { s.clk with testMode := false, ctrl := 0, tap := .bypass, shift := 0 } } := by
  unfold State.setTestMode
  by_cases h : s.clk.tap = .extest
  · simp only [Bool.false_eq_true, if_false, if_pos h]
    rfl
  · simp only [Bool.false_eq_true, if_false, if_neg h]
    rfl

theorem State.setTestMode_blk (s : State) (m : Bool) : (s.setTestMode m).blk = s.blk :=
  (State.moves_setTestMode ..).frame .blk (by decide)

/-- Settles O58: a record, the reference and the port's instructions each leave the next state that their condition
selects. -/
theorem ringClocksAndTestPort : Obligations.RingClocksAndTestPort := by
  unfold Obligations.RingClocksAndTestPort
  refine ⟨fun s b u hd hb hu => ⟨fun hr => ?_, fun hr => ?_⟩, fun s h => ?_⟩
  · rw [exec_ringRecord hd]
    unfold State.ringRecord
    rw [hr]
    rfl
  · subst hb hu
    refine ⟨_, (exec_ringRecord hd).trans (congrArg _ (State.ringRecord_ready hr)), State.execRecord_torn, fun hc => ?_⟩
    exact ⟨State.execRecord_noop hc, State.execRecord_other hc, State.execRecord_write hc⟩
  have hp := State.powered_of_ne h
  refine ⟨fun hr => next_when ?_, fun hr => next_unless ?_, fun hr => next_when ?_, fun hr => next_unless ?_,
    fun l m => ?_, next_powered h, next_powered h, next_powered h, next_powered h, fun p b hb => ?_, fun hs => ?_,
    fun hs => ?_, ?_, fun b => exec_testctrl h b true, fun b => ?_, ?_⟩
  · rw [hp, hr]
    rfl
  · rw [hr, Bool.not_true, Bool.and_false]
  · rw [hp, hr]
    rfl
  · rw [hr, Bool.and_false]
  · have hx : exec (.clockCheck l m) s = .next _ := next_powered h
    exact ⟨_, hx, (moves_execClockCheck l m s _ hx).frame, rfl, fun r => by
      rw [List.mem_filter, Bool.or_eq_true, List.contains_iff_mem, List.contains_iff_mem]⟩
  · have hx : exec (.samplePreload p b) s = .next { s with clk := { s.clk with
        tap := .sample, shift := s.boundary p, bound := b % 2 ^ boundaryCells } } := next_powered h
    rw [hx, show boundaryCells = 1742 from rfl, Nat.mod_eq_of_lt hb]
  · refine (next_powered h).trans (congrArg _ (if_pos ?_))
    rw [Bool.true_and, beq_iff_eq, State.setTestMode_blk, hs]
  · refine (next_powered h).trans (congrArg _ (if_neg ?_))
    rw [Bool.true_and, beq_iff_eq, State.setTestMode_blk]
    exact hs
  · exact (next_powered h).trans (congrArg _ s.setTestMode_false_bypass)
  · have hx := exec_testctrl h b false
    exact ⟨_, hx, (moves_execTestctrl b false s _ hx).frame, rfl, rfl⟩
  · have hx : exec .testModeFall s = .next (s.setTestMode false) := next_powered h
    exact ⟨_, hx, (moves_execTestModeFall s _ hx).frame, rfl, rfl, s.setTestMode_tap_ne⟩

end Sys2Proof.Machine
end

section
/-! SUPPORT. Mailboxes (R445, R446) and the register port (R528, R529). -/

namespace Sys2Proof.Machine

/-! ## A request before DISCOVER (R401) -/

theorem State.request_refused {s : State} {p : Path} {q : Req} (ho : s.blk.st ≠ .off) (hb : s.pathBusy p = false)
    (hp : p ≠ .ring) (hs : s.blk.st.serves = false) :
    s.request p q = (if q.op % 256 = opOpen then s.count Obj.session_busy_count 32 else s).deliver p
      { op := q.op % 256, sess := q.sess % 256, status := abortBusy } := by
  have hfree : (s.blk.st == .off || s.pathBusy p || (p == .ring && q.fit.op != opWrite)) = false := by
    rw [beq_false_of_ne ho, hb, beq_false_of_ne hp, Bool.false_and]
    rfl
  unfold State.request
  simp only [hfree, hs, Bool.not_false, if_true, Bool.false_eq_true, if_false]
  rfl

theorem State.deliver_mbx {m : Nat} (s : State) (x : Resp) (h : m < 2) :
    s.deliver (mbxPath m) x =
      ({ s with dict := { s.dict with status := x.status, data := x.data } } : State).modMbx m (·.respond x) := by
  match m, h with
  | 0, _ => rfl
  | 1, _ => rfl

theorem mbxPath_ne_ring (m : Nat) : mbxPath m ≠ .ring := by
  unfold mbxPath
  split <;> exact nofun

/-! ## GO -/

theorem exec_mbxGo_eq {m : Nat} (hm : m < 2) (s : State) : exec (.mbxGo m) s = .next (s.go m) := congrArg _ (if_pos hm)

section
variable {s : State} {m : Nat} {x : Mailbox} (hm : m < 2) (hx : s.dict.mbx[m]? = some x)
include hx

theorem State.mbx_eq : s.dict.mbx.getD m {} = x := by rw [List.getD_eq_getElem?_getD, hx, Option.getD_some]

theorem State.go_busy (hb : x.busy = true) : s.go m = s := by
  unfold State.go
  rw [State.mbx_eq hx]
  exact if_pos (by rw [hb, Bool.true_or])

theorem State.go_idle (ho : s.blk.st ≠ .off) (hb : x.busy = false) :
    s.go m = (s.modMbx m fun x => { x with busy := true, done := false }).request (mbxPath m) x.frame := by
  unfold State.go
  rw [State.mbx_eq hx]
  exact if_neg (by rw [hb, State.powered_of_ne ho]; decide)

theorem State.mbx_modMbx (f : Mailbox → Mailbox) : (s.modMbx m f).dict.mbx[m]? = some (f x) := by
  show (s.dict.mbx.modify m f)[m]? = _
  rw [List.getElem?_modify_eq, hx]
  rfl

include hm

/-- R401: before DISCOVER the response to GO is there at once, with status BUSY. -/
theorem exec_mbxGo_refused (ho : s.blk.st ≠ .off) (hb : x.busy = false) (hp : s.pathBusy (mbxPath m) = false)
    (hs : s.blk.st.serves = false) :
    ∃ t y, exec (.mbxGo m) s = .next t ∧ State.Frame [.dict, .regs] s t ∧
      t.regs = (if x.req.getD 0 0 % 256 = opOpen then (s.count Obj.session_busy_count 32).regs else s.regs) ∧
      t.dict.mbx[m]? = some y ∧ y.busy = false ∧ y.done = true ∧ y.req = x.req ∧ y.rspLen = 6 ∧
      y.rsp = patch x.rsp 0 [x.req.getD 0 0 % 256, x.req.getD 1 0 % 256, abortBusy, 0, 0, 0] := by
  have hgo := State.go_idle hx ho hb
  rw [State.request_refused (s := s.modMbx m _) ho hp (mbxPath_ne_ring m) hs, State.deliver_mbx _ _ hm] at hgo
  have hbytes : Resp.bytes { op := x.frame.op % 256, sess := x.frame.sess % 256, status := abortBusy } =
      [x.req.getD 0 0 % 256, x.req.getD 1 0 % 256, abortBusy, 0, 0, 0] := by
    simp only [Resp.bytes, Nat.mod_mod]
    rfl
  generalize hr : ({ op := x.frame.op % 256, sess := x.frame.sess % 256, status := abortBusy } : Resp) = r at hgo hbytes
  refine ⟨_, _, (exec_mbxGo_eq hm _).trans (congrArg _ hgo), ?_, ?_,
    State.mbx_modMbx (x := { x with busy := true, done := false }) ?_ _, rfl, rfl, rfl, ?_, ?_⟩
  · intro q hq
    by_cases hop : x.frame.op % 256 = opOpen
    · rw [if_pos hop]
      cases q <;> first | exact absurd (by decide) hq | rfl
    · rw [if_neg hop]
      cases q <;> first | exact absurd (by decide) hq | rfl
  · show (ite _ _ _ : State).regs = ite (x.frame.op % 256 = opOpen) _ _
    split <;> rfl
  · show (ite _ _ _ : State).dict.mbx[m]? = _
    split
    · exact State.mbx_modMbx hx _
    · exact State.mbx_modMbx hx _
  · exact (congrArg List.length hbytes)
  · exact congrArg (patch x.rsp 0) hbytes

end

/-! ## The registers of the window -/

theorem mbxReg_req {o : Nat} (h : 0x40 ≤ o) (h' : o < 0xC0) : mbxReg o = some (.req (o - 0x40)) := by
  unfold mbxReg
  rw [if_neg (by omega), if_neg (by omega), if_pos ⟨h, h'⟩]

theorem mbxReg_rsp {o : Nat} (h : 0xC0 ≤ o) (h' : o < 0x140) : mbxReg o = some (.rsp (o - 0xC0)) := by
  unfold mbxReg
  rw [if_neg (by omega), if_neg (by omega), if_neg (by omega), if_pos ⟨h, h'⟩]

theorem mbxReg_none {o : Nat} (h : (4 < o ∧ o < 0x40) ∨ 0x140 ≤ o) : mbxReg o = none := by
  unfold mbxReg
  rw [if_neg (by omega), if_neg (by omega), if_neg (by omega), if_neg (by omega)]

section
variable {s : State} {m a : Nat} (ho : s.blk.st ≠ .off) (hm : m < 2) (ha : a < 512) (h4 : a % 4 = 0)
include ha

theorem port_register : (512 * m + a) % 512 = a := by omega

theorem port_mailbox : (512 * m + a) / 512 = m := by omega

include hm h4

theorem port_offset : (512 * m + a) % 1024 / 4 * 4 = 512 * m + a := by omega

include ho

theorem exec_portRead {g : MbxReg} (w p : Nat) (hg : mbxReg a = some g) :
    exec (.registerPortAccess false (512 * m + a) w p) s = .next (s.hregRead m g) := by
  refine (next_powered ho).trans (congrArg _ ?_)
  simp only [Bool.false_and, Bool.false_eq_true, if_false, port_offset hm ha h4, port_register ha,
    port_mailbox ha, hg]

theorem exec_portRead_none (w p : Nat) (hg : mbxReg a = none) :
    exec (.registerPortAccess false (512 * m + a) w p) s = .next (s.hregDone 0 true) := by
  refine (next_powered ho).trans (congrArg _ ?_)
  simp only [Bool.false_and, Bool.false_eq_true, if_false, port_offset hm ha h4, port_register ha, hg]

theorem exec_portWrite {g : MbxReg} {w p : Nat} (hp : wordParity w p = true) (hg : mbxReg a = some g) :
    exec (.registerPortAccess true (512 * m + a) w p) s = .next (s.hregWrite m g (w % 2 ^ 32)) := by
  refine (next_powered ho).trans (congrArg _ ?_)
  simp only [hp, Bool.not_true, Bool.and_false, Bool.false_eq_true, if_false, port_offset hm ha h4,
    port_register ha, port_mailbox ha, hg, if_true]

theorem exec_portWrite_none {w p : Nat} (hp : wordParity w p = true) (hg : mbxReg a = none) :
    exec (.registerPortAccess true (512 * m + a) w p) s = .next (s.hregDone s.clk.hregData true) := by
  refine (next_powered ho).trans (congrArg _ ?_)
  simp only [hp, Bool.not_true, Bool.and_false, Bool.false_eq_true, if_false, port_offset hm ha h4,
    port_register ha, hg, if_true]

end

theorem exec_portWrite_parity {s : State} (ho : s.blk.st ≠ .off) {w p : Nat} (a : Nat) (hp : wordParity w p = false) :
    exec (.registerPortAccess true a w p) s = .next (s.parityError.hregDone s.clk.hregData true) := by
  refine (next_powered ho).trans (congrArg _ ?_)
  simp only [hp, Bool.not_false, Bool.and_true, if_true]

theorem State.hregWrite_req {s : State} {m : Nat} {x : Mailbox} (hx : s.dict.mbx[m]? = some x) (o v : Nat) :
    s.hregWrite m (.req o) v = if x.busy then s.hregDone s.clk.hregData false else
      (s.hregDone s.clk.hregData false).modMbx m fun x => { x with req := patch x.req o (leBytes 4 v) } := by
  unfold State.hregWrite
  rw [← State.mbx_eq hx]
  rfl

/-- Settles O57: GO and the port's accesses each leave the next state that BUSY, the parity and the offset select. -/
theorem mailboxesAndRegisterPort : Obligations.MailboxesAndRegisterPort := by
  unfold Obligations.MailboxesAndRegisterPort
  intro s m x ho hm hx
  have hmx := State.mbx_eq hx
  refine ⟨fun hb => ?_, fun hb => ?_, exec_mbxGo_refused hm hx ho, fun a ha h4 w p => ⟨?_, ?_, ?_, ?_, ?_, ?_, ?_, ?_, ?_⟩⟩
  · rw [exec_mbxGo_eq hm _, State.go_busy hx hb]
  · rw [exec_mbxGo_eq hm _, State.go_idle hx ho hb]
    rfl
  · rintro rfl
    exact ⟨_, _, Nat.mod_lt _ (by decide), exec_portRead ho hm ha h4 w p (g := .ctrl) rfl⟩
  · rintro h hp
    rcases h with rfl | ⟨hlo, hhi⟩
    · exact exec_portWrite ho hm ha h4 hp (g := .stat) rfl
    · exact exec_portWrite ho hm ha h4 hp (mbxReg_rsp hlo hhi)
  · rintro rfl
    rw [exec_portRead ho hm ha h4 w p (g := .stat) rfl, State.hregRead, hmx]
    rfl
  · intro hlo hhi
    rw [exec_portRead ho hm ha h4 w p (mbxReg_req hlo hhi), State.hregRead, hmx]
    rfl
  · intro hlo hhi
    rw [exec_portRead ho hm ha h4 w p (mbxReg_rsp hlo hhi), State.hregRead, hmx]
    rfl
  · exact fun h => ⟨exec_portRead_none ho hm ha h4 w p (mbxReg_none h),
      fun hp => exec_portWrite_none ho hm ha h4 hp (mbxReg_none h)⟩
  · exact exec_portWrite_parity ho _
  · rintro hp hw hlo hhi u rfl
    have hwr := exec_portWrite ho hm ha h4 hp (mbxReg_req hlo hhi)
    rw [Nat.mod_eq_of_lt hw, State.hregWrite_req hx] at hwr
    exact ⟨fun hb => by rw [hwr, hb]; rfl, fun hb => by rw [hwr, hb]; rfl⟩
  · rintro hp hw rfl u rfl
    have hwr := exec_portWrite ho hm ha h4 hp (g := .ctrl) rfl
    rw [Nat.mod_eq_of_lt hw] at hwr
    have hbit : bit w 0 = decide (w % 2 = 1) := Nat.testBit_zero w
    refine ⟨fun h0 => hwr.trans (congrArg _ (if_neg ?_)), fun h1 => hwr.trans ((congrArg _ (if_pos ?_)).trans
      (exec_mbxGo_eq hm _).symm)⟩
    · rw [hbit, h0]
      decide
    · rw [hbit, h1]
      rfl

end Sys2Proof.Machine
end

section
/-! SUPPORT. Commands that are writes of numbers: the block's (R416), the commit groups' (R449, R450) and those of the
DMA channels (R479). -/

namespace Sys2Proof.Machine

section
variable {s u : State} {p : Path} {b k idx sub n st : Nat} {o : Obj'} {v w : Int}

/-- A number that is in its object's range, or is brought into it, and what its object's rule answers. -/
theorem putNum_answers (h : s.Serves p b k) (hi : idx < 65536) (hs : sub < 256) (hf : findObj s.cfg idx sub = .ok o)
    (ho : s.TakesValue k o n) (hn : n ≤ 48) (hr : o.rng.apply (o.ty.decode (o.ty.encode v)) = some w)
    (hv : s.writeValue p k o w (o.ty.encode v) = (st, u)) :
    s.putNum p b idx sub v = u.answered p b opWrite st (if st = 0 then n else 0) := by
  obtain ⟨hsel, ha, hk, hg, rfl⟩ := ho
  exact putNum_does h hi hs hf hsel ha hk hn hg hr hv

end

/-! ## `block_cmd` (R416) -/

section
variable {s u : State} {p : Path} {b k : Nat} (hk : (s.session k).keeper = true) (h : s.Serves p b k)
include hk

theorem takes_block_cmd : s.TakesValue k ⟨.u8, .rwk, .only 1 2, 0, Obj.block_cmd, 0x1100, 0, 0x02⟩ 1 :=
  ⟨rfl, rfl, by rw [hk]; rfl, rfl, rfl⟩

include h

theorem exec_blockCmdShutdown {st : Nat} (hu : s.cmdShutdown = (st, u)) :
    exec (.blockCmdShutdown p b) s = .next (u.answered p b opWrite st (if st = 0 then 1 else 0)) :=
  congrArg _ (putNum_answers h (by decide) (by decide) (find_block_cmd s.cfg) (takes_block_cmd hk) (by decide)
    (w := 1) (by decide) hu)

theorem exec_blockCmdStart {st : Nat} (hu : s.cmdStart = (st, u)) :
    exec (.blockCmdStart p b) s = .next (u.answered p b opWrite st (if st = 0 then 1 else 0)) :=
  congrArg _ (putNum_answers h (by decide) (by decide) (find_block_cmd s.cfg) (takes_block_cmd hk) (by decide)
    (w := 2) (by decide) hu)

end

theorem State.anyEnabled_iff (s : State) : (s.courses.any (·.en)) = true ↔ ∃ c ∈ s.courses, c.en = true :=
  List.any_eq_true

/-- Settles O13: the write reaches the block's rule, which the block state and the courses decide. -/
theorem blockCommands : Obligations.BlockCommands := by
  unfold Obligations.BlockCommands
  refine fun s p b k h hk => ⟨fun hs => exec_blockCmdShutdown hk h ?_, fun hs => exec_blockCmdShutdown hk h ?_,
    fun hs => exec_blockCmdShutdown hk h ?_, fun hs hc => exec_blockCmdStart hk h (if_pos ?_),
    fun hs => exec_blockCmdStart hk h (if_neg ?_)⟩
  · rcases hs with hs | hs | hs <;> simp only [State.cmdShutdown, hs]
  · rcases hs with hs | hs <;> simp only [State.cmdShutdown, hs]
  · rcases hs with hs | hs <;> simp only [State.cmdShutdown, hs]
  · have hnone : s.courses.any (·.en) = false := by
      rw [Bool.eq_false_iff, ne_eq, s.anyEnabled_iff]
      rintro ⟨c, hcm, hce⟩
      rw [hc c hcm] at hce
      exact nomatch hce
    rw [hs, hnone]
    rfl
  · rw [Bool.and_eq_true, Bool.not_eq_true', decide_eq_true_eq, Bool.eq_false_iff, ne_eq, s.anyEnabled_iff]
    rintro ⟨hsd, hne⟩
    exact hs.elim (absurd hsd) hne

/-! ## Commit groups (R449, R450) -/

theorem apply_bits_and {t : Ty} {a m : Nat} (ht : t.signed = false) (hm : m < 2 ^ (8 * t.length)) :
    (Rng.bits a).apply (t.decode (t.encode m)) = some ((m &&& a : Nat) : Int) := by
  rw [decode_encode ht hm]
  rfl

section
variable {s : State} {p : Path} {b k m : Nat} (h : s.Serves p b k) (hm : m < 256)
include h hm

theorem exec_commit : exec (.commit p b m) s = .next ((s.commitMask (m &&& 254)).answered p b opWrite 0 1) :=
  congrArg _ (putNum_takes h (by decide) (by decide) (find_commit s.cfg) ⟨rfl, rfl, rfl, rfl, rfl⟩ (by decide)
    (apply_bits_and rfl hm) rfl)

theorem exec_commitDiscard :
    exec (.commitDiscard p b m) s = .next ((s.discardMask (m &&& 254)).answered p b opWrite 0 1) :=
  congrArg _ (putNum_takes h (by decide) (by decide) (find_commit_discard s.cfg) ⟨rfl, rfl, rfl, rfl, rfl⟩ (by decide)
    (apply_bits_and rfl hm) rfl)

end

/-- R391: groups 1 to 5 are taken by the engine or the supervisor, at once or at the next instant. -/
theorem exec_commitGroupTaken {s : State} {g : Nat} (h1 : 1 ≤ g) (h5 : g ≤ 5) :
    exec (.commitGroupTaken g) s = .next (s.takeGroup g) := by
  have hw : exec (.commitGroupTaken g) s = .next (s.groupTaken g) :=
    (within_lt (by omega)).trans (next_when (decide_eq_true h1))
  rw [hw, State.groupTaken]
  · exact fun e => absurd h5 (by omega)
  · exact fun e => absurd h5 (by omega)

theorem State.takeGroup_other {s : State} {g : Nat} (h : s.sameCycle g = false) (h7 : g ≠ 7) :
    s.takeGroup g = { s with used := s.groupSet g } := by
  unfold State.takeGroup
  rw [h, if_neg h7]
  rfl

/-- Members that are deleted from the staged values stand there no more. -/
theorem rfGet_delAll {l : List Reg} {f : RegFile} (hf : rfWf f = true) {m : Reg} (hm : m ∈ l ∨ rfGet f m.addr = none) :
    rfGet (l.foldl (fun f r => rfDel f r.addr) f) m.addr = none := by
  induction l generalizing f with
  | nil => exact hm.resolve_left List.not_mem_nil
  | cons r l ih =>
    refine ih (rfWf_del _ hf) ?_
    by_cases he : m.addr = r.addr
    · exact .inr (he ▸ rfGet_del_same _ hf)
    · rw [List.mem_cons, or_assoc] at hm
      rcases hm with rfl | hm | hm
      · exact absurd rfl he
      · exact .inl hm
      · exact .inr (by rwa [rfGet_del_other _ he])

theorem State.commitGroup_dict {s : State} {g : Nat} (h : bit s.dict.pending g = true) :
    (s.commitGroup g).dict = { (s.unstage g).dict with commitAt := s.dict.commitAt.set g (some s.now) } := by
  have hu (u : State) (hd : u.dict = s.dict) (hn : u.now = s.now) :
      (({ u.unstage g with dict := { (u.unstage g).dict with
        commitAt := (u.unstage g).dict.commitAt.set g (some (u.unstage g).now) } } : State).count
          Obj.commit_count 32).dict =
      { (s.unstage g).dict with commitAt := s.dict.commitAt.set g (some s.now) } := by
    rw [State.count_dict]
    unfold State.unstage
    dsimp only
    rw [hd, hn]
  unfold State.commitGroup
  rw [h]
  have hset (l : List (Reg × Int)) : State.Moves [.regs] s (overAll s l fun s m => s.set m.1 m.2) :=
    .overAll (fun _ _ => State.moves_set ..) (.refl _ s)
  have hm := (hset ((groupMembersOf g).map fun m => (m, s.clampMember m (s.staged m g)))).step
    (State.moves_consistent _ g) rfl
  exact hu _ (hm.frame .dict (by decide)) (hm.frame .now (by decide))

/-- Settles O48: the mask's bits reach the groups, and each consumer's copy is the set of its own members. -/
theorem commitCommands : Obligations.CommitCommands := by
  unfold Obligations.CommitCommands
  refine fun s => ⟨fun p b k m h hm => ⟨exec_commit h hm, exec_commitDiscard h hm⟩, fun g h1 h5 hc => ?_, fun hc => ?_,
    fun hc => ?_, fun hc => ?_, fun g hp => if_pos (by rw [hp]; rfl), fun g h1 h8 hw hp => ⟨?_, fun m hm => ?_⟩⟩
  · exact (exec_commitGroupTaken h1 h5).trans (congrArg _ (if_pos hc))
  · exact (exec_commitGroupTaken (by decide) (by decide)).trans (congrArg _ (State.takeGroup_other hc (by decide)))
  · exact (exec_commitGroupTaken (by decide) (by decide)).trans (congrArg _ (State.takeGroup_other hc (by decide)))
  · exact (exec_commitGroupTaken (by decide) (by decide)).trans (congrArg _ (State.takeGroup_other hc (by decide)))
  · rw [State.commitGroup_dict hp]
    show bit (s.dict.pending &&& (254 - 2 ^ g)) g = false
    have hg : (254 - 2 ^ g).testBit g = false := by interval_cases g <;> rfl
    rw [bit, Nat.testBit_and, hg, Bool.and_false]
  · rw [State.commitGroup_dict hp]
    exact rfGet_delAll hw (.inl hm)

/-! ## Commands of a DMA channel (R479) -/

section
variable {s u : State} {p : Path} {b k ch : Nat} (h : s.Serves p b k) (hd : s.cfg.hasDma = true) (hc : ch < 8)
  (hp : ch ≠ 1)
include h hd hc hp

theorem putNum_dmaCommand {v : Nat} {st : Nat} (h1 : 1 ≤ v) (h3 : v ≤ 3) (hu : s.dmaCommand ch v = (st, u)) :
    s.putNum p b (unitObj 0x7800 8 ch) 0x02 v = u.answered p b opWrite st (if st = 0 then 1 else 0) := by
  rw [unitObj_of_lt hc]
  refine putNum_answers h (by omega) (by decide) (find_dma_cmd hc hp hd) ⟨rfl, rfl, rfl, rfl, rfl⟩ (by decide)
    (w := (v : Int)) ?_ hu
  rw [decode_encode rfl (by show v < 2 ^ 8; omega)]
  exact if_pos ⟨by omega, by omega⟩

theorem exec_dmaStart {st : Nat} (hu : s.dmaCommand ch 1 = (st, u)) :
    exec (.dmaStart p b ch) s = .next (u.answered p b opWrite st (if st = 0 then 1 else 0)) :=
  congrArg _ (putNum_dmaCommand h hd hc hp (v := 1) (by decide) (by decide) hu)

theorem exec_dmaAbort {st : Nat} (hu : s.dmaCommand ch 2 = (st, u)) :
    exec (.dmaAbort p b ch) s = .next (u.answered p b opWrite st (if st = 0 then 1 else 0)) :=
  congrArg _ (putNum_dmaCommand h hd hc hp (v := 2) (by decide) (by decide) hu)

theorem exec_dmaKick {st : Nat} (hu : s.dmaCommand ch 3 = (st, u)) :
    exec (.dmaKick p b ch) s = .next (u.answered p b opWrite st (if st = 0 then 1 else 0)) :=
  congrArg _ (putNum_dmaCommand h hd hc hp (v := 3) (by decide) (by decide) hu)

end

section
variable {s : State} {ch : Nat}

theorem State.dmaCommand_start (h : (s.dmaCh ch).st.rests = true) : s.dmaCommand ch 1 = (0, s.dmaStart ch) := if_pos h

theorem State.dmaCommand_start_busy (h : (s.dmaCh ch).st.rests = false) : s.dmaCommand ch 1 = (abortAccess, s) :=
  if_neg (Bool.eq_false_iff.mp h)

theorem State.dmaCommand_abort (h : (s.dmaCh ch).st.rests = false) : s.dmaCommand ch 2 = (0, s.dmaAbort ch) :=
  if_neg (Bool.eq_false_iff.mp h)

theorem State.dmaCommand_abort_idle (h : (s.dmaCh ch).st.rests = true) : s.dmaCommand ch 2 = (abortAccess, s) :=
  if_pos h

theorem State.dmaCommand_kick : s.dmaCommand ch 3 = (0, s.dmaKick ch) := rfl

end

/-- Settles O49: the channel's state decides what each of the three commands does. -/
theorem dmaCommands : Obligations.DmaCommands := by
  unfold Obligations.DmaCommands
  refine fun s p b k ch h hd hc hp => ⟨fun hr h2 => ?_, fun hr h2 => ?_, fun hr => ?_, fun hr => ?_,
    fun hw => ⟨?_, ?_⟩, fun hw => ?_, fun hw => ?_, fun hw => ?_⟩
  · refine (exec_dmaStart h hd hc hp (State.dmaCommand_start hr)).trans ?_
    simp only [State.dmaStart, h2, if_false]
    rfl
  · subst h2
    exact exec_dmaStart h hd hc hp (State.dmaCommand_start hr)
  · exact exec_dmaStart h hd hc hp (State.dmaCommand_start_busy hr)
  · exact exec_dmaAbort h hd hc hp (State.dmaCommand_abort_idle hr)
  · refine (exec_dmaAbort h hd hc hp (State.dmaCommand_abort (by rw [hw]; rfl))).trans ?_
    simp only [State.dmaAbort, hw]
    rfl
  · refine (exec_dmaKick h hd hc hp State.dmaCommand_kick).trans ?_
    rw [State.dmaKick, if_pos hw]
    rfl
  · refine (exec_dmaAbort h hd hc hp (State.dmaCommand_abort (by rw [hw]; rfl))).trans ?_
    simp only [State.dmaAbort, hw]
    rfl
  · have hr : (s.dmaCh ch).st.rests = false := by rcases hw with hw | hw | hw <;> rw [hw] <;> rfl
    refine (exec_dmaAbort h hd hc hp (State.dmaCommand_abort hr)).trans ?_
    rcases hw with hw | hw | hw <;> simp only [State.dmaAbort, hw] <;> rfl
  · refine (exec_dmaKick h hd hc hp State.dmaCommand_kick).trans ?_
    rw [State.dmaKick, if_neg hw]
    rfl

end Sys2Proof.Machine
end

section
/-! SUPPORT. Sessions and keeper rights (R434, R435, R452, R453, R461): OPEN and CLOSE served, the identifier of an open
slot, and what a challenge and its response do. -/

namespace Sys2Proof.Machine

/-! ## OPEN and CLOSE -/

section
variable {s u : State} {p : Path} {b op : Nat} {x : Resp} (hs : s.blk.st.serves = true) (hp : p ≠ .ring)
  (hi : s.pathBusy p = false) (hb : b < 256) (ho : op < 256)
include hs hp hi hb ho

/-- A request that is a session's own, with a response at once. -/
theorem request_session (hr : s.serve p { op, sess := b } = (some x, u)) :
    s.request p { op, sess := b } = ((u.complete p { op, sess := b }).deliver p x).noteLines := by
  refine request_served ?_ hs hi (by rw [beq_false_of_ne hp, Bool.false_and]) hr
  simp only [Req.fit, Nat.mod_eq_of_lt hb, Nat.mod_eq_of_lt ho]
  rfl

end

theorem slotOf_noSession {s : State} {p : Path} (hp : p ≠ .ring) : s.slotOf p noSession = none := by
  cases p with
  | ring => exact absurd rfl hp
  | _ => rfl

section
variable {s : State} {p : Path} {k : Nat} (hs : s.blk.st.serves = true) (hp : p ≠ .ring) (hi : s.pathBusy p = false)
include hs hp hi

/-- R434, R435: OPEN takes the lowest free slot under its next generation. -/
theorem exec_open_free (hf : ((pathSlots p).find? fun j => !(s.session j).isOpen) = some k) :
    exec (.open_ p noSession) s =
      .next ((((s.openSlot k).count Obj.request_count 32).deliver p
        { op := opOpen, sess := 16 * ((s.openSlot k).session k).gen + k, status := 0 }).noteLines) := by
  have hr : s.serve p { op := opOpen, sess := noSession } =
      (some { op := opOpen, sess := ((s.openSlot k).session k).ident k, status := 0 }, s.openSlot k) := by
    simp only [State.serve, State.serveOpen, hf, if_true, ne_eq, not_true_eq_false, if_false]
  refine congrArg Host.Outcome.next ((request_session hs hp hi (by decide) (by decide) hr).trans ?_)
  unfold State.complete
  rw [slotOf_noSession hp]
  rfl

/-- R431: with no free slot the end is BUSY, whatever the session byte. -/
theorem exec_open_full {b : Nat} (hb : b < 256) (hf : ((pathSlots p).find? fun j => !(s.session j).isOpen) = none) :
    exec (.open_ p b) s = .next ((s.count Obj.session_busy_count 32).answered p b opOpen abortBusy 0) := by
  have hr : s.serve p { op := opOpen, sess := b } =
      (some { op := opOpen, sess := b, status := abortBusy }, s.count Obj.session_busy_count 32) := by
    simp only [State.serve, State.serveOpen, hf, if_true]
  exact congrArg Host.Outcome.next (request_session hs hp hi hb (by decide) hr)

end

theorem exec_close {s : State} {p : Path} {b k : Nat} (h : s.Serves p b k) (hp : p ≠ .ring) :
    exec (.close p b) s = .next ((s.closeSession k).answered p b opClose 0 0) := by
  have hr : s.serve p { op := opClose, sess := b } =
      (some { op := opClose, sess := b, status := 0 }, s.closeSession k) := by
    simp only [State.serve, State.serveClose, h.slot]
    rfl
  exact congrArg Host.Outcome.next (request_session h.serves hp h.idle h.byte (by decide) hr)

/-! ## Identifiers (R434) -/

theorem pathSlots_lt {p : Path} {k : Nat} (h : k ∈ pathSlots p) : k < 11 := by
  revert k
  cases p <;> decide

/-- An open slot of a path is named by the byte of its number and its generation. -/
theorem slotOf_ident {s : State} {p : Path} {k : Nat} (hk : k ∈ pathSlots p) (hp : p ≠ .ring)
    (ho : (s.session k).isOpen = true) : s.slotOf p (16 * (s.session k).gen + k) = some k := by
  have hlt := pathSlots_lt hk
  have hmod : (16 * (s.session k).gen + k) % 16 = k := by omega
  have hdiv : (16 * (s.session k).gen + k) / 16 = (s.session k).gen := by omega
  rw [slotOf_some, hdiv, ho, beq_self_eq_true, Bool.or_true, Bool.and_true, Bool.and_true, List.contains_iff_mem]
  refine ⟨?_, hk⟩
  cases p with
  | ring => exact absurd rfl hp
  | _ => exact hmod

theorem slotOf_byte {s : State} {p : Path} {b k : Nat} (hp : p ≠ .ring) (h : s.slotOf p b = some k) :
    b % 16 = k ∧ b / 16 = (s.session k).gen := by
  obtain ⟨hk, hc⟩ := slotOf_some.mp h
  rw [Bool.and_eq_true, Bool.or_eq_true, beq_iff_eq, beq_iff_eq] at hc
  refine ⟨?_, (hc.2.resolve_left hp).symm⟩
  cases p with
  | ring => exact absurd rfl hp
  | _ => exact hk

theorem State.session_openSlot {s : State} {k : Nat} (h : k < s.dict.sessions.length) :
    (s.openSlot k).session k = { gen := ((s.session k).gen + 1) % 16, isOpen := true, last := s.now } :=
  session_mod _ h

/-- A response that becomes ready leaves the sessions alone. -/
theorem State.deliver_sessions (s : State) (p : Path) (x : Resp) :
    (s.deliver p x).dict.sessions = s.dict.sessions := by cases p <;> rfl

/-- Settles O45: the byte of a slot is 16 times its generation, below 16, and its number, below 11. -/
theorem sessionIdentifiersNameSlotAndGeneration : Obligations.SessionIdentifiersNameSlotAndGeneration := by
  unfold Obligations.SessionIdentifiersNameSlotAndGeneration
  refine ⟨rfl, rfl, rfl, rfl, rfl, fun s k hk => ?_, fun s p b k hp h => slotOf_byte hp h, fun s p k hs hp hi hk hf => ?_⟩
  · rw [State.session_openSlot hk]
    exact ⟨rfl, rfl⟩
  · have hm : k ∈ pathSlots p := List.mem_of_find?_eq_some hf
    have hlt := pathSlots_lt hm
    have hses := State.session_openSlot hk
    have hid := slotOf_ident hm hp (s := s.openSlot k) (by rw [hses])
    rw [hses] at hid
    refine ⟨_, 16 * (((s.session k).gen + 1) % 16) + k, exec_open_free hs hp hi hf, by omega, by omega, by omega, ?_⟩
    have hsame : ((((s.openSlot k).count Obj.request_count 32).deliver p
        { op := opOpen, sess := 16 * ((s.openSlot k).session k).gen + k, status := 0 }).noteLines).session k =
          (s.openSlot k).session k := by
      show List.getD (State.deliver _ p _).dict.sessions k {} = _
      rw [State.deliver_sessions]
      rfl
    exact slotOf_congr hid (by rw [hsame]) (by rw [hsame])

/-! ## Keeper rights (R452, R453) -/

theorem State.modSession_modSession (s : State) (k : Nat) (f g : Session → Session) :
    (s.modSession k f).modSession k g = s.modSession k (g ∘ f) := by
  unfold State.modSession
  simp only [List.modify_modify_eq]

/-- A read of `keeper_challenge` in a session. -/
theorem exec_keeperChallenge {s : State} {p : Path} {b k : Nat} (h : s.Serves p b k) (hp : p ≠ .ring)
    (hn : b ≠ noSession) (hl : s.dict.lockUntil = none) :
    exec (.keeperChallenge p b) s =
      .next (((s.newChallenge k).2.modSession k fun x =>
        { x with snap := some (addrOf 0x9000 1, (s.newChallenge k).1) }).answered p b opRead 0 8
          (s.newChallenge k).1) := by
  have hfit : ({ op := opRead, sess := b, idx := 0x9000, sub := 0x01 } : Req).fit =
      { op := opRead, sess := b, idx := 0x9000, sub := 0x01 } := by
    simp only [Req.fit, Nat.mod_eq_of_lt h.byte]
    rfl
  have hlk : s.lockedOut = false := by
    rw [State.lockedOut, hl]
    rfl
  have hsl : slice (s.newChallenge k).1 0 8 = (s.newChallenge k).1 := slice_all (leBytes 8 _)
  have hfind : s.lookup false false 0x9000 0x01 = .ok _ := lookup_read (find_keeper_challenge s.cfg) rfl rfl
  have hr : s.serve p { op := opRead, sess := b, idx := 0x9000, sub := 0x01 } =
      (some { op := opRead, sess := b, status := 0, objLen := 8, data := (s.newChallenge k).1 },
        (s.newChallenge k).2.modSession k fun x =>
          { x with snap := some (addrOf 0x9000 1, (s.newChallenge k).1) }) := by
    have hread : s.serve p { op := opRead, sess := b, idx := 0x9000, sub := 0x01 } =
        s.serveRead p { op := opRead, sess := b, idx := 0x9000, sub := 0x01 } := rfl
    rw [hread]
    unfold State.serveRead
    simp only [h.slot, hfind, hn, if_false, ne_eq, Option.isNone_some, Bool.and_false, Bool.false_eq_true]
    simp only [Ty.isBlob, if_true, State.readBlob, Option.isNone_some, Bool.false_and, Bool.false_eq_true, if_false, hlk]
    refine Eq.trans (b := (some (okRead _ _ (slice (s.newChallenge k).1 0 8)), _)) rfl ?_
    rw [hsl]
    rfl
  exact congrArg Host.Outcome.next (request_served hfit h.serves h.idle (by rw [beq_false_of_ne hp, Bool.false_and]) hr)

section
variable {s u : State} {p : Path} {b k idx sub n st : Nat} {o : Obj'} {l : List Byte} {w : Int}

/-- Bytes that one frame holds, as many as the object has, and what its object's rule answers. -/
theorem putBytes_answers (h : s.Serves p b k) (hl : ∀ x ∈ l, x < 256) (hi : idx < 65536) (hs : sub < 256)
    (hf : findObj s.cfg idx sub = .ok o) (ho : s.TakesValue k o n) (hn : n ≤ 48) (hlen : l.length = n)
    (hr : o.rng.apply (o.ty.decode l) = some w) (hv : s.writeValue p k o w l = (st, u)) :
    s.putBytes p b idx sub l = u.answered p b opWrite st (if st = 0 then n else 0) := by
  obtain ⟨hsel, ha, hk, hg, rfl⟩ := ho
  exact putBytes_does h hl hi hs hf hsel ha hk hlen (hlen ▸ hn) hg hr hv

end

theorem exec_keeperResponse {s u : State} {p : Path} {b k st : Nat} {l : List Byte} (h : s.Serves p b k)
    (hlen : l.length = 8) (hl : ∀ x ∈ l, x < 256) (hu : s.keeperResponse k l = (st, u)) :
    exec (.keeperResponse p b l) s = .next (u.answered p b opWrite st (if st = 0 then 8 else 0)) :=
  congrArg _ (putBytes_answers h hl (by decide) (by decide) (find_keeper_response s.cfg) ⟨rfl, rfl, rfl, rfl, rfl⟩
    (by decide) hlen rfl hu)

theorem State.keeperResponse_right {s : State} {k t : Nat} {c l : List Byte} (hl : s.dict.lockUntil = none)
    (hc : (s.session k).chal = some (c, t)) (ht : s.now < t + challengeLife) (hd : l = keeperDigest c s.dict.key) :
    s.keeperResponse k l = (0, ((({ s with
      dict := { s.dict with
        failures := 0
        sessions := s.dict.sessions.modify k fun x => { x with chal := none, keeper := true } } } : State).count
          Obj.keeper_grants 32).fire 39 0 (srcSession k))) := by
  have hch : s.challengeOf k = some c := by
    rw [State.challengeOf, hc]
    exact if_pos ht
  have hlk : s.lockedOut = false := by
    rw [State.lockedOut, hl]
    rfl
  unfold State.keeperResponse
  simp only [hlk, Bool.false_eq_true, if_false, hch, Option.map_some, hd, beq_self_eq_true, if_true,
    State.modSession_modSession]
  rfl

theorem State.keeperResponse_none {s : State} {k : Nat} (l : List Byte) (hl : s.dict.lockUntil = none)
    (hc : s.challengeOf k = none) :
    s.keeperResponse k l = (abortAccess, (s.modSession k fun x => { x with chal := none }).keeperFails k) := by
  have hlk : s.lockedOut = false := by
    rw [State.lockedOut, hl]
    rfl
  unfold State.keeperResponse
  rw [hlk, hc]
  rfl

theorem exec_keeperDrop {s : State} {p : Path} {b k : Nat} (h : s.Serves p b k) :
    exec (.keeperDrop p b) s = .next ((s.modSession k fun x => { x with keeper := false }).answered p b opWrite 0 1) :=
  congrArg _ (putNum_takes h (by decide) (by decide) (find_keeper_drop s.cfg) ⟨rfl, rfl, rfl, rfl, rfl⟩ (by decide)
    (w := 1) (by decide) rfl)

theorem exec_sessionEvict {s : State} {p : Path} {b k j : Nat} (h : s.Serves p b k)
    (hk : (s.session k).keeper = true) (hj : j ≤ 9) :
    exec (.sessionEvict p b j) s = .next ((s.closeSession j).answered p b opWrite 0 1) := by
  refine congrArg _ (putNum_takes h (by decide) (by decide) (find_session_evict s.cfg)
    ⟨rfl, rfl, by rw [hk]; rfl, rfl, rfl⟩ (by decide) (w := (j : Int)) ?_ rfl)
  rw [decode_encode rfl (by show j < 2 ^ 8; omega)]
  exact if_pos ⟨by omega, by omega⟩

/-- Settles O46: OPEN, CLOSE and the two evictions by the slots; the challenge and its response by what is in force. -/
theorem sessionAndKeeperCommands : Obligations.SessionAndKeeperCommands := by
  unfold Obligations.SessionAndKeeperCommands
  refine ⟨fun s => ⟨fun p k hs hp hi hf => exec_open_free hs hp hi hf, fun p b hs hp hi hb hf => exec_open_full hs hp hi hb hf,
    fun p b k h hp => exec_close h hp, fun k hk ho ht => ?_, fun p b k j h hk hj => exec_sessionEvict h hk hj⟩,
    fun s => ⟨fun p b k h hp hn hl => ?_, fun p b k t c l h hlen hx hl hc ht hd => ?_, fun p b k l h hlen hx hl hc => ?_,
      fun p b k h => exec_keeperDrop h, fun k t c hk hc ht => ?_, fun t hl ht => ?_⟩⟩
  · refine (within_lt (by omega)).trans (next_when ?_)
    rw [decide_eq_true hk, ho, decide_eq_true ht]
    rfl
  · rw [exec_keeperChallenge h hp hn hl]
    unfold State.newChallenge
    rw [State.modSession_modSession]
    rfl
  · exact exec_keeperResponse h hlen hx (State.keeperResponse_right hl hc ht hd)
  · exact exec_keeperResponse h hlen hx (State.keeperResponse_none l hl hc)
  · refine (within_lt hk).trans ?_
    rw [hc]
    exact next_when (decide_eq_true ht)
  · show execKeeperLockoutEnd s = _
    rw [execKeeperLockoutEnd, hl]
    exact next_when (decide_eq_true ht)

end Sys2Proof.Machine
end

section
/-! SUPPORT. READ and WRITE of numbers (R431, R436, R437, R441): what one frame comes to on any object that is no BLOB. -/

namespace Sys2Proof.Machine

/-- What a lookup has found exists. -/
theorem findObj_of_lookup {s : State} {wr kp : Bool} {idx sub : Nat} {o : Obj'} (h : s.lookup wr kp idx sub = .ok o) :
    findObj s.cfg idx sub = .ok o := by
  unfold State.lookup at h
  cases hx : findObj s.cfg idx sub with
  | error e =>
    rw [hx] at h
    exact nomatch h
  | ok x =>
    rw [hx] at h
    dsimp only at h
    repeat' split at h
    all_goals cases h
    all_goals rfl

theorem Ty.length_number {t : Ty} (h : t.isBlob = false) : t.length ≤ 8 := by
  cases t with
  | blob n => exact nomatch h
  | _ => decide

section
variable {s : State} {p : Path} {b k idx sub : Nat} {o : Obj'} (h : s.Serves p b k) (hi : idx < 65536) (hs : sub < 256)
  (hb : o.ty.isBlob = false)
include h hi hs hb

/-- R436: a READ of a number in a session. -/
theorem exec_read_number (hp : p ≠ .ring) (hn : b ≠ noSession) (ho : s.lookup false false idx sub = .ok o) :
    exec (.read p b idx sub 0) s =
      .next ((s.readEffect o).answered p b opRead 0 o.ty.length (s.objBytes (some k) o)) := by
  have hq : ({ op := opRead, sess := b, idx, sub, off := 0 } : Req).fit = { op := opRead, sess := b, idx, sub, off := 0 } := by
    simp only [Req.fit, Nat.mod_eq_of_lt h.byte, Nat.mod_eq_of_lt hi, Nat.mod_eq_of_lt hs]
    rfl
  have hr : s.serve p { op := opRead, sess := b, idx, sub, off := 0 } =
      (some { op := opRead, sess := b, status := 0, objLen := o.ty.length, data := s.objBytes (some k) o },
        s.readEffect o) := by
    have hread : s.serve p { op := opRead, sess := b, idx, sub, off := 0 } =
        s.serveRead p { op := opRead, sess := b, idx, sub, off := 0 } := rfl
    rw [hread]
    unfold State.serveRead
    simp only [h.slot, Option.isNone_some, Bool.and_false, Bool.false_eq_true, if_false, hn, ho, hb, ne_eq,
      not_true_eq_false, okRead]
  exact congrArg Host.Outcome.next (request_served hq h.serves h.idle (by rw [beq_false_of_ne hp, Bool.false_and]) hr)

variable (ho : s.lookup true (s.session k).keeper idx sub = .ok o)
include ho

/-- R441: a WRITE of a number is served by the rule of scalars. -/
theorem exec_write_number {l : List Byte} (hl : ∀ x ∈ l, x < 256) :
    exec (.write p b idx sub 1 0 l) s =
      .next ((s.writeScalar p k o { op := opWrite, sess := b, idx, sub, flags := 1, off := 0, data := l }).2.answered
        p b opWrite (s.writeScalar p k o { op := opWrite, sess := b, idx, sub, flags := 1, off := 0, data := l }).1
        (if (s.writeScalar p k o { op := opWrite, sess := b, idx, sub, flags := 1, off := 0, data := l }).1 = 0 then
          o.ty.length else 0)) := by
  generalize hq : ({ op := opWrite, sess := b, idx, sub, flags := 1, off := 0, data := l } : Req) = q
  have hfit : q.fit = q := hq ▸ fit_write hl h.byte hi hs
  generalize ha : s.writeScalar p k o q = a
  have hr : s.serve p q =
      (some { op := opWrite, sess := b, status := a.1, objLen := if a.1 = 0 then o.ty.length else 0 }, a.2) := by
    have hwr : s.serve p q = (some (s.serveWrite p q).1, (s.serveWrite p q).2) := by rw [← hq]; rfl
    have hsess : q.sess = b := by rw [← hq]
    have hidx : q.idx = idx := by rw [← hq]
    have hsub : q.sub = sub := by rw [← hq]
    have hop : q.op = opWrite := by rw [← hq]
    rw [hwr]
    unfold State.serveWrite
    simp only [hsess, hidx, hsub, hop, h.slot, ho, hb, Bool.false_eq_true, if_false, ha]
  have hx : exec (.write p b idx sub 1 0 l) s = .next (s.request p q) := by rw [← hq]; rfl
  have hring : (p == .ring && q.op != opWrite) = false := by
    rw [← hq]
    exact Bool.and_false _
  rw [hx, request_served hfit h.serves h.idle hring hr, ← hq]
  rfl

end

section
variable {s : State} {p : Path} {k : Nat} {o : Obj'} {q : Req}

/-- A value of the type's length, in one frame. -/
theorem State.writeScalar_whole (h0 : q.off = 0) (h1 : bit q.flags 0 = true) (hl : q.data.length = o.ty.length) :
    s.writeScalar p k o q = s.writeWhole p k o q.data :=
  if_neg (by rw [h0, h1, hl]; simp)

theorem State.writeScalar_length (hl : q.data.length ≠ o.ty.length) : s.writeScalar p k o q = (abortLength, s) :=
  if_pos (.inl hl)

theorem State.writeWhole_staged (b : List Byte) (hg : o.grp ≠ 0) :
    s.writeWhole p k o b = (0, s.stage o (o.ty.decode b)) := if_pos hg

end

theorem ofSigned_natCast {w n : Nat} (h : n < 2 ^ w) : ofSigned w n = n := by
  rw [ofSigned, ← Int.natCast_emod, Int.toNat_natCast, Nat.mod_eq_of_lt h]

/-- R14: a count in two bytes, at most the top of its object's range. -/
theorem encode_clamped {m n : Nat} (hm : m < 2 ^ 16) :
    Ty.u16.encode (clampI 0 m n) = leBytes 2 (min n m) := by
  have hc : clampI 0 m n = ((min n m : Nat) : Int) := by unfold clampI; omega
  rw [hc]
  exact congrArg (leBytes 2) (ofSigned_natCast (by show min n m < 2 ^ 16; omega))

/-- Settles O47: a frame of the right length reaches `writeWhole`, which stages it or brings it into its range. -/
theorem readsAndWritesOfNumbers : Obligations.ReadsAndWritesOfNumbers := by
  unfold Obligations.ReadsAndWritesOfNumbers
  refine ⟨fun s p b k idx sub o h hi hs => ⟨fun hp hn ho hb => exec_read_number h hi hs hb hp hn ho,
    fun l ho hb hl => ⟨fun hlen hg => ?_, fun w hlen hg hr => ?_, fun hlen => ?_⟩,
    fun v l ho hb hl => ?_⟩, fun s p b k h hp hn => ⟨?_, ?_⟩⟩
  · rw [exec_write_number h hi hs hb ho hl, State.writeScalar_whole rfl (show bit 1 0 = true by decide) hlen, State.writeWhole_staged _ hg]
    rfl
  · rw [exec_write_number h hi hs hb ho hl, State.writeScalar_whole rfl (show bit 1 0 = true by decide) hlen, writeWhole_value hg hr]
  · rw [exec_write_number h hi hs hb ho hl, State.writeScalar_length hlen]
    rfl
  · subst hl
    have hlen : (o.ty.encode v).length = o.ty.length := length_leBytes ..
    have hx : exec (.registerWrite p b idx sub v) s = .next (s.putBytes p b idx sub (o.ty.encode v)) := by
      show Host.Outcome.next (s.putNum p b idx sub v) = _
      rw [State.putNum, findObj_of_lookup ho]
    rw [putBytes_served (b := o.ty.encode v) h (leBytes_lt _ _) hi hs ho hlen (by have := Ty.length_number hb; omega)] at hx
    refine ⟨fun hg => ?_, fun w hg hr => ?_⟩
    · rw [hx, State.writeWhole_staged _ hg]
      rfl
    · rw [hx, writeWhole_value hg hr]
  · refine congrArg Host.Outcome.next ((getObj_served h hp hn (by decide) (by decide) (find_hint_entries_max s.cfg) rfl rfl
      rfl).trans ?_)
    exact congrArg _ (encode_clamped (m := 16384) (by decide))
  · refine congrArg Host.Outcome.next ((getObj_served h hp hn (by decide) (by decide) (find_rec_queue_max s.cfg) rfl rfl
      rfl).trans ?_)
    exact congrArg _ (encode_clamped (m := 2048) (by decide))

end Sys2Proof.Machine
end

section
/-! SUPPORT. Commands of the string table (R486, R489, R490, R492) and of the recorder (R502, R507, R508, R512, R518). -/

namespace Sys2Proof.Machine

/-- A WRITE of one frame that the checks of R431 refuse. -/
theorem putBytes_refused {s : State} {p : Path} {b k idx sub e : Nat} {l : List Byte} (h : s.Serves p b k)
    (hl : ∀ x ∈ l, x < 256) (hi : idx < 65536) (hs : sub < 256) (hlen : l.length ≤ 48)
    (ho : s.lookup true (s.session k).keeper idx sub = .error e) :
    s.putBytes p b idx sub l = s.answered p b opWrite e 0 := by
  have hroom : l.length ≤ pathRoom p := by cases p <;> simp only [pathRoom] <;> omega
  rw [putBytes_one _ _ _ _ _ _ hroom]
  generalize hq : ({ op := opWrite, sess := b, idx, sub, flags := 1, off := 0, data := l } : Req) = q
  have hfit : q.fit = q := hq ▸ fit_write hl h.byte hi hs
  have hr : s.serve p q = (some { op := opWrite, sess := b, status := e, objLen := 0 }, s) := by
    subst hq
    have hwr (q : Req) (hop : q.op = opWrite) : s.serve p q = (some (s.serveWrite p q).1, (s.serveWrite p q).2) := by
      simp only [State.serve, hop]
      rfl
    rw [hwr _ rfl]
    unfold State.serveWrite
    simp only [h.slot, ho, ite_self]
  have hring : (p == .ring && q.op != opWrite) = false := by
    rw [← hq]
    exact Bool.and_false _
  rw [request_served hfit h.serves h.idle hring hr, ← hq]
  rfl

/-! ## The string table -/

section
variable {s u : State} {p : Path} {b k : Nat} (h : s.Serves p b k) (hd : s.cfg.hasDma = true)
include h hd

theorem exec_stEnable : exec (.stEnable p b) s = .next ((s.setTable 1).answered p b opWrite 0 1) :=
  congrArg _ (putNum_takes h (by decide) (by decide) (find_st_enable hd) ⟨rfl, rfl, rfl, rfl, rfl⟩ (by decide)
    (w := 1) (by decide) rfl)

theorem exec_stDisable : exec (.stDisable p b) s = .next ((s.setTable 0).answered p b opWrite 0 1) :=
  congrArg _ (putNum_takes h (by decide) (by decide) (find_st_enable hd) ⟨rfl, rfl, rfl, rfl, rfl⟩ (by decide)
    (w := 0) (by decide) rfl)

theorem exec_stFlush : exec (.stFlush p b) s = .next (s.stStartFlush.answered p b opWrite 0 1) :=
  congrArg _ (putNum_takes h (by decide) (by decide) (find_st_flush hd) ⟨rfl, rfl, rfl, rfl, rfl⟩ (by decide)
    (w := 1) (by decide) rfl)

variable {l : List Byte} (hlen : l.length = 21) (hl : ∀ x ∈ l, x < 256)
include hlen hl

theorem exec_stHostFields (hp : Config.popString s.cfg (s.getN Obj.st_sel) = true) (hu : s.hostFields l = (0, u)) :
    exec (.stHostFieldsWrite p b l) s = .next (u.answered p b opWrite 0 21) := by
  have hsel : s.selectionAbsent ⟨.blob 21, .rw, .whole, 0, Obj.st_host_fields, 0x7810, 0, 0x0B⟩ = false := by
    refine (if_pos ?_).trans (by rw [hp]; rfl)
    decide
  exact congrArg _ (putBytes_takes h (by decide) (by decide) (find_st_host_fields hd) ⟨hsel, rfl, rfl, rfl, rfl⟩
    (by decide) hl hlen rfl hu)

theorem exec_stHostFields_absent (hp : Config.popString s.cfg (s.getN Obj.st_sel) = false) :
    exec (.stHostFieldsWrite p b l) s = .next (s.answered p b opWrite abortAbsent 0) := by
  have hsel : s.selectionAbsent ⟨.blob 21, .rw, .whole, 0, Obj.st_host_fields, 0x7810, 0, 0x0B⟩ = true := by
    refine (if_pos ?_).trans (by rw [hp]; rfl)
    decide
  refine congrArg _ (putBytes_refused h hl (by decide) (by decide) (by omega) ?_)
  unfold State.lookup
  simp only [find_st_host_fields hd, hsel, if_true]

end

section
variable {s : State} {l : List Byte} (hp : Config.popString s.cfg (s.getN Obj.st_sel) = true)
include hp

theorem State.hostFields_refused (hr : (s.str (s.getN Obj.st_sel)).refused = true) :
    s.hostFields l = (0, s.hostEntry { s := s.getN Obj.st_sel, bytes := entryFresh (s.getN Obj.st_sel) } l) := by
  unfold State.hostFields
  simp only [hp, hr, Bool.not_true, Bool.false_eq_true, if_false, if_true]

theorem State.hostFields_cached {e : CacheEnt} (hr : (s.str (s.getN Obj.st_sel)).refused = false)
    (he : s.dma.tab.find (s.getN Obj.st_sel) = some e) :
    s.hostFields l = (0, (s.hostEntry e l).count Obj.st_cache_hits 32) := by
  unfold State.hostFields
  simp only [hp, hr, he, Bool.not_true, Bool.false_eq_true, if_false]

theorem State.hostFields_miss (hr : (s.str (s.getN Obj.st_sel)).refused = false)
    (he : s.dma.tab.find (s.getN Obj.st_sel) = none) :
    s.hostFields l = (0, ((s.modTab fun t => { t with hostWr := t.hostWr ++ [(s.getN Obj.st_sel, l)] }).count
      Obj.st_cache_misses 32).stFetch (s.getN Obj.st_sel)) := by
  unfold State.hostFields
  simp only [hp, hr, he, Bool.not_true, Bool.false_eq_true, if_false]

end

/-- Settles O52: the two writes of `st_enable` by the value it has, the host's fields by the selected entry's copy. -/
theorem stringTableCommands : Obligations.StringTableCommands := by
  unfold Obligations.StringTableCommands
  refine fun s p b k h hd => ⟨fun h0 => ?_, fun h1 => ⟨?_, ?_⟩, exec_stFlush h hd, fun l hlen hl hp =>
    ⟨fun hr => exec_stHostFields h hd hlen hl hp (State.hostFields_refused hp hr),
      fun e hr he => exec_stHostFields h hd hlen hl hp (State.hostFields_cached hp hr he),
      fun hr he => exec_stHostFields h hd hlen hl hp (State.hostFields_miss hp hr he)⟩,
    fun l hlen hl hp => exec_stHostFields_absent h hd hlen hl hp⟩
  · rw [exec_stEnable h hd, State.setTable, if_neg (by rw [h0]; decide), if_pos rfl]
  · rw [exec_stEnable h hd, State.setTable, if_pos (by rw [h1]; rfl)]
  · rw [exec_stDisable h hd, State.setTable, if_neg (by rw [h1]; decide), if_neg (by decide)]

/-! ## The recorder -/

section
variable {s u : State} {p : Path} {b k : Nat} (h : s.Serves p b k)
include h

theorem exec_trigSnapCount {t v : Nat} (ht : t < 64) (hv : v < 256) :
    exec (.trigSnapCountWrite p b t v) s = .next ((s.installSnaps t (min 12 v)).answered p b opWrite 0 1) := by
  have hc : clampI 0 12 v = ((min 12 v : Nat) : Int) := by unfold clampI; omega
  show Host.Outcome.next (s.putNum p b (unitObj 0x8200 64 t) 0x03 v) = _
  rw [unitObj_of_lt ht]
  exact congrArg _ (putNum_takes h (by omega) (by decide) (find_trig_snap_count ht) ⟨rfl, rfl, rfl, rfl, rfl⟩ (by decide)
    ((apply_clamp_num rfl hv).trans (congrArg some hc)) rfl)

theorem exec_faultFreeze : exec (.faultFreeze p b) s =
    .next (State.answered { s with recd := { s.recd with freeze := some s.now } } p b opWrite 0 1) :=
  congrArg _ (putNum_takes h (by decide) (by decide) (find_fault_freeze s.cfg) ⟨rfl, rfl, rfl, rfl, rfl⟩ (by decide)
    (w := 1) (by decide) rfl)

theorem exec_faultUnfreeze : exec (.faultUnfreeze p b) s = .next (s.endFreeze.answered p b opWrite 0 1) :=
  congrArg _ (putNum_takes h (by decide) (by decide) (find_fault_freeze s.cfg) ⟨rfl, rfl, rfl, rfl, rfl⟩ (by decide)
    (w := 0) (by decide) rfl)

theorem exec_faultClear {st : Nat}
    (hu : (if (s.session k).keeper then s.clearFault k (pathWord p) else (abortKeeper, s)) = (st, u)) :
    exec (.faultClear p b) s = .next (u.answered p b opWrite st (if st = 0 then 1 else 0)) :=
  congrArg _ (putNum_answers h (by decide) (by decide) (find_fault_clear s.cfg) ⟨rfl, rfl, rfl, rfl, rfl⟩ (by decide)
    (w := 1) (by decide) hu)

theorem exec_traceClear {st : Nat} (ht : s.cfg.hasTrace = true)
    (hu : (if (s.session k).keeper then s.clearTrace k (pathWord p) else (abortKeeper, s)) = (st, u)) :
    exec (.traceClear p b) s = .next (u.answered p b opWrite st (if st = 0 then 1 else 0)) :=
  congrArg _ (putNum_answers h (by decide) (by decide) (find_trace_clear ht) ⟨rfl, rfl, rfl, rfl, rfl⟩ (by decide)
    (w := 1) (by decide) hu)

end

/-- R518: the count of a list stands at another address than its entries. -/
theorem State.installSnaps_eq (s : State) (t v : Nat) :
    s.installSnaps t v = { s.set (Obj.trig_snap_count t) (v : Nat) with
      recd := { s.recd with snaps := s.recd.snaps.set t ((List.range v).map fun j => s.getN (Obj.trig_snap t j)) } } := by
  have hget (j : Nat) : (s.set (Obj.trig_snap_count t) (v : Nat)).getN (Obj.trig_snap t j) = s.getN (Obj.trig_snap t j) :=
    State.getN_set_other _ _ (by show 0x820004 + 256 * t + j ≠ 0x820003 + 256 * t; omega)
  unfold State.installSnaps
  simp only [hget]
  rfl

/-- Settles O55: the counts and the freeze by their writes, the two clears under their conditions. -/
theorem recorderWrites : Obligations.RecorderWrites := by
  unfold Obligations.RecorderWrites
  refine fun s p b k h => ⟨fun t v ht hv => ?_, exec_faultFreeze h, exec_faultUnfreeze h, fun t hf hn => ?_,
    fun hk hf hc => exec_faultClear h ?_, fun ht hk hc => exec_traceClear h ht ?_, fun hk => exec_faultClear h ?_⟩
  · rw [exec_trigSnapCount h ht hv, State.installSnaps_eq]
  · show execFreezeExpired s = _
    rw [execFreezeExpired, hf]
    exact next_when (decide_eq_true hn)
  · rw [if_pos hk, State.clearFault, hf, hc]
    rfl
  · rw [if_pos hk, State.clearTrace, hc]
    rfl
  · rw [hk]
    rfl

end Sys2Proof.Machine
end

section
/-! SUPPORT. The event recorder: a trigger joins the queue in its order (R500), and the record of the first one is formed
and stored (R505, R508, R511). -/

namespace Sys2Proof.Machine

/-! ## The order of the queue (R500) -/

/-- R500: the order of triggers by supervisor cycle, then type, then source. -/
def Trig.before (y z : Trig) : Prop :=
  y.cyc < z.cyc ∨ y.cyc = z.cyc ∧ (y.ty < z.ty ∨ y.ty = z.ty ∧ y.src.word ≤ z.src.word)

theorem Trig.before_trans {x y z : Trig} (h : x.before y) (k : y.before z) : x.before z := by
  unfold Trig.before at *
  omega

theorem Trig.before_of_not {y z : Trig} (h : ¬ y.before z) : z.before y := by
  unfold Trig.before at *
  omega

/-- Behind a trigger that is no part of a begun record a new one queues just where the order says so. -/
theorem Trig.behind_iff {t y : Trig} (h : y.part = none) : t.behind y = true ↔ y.before t := by
  unfold Trig.behind Trig.before
  simp only [h, Option.any_none, Bool.false_or, Bool.or_eq_true, Bool.and_eq_true, decide_eq_true_eq, beq_iff_eq]

/-- A trigger joins a queue at one place: behind those before it, ahead of the first that it is not behind. -/
theorem queueTrig_split (t : Trig) (q : List Trig) :
    ∃ a b, q = a ++ b ∧ queueTrig t q = a ++ t :: b ∧ (∀ y ∈ a, t.behind y = true) ∧
      ∀ y ∈ b.head?, t.behind y = false := by
  induction q with
  | nil => exact ⟨[], [], rfl, rfl, nofun, nofun⟩
  | cons y q ih =>
    obtain ⟨a, b, rfl, hq, ha, hb⟩ := ih
    by_cases h : t.behind y = true
    · refine ⟨y :: a, b, rfl, ?_, List.forall_mem_cons.mpr ⟨h, ha⟩, hb⟩
      rw [queueTrig, if_pos h, hq]
      rfl
    · refine ⟨[], y :: (a ++ b), rfl, if_neg h, nofun, fun z hz => ?_⟩
      rw [← Option.some.inj hz]
      exact Bool.eq_false_iff.mpr h

/-- R500: a queue in order stays in order. -/
theorem queueTrig_sorted {t : Trig} {a b : List Trig} (hp : ∀ y ∈ a ++ b, y.part = none)
    (hs : (a ++ b).Pairwise Trig.before) (ha : ∀ y ∈ a, t.behind y = true) (hb : ∀ y ∈ b.head?, t.behind y = false) :
    (a ++ t :: b).Pairwise Trig.before := by
  obtain ⟨hsa, hsb, hab⟩ := List.pairwise_append.mp hs
  have hat : ∀ y ∈ a, y.before t := fun y hy =>
    (Trig.behind_iff (hp y (List.mem_append_left b hy))).mp (ha y hy)
  have htb : ∀ y ∈ b, t.before y := by
    cases b with
    | nil => exact nofun
    | cons z b =>
      have hz : t.before z := Trig.before_of_not fun h => by
        have hf := hb z rfl
        rw [(Trig.behind_iff (hp z (by simp))).mpr h] at hf
        exact nomatch hf
      exact List.forall_mem_cons.mpr ⟨hz, fun y hy => Trig.before_trans hz (List.rel_of_pairwise_cons hsb hy)⟩
  refine List.pairwise_append.mpr ⟨hsa, List.pairwise_cons.mpr ⟨htb, hsb⟩, fun y hy z hz => ?_⟩
  rcases List.mem_cons.mp hz with rfl | hz
  · exact hat y hy
  · exact hab y hy z hz

/-! ## A trigger that fires -/

theorem trig_count_ne_rec_lost (ty : Nat) : (Obj.trig_count ty).addr ≠ Obj.rec_lost.addr := by
  show 0x820010 + 256 * ty ≠ 0x800010
  omega

section
variable {s : State} {ty : Nat} (d : Nat) (x : Source)

theorem State.fire_unrouted (h : s.routeOf ty = 0) : s.fire ty d x = s.count (Obj.trig_count ty) 32 := if_pos h

theorem State.fire_lost (h : s.routeOf ty ≠ 0) (hq : 2048 ≤ s.recd.queue.length) :
    s.fire ty d x = (s.count (Obj.trig_count ty) 32).countSat Obj.rec_lost 32 := (if_neg h).trans (if_pos hq)

theorem State.fire_joins (h : s.routeOf ty ≠ 0) (hq : s.recd.queue.length < 2048) :
    s.fire ty d x = { s.count (Obj.trig_count ty) 32 with recd := { s.recd with
      queue := queueTrig { ty, detail := d % 256, src := x, route := s.routeOf ty, cyc := s.now / 4 } s.recd.queue
      queueMax := max s.recd.queueMax (s.recd.queue.length + 1) } } :=
  (if_neg h).trans (if_neg (Nat.not_le.mpr hq))

theorem State.rec_lost_count : (s.count (Obj.trig_count ty) 32).get Obj.rec_lost = s.get Obj.rec_lost :=
  State.get_count_other _ _ _ (trig_count_ne_rec_lost ty).symm

end

/-- Settles O7: the route and the room decide between a count, a loss and a place in the queue. -/
theorem triggersJoinTheQueue : Obligations.TriggersJoinTheQueue := by
  unfold Obligations.TriggersJoinTheQueue
  intro s ty d x hw _ hd
  refine ⟨(State.moves_fire ..).frame, State.fire_count _ _ _ hw (trig_count_ne_rec_lost ty),
    fun g hg hl => State.fire_get_other _ _ _ hg hl, fun h => ?_, fun h hq => ?_, fun h hq => ?_⟩
  · rw [State.fire_unrouted d x h]
    exact ⟨rfl, State.rec_lost_count⟩
  · rw [State.fire_lost d x h hq]
    refine ⟨rfl, ?_⟩
    rw [State.countSat, State.get_set_same _ _ ((State.moves_count ..).kept.regs hw), State.rec_lost_count]
    rfl
  · rw [State.fire_joins d x h hq, Nat.mod_eq_of_lt hd]
    obtain ⟨a, b, hab, hins, ha, hb⟩ :=
      queueTrig_split { ty, detail := d, src := x, route := s.routeOf ty, cyc := s.now / 4 } s.recd.queue
    refine ⟨State.rec_lost_count, rfl, a, b, _, hab, hins, rfl, rfl, rfl, rfl, rfl, rfl, fun hp hs => ?_⟩
    show List.Pairwise _ (queueTrig _ s.recd.queue)
    rw [hins]
    rw [hab] at hp hs
    exact queueTrig_sorted hp hs ha hb

/-! ## The first record is formed -/

/-- The record of a trigger with number `n`. -/
def State.recordOf (s : State) (t : Trig) (n : Nat) : LogRec :=
  { seq := n, trigger := 256 * t.detail + t.ty % 64, flags := recFlags t (s.recWords t).2, words := (s.recWords t).1
    source := t.src.word }

section
variable {s : State} {t : Trig} {q : List Trig} (hq : s.recd.queue = t :: q) (hp : t.part = none)
include hq hp

/-- A trigger without parts leaves the queue to the rest. -/
theorem State.recordFormed_first :
    s.recordFormed = ({ s with recd := { s.recd with queue := q } } : State).formRecord t := by
  unfold State.recordFormed
  rw [hq]
  dsimp only
  rw [State.settlePart, hp]
  dsimp only
  rw [Trig.rest, hp]
  rfl

end

section
variable {s : State} {t : Trig} (hp : t.part = none)
include hp

theorem State.formRecord_fault (hr : t.route = 1) :
    s.formRecord t = s.takeFault (s.recordOf t s.recd.nextF) false := by
  unfold State.formRecord
  dsimp only
  rw [hr, hp, if_neg (by decide), if_pos (by decide)]
  rfl

omit hp in
theorem State.formRecord_trace (hr : t.route = 2) :
    s.formRecord t = s.takeTrace (s.recordOf t s.recd.nextT) := by
  unfold State.formRecord
  dsimp only
  rw [hr, if_pos (by decide), if_neg (by decide)]
  rfl

end

section
variable {s : State} (x : LogRec)

/-- R505: with the log not frozen a record is stored last where it finds room, or counted. -/
theorem State.takeFault_recd (hf : s.recd.freeze = none) :
    (s.takeFault x false).recd = { s.recd with
      latest := some x, nextF := (s.recd.nextF + 1) % 2 ^ 32
      fault := if 1024 ≤ s.recd.fault.length then s.recd.fault else s.recd.fault ++ [x]
      overflow := if 1024 ≤ s.recd.fault.length then min (2 ^ 32 - 1) (s.recd.overflow + 1) else s.recd.overflow } := by
  unfold State.takeFault
  dsimp only
  rw [hf, Option.isSome_none, if_neg Bool.false_ne_true]
  unfold State.enterFault
  rw [Bool.false_or]
  show State.recd (if decide (s.recd.fault.length ≥ 1024) = true then _ else _) = _
  by_cases h : 1024 ≤ s.recd.fault.length
  · rw [if_pos (decide_eq_true h), if_pos h, if_pos h]
    rfl
  · rw [if_neg (by rw [decide_eq_false h]; decide), if_neg h, if_neg h, State.storeFault_recd]

/-- R508: with the log frozen a record waits where the holding queue has room. -/
theorem State.takeFault_recd_held (hf : s.recd.freeze ≠ none) (hh : s.recd.hold.length < 32) :
    (s.takeFault x false).recd = { s.recd with
      latest := some x, nextF := (s.recd.nextF + 1) % 2 ^ 32, hold := s.recd.hold ++ [x] } := by
  unfold State.takeFault
  dsimp only
  rw [if_pos (Option.isSome_iff_ne_none.mpr hf)]
  unfold State.holdFault
  rw [Bool.false_or, if_neg]
  simpa [holdSize] using hh

/-- Stored, held or counted, a record takes its number and becomes the latest one. -/
theorem State.takeFault_numbered :
    (s.takeFault x false).recd.queue = s.recd.queue ∧ (s.takeFault x false).recd.latest = some x ∧
    (s.takeFault x false).recd.nextF = (s.recd.nextF + 1) % 2 ^ 32 ∧
    (s.takeFault x false).recd.trace = s.recd.trace := by
  by_cases hf : s.recd.freeze = none
  · rw [State.takeFault_recd x hf]
    exact ⟨rfl, rfl, rfl, rfl⟩
  · unfold State.takeFault
    dsimp only
    rw [if_pos (Option.isSome_iff_ne_none.mpr hf)]
    unfold State.holdFault
    split
    · exact ⟨rfl, rfl, rfl, rfl⟩
    · exact ⟨rfl, rfl, rfl, rfl⟩

theorem State.takeTrace_recd : (s.takeTrace x).recd = { s.recd with
    trace := tabPut s.recd.trace (x.seq % 4096) x, nextT := (s.recd.nextT + 1) % 2 ^ 32 } := by
  unfold State.takeTrace
  rw [State.raiseReq_recd]
  rfl

end

theorem exec_recordFormed {s : State} (h : s.blk.st.active = true) : exec .recordFormed s = .next s.recordFormed :=
  next_when h

/-- Settles O54: the route sends the first trigger's record to its log, where freeze and room decide. -/
theorem recordsAreFormed : Obligations.RecordsAreFormed := by
  unfold Obligations.RecordsAreFormed
  refine fun s ha => ⟨fun hq => ?_, fun t q hq hp => ⟨fun hr => ?_, fun hr => ?_⟩⟩
  · rw [exec_recordFormed ha, State.recordFormed, hq]
  · generalize hu : ({ s with recd := { s.recd with queue := q } } : State) = u
    have hform : s.recordFormed = u.takeFault (u.recordOf t u.recd.nextF) false := by
      rw [State.recordFormed_first hq hp, hu, State.formRecord_fault hp hr]
    refine ⟨_, u.recordOf t u.recd.nextF, (exec_recordFormed ha).trans (congrArg _ hform), ?_⟩
    generalize hx : u.recordOf t u.recd.nextF = x
    have hrecd : u.recd = { s.recd with queue := q } := by rw [← hu]
    obtain ⟨hseq, hsrc, htrig⟩ : x.seq = u.recd.nextF ∧ x.source = t.src.word ∧
        x.trigger = 256 * t.detail + t.ty % 64 := by
      rw [← hx]
      exact ⟨rfl, rfl, rfl⟩
    obtain ⟨hqueue, hlatest, hnext, htrace⟩ := u.takeFault_numbered x
    rw [hrecd] at hseq hqueue hnext htrace
    refine ⟨hqueue, hlatest, hseq, hsrc, htrig, hnext, htrace, fun hf hl => ?_, fun hf hl => ?_, fun hf hh => ?_⟩
    · rw [State.takeFault_recd x (by rw [hrecd]; exact hf), hrecd]
      exact if_neg (Nat.not_le.mpr hl)
    · rw [State.takeFault_recd x (by rw [hrecd]; exact hf), hrecd]
      exact ⟨if_pos hl, if_pos hl⟩
    · rw [State.takeFault_recd_held x (by rw [hrecd]; exact hf) (by rw [hrecd]; exact hh), hrecd]
      exact ⟨rfl, rfl⟩
  · generalize hu : ({ s with recd := { s.recd with queue := q } } : State) = u
    have hform : s.recordFormed = u.takeTrace (u.recordOf t u.recd.nextT) := by
      rw [State.recordFormed_first hq hp, hu, State.formRecord_trace hr]
    refine ⟨_, u.recordOf t u.recd.nextT, (exec_recordFormed ha).trans (congrArg _ hform), ?_⟩
    rw [State.takeTrace_recd, ← hu]
    exact ⟨rfl, rfl, rfl, rfl, rfl, rfl, rfl⟩

end Sys2Proof.Machine
end

section
/-! SUPPORT. Responses on the memory port (R473, R478, R531, R535): which transaction a response is for, what its kind
makes of a good one, and what a fault does. -/

namespace Sys2Proof.Machine

section
variable {s : State} {id : Nat} (hd : s.cfg.hasDma = true) (hi : id < 64)
include hd hi

theorem onTxn_lt (t : State) : onTxn id s t = .next t := by
  rw [onTxn, within_lt hi, onUnit, if_pos hd]

theorem exec_writeResponse (e : Bool) : exec (.memoryWriteResponse id e) s = .next (s.writeResponse id e) := onTxn_lt hd hi _

theorem exec_readBeat (d : List Byte) (p l e : Bool) :
    exec (.memoryReadBeat id d p l e) s = .next (s.readBeat id d p l e) := onTxn_lt hd hi _

theorem exec_memoryTimeout_none (h : s.txnOf id = none) : exec (.memoryTimeout id) s = .next s := by
  refine (onTxn_lt hd hi _).trans ?_
  rw [h]

theorem exec_memoryTimeout {x : Txn} (h : s.txnOf id = some x) : exec (.memoryTimeout id) s =
    .next (s.when (decide (x.issuedAt + s.getN (Obj.dma_mem_timeout x.ch) * 1000 ≤ s.now))
      (s.txnFault x false).issueWaiting) := by
  refine (onTxn_lt hd hi _).trans ?_
  rw [h]

end

/-! ## Responses to writes -/

section
variable {s : State} {id : Nat}

theorem State.writeResponse_none (h : s.txnOf id = none) (e : Bool) : s.writeResponse id e = s.breach 5 := by
  rw [State.writeResponse, h]

variable {x : Txn} (h : s.txnOf id = some x)
include h

theorem State.writeResponse_read (hw : x.kind.write = false) (e : Bool) : s.writeResponse id e = s.breach 5 := by
  rw [State.writeResponse, h]
  exact if_neg (by rw [hw]; decide)

theorem State.writeResponse_good (hw : x.kind.write = true) :
    s.writeResponse id false = (s.writeGood x).issueWaiting := by
  rw [State.writeResponse, h]
  exact if_pos hw

theorem State.writeResponse_error (hw : x.kind.write = true) :
    s.writeResponse id true = (s.txnFault x false).issueWaiting := by
  rw [State.writeResponse, h]
  exact if_pos hw

end

/-! ## Beats of reads -/

/-- A read with one more beat. -/
def Txn.beat (x : Txn) (d : List Byte) (parityOk err : Bool) : Txn :=
  { x with data := x.data ++ slice d 0 16, beats := x.beats + 1, err := x.err || err, parity := x.parity || !parityOk }

section
variable {s : State} {id : Nat}

theorem State.readBeat_none (h : s.txnOf id = none) (d : List Byte) (p l e : Bool) :
    s.readBeat id d p l e = s.breach 5 := by
  rw [State.readBeat, h]

variable {x : Txn} (h : s.txnOf id = some x)
include h

theorem State.readBeat_write (hw : x.kind.write = true) (d : List Byte) (p l e : Bool) :
    s.readBeat id d p l e = s.breach 5 := by
  rw [State.readBeat, h]
  exact if_pos hw

variable (hw : x.kind.write = false) (d : List Byte)
include hw

theorem State.readBeat_more (e : Bool) : s.readBeat id d true false e = s.modTxn id fun _ => x.beat d true e := by
  rw [State.readBeat, h]
  exact if_neg (by rw [hw]; decide)

variable (hn : x.beats + 1 = x.beatsDue)
include hn

/-- The last beat, where the number is right: a parity error, an error response or a whole read. -/
theorem State.readBeat_last (p e : Bool) :
    s.readBeat id d p true e =
      (if (x.beat d p e).parity && !(x.beat d p e).err then
        (if p then s else s.parityError).txnFault (x.beat d p e) true
      else if (x.beat d p e).err then (if p then s else s.parityError).txnFault (x.beat d p e) false
      else (if p then s else s.parityError).readGood (x.beat d p e)).issueWaiting := by
  have hwrong : (x.beats + 1 != (x.beat d p e).beatsDue) = false := by
    show (x.beats + 1 != x.beatsDue) = false
    rw [hn, bne_self_eq_false]
  rw [State.readBeat, h]
  refine (if_neg (by rw [hw]; decide)).trans ?_
  show State.issueWaiting _ = _
  simp only [← Txn.beat.eq_1, hwrong, Bool.not_false, Bool.and_true, Bool.or_false, Bool.false_eq_true, if_false]
  rfl

end

/-! ## Faults and whole reads of a descriptor -/

section
variable {s : State} {t : Txn}

theorem State.txnFault_desc (h : t.kind = .desc) (p : Bool) :
    s.txnFault t p = (s.dropTxn t.id).haltNow t.ch (if p then codeParity else codeDescFault) := by
  rw [State.txnFault, h]

theorem State.readGood_desc (h : t.kind = .desc) :
    s.readGood t = (s.dropTxn t.id).modDmaCh t.ch fun c => { c with words := wordsOf t.asked, fresh := true } := by
  rw [State.readGood, h]

end

/-- Settles O51: the kind of the transaction outstanding under the ID decides. -/
theorem memoryResponses : Obligations.MemoryResponses := by
  unfold Obligations.MemoryResponses
  refine fun s id hd hi => ⟨fun h => ⟨fun e => ?_, fun d p l e => ?_, exec_memoryTimeout_none hd hi h⟩,
    fun x h => ⟨fun hw e => ?_, fun hw d p l e => ?_, fun hk => ?_, fun hk => ?_, fun hk => ?_, fun hw d e => ?_,
      fun hk hp he hn => ⟨fun d => ?_, fun d => ?_, fun d => ?_⟩, fun ht => ?_, fun hk ht => ?_⟩⟩
  · rw [exec_writeResponse hd hi, State.writeResponse_none h]
  · rw [exec_readBeat hd hi, State.readBeat_none h]
  · rw [exec_writeResponse hd hi, State.writeResponse_read h hw]
  · rw [exec_readBeat hd hi, State.readBeat_write h hw]
  · rw [exec_writeResponse hd hi, State.writeResponse_good h (by rw [hk]; rfl), State.writeGood, hk]
  · rw [exec_writeResponse hd hi, State.writeResponse_good h (by rw [hk]; rfl), State.writeGood, hk]
  · rw [exec_writeResponse hd hi, State.writeResponse_error h (by rw [hk]; rfl), State.txnFault, hk]
  · rw [exec_readBeat hd hi, State.readBeat_more h hw, Txn.beat, Bool.not_true, Bool.or_false]
  · rw [exec_readBeat hd hi, State.readBeat_last h (by rw [hk]; rfl) d hn, if_neg, if_neg,
      State.readGood_desc (t := x.beat d true false) hk]
    · rfl
    · simp only [Txn.beat, he, Bool.or_false, Bool.false_eq_true, not_false_iff]
    · simp only [Txn.beat, hp, Bool.not_true, Bool.or_false, Bool.false_and, Bool.false_eq_true, not_false_iff]
  · rw [exec_readBeat hd hi, State.readBeat_last h (by rw [hk]; rfl) d hn, if_neg, if_pos,
      State.txnFault_desc (t := x.beat d true true) hk]
    · rfl
    · simp only [Txn.beat, Bool.or_true]
    · simp only [Txn.beat, hp, Bool.not_true, Bool.or_false, Bool.false_and, Bool.false_eq_true, not_false_iff]
  · rw [exec_readBeat hd hi, State.readBeat_last h (by rw [hk]; rfl) d hn, if_pos,
      State.txnFault_desc (t := x.beat d false false) hk]
    · rfl
    · simp only [Txn.beat, he, Bool.not_false, Bool.or_true, Bool.or_false, Bool.and_true]
  · rw [exec_memoryTimeout hd hi h, decide_eq_false (Nat.not_le.mpr ht), State.when_false]
  · rw [exec_memoryTimeout hd hi h, decide_eq_true ht, State.when_true, State.txnFault, hk]
    rfl

end Sys2Proof.Machine
end

section
/-! SUPPORT. A DMA descriptor from its fetch to its end (R471 to R478): what each operation of a channel leaves of it. -/

namespace Sys2Proof.Machine

theorem onChannel_on {s : State} {ch : Nat} (hd : s.cfg.hasDma = true) (hc : ch < 8) (t : State) :
    onChannel ch s t = .next t := by
  rw [onChannel, within_lt hc, onUnit, if_pos hd]

/-! ## What leaves a field of a channel alone -/

theorem getD_map_keeps {α β : Type} {f : α → α} (π : α → β) (h : ∀ x, π (f x) = π x) (l : List α) (j : Nat) (d : α) :
    π ((l.map f).getD j d) = π (l.getD j d) := by
  simp only [List.getD_eq_getElem?_getD, List.getElem?_map]
  cases l[j]? with
  | none => rfl
  | some x => exact h x

section
variable {β : Type} (π : DmaCh → β) (s : State) (j : Nat)

theorem State.modDmaCh_keeps {f : DmaCh → DmaCh} (h : ∀ c, π (f c) = π c) (k : Nat) :
    π ((s.modDmaCh k f).dmaCh j) = π (s.dmaCh j) := by
  simp only [State.dmaCh, State.modDmaCh, List.getD_eq_getElem?_getD, List.getElem?_modify]
  cases s.dma.ch[j]? with
  | none => rfl
  | some c =>
    show π (ite _ _ _) = π c
    split
    · exact h c
    · rfl

theorem State.dropReq_keeps (h : ∀ c l, π { c with reqs := l } = π c) (src : Nat) :
    π ((s.dropReq src).dmaCh j) = π (s.dmaCh j) := getD_map_keeps π (fun c => h c _) ..

theorem State.raiseReq_keeps (h : ∀ c l, π { c with reqs := l } = π c) (src k : Nat) (f : Nat → Bool) :
    π ((s.raiseReq src k f).dmaCh j) = π (s.dmaCh j) := by
  simp only [State.dmaCh, State.raiseReq, List.getD_eq_getElem?_getD, List.getElem?_map, List.getElem?_zipIdx]
  cases s.dma.ch[j]? with
  | none => rfl
  | some c =>
    show π (ite _ _ _) = π c
    split
    · exact h c _
    · rfl

end

theorem Dma.issue_ch (d : Dma) (now : Nat) (t : Txn) : (d.issue now t).ch = d.ch := by
  unfold Dma.issue
  extract_lets wr
  split <;> rfl

theorem State.takePort_ch (s : State) (ch : Nat) : (s.takePort ch).dma.ch = s.dma.ch := by
  unfold State.takePort
  split
  · show (ite _ _ _ : State).dma.ch = _
    split <;> rfl
  · rfl

/-- A transaction that is issued leaves the channels alone. -/
theorem State.memIssue_ch (s : State) (t : Txn) : (s.memIssue t).dma.ch = s.dma.ch :=
  (Dma.issue_ch ..).trans (s.takePort_ch t.ch)

theorem State.memIssue_dmaCh (s : State) (t : Txn) (j : Nat) : (s.memIssue t).dmaCh j = s.dmaCh j :=
  congrArg (·.getD j {}) (s.memIssue_ch t)

theorem State.takePort_dmaCh (s : State) (k j : Nat) : (s.takePort k).dmaCh j = s.dmaCh j :=
  congrArg (·.getD j {}) (s.takePort_ch k)

/-! ## Statuses and faults -/

section
variable {s : State} {ch : Nat} (hl : ch < s.dma.ch.length)
include hl

/-- R473, step 2: the status of a channel that is to be written. -/
theorem State.writeStatus_dmaCh (code : Nat) :
    (s.writeStatus ch code).dmaCh ch = { s.dmaCh ch with
      st := .completing, code := code, status := statusWord code (s.dmaCh ch).residue, hold := [], burst := 0 } := by
  unfold State.writeStatus
  rw [State.memIssue_dmaCh]
  exact State.modDmaCh_dmaCh_same (s := s.clearTxns ch) _ hl

theorem State.dataFault_dmaCh {code : Nat} (h : (s.dmaCh ch).code = 0) :
    (s.dataFault ch code).dmaCh ch =
      { s.dmaCh ch with code := code, st := .completing, hold := [], burst := 0 } := by
  unfold State.dataFault
  rw [if_neg (not_not.mpr h)]
  exact State.modDmaCh_dmaCh_same (s := { s with dma := { s.dma with
    waiting := s.dma.waiting.filter fun t => t.ch != ch } }) _ hl

end

/-! ## A fetched descriptor (R471, R474, R477) -/

/-- A channel whose fetched descriptor is taken up: its counts begin at 0. -/
def DmaCh.taken (c : DmaCh) : DmaCh :=
  { c with fresh := false, code := 0, rd := 0, pos := 0, wconf := 0, conf := 0, hold := [], burst := 0 }

section
variable {s : State} {ch : Nat} (hl : ch < s.dma.ch.length)
include hl

theorem State.taken_dmaCh : (s.modDmaCh ch DmaCh.taken).dmaCh ch = (s.dmaCh ch).taken :=
  State.modDmaCh_dmaCh_same (s := s) _ hl

variable (hf : (s.dmaCh ch).fresh = true) (hs : (s.dmaCh ch).st = .fetching)
include hf hs

theorem State.descFetched_notOwned (ho : (s.dmaCh ch).own = false) :
    s.descFetched ch = (s.modDmaCh ch DmaCh.taken).modDmaCh ch fun c =>
      { c with st := .waitOwn, waitAt := s.now, run := 0 } := by
  have hown : ((s.modDmaCh ch DmaCh.taken).dmaCh ch).own = false := by
    rw [State.taken_dmaCh hl]
    exact ho
  unfold State.descFetched
  rw [if_neg (by rw [hf]; decide)]
  show (if (!((s.modDmaCh ch DmaCh.taken).dmaCh ch).own) = true then
    (if ((s.dmaCh ch).st == .aborting) = true then _ else _) else _) = _
  rw [if_pos (by rw [hown]; rfl), if_neg (by rw [hs]; decide)]
  rfl

theorem State.descFetched_owned (ho : (s.dmaCh ch).own = true) :
    s.descFetched ch = (s.modDmaCh ch DmaCh.taken).descCheck ch := by
  have hown : ((s.modDmaCh ch DmaCh.taken).dmaCh ch).own = true := by
    rw [State.taken_dmaCh hl]
    exact ho
  unfold State.descFetched
  rw [if_neg (by rw [hf]; decide)]
  show (if (!((s.modDmaCh ch DmaCh.taken).dmaCh ch).own) = true then _ else
    if ((s.dmaCh ch).st == .aborting) = true then _ else _) = _
  rw [if_neg (by rw [hown]; decide), if_neg (by rw [hs]; decide)]
  rfl

end

section
variable {s : State} {ch : Nat}

theorem State.descCheck_invalid (h : (s.dmaCh ch).valid ch = false) :
    s.descCheck ch = s.writeStatus ch codeDescFault := if_pos (by rw [h]; rfl)

variable (hv : (s.dmaCh ch).valid ch = true)
include hv

theorem State.descCheck_self (hlast : (s.dmaCh ch).last = false) (hn : (s.dmaCh ch).next = (s.dmaCh ch).cur) :
    s.descCheck ch = s.writeStatus ch codeLoopSelf :=
  (if_neg (by rw [hv]; decide)).trans (if_pos ⟨by rw [hlast]; rfl, hn⟩)

variable (hn : (s.dmaCh ch).last = true ∨ (s.dmaCh ch).next ≠ (s.dmaCh ch).cur)
include hn

theorem State.descCheck_limit (hm : (s.dmaCh ch).mustWait = false)
    (hr : s.getN (Obj.dma_chain_limit ch) ≤ (s.dmaCh ch).run) : s.descCheck ch = s.writeStatus ch codeLoopLimit := by
  refine (if_neg (by rw [hv]; decide)).trans ((if_neg ?_).trans (if_pos ⟨by rw [hm]; rfl, Int.toNat_le.mp hr⟩))
  rintro ⟨hlast, he⟩
  exact hn.elim (fun h => by rw [h] at hlast; exact nomatch hlast) fun h => h he

theorem State.descCheck_begin (hr : (s.dmaCh ch).mustWait = true ∨ (s.dmaCh ch).run < s.getN (Obj.dma_chain_limit ch)) :
    s.descCheck ch = s.descBegin ch := by
  refine (if_neg (by rw [hv]; decide)).trans ((if_neg ?_).trans (if_neg ?_))
  · rintro ⟨hlast, he⟩
    exact hn.elim (fun h => by rw [h] at hlast; exact nomatch hlast) fun h => h he
  · rintro ⟨hm, hle⟩
    refine hr.elim (fun h => ?_) fun h => absurd (Int.toNat_le.mpr hle) (Nat.not_le.mpr h)
    rw [h] at hm
    exact nomatch hm

end

/-- R476: a checked descriptor that has begun. -/
def DmaCh.begun (c : DmaCh) (now : Nat) : DmaCh :=
  let c := { c with code := 0, rd := 0, pos := 0, wconf := 0, conf := 0, burst := 0, hold := [], early := false
                    run := c.run + 1, st := .transferring }
  if c.mustWait then { c with st := .waitReq, waitAt := now, run := 1 } else c

theorem DmaCh.begun_fields (c : DmaCh) (now : Nat) : (c.begun now).pos = 0 ∧ (c.begun now).conf = 0 ∧
    (c.begun now).st = if c.mustWait then .waitReq else .transferring := by
  unfold DmaCh.begun
  extract_lets d
  have hd : d.mustWait = c.mustWait := rfl
  rw [hd]
  cases c.mustWait <;> exact ⟨rfl, rfl, rfl⟩

theorem State.descBegin_dmaCh {s : State} {ch : Nat} (hl : ch < s.dma.ch.length) :
    (s.descBegin ch).dmaCh ch = (s.dmaCh ch).begun s.now := State.modDmaCh_dmaCh_same (s := s) _ hl

/-! ## A burst from an internal source (R465, R476) -/

/-- Source bytes moved on, and source bytes left of the burst. -/
def DmaCh.progress (c : DmaCh) : Nat × Nat := (c.pos, c.burst)

theorem length_slice (b : List Byte) (o n : Nat) : (slice b o n).length = n := by
  rw [slice, List.length_map, List.length_range']

theorem State.length_sourceBytes {s : State} {ch o : Nat} (n : Nat) (h : s.sourceLength ch o ≠ none) :
    (s.sourceBytes ch o n).length = n := by
  unfold State.sourceBytes
  split
  · exact length_slice ..
  · exact length_slice ..
  · rw [List.length_map, List.length_range']
  · exact length_slice ..
  · unfold State.streamBytes
    dsimp only
    split
    · exact length_slice ..
    · exact length_slice ..
  · next h0 h3 h4 h5 h6 =>
    refine absurd ?_ h
    unfold State.sourceLength
    split
    · exact absurd rfl h0
    · exact absurd rfl h3
    · exact absurd rfl h4
    · exact absurd rfl h5
    · exact absurd rfl h6
    · rfl

theorem State.endSource_progress (s : State) (ch o j : Nat) :
    ((s.endSource ch o).dmaCh j).progress = (s.dmaCh j).progress := by
  unfold State.endSource
  split
  · split
    · rfl
    · split
      · exact (State.raiseReq_keeps DmaCh.progress _ j (fun _ _ => rfl) ..).trans
          (State.dropReq_keeps DmaCh.progress _ j (fun _ _ => rfl) _)
      · rfl
  · split <;> rfl
  · rfl
  · rfl

theorem State.waitPace_progress (s : State) (ch j : Nat) :
    ((s.waitPace ch).dmaCh j).progress = (s.dmaCh j).progress := by
  unfold State.waitPace
  dsimp only
  split
  · refine State.modDmaCh_keeps DmaCh.progress s j ?_ ch
    exact fun _ => rfl
  · rfl

theorem State.beginSource_dma (s : State) (ch o : Nat) : (s.beginSource ch o).dma = s.dma :=
  (State.moves_beginSource ..).frame .dma (by decide)

section
variable {s : State} {ch : Nat} (hl : ch < s.dma.ch.length)
include hl

theorem State.writeOut_progress (b : List Byte) : ((s.writeOut ch b).dmaCh ch).progress =
    ((s.dmaCh ch).pos + b.length, (s.dmaCh ch).burst - b.length) := by
  unfold State.writeOut
  extract_lets c d u
  have hu : u.dmaCh ch = { s.dmaCh ch with
      pos := (s.dmaCh ch).pos + b.length, burst := (s.dmaCh ch).burst - b.length } :=
    State.modDmaCh_dmaCh_same (s := s) _ hl
  rw [overAll_keep (fun v => v.dmaCh ch) (fun v p => State.memIssue_dmaCh ..), hu]
  rfl

/-- R465: a fill from the source moves on by a holding register, the rest of the burst or the rest of the source. -/
theorem State.fillInternal_progress {n : Nat}
    (hn : s.sourceLength ch ((s.dmaCh ch).src + (s.dmaCh ch).pos) = some n)
    (ho : (s.dmaCh ch).src + (s.dmaCh ch).pos < n) :
    ((s.fillInternal ch).dmaCh ch).progress =
      ((s.dmaCh ch).pos + min (min (s.dmaCh ch).burst 64) (n - ((s.dmaCh ch).src + (s.dmaCh ch).pos)),
       (s.dmaCh ch).burst - min (min (s.dmaCh ch).burst 64) (n - ((s.dmaCh ch).src + (s.dmaCh ch).pos))) := by
  unfold State.fillInternal
  dsimp only
  rw [hn]
  dsimp only
  rw [if_neg (Nat.not_le.mpr ho), State.endSource_progress]
  generalize hk : min (min (s.dmaCh ch).burst 64) (n - ((s.dmaCh ch).src + (s.dmaCh ch).pos)) = k
  generalize hu : (s.beginSource ch ((s.dmaCh ch).src + (s.dmaCh ch).pos)).modDmaCh ch
    (fun c => { c with rd := c.pos + k }) = u
  have hbl : ch < (s.beginSource ch ((s.dmaCh ch).src + (s.dmaCh ch).pos)).dma.ch.length := by
    rw [State.beginSource_dma]
    exact hl
  have hch : (s.beginSource ch ((s.dmaCh ch).src + (s.dmaCh ch).pos)).dmaCh ch = s.dmaCh ch := by
    rw [State.dmaCh, State.beginSource_dma]
    rfl
  have huch : u.dmaCh ch = { s.dmaCh ch with rd := (s.dmaCh ch).pos + k } := by
    rw [← hu, State.modDmaCh_dmaCh_same _ _ hbl, hch]
  have hul : ch < u.dma.ch.length := by
    rw [← hu]
    show ch < (List.modify _ _ _).length
    rwa [List.length_modify]
  rw [State.writeOut_progress hul, State.length_sourceBytes k (by rw [hn]; exact nofun), huch]

/-- A channel in the middle of a burst from an internal source takes the port. -/
theorem State.dmaBurst_progress (hdir : (s.dmaCh ch).dir = 1) (hb : 0 < (s.dmaCh ch).burst) (hr : s.dmaReady ch = true)
    (hm : s.mayIssue ch = true) {n : Nat}
    (hn : s.sourceLength ch ((s.dmaCh ch).src + (s.dmaCh ch).pos) = some n)
    (ho : (s.dmaCh ch).src + (s.dmaCh ch).pos < n) :
    ((s.dmaBurst ch true).dmaCh ch).progress =
      ((s.dmaCh ch).pos + min (min (s.dmaCh ch).burst 64) (n - ((s.dmaCh ch).src + (s.dmaCh ch).pos)),
       (s.dmaCh ch).burst - min (min (s.dmaCh ch).burst 64) (n - ((s.dmaCh ch).src + (s.dmaCh ch).pos))) := by
  have hburst : s.dmaBurst ch true = ((s.takePort ch).moveOn ch).waitPace ch := by
    unfold State.dmaBurst
    rw [hr, hm, Bool.not_true, Bool.false_and, Bool.false_and, if_neg Bool.false_ne_true, if_neg (by decide),
      if_neg (Nat.ne_of_gt hb)]
  have hch := s.takePort_dmaCh ch ch
  have hmove : (s.takePort ch).moveOn ch = (s.takePort ch).fillInternal ch := by
    unfold State.moveOn
    dsimp only
    rw [hch, if_pos hdir]
  have hsrc (o : Nat) : (s.takePort ch).sourceLength ch o = s.sourceLength ch o := by
    have hp := s.moves_takePort ch
    unfold State.sourceLength State.streamLength State.shardCells State.shard
    rw [hp.frame .telem (by decide), hp.frame .learn (by decide), hp.frame .cfg (by decide)]
  rw [hburst, State.waitPace_progress, hmove]
  have h := State.fillInternal_progress (s := s.takePort ch) (ch := ch) (n := n)
    (by rw [State.takePort_ch]; exact hl) (by rw [hch, hsrc]; exact hn) (by rw [hch]; exact ho)
  rwa [hch] at h

end

/-! ## The commands of a channel -/

section
variable {s : State} {ch : Nat} (hd : s.cfg.hasDma = true) (hc : ch < 8)
include hd hc

theorem exec_ownPoll (hw : (s.dmaCh ch).st = .waitOwn) : exec (.ownPoll ch) s =
    .next (s.when (decide ((s.dmaCh ch).waitAt + s.getN (Obj.dma_own_poll ch) * 1000 ≤ s.now))
      (s.fetchDesc ch (s.dmaCh ch).cur)) := by
  refine (onChannel_on hd hc _).trans ?_
  dsimp only
  rw [hw, beq_self_eq_true, Bool.true_and]

theorem exec_paceTimeout (hw : (s.dmaCh ch).st = .waitReq) (he : (s.dmaCh ch).events = 0)
    (h0 : 0 < s.getN (Obj.dma_pace_timeout ch))
    (ht : (s.dmaCh ch).waitAt + s.getN (Obj.dma_pace_timeout ch) * 1000000 ≤ s.now) :
    exec (.paceTimeout ch) s = .next (s.dataFault ch codeTimeout) := by
  refine (onChannel_on hd hc _).trans (next_when ?_)
  rw [hw, he, decide_eq_true ht, bne_iff_ne.mpr (Nat.ne_of_gt h0)]
  rfl

theorem exec_dmaBurst (ok : Bool) : exec (.dmaBurst ch ok) s = .next (s.dmaBurst ch ok) := onChannel_on hd hc _

theorem exec_descriptorComplete : exec (.descriptorComplete ch) s = .next (s.descComplete ch) := onChannel_on hd hc _

theorem exec_descriptorFetch : exec (.descriptorFetch ch) s = .next (s.descFetched ch) := onChannel_on hd hc _

end

theorem State.dmaBurst_idle {s : State} {ch : Nat} (h : s.dmaReady ch = false ∨ s.mayIssue ch = false) :
    s.dmaBurst ch true = s := by
  have hno : (s.dmaReady ch && s.mayIssue ch) = false := by
    rcases h with h | h <;> rw [h]
    · rfl
    · exact Bool.and_false _
  unfold State.dmaBurst
  rw [hno, Bool.not_true, Bool.false_and, Bool.false_and, if_neg Bool.false_ne_true]
  rfl

theorem State.dmaBurst_parity {s : State} {ch : Nat} (hm : (s.dmaCh ch).moves = true) (hh : (s.dmaCh ch).hold ≠ []) :
    s.dmaBurst ch false = s.parityError.dataFault ch codeParity := by
  refine if_pos ?_
  rw [hm, List.isEmpty_eq_false_iff.mpr hh]
  rfl

/-- Settles O50: what a fetch finds, a wait that ends, a burst and a completion each leave of the channel. -/
theorem descriptorsRun : Obligations.DescriptorsRun := by
  unfold Obligations.DescriptorsRun
  rintro s ch c hd hc h8 rfl
  have hl : ch < s.dma.ch.length := h8 ▸ hc
  have hul : ch < (s.modDmaCh ch DmaCh.taken).dma.ch.length := by
    show ch < (List.modify _ _ _).length
    rwa [List.length_modify]
  have htake := State.taken_dmaCh hl
  refine ⟨fun hf hs => ⟨fun ho => ?_, fun ho hv => ?_, fun ho hv hlast hn => ?_, fun ho hv hn =>
    ⟨fun hm hr => ?_, fun hr => ?_⟩⟩, fun hw ht => ?_, fun hw ht => ?_, fun hw he h0 hp ht => ?_,
    fun hdir hb hr hm n hn ho => ?_, fun h => ?_, fun hm hh h0 => ?_, fun h => ?_, fun h h0 hs => ?_⟩
  · refine ⟨_, (exec_descriptorFetch hd hc).trans (congrArg _ (State.descFetched_notOwned hl hf hs ho)), ?_⟩
    rw [State.modDmaCh_dmaCh_same _ _ hul]
    exact ⟨rfl, rfl, rfl, ((State.moves_modDmaCh ..).step (State.moves_modDmaCh ..) rfl).frame⟩
  · have hx := (exec_descriptorFetch hd hc).trans (congrArg Host.Outcome.next ((State.descFetched_owned hl hf hs ho).trans
      (State.descCheck_invalid (by rw [htake]; exact hv))))
    refine ⟨_, hx, ?_⟩
    rw [State.writeStatus_dmaCh hul, htake]
    exact ⟨rfl, rfl⟩
  · have hx := (exec_descriptorFetch hd hc).trans (congrArg Host.Outcome.next ((State.descFetched_owned hl hf hs ho).trans
      (State.descCheck_self (by rw [htake]; exact hv) (by rw [htake]; exact hlast) (by rw [htake]; exact hn))))
    refine ⟨_, hx, ?_⟩
    rw [State.writeStatus_dmaCh hul]
  · have hx := (exec_descriptorFetch hd hc).trans (congrArg Host.Outcome.next ((State.descFetched_owned hl hf hs ho).trans
      (State.descCheck_limit (by rw [htake]; exact hv) (by rw [htake]; exact hn) (by rw [htake]; exact hm)
        (by rw [htake]; exact hr))))
    refine ⟨_, hx, ?_⟩
    rw [State.writeStatus_dmaCh hul]
  · have hx := (exec_descriptorFetch hd hc).trans (congrArg Host.Outcome.next ((State.descFetched_owned hl hf hs ho).trans
      (State.descCheck_begin (by rw [htake]; exact hv) (by rw [htake]; exact hn) (by rw [htake]; exact hr))))
    refine ⟨_, hx, ?_⟩
    rw [State.descBegin_dmaCh hul, htake]
    obtain ⟨hpos, hconf, hst⟩ := DmaCh.begun_fields (s.dmaCh ch).taken s.now
    exact ⟨hpos, hconf, hst, ((State.moves_modDmaCh ..).step (State.moves_descBegin ..) rfl).frame⟩
  · rw [exec_ownPoll hd hc hw, decide_eq_true ht, State.when_true]
  · rw [exec_ownPoll hd hc hw, decide_eq_false (Nat.not_le.mpr ht), State.when_false]
  · refine ⟨_, exec_paceTimeout hd hc hw he hp ht, ?_⟩
    rw [State.dataFault_dmaCh hl h0]
    exact ⟨rfl, rfl, rfl, (State.moves_dataFault ..).frame⟩
  · have h := State.dmaBurst_progress hl hdir hb hr hm hn ho
    exact ⟨_, exec_dmaBurst hd hc true, congrArg Prod.fst h, congrArg Prod.snd h⟩
  · rw [exec_dmaBurst hd hc, State.dmaBurst_idle h]
  · refine ⟨_, (exec_dmaBurst hd hc false).trans (congrArg _ (State.dmaBurst_parity hm hh)), ?_⟩
    rw [State.dataFault_dmaCh (s := s.parityError) hl h0]
    refine ⟨rfl, rfl, ?_⟩
    rw [(State.moves_dataFault ..).frame .blk (by decide), State.parityError_blk]
  · rw [exec_descriptorComplete hd hc, State.descComplete, h]
    rfl
  · have hx : s.descComplete ch = s.writeStatus ch codeDone := by
      unfold State.descComplete
      dsimp only
      rw [h, h0, if_neg (by decide), if_neg (not_not.mpr rfl), if_neg hs]
    refine ⟨_, (exec_descriptorComplete hd hc).trans (congrArg _ hx), ?_⟩
    rw [State.writeStatus_dmaCh hl]
    exact ⟨rfl, rfl, rfl⟩

end Sys2Proof.Machine
end

section
/-! SUPPORT. Entries of the string table (R486 to R488, R491): an entry that is taken, written back, fetched again. -/

namespace Sys2Proof.Machine

/-! ## An entry that is refused or taken (R487) -/

section
variable {s : State} {i : Nat} {b : List Byte}

theorem State.entryTaken_refused (hi : i < s.strings.length) (hg : entryGood i b = false) :
    (s.entryTaken i b).str i = { s.str i with refused := true } ∧ (s.entryTaken i b).dma = s.dma := by
  have he : s.entryTaken i b = ((s.modStr i fun x => { x with refused := true }).countSat Obj.st_bad_entries 16).fire 38 0
      (srcString i) := if_pos (by rw [hg]; rfl)
  rw [he]
  refine ⟨?_, State.fire_dma ..⟩
  rw [State.fire_str]
  exact State.modStr_str_same s _ hi

theorem State.entryTaken_installed (hg : entryGood i b = true) (ht : s.dma.tab.st ≠ 0)
    (hn : (s.str i).installed = false) :
    s.entryTaken i b = (s.modStr i fun x => x.install b).cachePut { s := i, bytes := entryClean b } := by
  unfold State.entryTaken
  rw [if_neg (by rw [hg]; decide), if_neg ht]
  dsimp only
  rw [if_pos (by rw [hn, Bool.not_false, Bool.or_true])]

end

theorem State.cachePut_find (s : State) (e : CacheEnt) : (s.cachePut e).dma.tab.find e.s = some e := by
  unfold State.cachePut
  exact List.find?_cons_of_pos (beq_self_eq_true e.s)

theorem State.cachePut_str (s : State) (e : CacheEnt) (i : Nat) : (s.cachePut e).str i = s.str i :=
  congrArg (·.getD i {}) ((State.moves_cachePut ..).frame .strings (by decide))

/-! ## The commands of an entry -/

section
variable {s : State} {i : Nat} (hp : Config.popString s.cfg i = true)
include hp

theorem exec_stWritebackDue {e : CacheEnt} {t : Nat} (hf : s.dma.tab.find i = some e) (hd : e.dirty = some t)
    (ho : s.stOn = true) :
    exec (.stWritebackDue i) s =
      .next (s.when (decide (t + s.getN Obj.st_wb_delay * 1000000 ≤ s.now)) (s.stWrite e)) := by
  show execStWritebackDue i s = _
  rw [execStWritebackDue, onString_pop hp, hf]
  dsimp only
  rw [hd]
  dsimp only
  rw [ho, Bool.true_and]

theorem exec_stCacheParity {e : CacheEnt} (hf : s.dma.tab.find i = some e) :
    exec (.stCacheParity i) s =
      .next (((((s.modTab fun t => { t with cache := t.cache.filter fun e => e.s != i }).parityError).count
        Obj.st_parity_refetch 32).fire 38 1 (srcString i)).stFetch i) := by
  show execStCacheParity i s = _
  rw [execStCacheParity, onString_pop hp, hf]

theorem exec_stEntryFetched_some {x : List Byte} (h : s.entryRead i = some x) :
    exec (.stEntryFetched i) s = .next ((s.entryFetched i x).answerReads i x) := by
  show execStEntryFetched i s = _
  rw [execStEntryFetched, onString_pop hp, h]

theorem exec_stEntryFetched_none (h : s.entryRead i = none) : exec (.stEntryFetched i) s = .next s := by
  show execStEntryFetched i s = _
  rw [execStEntryFetched, onString_pop hp, h]

end

/-- Settles O53: what the checks of R487 and the copy's age and parity decide. -/
theorem stringTableEntries : Obligations.StringTableEntries := by
  unfold Obligations.StringTableEntries
  refine ⟨fun s i b hp hi => ⟨fun x h => exec_stEntryFetched_some hp h, exec_stEntryFetched_none hp,
    State.entryTaken_refused hi, fun hg ht hn => ?_, fun e hf => ⟨fun t hd ho => ⟨fun hle => ?_, fun hlt => ?_⟩,
      _, rfl, exec_stCacheParity hp hf⟩⟩, fun s hs he h1 => ?_, fun s h => next_unless ?_⟩
  · rw [State.entryTaken_installed hg ht hn]
    refine ⟨?_, State.cachePut_find ..⟩
    rw [State.cachePut_str]
    exact State.modStr_str_same s _ hi
  · rw [exec_stWritebackDue hp hf hd ho, decide_eq_true hle, State.when_true]
  · rw [exec_stWritebackDue hp hf hd ho, decide_eq_false (Nat.not_le.mpr hlt), State.when_false]
  · refine (next_when (by rw [hs, he]; rfl)).trans ?_
    unfold State.modTab
    simp only [h1, if_true]
  · rcases h with h | h
    · rw [h, Bool.false_and]
    · rw [List.isEmpty_eq_false_iff.mpr h, Bool.and_false]

end Sys2Proof.Machine
end

section
/-! SUPPORT. RESET and SELFTEST (R394 to R400, R513, R546): what RESET_N keeps, how a torn sequence counter is rebuilt,
and what SELFTEST makes of its results. -/

namespace Sys2Proof.Machine

/-! ## RESET_N -/

theorem maxN_mem_le {l : List Nat} {q : Nat} (h : q ∈ l) : q ≤ maxN l := by
  have key : ∀ (l : List Nat) (a : Nat), a ≤ l.foldl max a ∧ ∀ q ∈ l, q ≤ l.foldl max a := by
    intro l
    induction l with
    | nil => exact fun a => ⟨le_rfl, fun q hq => absurd hq List.not_mem_nil⟩
    | cons x l ih =>
      intro a
      obtain ⟨hmax, hmem⟩ := ih (max a x)
      refine ⟨(le_max_left a x).trans hmax, fun q hq => ?_⟩
      rcases List.mem_cons.mp hq with rfl | hl
      · exact (le_max_right a q).trans hmax
      · exact hmem q hl
  exact (key l 0).2 q h

/-- R513: the counter of the fault log is rebuilt as one above `n`, the highest number whose record checks. -/
theorem Recorder.rebuilt_nextF {x : Recorder} {l : List Nat} {n : Nat} (hle : ∀ y ∈ x.fault, y.seq ∉ l → y.seq ≤ n)
    (hn : ∃ y ∈ x.fault, y.seq ∉ l ∧ y.seq = n) : (x.rebuilt ⟨false, l⟩).nextF = (n + 1) % 2 ^ 32 := by
  have hmem : ∀ q, q ∈ (x.fault.map (·.seq)).filter (fun q => !l.contains q) ↔ ∃ y ∈ x.fault, y.seq ∉ l ∧ y.seq = q := by
    intro q
    simp only [List.mem_filter, List.mem_map, Bool.not_eq_true', List.contains_eq_mem, decide_eq_false_iff_not]
    exact ⟨fun ⟨⟨y, hy, he⟩, hq⟩ => ⟨y, hy, he ▸ hq, he⟩, fun ⟨y, hy, hq, he⟩ => ⟨⟨y, hy, he⟩, he ▸ hq⟩⟩
  have hin := (hmem n).mpr hn
  have hmax : maxN ((x.fault.map (·.seq)).filter fun q => !l.contains q) = n := by
    refine le_antisymm (maxN_le fun q hq => ?_) (maxN_mem_le hin)
    obtain ⟨y, hy, hok, rfl⟩ := (hmem q).mp hq
    exact hle y hy hok
  have hne : ((x.fault.map (·.seq)).filter fun q => !l.contains q).isEmpty = false :=
    List.isEmpty_eq_false_iff.mpr (List.ne_nil_of_mem hin)
  show (if _ then 0 else (maxN _ + 1) % 2 ^ 32) = _
  simp only [Bool.false_eq_true, if_false, hne, hmax]

/-- What no rebuilding of a counter touches stays. -/
theorem Recorder.rebuilt_keeps {β : Type} (π : Recorder → β) (h : ∀ x k, π (Recorder.rebuilt x k) = π x)
    (logs : List LogCheck) (x : Recorder) : π (logs.foldl Recorder.rebuilt x) = π x := by
  induction logs generalizing x with
  | nil => rfl
  | cons k l ih => exact (ih _).trans (h x k)

/-- R397: the state at entry into RESET by RESET_N, before the parity errors of the counters are counted. -/
def State.resetLow (s : State) (logs : List LogCheck) : State :=
  let t := State.initial s.cfg
  { t with
    blk := { t.blk with resetCause := 1, resetCount := (s.blk.resetCount + 1) % 2 ^ 32
                        holdUntil := s.blk.holdUntil - s.now, refUntil := s.blk.refUntil - s.now }
    recd := logs.foldl Recorder.rebuilt s.recd.kept
    clk := { t.clk with refLost := s.clk.refLost, tap := s.clk.tap, ctrl := s.clk.ctrl, testMode := s.clk.testMode, shift := s.clk.shift, bound := s.clk.bound }
    dict := { t.dict with noiseK := s.dict.noiseK }
    freeK := s.freeK, pending := s.pending }

theorem exec_resetNLow {s : State} (h : s.blk.st ≠ .off) (logs : List LogCheck) : exec (.resetNLow logs) s =
    .next ((overAll (s.resetLow logs) logs fun t _ => t.parityError).set Obj.rec_lost
      (min (2 ^ 32 - 1) (s.getN Obj.rec_lost + (s.recd.queue.length + s.recd.hold.length)) : Nat)) := by
  show execResetNLow s logs = _
  rw [execResetNLow, if_neg h]
  rfl

/-- Each parity error counts in the hour. -/
theorem State.parityErrors_blk (l : List LogCheck) (t : State) :
    (overAll t l fun t _ => t.parityError).blk = { t.blk with parityHour := t.blk.parityHour + l.length } := by
  induction l generalizing t with
  | nil => rfl
  | cons k l ih =>
    rw [overAll_cons, ih, State.parityError_blk, List.length_cons]
    have hsum : t.blk.parityHour + 1 + l.length = t.blk.parityHour + (l.length + 1) := by omega
    rw [← hsum]

theorem State.moves_parityErrors (l : List LogCheck) (t : State) :
    t.Moves [.blk, .regs] (overAll t l fun t _ => t.parityError) :=
  .overAll (fun u _ => State.moves_parityError u) (.refl _ t)

theorem State.get_parityErrors {g : Reg} (h : g.addr ≠ Obj.parity_error_count.addr) (l : List LogCheck) (t : State) :
    (overAll t l fun t _ => t.parityError).get g = t.get g :=
  overAll_keep (f := fun t (_ : LogCheck) => t.parityError) (State.get · g)
    (fun u _ => State.get_count_other (s := u) 32 1 h) t l

/-- R396, R397, R546: what RESET_N loses, keeps and counts. -/
theorem exec_resetNLow_spec {s : State} (h : s.blk.st ≠ .off) (logs : List LogCheck) :
    ∃ t, exec (.resetNLow logs) s = .next t ∧
      t.blk = { (s.resetLow logs).blk with parityHour := logs.length } ∧
      t.getN Obj.rec_lost = min (2 ^ 32 - 1) (s.getN Obj.rec_lost + (s.recd.queue.length + s.recd.hold.length)) ∧
      (∀ g : Reg, g.addr ≠ Obj.rec_lost.addr → g.addr ≠ Obj.parity_error_count.addr → t.get g = g.dflt) ∧
      State.Frame [.blk, .regs] (s.resetLow logs) t := by
  have hm := State.moves_parityErrors logs (s.resetLow logs)
  refine ⟨_, exec_resetNLow h logs, ?_, ?_, fun g hl hp => ?_, (hm.step (State.moves_set ..) rfl).frame⟩
  · exact (State.parityErrors_blk logs _).trans (by
      show { (s.resetLow logs).blk with parityHour := 0 + logs.length } = _
      rw [Nat.zero_add])
  · rw [State.getN_set_same _ _ (hm.kept.regs rfl), Int.toNat_natCast]
  · rw [State.get_set_other (k := g) _ _ hl, State.get_parityErrors hp]
    rfl

/-! ## The end of RESET and of SELFTEST -/

theorem exec_resetExit {s : State} {v : Nat} (hst : s.blk.st = .reset) (hr : s.clk.refLost = false)
    (hh : max s.blk.holdUntil s.blk.refUntil ≤ s.now) (hv : v + 30 ≤ s.now) :
    exec (.resetExit v) s = .next (s.enterSelftest v) :=
  next_when (by simp only [hst, hr, hh, hv, beq_self_eq_true, decide_true, Bool.not_false, Bool.and_self])

theorem exec_resetExit_none {s : State} {v : Nat} (h : s.blk.st ≠ .reset ∨ s.clk.refLost = true ∨
    s.now < s.blk.holdUntil ∨ s.now < s.blk.refUntil ∨ s.now < v + 30) : exec (.resetExit v) s = .next s := by
  refine next_unless (Bool.eq_false_iff.mpr fun hall => ?_)
  simp only [Bool.and_eq_true, beq_iff_eq, Bool.not_eq_true', decide_eq_true_eq] at hall
  obtain ⟨⟨⟨hst, hr⟩, hh⟩, hv⟩ := hall
  rcases h with h | h | h | h | h
  · exact h hst
  · exact Bool.false_ne_true (hr.symm.trans h)
  all_goals omega

theorem State.enterSelftest_plain {s : State} (h : s.clk.tap ≠ .extest) (v : Nat) : s.enterSelftest v =
    ((s.modBlk fun b => { b with riseAt := v }).fire 1 s.blk.resetCause).enter .selftest := by
  unfold State.enterSelftest
  dsimp only
  rw [if_neg (show (s.modBlk fun b => { b with riseAt := v }).clk.tap ≠ .extest from h)]
  rfl

/-- R542: EXTEST in effect becomes BYPASS as RESET ends. -/
theorem State.enterSelftest_extest {s : State} (h : s.clk.tap = .extest) (v : Nat) : s.enterSelftest v =
    (((({ s with clk := { s.clk with tap := .bypass } } : State).modBlk fun b => { b with riseAt := v }).fire 1
      s.blk.resetCause).enter .selftest) := by
  unfold State.enterSelftest
  dsimp only
  rw [if_pos (show (s.modBlk fun b => { b with riseAt := v }).clk.tap = .extest from h)]
  rfl

/-- R400: SELFTEST's result word, with the reasons it sets, before its converters are failed. -/
def State.selftestResult (s : State) (memFail twinFail refFail : Bool) : State :=
  let res := b2n memFail + 2 * b2n twinFail + 4 * b2n refFail
  let s := s.set Obj.selftest_result res
  let s := if res = 0 then s else s.fire 3 res
  let s := if memFail then s.setReason 6 else s
  if twinFail then s.setReason 5 else s

theorem exec_selftestComplete {s : State} (hst : s.blk.st = .selftest) (m w : Bool) {refs : List RefCheck} {bad : List Nat}
    (hb : ((refs.filter s.refFails).map (·.conv)).filter (fun n => Config.popConv s.cfg n || n == 70) = bad) :
    exec (.selftestComplete m w refs) s =
      .next ((overAll (s.selftestResult m w !bad.isEmpty) bad State.failConverter).enter .fuseload) := by
  show execSelftestComplete m w refs s = _
  unfold execSelftestComplete
  rw [if_neg (by rw [hst]; decide)]
  dsimp only
  rw [hb]
  rfl

theorem exec_selftestComplete_met {s : State} (hst : s.blk.st = .selftest) (m w : Bool) {refs : List RefCheck}
    (hb : refs.filter s.refFails = []) : exec (.selftestComplete m w refs) s =
      .next ((s.selftestResult m w false).enter .fuseload) :=
  exec_selftestComplete hst m w (bad := []) (by rw [hb]; rfl)

/-- R356: one converter whose reference is off fails. -/
theorem exec_selftestComplete_off {s : State} (hst : s.blk.st = .selftest) {k : RefCheck}
    (hc : (Config.popConv s.cfg k.conv || k.conv == 70) = true) (hk : s.refFails k = true) :
    exec (.selftestComplete false false [k]) s =
      .next ((((s.set Obj.selftest_result 4).fire 3 4).failConverter k.conv).enter .fuseload) := by
  refine (exec_selftestComplete hst false false (bad := [k.conv]) ?_).trans rfl
  rw [List.filter_cons_of_pos hk]
  exact List.filter_cons_of_pos hc

theorem State.refFails_iff {s : State} {k : RefCheck} : s.refFails k = true ↔
    16 * s.getN Obj.ref_tolerance < ((k.sum : Int) - (16 * k.fused : Nat)).natAbs := decide_eq_true_iff

/-- R374: the board-analog converter fails once. -/
theorem State.failConverter_board {s : State} (h : s.cg.baFailed = false) : s.failConverter 70 =
    ({ s with cg := { s.cg with baFailed := true } } : State).fire 36 0 (srcConv 70) := by
  rw [State.failConverter, if_pos rfl, if_neg (by rw [h]; exact Bool.false_ne_true)]

/-- Settles O8: RESET_N from what it keeps and counts (logs 18, 43, 72 and 79), the end of RESET by the conditions it waits for, and
the end of SELFTEST from the converters whose reference is off. -/
theorem suppliesResetAndSelftest : Obligations.SuppliesResetAndSelftest := by
  unfold Obligations.SuppliesResetAndSelftest
  refine ⟨fun s => ⟨fun h => ?_, ?_, fun h logs => ?_⟩, fun s => ⟨fun v hst hr hh hv ht => ?_,
    fun v hst hr hh hv ht => ?_, fun v => exec_resetExit_none, fun hst => ?_, fun k hst hp hf => ⟨fun hk => ?_, fun hk => ?_⟩,
    fun k hst hk hf hoff => ?_, fun hst => ?_⟩⟩
  · show execSuppliesGood s = _
    rw [execSuppliesGood, if_pos h]
  · exact ⟨s.powerOff, rfl, rfl, rfl, rfl, rfl, rfl, rfl, rfl, rfl, rfl⟩
  · obtain ⟨t, hexec, hblk, hlost, hget, hframe⟩ := exec_resetNLow_spec h logs
    have hrecd : t.recd = logs.foldl Recorder.rebuilt s.recd.kept := hframe .recd (by decide)
    have hclk : t.clk = (s.resetLow logs).clk := hframe .clk (by decide)
    have hkeep {β : Type} (π : Recorder → β) (hπ : ∀ x k, π (Recorder.rebuilt x k) = π x) : π t.recd = π s.recd.kept := by
      rw [hrecd]
      exact Recorder.rebuilt_keeps π hπ logs _
    refine ⟨t, hexec, by rw [hblk]; rfl, hframe .now (by decide), by rw [hblk]; rfl, by rw [hblk]; rfl, by rw [hblk]; rfl,
      by rw [hblk]; rfl, hlost, hkeep (·.queue) ?_, hkeep (·.hold) ?_, hkeep (·.freeze) ?_, hkeep (·.fault) ?_,
      hkeep (·.trace) ?_, hkeep (·.overflow) ?_, by rw [hblk], fun hl => ?_, fun l n hl hle hn => ?_, by rw [hclk]; rfl,
      by rw [hclk]; rfl, hget, hframe .regions (by decide), hframe .strings (by decide), hframe .courses (by decide),
      hframe .dma (by decide), hframe .cfg (by decide), hframe .pending (by decide)⟩
    iterate 6 exact fun x ⟨b, l⟩ => by cases b <;> rfl
    · rw [hrecd, hl]
      exact ⟨rfl, rfl⟩
    · rw [hrecd, hl]
      exact ⟨Recorder.rebuilt_nextF (x := s.recd.kept) hle hn, rfl⟩
  · rw [exec_resetExit hst hr hh hv, State.enterSelftest_plain ht]
  · rw [exec_resetExit hst hr hh hv, State.enterSelftest_extest ht]
  · exact (exec_selftestComplete_met hst false false rfl).trans rfl
  · refine (exec_selftestComplete_met hst false false (List.filter_cons_of_neg ?_)).trans rfl
    rw [State.refFails_iff]
    exact Nat.not_lt.mpr hk
  · rw [exec_selftestComplete_off hst (by rw [hp]; rfl) (State.refFails_iff.mpr hk),
      State.failConverter_working (by rw [State.fire_cfg, State.set_cfg, hp]) (by rw [State.fire_conv, State.set_conv, hf])]
  · rw [exec_selftestComplete_off hst (by rw [hk]; exact Bool.or_true _) (State.refFails_iff.mpr hoff), hk,
      State.failConverter_board (by rw [State.fire_cg, State.set_cg, hf]), State.fire_cg, State.set_cg]
  · exact (exec_selftestComplete_met hst true true rfl).trans rfl

end Sys2Proof.Machine
end

section
/-! SUPPORT. Discovery (R402 to R405, R455): an attempt at a course by its result, the turn of a course on its segment,
and what the entry into RAMP sets (R406, R408, R423). -/

namespace Sys2Proof.Machine

section
variable {s : State} {c : Nat}

/-- The turn of a course has come once every lower one of its segment is done. -/
theorem State.segmentTurn_iff : (s.segmentTurn c fun k => !k.done) = true ↔
    ∀ k ∈ Config.courses s.cfg, segmentOf k = segmentOf c → k < c → (s.course k).done = true := by
  simp [State.segmentTurn, imp_iff_not_or, or_assoc]

/-! ## An attempt -/

section
variable (hp : Config.popCourse s.cfg c = true) (hst : s.blk.st = .discover) (hd : (s.course c).done = false)
include hp hst hd

theorem exec_courseDiscovery (hf : (s.course c).fail = none) (ht : (s.segmentTurn c fun k => !k.done) = true)
    (res : PmbResult) (l : List Byte) : exec (.courseDiscovery c res l) s = .next (s.attempt c res l) := by
  show execCourseDiscovery c res l s = _
  rw [execCourseDiscovery, onCourse_pop hp]
  exact next_when (by rw [hst, hd, hf, ht]; rfl)

omit hst hd in
theorem exec_courseDiscovery_none (ht : (s.segmentTurn c fun k => !k.done) = false) (res : PmbResult) (l : List Byte) :
    exec (.courseDiscovery c res l) s = .next s := by
  show execCourseDiscovery c res l s = _
  rw [execCourseDiscovery, onCourse_pop hp]
  exact next_unless (by rw [ht, Bool.and_false])

theorem exec_pmbusRetry {k : PmbResult} {n t : Nat} (hf : (s.course c).fail = some (k, n, t)) (ht : t + 100000 ≤ s.now)
    (res : PmbResult) (l : List Byte) : exec (.pmbusRetry c res l) s = .next (s.attempt c res l) := by
  show execPmbusRetry c res l s = _
  rw [execPmbusRetry, onCourse_pop hp]
  simp only [hf]
  exact next_when (by rw [hst, hd, decide_eq_true ht]; rfl)

end

theorem State.attempt_first (hf : (s.course c).fail = none) {res : PmbResult} (h : res ≠ .ok) (l : List Byte) :
    s.attempt c res l = s.modCourse c fun x => { x with fail := some (res, 1, s.now) } := by
  cases res with
  | ok => exact absurd rfl h
  | noAck => simp only [State.attempt, hf]; rfl
  | clockLow => simp only [State.attempt, hf]; rfl
  | badPec => simp only [State.attempt, hf]; rfl

section
variable {n t : Nat}

theorem State.attempt_noAck (hf : (s.course c).fail = some (.noAck, n, t)) (hn : 1 ≤ n) (l : List Byte) :
    s.attempt c .noAck l = s.discovered c 2 l := by
  simp only [State.attempt, hf, if_true, hn]

theorem State.attempt_clockLow (hf : (s.course c).fail = some (.clockLow, n, t)) (hn : 1 ≤ n) (l : List Byte) :
    s.attempt c .clockLow l = s.discovered c 3 l := by
  simp only [State.attempt, hf, if_true, hn]

theorem State.attempt_badPec (hf : (s.course c).fail = some (.badPec, n, t)) (l : List Byte) :
    s.attempt c .badPec l = if 2 ≤ n then s.discovered c 4 l
      else s.modCourse c fun x => { x with fail := some (.badPec, n + 1, s.now) } := by
  simp only [State.attempt, hf, if_true, ge_iff_le]

end

/-- R402: the course has ended its discovery with an outcome that is not a success. -/
def State.discoveryFailed (s : State) (c outcome : Nat) : State :=
  (s.modCourse c fun x => { x with
    done := true, outcome := outcome, fail := none, present := outcome != 2, absent := outcome == 2
    ident := [], copyDue := outcome != 2
    sent := (if outcome = 2 then [.mfrId] else [.mfrId, .statusWord, .operation 0x80]).map
      (courseAddr c, ·) }).fire 5 outcome (srcCourse c)

/-- R403: an absent course mutes its strings. -/
theorem State.discovered_absent (l : List Byte) : s.discovered c 2 l =
    overAll (s.discoveryFailed c 2) (Config.courseStrings s.cfg c) fun s i => s.mute i 5 := by
  have hcfg : (s.discoveryFailed c 2).cfg = s.cfg := State.fire_cfg ..
  rw [← hcfg]
  rfl

end

/-! ## The entry into RAMP -/

/-- R423, R183: what is latched and set to 0 on entry into RAMP, before the state changes. -/
def State.rampLatched (s : State) : State :=
  let s := s.modBlk fun b =>
    { b with rampOrder := rampOrderOf (s.getN Obj.ramp_order), rampTime := s.getN Obj.ramp_time, rampIdx := 0 }
  { s with
    rails := s.rails.map fun x => { x with st := .off, refAt := none, enAt := none, joined := [], vRamp := 0 }
    chans := s.chans.map fun c =>
      let k4 := (if c.actB then c.bankB else c.bankA).getD 4 (1073741824, 0)
      { c with kff := clampI 805306368 1342177280 (coefValue k4), c := 0, off := 0, hold := false }
    strings := s.strings.map fun x => { x with shI := 0, shMet := 0, trimCalc := 0, trimOut := 0, trim := 0 } }

/-- R415: what is attached to the entry into RAMP, before the change is recorded. -/
def State.rampEntered (s : State) : State :=
  s.rampLatched.orderFull.enterRamp.modBlk fun b => { b with st := .ramp, since := s.now }

section
variable {s : State} (h : s.blk.st = .discover)
include h

theorem State.attached_ramp : s.attached .ramp = s.orderFull.enterRamp := by
  simp [State.attached, h, BState.runs, BState.lowPower, BState.full]

theorem State.startRamp_eq : s.startRamp = s.rampEntered.fire 2 BState.ramp.code (srcState BState.discover.code) := by
  have hst : s.rampLatched.blk.st = .discover := h
  show s.rampLatched.enter .ramp = _
  rw [State.enter, State.attached_ramp hst, hst]
  rfl

omit h in
theorem State.rampEntered_frame :
    State.Frame [.blk, .st, .rails, .chans, .strings, .regions, .therm, .eng, .cg] s s.rampEntered := by
  intro p hp
  cases p <;> first | exact absurd (by decide) hp | rfl

theorem State.startRamp_frame :
    State.Frame [.blk, .st, .rails, .chans, .strings, .regions, .therm, .eng, .cg, .recd, .regs] s s.startRamp := by
  intro p hp
  rw [State.startRamp_eq h]
  exact State.same_trans (State.rampEntered_frame p fun k => hp (by revert k; cases p <;> decide))
    ((State.moves_fire ..).frame p fun k => hp (by revert k; cases p <;> decide))

end

/-- R204: a handshake in progress or not, the fret of every region is taken to be 0. -/
theorem Fret.ramp_fret (f : Fret) : f.ramp.fret = 0 := by
  unfold Fret.ramp
  split <;> rfl

theorem State.rampEntered_rails {s : State} :
    ∀ x ∈ s.rampEntered.rails, x.st = .off ∧ x.vRamp = 0 ∧ x.joined = [] ∧ x.needOut = 0 := by
  intro x hx
  obtain ⟨y, hy, rfl⟩ := List.mem_map.mp hx
  obtain ⟨z, _, rfl⟩ := List.mem_map.mp hy
  exact ⟨rfl, rfl, rfl, rfl⟩

theorem State.rampEntered_regions {s : State} :
    ∀ x ∈ s.rampEntered.regions, x.sup.limit = 15 ∧ x.fret.fret = 0 := by
  intro x hx
  obtain ⟨y, _, rfl⟩ := List.mem_map.mp hx
  exact ⟨rfl, Fret.ramp_fret _⟩

theorem State.rampEntered_strings {s : State} :
    ∀ x ∈ s.rampEntered.strings, x.shI = 0 ∧ x.trim = 0 ∧ x.trimOut = 0 := by
  intro x hx
  obtain ⟨y, hy, rfl⟩ := List.mem_map.mp hx
  obtain ⟨z, _, rfl⟩ := List.mem_map.mp hy
  dsimp only
  split <;> exact ⟨rfl, rfl, rfl⟩

theorem State.rampEntered_chans {s : State} : ∀ x ∈ s.rampEntered.chans, x.c = 0 := by
  intro x hx
  obtain ⟨y, _, rfl⟩ := List.mem_map.mp hx
  rfl

/-! ## The end of discovery -/

section
variable {s : State} (hst : s.blk.st = .discover) (hall : ∀ c ∈ Config.courses s.cfg, (s.course c).done = true)
include hst hall

theorem exec_discoverEnd (v : Bool) : exec (.discoverEnd v) s = .next (if s.blk.shutPending then
    (s.modBlk fun b => { b with downBegun := true, downLeft := [], shutCause := 1 }).enter .shutdown
      else if v then s.startRamp else s) := by
  have hd : ((Config.courses s.cfg).all fun c => (s.course c).done) = true := List.all_eq_true.mpr hall
  show execDiscoverEnd v s = _
  unfold execDiscoverEnd
  dsimp only
  rw [hst, hd]
  rfl

end

/-- Settles O10: an attempt by its result and by the failure noted before it (which attempts are held back is log 38);
the end of discovery by the parts that the entry into RAMP sets. -/
theorem discoveryOutcomesAndEnd : Obligations.DiscoveryOutcomesAndEnd := by
  unfold Obligations.DiscoveryOutcomesAndEnd
  refine ⟨fun s c l hst hp _ hd => ⟨fun ⟨k, hk, hseg, hlt, hdone⟩ _ res => ?_, fun hturn hf => ?_,
    fun k n t hf ht => ?_⟩, fun s hst hall => ⟨fun hs => ?_, fun hs v => ?_, fun hs => ?_⟩⟩
  · refine exec_courseDiscovery_none hp (Bool.eq_false_iff.mpr fun hturn => ?_) res l
    exact Bool.false_ne_true (hdone.symm.trans (State.segmentTurn_iff.mp hturn k hk hseg hlt))
  · have hexec := exec_courseDiscovery hp hst hd hf (State.segmentTurn_iff.mpr hturn)
    exact ⟨hexec .ok l, fun res hres => by rw [hexec, State.attempt_first hf hres]⟩
  · have hexec := exec_pmbusRetry hp hst hd hf ht
    refine ⟨hexec .ok l, ?_, ?_, ?_, ?_⟩
    · rintro rfl hn
      rw [hexec, State.attempt_noAck hf hn, State.discovered_absent]
      rfl
    · rintro rfl hn
      rw [hexec, State.attempt_clockLow hf hn]
      rfl
    · rintro rfl rfl
      rw [hexec, State.attempt_badPec hf, if_neg (by decide)]
    · rintro rfl hn
      rw [hexec, State.attempt_badPec hf, if_pos hn]
      rfl
  · rw [exec_discoverEnd hst hall, hs]
    rfl
  · refine ⟨_, (exec_discoverEnd hst hall v).trans (by rw [if_pos hs]), State.enter_st .., State.enter_shutCause .., ?_⟩
    exact State.enter_keeps (·.downLeft) (fun _ => rfl) (fun _ _ => rfl) (fun _ _ _ => rfl) _ _
  · refine ⟨s.startRamp, (exec_discoverEnd hst hall true).trans (by rw [hs]; rfl), State.enter_st .., ?_, ?_, ?_, ?_, ?_,
      ?_, ?_, ?_, ?_, State.startRamp_frame hst⟩ <;> rw [State.startRamp_eq hst]
    · rw [State.fire_blk]; rfl
    · rw [State.fire_blk]; rfl
    · rw [State.fire_blk]; rfl
    · rw [State.fire_blk]; rfl
    · rw [State.fire_therm]; rfl
    · rw [State.fire_rails]; exact State.rampEntered_rails
    · rw [State.fire_regions]; exact State.rampEntered_regions
    · rw [State.fire_strings]; exact State.rampEntered_strings
    · rw [State.fire_chans]; exact State.rampEntered_chans

end Sys2Proof.Machine
end

section
/-! SUPPORT. The ramps of the rails (R406 to R412): whose turn it is, the fall of a rail's CRS_EN, and the end of RAMP. -/

namespace Sys2Proof.Machine

theorem onRail_lt {s t : State} {q : Nat} (h : q < 3) : onRail s q t = .next t := within_lt h

/-- The CRS_EN of a rail's courses have fallen. -/
def State.coursesLow (s : State) (q : Nat) : State :=
  overAll s (Config.railCourses s.cfg q) fun s c => s.modCourse c fun x => { x with en := false, sup := false }

theorem State.coursesLow_cfg (s : State) (q : Nat) : (s.coursesLow q).cfg = s.cfg :=
  overAll_keep (f := fun s c => s.modCourse c fun x => { x with en := false, sup := false }) State.cfg
    (fun _ _ => rfl) s _

theorem State.railEnLow_eq (s : State) (q : Nat) :
    s.railEnLow q = overAll (s.coursesLow q) (Config.railRegs s.cfg q) State.haltRegion := by
  show overAll (s.coursesLow q) (Config.railRegs (s.coursesLow q).cfg q) State.haltRegion = _
  rw [State.coursesLow_cfg]

/-! ## The next rail's turn -/

section
variable {s : State}

theorem State.nextRail_more (h : s.blk.rampIdx + 1 < 3) :
    s.nextRail = s.modBlk fun b => { b with rampIdx := b.rampIdx + 1 } := by
  refine if_neg fun hlast => ?_
  have hidx : s.blk.rampIdx + 1 ≥ 3 := of_decide_eq_true (Bool.and_eq_true_iff.mp hlast).2
  exact Nat.not_lt.mpr hidx h

theorem State.attached_run (h : s.blk.st = .ramp) : s.attached .run = s.freshCap := by
  simp [State.attached, h, BState.runs, BState.lowPower, BState.full]

/-- R412: what begins anew as RAMP ends with every rail good. -/
def State.powerGood (s : State) : State :=
  let s := s.resumeWakes
  let s : State := { s with cap := { s.cap with
    stepSeen := false, disFail := 0, disPass := 0, alloc := [], fmax := []
    next := none } }
  ({ s with
    strings := s.strings.map fun x => { x with seedDue := x.seedOn }
    regions := s.regions.map fun x => { x with sup := { x.sup with distNow := true } } } : State).modBlk fun b =>
      { b with pwrGood := true }

section
variable (hst : s.blk.st = .ramp) (hi : 3 ≤ s.blk.rampIdx) (hr : s.getN Obj.service_reasons = 0)
  (hg : ∀ x ∈ s.rails, x.st = .good)
include hst hi hr hg

theorem State.leaveRampIfDone_run : s.leaveRampIfDone =
    let t := (s.enter .run).powerGood
    if t.getN Obj.startup_time = 0 then t.set Obj.startup_time ((t.now - t.blk.riseAt) % 2 ^ 32 : Nat) else t := by
  have hrails : (s.enter .run).rails = s.rails := by
    rw [State.enter, State.attached_run hst, State.fire_rails]
    rfl
  have hall : ((s.enter .run).resumeWakes.rails.all fun x => x.st == .good) = true := by
    rw [show (s.enter .run).resumeWakes.rails = _ from hrails]
    exact List.all_eq_true.mpr fun x hx => beq_iff_eq.mpr (hg x hx)
  unfold State.leaveRampIfDone
  rw [if_pos (by rw [hst, decide_eq_true hi]; rfl), if_pos hr]
  exact if_pos hall

/-- R412: with every rail good and no service reason, RAMP ends in RUN and PWR_GOOD rises. -/
theorem State.leaveRampIfDone_good : s.leaveRampIfDone.blk.st = .run ∧ s.leaveRampIfDone.blk.since = s.now ∧
    s.leaveRampIfDone.blk.pwrGood = true ∧ ∀ g : Reg, g.addr ≠ Obj.startup_time.addr → g.addr ≠ (Obj.trig_count 2).addr →
      g.addr ≠ Obj.rec_lost.addr → s.leaveRampIfDone.getN g = s.getN g := by
  have hblk : s.leaveRampIfDone.blk = (s.enter .run).powerGood.blk := by
    rw [State.leaveRampIfDone_run hst hi hr hg]
    dsimp only
    split <;> rfl
  refine ⟨?_, ?_, ?_, fun g hu ht hl => ?_⟩
  · rw [hblk]
    exact State.enter_st s .run
  · rw [hblk]
    exact State.enter_since s .run
  · rw [hblk]
    rfl
  · have henter : (s.enter .run).powerGood.getN g = s.getN g := by
      show ((s.enter .run).get g).toNat = _
      rw [State.enter, State.fire_get_other _ _ _ ht hl, State.attached_run hst]
      rfl
    rw [State.leaveRampIfDone_run hst hi hr hg]
    dsimp only
    split
    · rw [State.getN_set_other _ _ hu, henter]
    · exact henter

end

end

/-! ## A ramp from its start to its end -/

section
variable {s : State} {q : Nat} (hst : s.blk.st = .ramp)
include hst

section
variable (ht : s.turnRail = some q)
include ht

theorem exec_railRampStart (ho : (s.rail q).st = .off) : exec .railRampStart s = .next (s.railRampStart q) := by
  show execRailRampStart s = _
  unfold execRailRampStart
  rw [hst, ht]
  exact congrArg Host.Outcome.next (if_pos ho)

section
variable (hq : q < 3) (hr : (s.rail q).st = .ramping)
include hq hr

theorem exec_railPowerGood (hh : s.railHeld q = true) : exec (.railPowerGood q) s =
    .next ((s.modRail q fun x => { x with st := .good }).set (Obj.rail_pg_time q) s.now).nextRail := by
  show execRailPowerGood q s = _
  rw [execRailPowerGood, onRail_lt hq]
  exact next_when (by rw [hst, ht, hr, hh]; simp)

theorem exec_railFailed {u : Nat} (hu : (s.rail q).refAt = some u)
    (hl : u + 1000 * (s.blk.rampTime + s.getN Obj.pg_deadline) ≤ s.now) : exec (.railFailed q) s =
      .next ((((s.railEnLow q).modRail q fun x =>
        { x with st := .failed, refAt := none, enAt := none, joined := [] }).fire 6 4 (srcRail q)).nextRail) := by
  show execRailFailed q s = _
  rw [execRailFailed, onRail_lt hq]
  simp only [hu]
  exact next_when (by rw [hst, ht, hr, decide_eq_true hl]; simp)

end

end

omit hst in
/-- R407: below half of its strings on found courses a rail is not started. -/
theorem State.railRampStart_few
    (h : 2 * (((Config.allStrings s.cfg).filter fun i => railOf (regionOf i) == q).filter fun i =>
        (s.course (courseOf i)).outcome == 1 || (s.course (courseOf i)).outcome == 3 ||
          (s.course (courseOf i)).outcome == 4).length <
      ((Config.allStrings s.cfg).filter fun i => railOf (regionOf i) == q).length) :
    s.railRampStart q = ((s.modRail q fun x => { x with st := .notStarted }).fire 6 3 (srcRail q)).nextRail := by
  unfold State.railRampStart
  dsimp only
  rw [if_pos h]

omit hst in
/-- R406: otherwise the CRS_EN of the present courses rise, and the rail's regions fire again. -/
theorem State.railRampStart_enough
    (h : ((Config.allStrings s.cfg).filter fun i => railOf (regionOf i) == q).length ≤
      2 * (((Config.allStrings s.cfg).filter fun i => railOf (regionOf i) == q).filter fun i =>
        (s.course (courseOf i)).outcome == 1 || (s.course (courseOf i)).outcome == 3 ||
          (s.course (courseOf i)).outcome == 4).length) :
    s.railRampStart q = overAll ((overAll s (Config.railCourses s.cfg q) fun s c =>
          s.modCourse c fun x => { x with en := x.present }).modRail q fun x =>
        { x with st := .ramping, enAt := some s.now, refAt := none, joined := [] })
      (Config.railRegs s.cfg q) fun s r => s.modRegion r fun x =>
        { x with
          strum := { x.strum with halt := false, ep := none, lockUntil := none, downRef := none }
          loop := { x.loop with
            vref := 0, refFrom := 0, refTo := 0, refBase := 0, rampV := 0, rampFrom := 0, pgSince := none
            fixAt := none } } := by
  have hkeep {β : Type} (g : State → β) (hg : ∀ u c, g (State.modCourse u c fun x => { x with en := x.present }) = g u) :
      g (overAll s (Config.railCourses s.cfg q) fun s c => s.modCourse c fun x => { x with en := x.present }) = g s :=
    overAll_keep (f := fun s c => s.modCourse c fun x => { x with en := x.present }) g hg s _
  have hcfg := hkeep State.cfg fun _ _ => rfl
  have hnow := hkeep State.now fun _ _ => rfl
  unfold State.railRampStart
  dsimp only
  rw [if_neg (Nat.not_lt.mpr h), State.modRail_cfg, hcfg, hnow]

theorem exec_rampReferenceStart (hq : q < 3) {u : Nat} (hr : (s.rail q).st = .ramping) (hn : (s.rail q).refAt = none)
    (he : (s.rail q).enAt = some u) (ht : u + 10000 ≤ s.now) : exec (.rampReferenceStart q) s =
      .next (overAll ((s.modRail q fun x => { x with refAt := some s.now, v0 := s.v0Of q, vRamp := 0 }).set
          (Obj.rail_ramp_v0 q) (s.v0Of q : Nat))
        (Config.railCourses s.cfg q) fun s c => s.modCourse c fun y =>
          if y.en then
            { y with
              sup := true, lost := false, ref := none, prevNew := none, rejRun := 0, okRun := 0, okAt := s.now }
          else y) := by
  show execRampReferenceStart q s = _
  rw [execRampReferenceStart, onRail_lt hq]
  simp only [hr, hn, he]
  exact congrArg Host.Outcome.next (if_neg (by rw [hst, decide_eq_false (Nat.not_lt.mpr ht)]; decide))

omit hst in
theorem exec_positionJoin (hq : q < 3) {u p : Nat} (hr : (s.rail q).st = .ramping) (hu : (s.rail q).refAt = some u)
    (hp : p < if q = 0 then 16 else 8) (ht : u + joinTime q s.blk.rampTime p ≤ s.now) (hj : p ∉ (s.rail q).joined) :
    exec (.positionJoin q p) s = .next (s.modRail q fun x => { x with joined := x.joined ++ [p] }) := by
  show execPositionJoin q p s = _
  rw [execPositionJoin, onRail_lt hq]
  simp only [hr, hu]
  exact next_when (by simp [hp, ht, hj])

end

/-- R411: with the other two rails good, a third one makes all good. -/
theorem State.modRail_all_good {s : State} {q : Nat} (hu : s.Units) (h : ∀ p < 3, p ≠ q → (s.rail p).st = .good) :
    ∀ x ∈ (s.modRail q fun x => { x with st := .good }).rails, x.st = .good := by
  intro x hx
  obtain ⟨p, hp, rfl⟩ := List.mem_iff_getElem.mp hx
  have hlen : p < s.rails.length := by simpa [State.modRail] using hp
  have hget : ((s.modRail q fun x => { x with st := .good }).rails[p]'hp) =
      (s.modRail q fun x => { x with st := .good }).rail p := (List.getD_eq_getElem _ _ hp).symm
  rw [hget]
  by_cases hpq : p = q
  · subst hpq
    rw [State.modRail_rail_same _ _ hlen]
  · rw [State.modRail_rail_other _ _ hpq]
    exact h p (hu.rails ▸ hlen) hpq

theorem rail_pg_time_addr {q : Nat} (hq : q < 3) : (Obj.rail_pg_time q).addr ≠ Obj.startup_time.addr ∧
    (Obj.rail_pg_time q).addr ≠ (Obj.trig_count 2).addr ∧ (Obj.rail_pg_time q).addr ≠ Obj.rec_lost.addr ∧
    Obj.service_reasons.addr ≠ (Obj.rail_pg_time q).addr := by
  revert q
  decide

/-- Settles O11: each event of the rail whose turn it is, and the end of RAMP after the last of them. -/
theorem railRampsStartAndEnd : Obligations.RailRampsStartAndEnd := by
  unfold Obligations.RailRampsStartAndEnd
  refine ⟨fun s q hq hst => ⟨fun ht ho => ⟨fun h hi => ?_, fun h => ?_⟩, fun u => exec_rampReferenceStart hst hq,
    fun u p => exec_positionJoin hq⟩, fun s q hq hst ht hr => ⟨fun hh => ⟨fun hi => ?_, fun hu hwf hi hg hs => ?_⟩,
    fun u hu hl hi => ?_⟩⟩
  · rw [exec_railRampStart hst ht ho, State.railRampStart_few h, State.nextRail_more (by rw [State.fire_blk]; exact hi)]
  · rw [exec_railRampStart hst ht ho, State.railRampStart_enough h]
  · rw [exec_railPowerGood hst ht hq hr hh]
    exact congrArg Host.Outcome.next (State.nextRail_more hi)
  · obtain ⟨hstart, htrig, hlost, hreason⟩ := rail_pg_time_addr hq
    let good := ((s.modRail q fun x => { x with st := .good }).set (Obj.rail_pg_time q) s.now).modBlk fun b =>
      { b with rampIdx := b.rampIdx + 1 }
    have hreasons : good.getN Obj.service_reasons = 0 :=
      (State.getN_set_other (s := s.modRail q fun x => { x with st := .good }) _ hreason).trans hs
    have htime : good.getN (Obj.rail_pg_time q) = s.now :=
      (State.getN_set_same (s := s.modRail q fun x => { x with st := .good }) _ hwf).trans (Int.toNat_natCast _)
    have hidx : 3 ≤ good.blk.rampIdx := (congrArg (· + 1) hi).ge
    obtain ⟨hrun, hsince, hpwr, hget⟩ := State.leaveRampIfDone_good (s := good) hst hidx hreasons
      (State.modRail_all_good hu hg)
    exact ⟨good.leaveRampIfDone, exec_railPowerGood hst ht hq hr hh, hrun, hsince, hpwr,
      (hget _ hstart htrig hlost).trans htime⟩
  · have hidx : ((s.railEnLow q).modRail q fun x =>
        { x with st := .failed, refAt := none, enAt := none, joined := [] }).blk.rampIdx = s.blk.rampIdx :=
      congrArg Block.rampIdx ((State.moves_railEnLow s q).frame .blk (by decide))
    rw [exec_railFailed hst ht hq hr hu hl, State.nextRail_more (by rw [State.fire_blk, hidx]; exact hi),
      State.railEnLow_eq]
    rfl

end Sys2Proof.Machine
end

section
/-! SUPPORT. Shut-down and restart (R417, R418, R421): the ramp-downs one after another, the loss of VIN_OK and the
restart after it. -/

namespace Sys2Proof.Machine

/-! ## The ramp-down of a rail -/

section
variable {s : State} {q : Nat} {l : List Nat}

section
variable (hst : s.blk.st = .shutdown) (hl : s.blk.downLeft = q :: l)
include hst hl

theorem exec_rampDownStart (hb : s.blk.downBegun = false)
    (h : (∀ r ∈ Config.regions s.cfg, (s.region r).fret.fret = 0) ∨
      s.blk.since + 1000 * s.getN Obj.shutdown_fret_wait ≤ s.now) :
    exec .rampDownStart s = .next ((s.modBlk fun b => { b with downBegun := true }).beginDown q) := by
  have hdue : (((Config.regions s.cfg).all fun r => (s.region r).fret.fret == 0) ||
      decide (s.blk.since + 1000 * s.getN Obj.shutdown_fret_wait ≤ s.now)) = true := by
    simpa only [Bool.or_eq_true, List.all_eq_true, beq_iff_eq, decide_eq_true_eq] using h
  show execRampDownStart s = _
  unfold execRampDownStart
  simp only [hl, hdue, hb, hst]
  rfl

/-- R417: the rail's CRS_EN have fallen and it is OFF, with its ramp-down off the list. -/
def State.rampedDown (s : State) (q : Nat) (l : List Nat) : State :=
  (overAll ((overAll (s.coursesLow q) (Config.railRegs s.cfg q) State.haltRegion).modRail q fun x =>
      { x with st := .off, downAt := none, enAt := none, refAt := none, joined := [] })
    (Config.railRegs s.cfg q) fun s r => s.modStrum r fun v => { v with downRef := none }).modBlk fun b =>
      { b with downLeft := l }

/-- The ramp-down of the first rail of a list begins, where there is one. -/
def State.beginNext (s : State) : List Nat → State
  | n :: _ => s.beginDown n
  | [] => s

theorem exec_railRampDownEnd (hq : q < 3) {u : Nat} (hb : s.blk.downBegun = true) (hu : (s.rail q).downAt = some u)
    (h : ∀ r ∈ Config.railRegs s.cfg q,
      downRefAt ((s.region r).strum.downRef.getD 0) q (s.now - u) ≤ mvUnits (railVmin q)) :
    exec (.railRampDownEnd q) s = .next ((s.rampedDown q l).beginNext l) := by
  have hall : ((Config.railRegs s.cfg q).all fun r =>
      decide (downRefAt ((s.region r).strum.downRef.getD 0) q (s.now - u) ≤ mvUnits (railVmin q))) = true := by
    simpa only [List.all_eq_true, decide_eq_true_eq] using h
  have hcfg : (overAll (s.coursesLow q) (Config.railRegs s.cfg q) State.haltRegion).cfg = s.cfg := by
    rw [← State.railEnLow_eq]
    exact (State.moves_railEnLow s q).frame .cfg (by decide)
  show execRailRampDownEnd q s = _
  rw [execRailRampDownEnd, onRail_lt hq]
  simp only [hl, hu, hst, hb, hall, decide_true, beq_self_eq_true, Bool.and_self, if_true, State.modRail_cfg, hcfg,
    State.railEnLow_eq]
  cases l <;> rfl

end

theorem exec_rampDownStart_none (h : s.blk.st ≠ .shutdown ∨ s.blk.downLeft = [] ∨ s.blk.downBegun = true) :
    exec .rampDownStart s = .next s := by
  show execRampDownStart s = _
  unfold execRampDownStart
  dsimp only
  split
  next q l hl =>
    refine congrArg Host.Outcome.next (if_neg fun hdue => ?_)
    simp only [Bool.and_eq_true, decide_eq_true_eq, Bool.not_eq_true'] at hdue
    obtain ⟨⟨hst, hb⟩, -⟩ := hdue
    rcases h with h | h | h
    · exact h hst
    · exact absurd (hl.symm.trans h) (List.cons_ne_nil _ _)
    · exact Bool.false_ne_true (hb.symm.trans h)
  next => rfl

theorem exec_railRampDownEnd_none (hq : q < 3) (h : s.blk.st ≠ .shutdown) :
    exec (.railRampDownEnd q) s = .next s := by
  show execRailRampDownEnd q s = _
  rw [execRailRampDownEnd, onRail_lt hq]
  split
  · dsimp only
    rw [if_neg (by rw [decide_eq_false h]; simp)]
  · rfl

/-! ## The loss of VIN_OK -/

/-- R418: what the loss of VIN_OK does before the block's own state changes. -/
def State.vinLost (s : State) : State :=
  (((s.haltAll.allEnLow.railsOff).count Obj.vin_loss_count 32).fire 7 0).modBlk fun b =>
    { b with shutCause := 2, vinLostAt := s.now, downLeft := [], downBegun := true }

theorem State.vinLost_frame (s : State) :
    State.Frame [.blk, .rails, .regions, .strings, .courses, .recd, .regs] s s.vinLost := by
  have hoff : s.Moves [.blk, .rails, .regions, .strings, .courses, .recd, .regs] s.haltAll.allEnLow.railsOff :=
    (((State.Moves.refl _ s).step (State.moves_haltAll s) rfl).step (State.moves_allEnLow _) rfl).step
      (State.moves_railsOff _) rfl
  have hfired : s.Moves [.blk, .rails, .regions, .strings, .courses, .recd, .regs]
      (((s.haltAll.allEnLow.railsOff).count Obj.vin_loss_count 32).fire 7 0) :=
    (hoff.step (State.moves_count ..) rfl).step (State.moves_fire ..) rfl
  exact (hfired.step (State.moves_modBlk _ _ (by exact fun _ => rfl)) rfl).frame

theorem State.vinLost_blk (s : State) : s.vinLost.blk =
    { s.blk with shutCause := 2, vinLostAt := s.now, downLeft := [], downBegun := true } := by
  simp only [State.vinLost, State.modBlk_blk, State.fire_blk, State.count_blk, State.railsOff_blk, State.allEnLow_blk,
    State.haltAll_blk]

theorem State.vinLost_courses (s : State) : ∀ x ∈ s.vinLost.courses, x.en = false ∧ x.sup = false := by
  simp only [State.vinLost, State.modBlk_courses, State.fire_courses, State.count_courses, State.railsOff_courses]
  intro x hx
  obtain ⟨y, _, rfl⟩ := List.mem_map.mp hx
  exact ⟨rfl, rfl⟩

/-- R422: no rail is ramping or good any more. -/
theorem State.vinLost_rails (s : State) : ∀ x ∈ s.vinLost.rails, x.st = .off ∨ x.st = .failed ∨ x.st = .notStarted := by
  simp only [State.vinLost, State.modBlk_rails, State.fire_rails, State.count_rails]
  intro x hx
  obtain ⟨y, _, rfl⟩ := List.mem_map.mp hx
  dsimp only
  split <;> simp

theorem State.vinLost_eq (s : State) : s.vinLost =
    (((s.haltAll.allEnLow.railsOff).count Obj.vin_loss_count 32).fire 7 0).modBlk fun b =>
      { b with
        shutCause := 2, vinLostAt := (((s.haltAll.allEnLow.railsOff).count Obj.vin_loss_count 32).fire 7 0).now
        downLeft := [], downBegun := true } := by
  rw [State.fire_now, State.count_now, State.railsOff_now, State.allEnLow_now, State.haltAll_now]
  rfl

theorem exec_vinOkLoss (h : s.blk.st = .ramp ∨ s.blk.st = .run ∨ s.blk.st = .service ∨ s.blk.st = .shutdown) :
    exec .vinOkLoss s = .next (if s.blk.st = .shutdown then s.vinLost else s.vinLost.enter .shutdown) := by
  have hst : s.vinLost.blk.st = s.blk.st := by rw [State.vinLost_blk]
  rw [← hst, State.vinLost_eq]
  show execVinOkLoss s = _
  rcases h with h | h | h | h <;> (unfold execVinOkLoss; rw [h])

theorem exec_vinOkLoss_none (h : ∀ b, b ∈ [BState.ramp, .run, .service, .shutdown] → s.blk.st ≠ b) :
    exec .vinOkLoss s = .next s := by
  show execVinOkLoss s = _
  unfold execVinOkLoss
  split
  next he => exact absurd he (h _ (by decide))
  next he => exact absurd he (h _ (by decide))
  next he => exact absurd he (h _ (by decide))
  next he => exact absurd he (h _ (by decide))
  next => rfl

/-! ## The entry into SHUTDOWN -/

section
variable (h : s.blk.st = .ramp ∨ s.blk.st = .run ∨ s.blk.st = .service)
include h

theorem State.attached_shutdown : s.attached .shutdown = (if s.blk.st.runs then s.leaveRun else s).stStartFlush := by
  rcases h with h | h | h <;> simp [State.attached, h, BState.runs, BState.lowPower, BState.full]

/-- R415: PWR_GOOD is low once RUN or SERVICE has been left. -/
theorem State.enter_shutdown_pwrGood (hr : s.blk.st ≠ .ramp) : (s.enter .shutdown).blk.pwrGood = false := by
  have hruns : s.blk.st.runs = true := by
    rcases h with h | h | h
    · exact absurd h hr
    · rw [h]; rfl
    · rw [h]; rfl
  rw [State.enter, State.attached_shutdown h, if_pos hruns, State.fire_blk, State.modBlk_blk, State.stStartFlush_blk,
    State.leaveRun_blk']

/-- An entry into SHUTDOWN leaves every rail in the state it has. -/
theorem State.enter_shutdown_rails {P : RailSt → Prop} (hp : ∀ x ∈ s.rails, P x.st) :
    ∀ x ∈ (s.enter .shutdown).rails, P x.st := by
  rw [State.enter, State.attached_shutdown h, State.fire_rails, State.modBlk_rails, State.stStartFlush_rails]
  split
  · rw [State.leaveRun_rails']
    intro x hx
    obtain ⟨y, hy, rfl⟩ := List.mem_map.mp hx
    exact hp y hy
  · exact hp

end

/-! ## The restart -/

theorem exec_vinRestart_none (h : s.blk.st ≠ .shutdown ∨ s.blk.shutCause ≠ 2 ∨ s.blk.shutPending = true ∨
    s.now < s.blk.vinLostAt + s.getN Obj.vin_restart_delay * 1000000) : exec .vinRestart s = .next s := by
  refine next_unless (Bool.eq_false_iff.mpr fun hall => ?_)
  simp only [Bool.and_eq_true, beq_iff_eq, Bool.not_eq_true', decide_eq_true_eq] at hall
  obtain ⟨⟨⟨hst, hc⟩, hp⟩, ht⟩ := hall
  rcases h with h | h | h | h
  · exact h hst
  · exact h hc
  · exact Bool.false_ne_true (hp.symm.trans h)
  · exact Nat.not_lt.mpr ht h

/-- R418: VIN_RESTART before the block's state changes. -/
def State.restartCounted (s : State) : State :=
  let t := (s.count Obj.vin_restart_count 32).fire 7 1
  { t with courses := t.courses.map fun c =>
      { c with done := c.absent, outcome := if c.absent then 2 else 0, fail := none } }

section
variable (hst : s.blk.st = .shutdown)
include hst

theorem exec_vinRestart (hc : s.blk.shutCause = 2) (hp : s.blk.shutPending = false)
    (ht : s.blk.vinLostAt + s.getN Obj.vin_restart_delay * 1000000 ≤ s.now) :
    exec .vinRestart s = .next (s.restartCounted.enter .discover) :=
  next_when (by rw [hst, hc, hp, decide_eq_true ht]; rfl)

theorem State.attached_discover_shutdown : s.attached .discover = s.convLow.enterDiscover := by
  simp [State.attached, hst, BState.runs, BState.lowPower, BState.full]

/-- R373, R421: SHUTDOWN is left for DISCOVER, which is a state of low power. -/
theorem State.enter_discover_shutdown : s.enter .discover =
    (s.convLow.enterDiscover.modBlk fun b => { b with st := .discover, since := s.now }).fire 2 BState.discover.code
      (srcState BState.shutdown.code) := by
  rw [State.enter, State.attached_discover_shutdown hst, hst]

end

theorem State.convLow_get {g : Reg} (h : g.addr ≠ Obj.urgent_refused.addr) : s.convLow.get g = s.get g :=
  (show s.convLow.get g = (s.count Obj.urgent_refused 32 _).get g from rfl).trans (State.get_count_other _ _ _ h)

theorem State.enter_discover_get (hst : s.blk.st = .shutdown) {g : Reg} (ht : g.addr ≠ (Obj.trig_count 2).addr)
    (hl : g.addr ≠ Obj.rec_lost.addr) (hu : g.addr ≠ Obj.urgent_refused.addr) :
    (s.enter .discover).get g = s.get g := by
  rw [State.enter_discover_shutdown hst, State.fire_get_other _ _ _ ht hl]
  exact State.convLow_get hu

theorem State.convLow_convs (s : State) : ∀ x ∈ s.convLow.convs, x.queue = [] ∧ x.coming = [] := by
  intro x hx
  obtain ⟨y, _, rfl⟩ := List.mem_map.mp hx
  exact ⟨rfl, rfl⟩

/-- R421: every REGION_HOLD is low. -/
theorem State.enterDiscover_regHold (s : State) (r : Nat) : (s.enterDiscover.region r).sup.regHold = false := by
  unfold State.region State.enterDiscover
  rw [List.getD_eq_getElem?_getD, List.getElem?_map]
  cases s.regions[r]? <;> rfl

theorem State.restartCounted_get (hwf : rfWf s.regs = true) :
    s.restartCounted.get Obj.vin_restart_count = (s.get Obj.vin_restart_count + 1) % 2 ^ 32 :=
  (State.fire_get_other (s := s.count Obj.vin_restart_count 32) 7 1 _ (by decide) (by decide)).trans
    (State.get_count_same s 32 1 hwf)

end

/-- Settles O12: the ramp-downs by their list; the loss of VIN_OK as what it does before an entry into SHUTDOWN; the
restart as an entry into DISCOVER from there (the delay counts from the loss, log 106; log 13). -/
theorem shutDownAndRestart : Obligations.ShutDownAndRestart := by
  unfold Obligations.ShutDownAndRestart
  intro s q hq
  refine ⟨fun l hst hl hb h => exec_rampDownStart hst hl hb h, fun l u hst hl hb hu h => ?_,
    fun _ h => exec_rampDownStart_none (.inr h),
    fun h => ⟨exec_rampDownStart_none (.inl h), exec_railRampDownEnd_none hq h⟩, fun h => ?_, exec_vinOkLoss_none,
    fun h => exec_vinRestart_none (h.imp_right fun h => h.imp_right .inl),
    fun h => exec_vinRestart_none (.inr (.inr (.inr h))), fun hst => ?_, fun hst hc hp ht hwf => ?_⟩
  · have hexec := exec_railRampDownEnd hst hl hq hb hu h
    exact ⟨fun he => by subst he; exact hexec, fun p m he => by subst he; exact hexec⟩
  · have hne : s.blk.st ≠ .shutdown := by rcases h with h | h | h <;> (rw [h]; decide)
    have hst : s.vinLost.blk.st = s.blk.st := by rw [State.vinLost_blk]
    have hfrom : s.vinLost.blk.st = .ramp ∨ s.vinLost.blk.st = .run ∨ s.vinLost.blk.st = .service := by rwa [hst]
    have hframe := s.vinLost_frame
    have hkeep {β : Type} (g : Block → β) (hp : ∀ b, g { b with pwrGood := false } = g b)
        (hf : ∀ b x, g { b with fullAt := x, fullSpeed := false } = g b)
        (hs : ∀ b x n, g { b with st := x, since := n } = g b) : g (s.vinLost.enter .shutdown).blk =
          g { s.blk with shutCause := 2, vinLostAt := s.now, downLeft := [], downBegun := true } := by
      rw [State.enter_keeps g hp hf hs, State.vinLost_blk]
    have hparts (p : Part) (hin : p ∉ [Part.blk, .st, .rails, .regions, .strings, .courses, .eng, .cap, .hints, .learn,
        .therm, .convs, .cg, .dma, .recd, .regs]) : s.same (s.vinLost.enter .shutdown) p :=
      State.same_trans (hframe p fun k => hin (by revert k; cases p <;> decide))
        ((State.moves_enter s.vinLost .shutdown).frame p fun k => hin (by revert k; cases p <;> decide))
    refine ⟨s.vinLost.enter .shutdown, ?_, State.enter_st .., ?_, ?_, ?_, fun hr => ?_, ?_, ?_, ?_, hparts .cfg (by decide),
      hparts .now (by decide), hparts .clk (by decide), hparts .dict (by decide), hparts .tune (by decide)⟩
    · rw [exec_vinOkLoss (h.imp_right fun h => h.imp_right .inl), if_neg hne]
    · rw [State.enter_since]
      exact hframe .now (by decide)
    · exact hkeep (·.shutCause) (fun _ => rfl) (fun _ _ => rfl) fun _ _ _ => rfl
    · exact hkeep (·.vinLostAt) (fun _ => rfl) (fun _ _ => rfl) fun _ _ _ => rfl
    · exact State.enter_shutdown_pwrGood hfrom (hst ▸ hr)
    · exact hkeep (·.downLeft) (fun _ => rfl) (fun _ _ => rfl) fun _ _ _ => rfl
    · rw [State.enter_courses]
      exact s.vinLost_courses
    · exact State.enter_shutdown_rails (P := fun x => x = .off ∨ x = .failed ∨ x = .notStarted) hfrom s.vinLost_rails
  · rw [exec_vinOkLoss (.inr (.inr (.inr hst))), if_pos hst]
    rfl
  · have hfrom : s.restartCounted.blk.st = .shutdown := by
      show ((s.count Obj.vin_restart_count 32).fire 7 1).blk.st = _
      rw [State.fire_blk]
      exact hst
    have hnow : s.restartCounted.now = s.now := State.fire_now ..
    refine ⟨_, exec_vinRestart hst hc hp ht, State.enter_st .., (State.enter_since ..).trans hnow, ?_, ?_, ?_, ?_, ?_, ?_⟩
    · exact (State.enter_discover_get hfrom (by decide) (by decide) (by decide)).trans (State.restartCounted_get hwf)
    · rw [State.enter_discover_shutdown hfrom, State.fire_blk]
      rfl
    · rw [State.enter_discover_shutdown hfrom, State.fire_blk]
      rfl
    · rw [State.enter_discover_shutdown hfrom, State.fire_convs]
      exact s.restartCounted.convLow_convs
    · intro r
      rw [State.enter_discover_shutdown hfrom, State.fire_region]
      exact s.restartCounted.convLow.enterDiscover_regHold r
    · rw [State.enter_courses]
      show ((s.count Obj.vin_restart_count 32).fire 7 1).courses.map _ = _
      rw [State.fire_courses]
      rfl

end Sys2Proof.Machine
end

section
/-! SUPPORT. Results of converters (R355 to R378): where a result word goes, what a FIRE-mode current does to its string,
the board-analog converter, and the energy quarter. -/

namespace Sys2Proof.Machine

theorem State.convRuns_of_full {s : State} (h : s.convFull = true) : s.convRuns = true :=
  Bool.or_eq_true_iff.mpr (.inr (Bool.and_eq_true_iff.mp h).1)

/-! ## The sequence of a converter keeps its results -/

/-- The result words that the host reads. -/
def Conv.results (c : Conv) : List Nat × List Nat × Nat := (c.resA, c.resB, c.urgRes)

section
variable {c : Conv} {cfg : Config} {n now : Nat}

theorem Conv.startA_results {d : Conv} (h : c.startA cfg n now = some d) : d.results = c.results := by
  obtain ⟨k, _, rfl⟩ := Option.map_eq_some_iff.mp h
  rfl

theorem Conv.startB_results {d : Conv} (h : c.startB cfg n now = some d) : d.results = c.results := by
  obtain ⟨k, _, rfl⟩ := Option.map_eq_some_iff.mp h
  rfl

theorem Conv.orElse_results {x y : Option Conv} {r : List Nat × List Nat × Nat} (hx : ∀ d, x = some d → d.results = r)
    (hy : ∀ d, y = some d → d.results = r) (hc : c.results = r) : ((x.orElse fun _ => y).getD c).results = r := by
  cases x with
  | some d => exact hx d rfl
  | none =>
    cases y with
    | some d => exact hy d rfl
    | none => exact hc

/-- R361: the next entry begins with all results as they are. -/
theorem Conv.advance_results (full : Bool) : (c.advance cfg n now full).results = c.results := by
  have hA {d e : Conv} (hd : d.results = c.results) (h : d.startA cfg n now = some e) : e.results = c.results :=
    (Conv.startA_results h).trans hd
  have hB {d e : Conv} (hd : d.results = c.results) (h : d.startB cfg n now = some e) : e.results = c.results :=
    (Conv.startB_results h).trans hd
  have hnone : ∀ d : Conv, none = some d → d.results = c.results := fun _ h => nomatch h
  unfold Conv.advance
  dsimp only
  split
  · split
    · rfl
    · exact Conv.orElse_results (fun _ => hB rfl) hnone rfl
  · split
    · split
      · rfl
      · exact Conv.orElse_results (fun _ => hA rfl) (fun _ => hB rfl) rfl
    · split
      · rfl
      · split
        · exact Conv.orElse_results (fun _ => hB rfl) (fun _ => hA rfl) rfl
        · exact Conv.orElse_results (fun _ => hA rfl) hnone rfl

theorem Conv.afterUrgent_results (full : Bool) : (c.afterUrgent cfg n now full).results = c.results := by
  unfold Conv.afterUrgent
  split
  · rfl
  · split
    · rfl
    · exact Conv.advance_results false

end

/-! ## One converter of the list -/

section
variable {s : State} {n : Nat}

theorem State.modConv_convs_length (f : Conv → Conv) : (s.modConv n f).convs.length = s.convs.length :=
  List.length_modify ..

theorem State.arm_results (hn : n < s.convs.length) : ((s.arm n).conv n).results = (s.conv n).results := by
  rw [State.arm, State.modConv_conv_same _ _ hn]
  rfl

end

/-! ## The current of a string -/

section
variable {s : State} {i code gain : Nat}

/-- The tests of a sense leave the current, its sum and its count. -/
theorem State.senseRuns_current (hi : i < s.strings.length) : ((s.senseRuns i code gain).str i).conv = (s.str i).conv ∧
    ((s.senseRuns i code gain).str i).sum = (s.str i).sum ∧ ((s.senseRuns i code gain).str i).cnt = (s.str i).cnt := by
  unfold State.senseRuns
  dsimp only
  split <;> (rw [State.modStr_str_same _ _ hi]; exact ⟨rfl, rfl, rfl⟩)

/-- R364, R134: the string as a FIRE-mode current `v` leaves it, before the tests of its sense. -/
def Str.takeCurrent (x : Str) (v : Int) (low : Bool) : Str :=
  let x := { x with conv := v, convN := min 255 (x.convN + 1), sum := x.sum + v, cnt := x.cnt + 1 }
  if low then { x with openLow := min 255 (x.openLow + 1) }
  else
    let x := x.zeroOpen
    match x.test with
    | some t => if t.finding = 0 then { x with test := none } else x
    | none => x

theorem Str.takeCurrent_current (x : Str) (v : Int) (low : Bool) :
    (x.takeCurrent v low).conv = v ∧ (x.takeCurrent v low).sum = x.sum + v ∧ (x.takeCurrent v low).cnt = x.cnt + 1 := by
  unfold Str.takeCurrent
  dsimp only
  split
  · exact ⟨rfl, rfl, rfl⟩
  · split
    · split <;> exact ⟨rfl, rfl, rfl⟩
    · exact ⟨rfl, rfl, rfl⟩

/-- R131: the lane is up, so a low current is no hiccup. -/
theorem State.imonResult_eq (hl : (s.course (courseOf i)).lost = false) : s.imonResult i code gain =
    (s.modStr i fun x => x.takeCurrent ((s.str i).currentOf code gain)
      (decide ((s.str i).currentOf code gain < s.get Obj.open_level))).senseRuns i code gain := by
  have hcourse (t : State) : (t.senseRuns i code gain).course (courseOf i) = t.course (courseOf i) :=
    congrArg (·.getD (courseOf i) {}) ((State.moves_senseRuns t i code gain).frame .courses (by decide))
  refine if_neg ?_
  rw [hcourse]
  show ¬ (((s.course (courseOf i)).lost && _ && _ && _) = true)
  rw [hl]
  exact Bool.false_ne_true

theorem State.imonResult_current (hl : (s.course (courseOf i)).lost = false) (hi : i < s.strings.length) :
    ((s.imonResult i code gain).str i).conv = (s.str i).currentOf code gain ∧
    ((s.imonResult i code gain).str i).sum = (s.str i).sum + (s.str i).currentOf code gain ∧
    ((s.imonResult i code gain).str i).cnt = (s.str i).cnt + 1 := by
  rw [State.imonResult_eq hl]
  obtain ⟨hconv, hsum, hcnt⟩ := State.senseRuns_current (code := code) (gain := gain)
    (s := s.modStr i fun x => x.takeCurrent ((s.str i).currentOf code gain)
      (decide ((s.str i).currentOf code gain < s.get Obj.open_level)))
    (by rw [State.modStr, List.length_modify]; exact hi)
  rw [hconv, hsum, hcnt, State.modStr_str_same _ _ hi]
  exact Str.takeCurrent_current ..

theorem State.imonResult_moves (hl : (s.course (courseOf i)).lost = false) :
    s.Moves [.strings] (s.imonResult i code gain) := by
  rw [State.imonResult_eq hl]
  exact (State.moves_modStr ..).step (State.moves_senseRuns ..) rfl

end

/-! ## A result of the entry in progress -/

section
variable {s : State} {n : Nat}

/-- A result without a parity error ends the run of errors. -/
def State.parityFine (s : State) (n : Nat) : State := s.modConv n fun c => { c with parBad := 0 }

theorem State.parityFine_conv (hn : n < s.convs.length) : (s.parityFine n).conv n = { s.conv n with parBad := 0 } :=
  State.modConv_conv_same _ _ hn

/-- R361: a resampled entry is counted. -/
def State.countResampled (s : State) (n : Nat) : State :=
  if (s.conv n).resampled then s.count (Obj.conv_resampled n) 32 else s

theorem State.countResampled_conv (m : Nat) : (s.countResampled n).conv m = s.conv m := by
  unfold State.countResampled
  split <;> rfl

theorem State.moves_countResampled (s : State) (n : Nat) : s.Moves [.regs] (s.countResampled n) :=
  .ite (State.moves_count ..) (.refl _ s)

theorem exec_conversionResult (hp : Config.popConv s.cfg n = true) (hc : s.converts n = true) (nv : Int) :
    exec (.conversionResult n nv true true) s = .next (s.conversionResult n nv true) := by
  show execConversionResult n nv true s true = _
  rw [execConversionResult, onConv_pop hp]
  exact next_when hc

section
variable {p : State} {c : Conv} (hp : s.parityFine n = p) (hc : p.conv n = c) (hfull : p.convFull = true)
  (ht : c.timed = false)
include hp hc hfull ht

/-- R360: the result of a scheduled entry that has been held in time. -/
theorem State.conversionResult_scheduled (hu : c.urgent = none) (hsync : c.sync = false) (hh : c.held.isSome = true)
    (hf : c.failed = false) (nv : Int) : s.conversionResult n nv true =
      ((p.countResampled n).scheduledResult n (c.codeOf nv + 16384 * b2n c.resampled) (c.codeOf nv) true false).arm n := by
  have hnone : c.held.isNone = false := Option.isNone_eq_false_iff.mpr hh
  have hcf : (p.countResampled n).convFull = true := by
    unfold State.countResampled
    split <;> exact hfull
  unfold State.conversionResult
  simp only [if_true]
  rw [← State.parityFine, hp, hc]
  simp only [hu, hsync, ht, hf, hfull, hnone, Option.isNone_none, Option.isSome_none, Bool.false_and, Bool.and_false,
    Bool.or_false, Bool.true_and, Bool.false_eq_true, if_false, b2n, Nat.mul_zero, Nat.add_zero]
  rw [← hc, ← State.countResampled, hcf]
  rfl

/-- R369: the result of an urgent request. -/
theorem State.conversionResult_urgent {u : Urgent} (hu : c.urgent = some u) (nv : Int) :
    s.conversionResult n nv true =
      let code := if c.failed then 0 else c.codeOf nv
      ((p.urgentResult n u (code + 4096 + 32768 * b2n c.failed) code true).modConv n fun c =>
        c.afterUrgent p.cfg n p.now true).arm n := by
  have hentry : p.fireEntry n = false := by
    simp only [State.fireEntry, hc, hu, Option.isNone_some, Bool.false_and]
  unfold State.conversionResult
  simp only [if_true]
  rw [← State.parityFine, hp, hc]
  simp only [hu, ht, hfull, hentry, Option.isNone_some, Option.isSome_some, Bool.false_and, Bool.or_false,
    Bool.and_true, Bool.false_eq_true, if_false, if_true, b2n, Nat.mul_zero, Nat.add_zero, Nat.mul_one]

end

/-- R360: a result word goes to the place of its entry. -/
def State.storeResult (s : State) (n word : Nat) : State := s.modConv n fun c =>
  if c.inB then { c with resB := c.resB.set c.idx word } else { c with resA := c.resA.set c.idx word }

/-- R361: the last entry of a sweep, `c` being the converter as its result came, counts the sweep. -/
def State.endSweep (s : State) (n : Nat) (c : Conv) : State :=
  if !c.inB && (Config.entryFrom s.cfg n c.a c.aLen (c.idx + 1)).isNone && s.convFull then
    s.count (Obj.conv_sweeps n) 32
  else s

def State.nextEntry (s : State) (n : Nat) : State := s.modConv n fun c => c.advance s.cfg n s.now s.convFull

theorem State.endSweep_convs (c : Conv) : (s.endSweep n c).convs = s.convs := by
  unfold State.endSweep
  split <;> rfl

theorem State.moves_endSweep (s : State) (n : Nat) (c : Conv) : s.Moves [.regs] (s.endSweep n c) :=
  .ite (State.moves_count ..) (.refl _ s)

section
variable {c : Conv} (hc : s.conv n = c) (hB : c.inB = false)
include hc hB

/-- R364: a result of a FIRE-mode entry of table A is stored and taken by its string, and the next entry begins. -/
theorem State.scheduledResult_fire (hin : entryInput c.entry < 16) (word code : Nat) :
    s.scheduledResult n word code true false =
      (((s.storeResult n word).imonResult (16 * n + entryInput c.entry) code
        (entryGain c.entry)).endSweep n c).nextEntry n := by
  simp only [State.scheduledResult, hc, State.storeResult, State.endSweep, State.nextEntry, hB, hin, Bool.not_true,
    Bool.false_eq_true, if_false, if_true, Bool.or_false]

theorem State.storeResult_conv (hn : n < s.convs.length) (word : Nat) :
    (s.storeResult n word).conv n = { c with resA := c.resA.set c.idx word } := by
  rw [State.storeResult, State.modConv_conv_same _ _ hn, hc, if_neg (by rw [hB]; exact Bool.false_ne_true)]

theorem State.scheduledResult_current (hn : n < s.convs.length) (hin : entryInput c.entry < 16) {i : Nat}
    (hi : i = 16 * n + entryInput c.entry) (hlen : i < s.strings.length)
    (hl : (s.course (courseOf i)).lost = false) {word code : Nat} {t : State}
    (htd : s.scheduledResult n word code true false = t) :
    n < t.convs.length ∧ (t.conv n).resA = c.resA.set c.idx word ∧
      (t.str i).conv = (s.str i).currentOf code (entryGain c.entry) ∧
      (t.str i).sum = (s.str i).sum + (s.str i).currentOf code (entryGain c.entry) ∧
      (t.str i).cnt = (s.str i).cnt + 1 ∧ s.Moves [.strings, .convs, .regs] t := by
  let a := s.storeResult n word
  let b := a.imonResult i code (entryGain c.entry)
  let d := b.endSweep n c
  have ht : t = d.nextEntry n := htd.symm.trans <| (State.scheduledResult_fire hc hB hin word code).trans (by rw [← hi])
  have ha : s.Moves [.strings, .convs, .regs] a := (State.Moves.refl _ s).step (State.moves_modConv ..) rfl
  have hb : a.Moves [.strings] b := State.imonResult_moves (s := a) hl
  have hd : b.Moves [.regs] d := State.moves_endSweep ..
  have hconvs : d.convs = a.convs := (hd.frame .convs (by decide)).trans (hb.frame .convs (by decide))
  have hdlen : n < d.convs.length := by
    rw [hconvs]
    exact hn.trans_eq (State.modConv_convs_length _).symm
  have hdconv : d.conv n = a.conv n := congrArg (·.getD n {}) hconvs
  have hstr : t.str i = b.str i := by
    rw [ht]
    exact congrArg (·.getD i {}) (hd.frame .strings (by decide))
  obtain ⟨hconv, hsum, hcnt⟩ := State.imonResult_current (s := a) (code := code)
    (gain := entryGain c.entry) hl hlen
  rw [hstr]
  refine ⟨?_, ?_, hconv, hsum, hcnt, ?_⟩
  · rw [ht, State.nextEntry, State.modConv_convs_length]
    exact hdlen
  · rw [ht, State.nextEntry, State.modConv_conv_same _ _ hdlen]
    exact (congrArg Prod.fst (Conv.advance_results _)).trans (by rw [hdconv, State.storeResult_conv hc hB hn]; rfl)
  · rw [ht]
    exact ((ha.step hb rfl).step hd rfl).step (State.moves_modConv ..) rfl

end

end

/-! ## The command, by what is converted -/

section
variable {s : State} {n : Nat} (hp : Config.popConv s.cfg n = true) (hlen : s.convs.length = 70)
  (hfull : s.convFull = true) (nv : Int)
include hp

/-- R360: an entry that waits for its strobe has no result. -/
theorem exec_conversionResult_waits {i : Nat} (hi : s.strobeString n = some i) (hh : (s.conv n).held = none) :
    exec (.conversionResult n nv true true) s = .next s := by
  show execConversionResult n nv true s true = _
  rw [execConversionResult, onConv_pop hp]
  refine next_unless ?_
  simp only [State.converts, hi, hh, Option.isNone_none, Option.isSome_some, Bool.and_self, Bool.not_true,
    Bool.and_false, Bool.false_and]

include hlen hfull

theorem exec_conversionResult_fire (hu : (s.conv n).urgent = none) (hsync : (s.conv n).sync = false)
    (hB : (s.conv n).inB = false) (hh : (s.conv n).held.isSome = true) (ht : (s.conv n).timed = false)
    (hf : (s.conv n).failed = false) {i : Nat} (hi : i = 16 * n + entryInput (s.conv n).entry)
    (hin : entryInput (s.conv n).entry < 16) (hstr : i < s.strings.length)
    (hl : (s.course (courseOf i)).lost = false) :
    ∃ t, exec (.conversionResult n nv true true) s = .next t ∧
      (t.conv n).resA = (s.conv n).resA.set (s.conv n).idx ((s.conv n).codeOf nv + 16384 * b2n (s.conv n).resampled) ∧
      (t.str i).conv = (s.str i).currentOf ((s.conv n).codeOf nv) (entryGain (s.conv n).entry) ∧
      (t.str i).sum = (s.str i).sum + (t.str i).conv ∧ (t.str i).cnt = (s.str i).cnt + 1 ∧
      State.Frame [.strings, .convs, .regs] s t := by
  have hn : n < s.convs.length := hlen ▸ popConv_lt hp
  have hconverts : s.converts n = true := by
    simp only [State.converts, State.convRuns_of_full hfull, hsync, Option.isNone_eq_false_iff.mpr hh, Bool.false_and,
      Bool.and_false, Bool.not_false, Bool.and_self]
  have hpc := State.parityFine_conv hn
  obtain ⟨p, hpd⟩ : ∃ p, s.parityFine n = p := ⟨_, rfl⟩
  obtain ⟨q, hqd⟩ : ∃ q, p.countResampled n = q := ⟨_, rfl⟩
  have hpm : s.Moves [.convs, .regs] p := hpd ▸ (State.moves_modConv ..).mono rfl
  have hpc : p.conv n = { s.conv n with parBad := 0 } := hpd ▸ State.parityFine_conv hn
  have hpfull : p.convFull = true := hpd ▸ hfull
  have hplen : n < p.convs.length := hpd ▸ hn.trans_eq (State.modConv_convs_length _).symm
  have hqp : p.Moves [.regs] q := hqd ▸ State.moves_countResampled p n
  have hqm : s.Moves [.convs, .regs] q := hpm.step hqp rfl
  have hqconvs : q.convs = p.convs := hqp.frame .convs (by decide)
  have hqstrs : q.strings = s.strings := hqm.frame .strings (by decide)
  have hqcourses : q.courses = s.courses := hqm.frame .courses (by decide)
  have hqi : q.str i = s.str i := congrArg (·.getD i {}) hqstrs
  have hql : (q.course (courseOf i)).lost = false :=
    (congrArg (fun l : List Course => (l.getD (courseOf i) {}).lost) hqcourses).trans hl
  have hqc : q.conv n = { s.conv n with parBad := 0 } := (congrArg (·.getD n {}) hqconvs).trans hpc
  obtain ⟨u, hud⟩ : ∃ u, q.scheduledResult n ((s.conv n).codeOf nv + 16384 * b2n (s.conv n).resampled)
    ((s.conv n).codeOf nv) true false = u := ⟨_, rfl⟩
  have hres : s.conversionResult n nv true = u.arm n := by
    rw [State.conversionResult_scheduled hpd hpc hpfull ht hu hsync hh hf nv, hqd]
    exact congrArg (State.arm · n) hud
  obtain ⟨hulen, hresA, hconv, hsum, hcnt, hum⟩ := State.scheduledResult_current hqc hB (hqconvs ▸ hplen) hin hi
    (hqstrs ▸ hstr) hql hud
  rw [hqi] at hconv hsum hcnt
  have hqm' : s.Moves [.strings, .convs, .regs] q := hqm.mono rfl
  refine ⟨u.arm n, (exec_conversionResult hp hconverts nv).trans (congrArg Host.Outcome.next hres), ?_, hconv, ?_, hcnt,
    ((hqm'.step hum rfl).step (State.moves_arm ..) rfl).frame⟩
  · exact (congrArg Prod.fst (State.arm_results hulen)).trans hresA
  · exact hsum.trans (congrArg (_ + ·) hconv.symm)

theorem exec_conversionResult_urgent {u : Urgent} (hu : (s.conv n).urgent = some u) (ho : u.owner = none)
    (hm : u.mode = 0) (ht : (s.conv n).timed = false) :
    ∃ t, exec (.conversionResult n nv true true) s = .next t ∧ (t.conv n).urgRes =
      (if (s.conv n).failed then 0 else (s.conv n).codeOf nv) + 4096 + 32768 * b2n (s.conv n).failed ∧
      State.Frame [.convs, .regs] s t := by
  have hn : n < s.convs.length := hlen ▸ popConv_lt hp
  have hwait : s.strobeString n = none := by
    simp only [State.strobeString, hu, hm]
    rfl
  have hconverts : s.converts n = true := by
    simp only [State.converts, State.convRuns_of_full hfull, hwait, hu, Option.isSome_none, Option.isNone_some,
      Bool.false_and, Bool.and_false, Bool.not_false, Bool.and_self]
  obtain ⟨p, hpd⟩ : ∃ p, s.parityFine n = p := ⟨_, rfl⟩
  have hpm : s.Moves [.convs, .regs] p := hpd ▸ (State.moves_modConv ..).mono rfl
  have hpc : p.conv n = { s.conv n with parBad := 0 } := hpd ▸ State.parityFine_conv hn
  have hplen : n < p.convs.length := hpd ▸ hn.trans_eq (State.modConv_convs_length _).symm
  have hres := State.conversionResult_urgent hpd hpc (hpd ▸ hfull) ht hu nv
  obtain ⟨w, hw⟩ : ∃ w, (if (s.conv n).failed then 0 else (s.conv n).codeOf nv) + 4096 +
    32768 * b2n (s.conv n).failed = w := ⟨_, rfl⟩
  obtain ⟨b, hbd⟩ : ∃ b, ((p.count Obj.urgent_count 32).modConv n fun c => { c with urgRes := w }) = b := ⟨_, rfl⟩
  have htaken (code : Nat) : p.urgentResult n u w code true = b := by
    simp only [State.urgentResult, ho]
    exact hbd
  have hbm : p.Moves [.convs, .regs] b := by
    rw [← hbd]
    exact ((State.Moves.refl _ p).step (State.moves_count ..) rfl).step (State.moves_modConv ..) rfl
  have hblen : n < b.convs.length := by
    rw [← hbd, State.modConv_convs_length]
    exact hplen
  have hbw : (b.conv n).urgRes = w := by
    rw [← hbd, State.modConv_conv_same (p.count Obj.urgent_count 32) _ hplen]
  obtain ⟨d, hdd⟩ : ∃ d, (b.modConv n fun c => c.afterUrgent p.cfg n p.now true) = d := ⟨_, rfl⟩
  have hdm : b.Moves [.convs] d := hdd ▸ State.moves_modConv ..
  have hdlen : n < d.convs.length := hdd ▸ hblen.trans_eq (State.modConv_convs_length _).symm
  have hdres : (d.conv n).results = (b.conv n).results := by
    rw [← hdd, State.modConv_conv_same b _ hblen]
    exact Conv.afterUrgent_results true
  have hres' : s.conversionResult n nv true = d.arm n := by
    rw [hres, ← hdd, ← htaken, ← hw]
    rfl
  rw [hw]
  refine ⟨_, (exec_conversionResult hp hconverts nv).trans (congrArg Host.Outcome.next hres'), ?_,
    (((hpm.step hbm rfl).step hdm rfl).step (State.moves_arm ..) rfl).frame⟩
  exact (congrArg (·.2.2) ((State.arm_results hdlen).trans hdres)).trans hbw

end

/-! ## The board-analog converter and the energy quarter -/

section
variable {s : State} {nv : Int}

/-- A result without a parity error ends the run of errors of the board-analog converter. -/
def State.boardFine (s : State) : State := { s with cg := { s.cg with baPar := 0 } }

theorem exec_boardAnalogConversion (hfull : s.convFull = true) (i : BaInput) (res : Option (Int × Bool)) :
    exec (.boardAnalogConversion i res) s = .next (s.boardConversion i res) :=
  next_when (State.convRuns_of_full hfull)

section
variable (hf : s.cg.baFailed = false) {i : BaInput} {code : Nat} (hc : code = codeOf (baAtt i) 1 s.cg.baOff s.cg.baGain nv)
include hf hc

/-- R376: a good result of a converter that works. -/
theorem State.boardResult_good : s.boardResult i (some (nv, true)) = s.boardFine.boardAnalog i code := by
  simp only [State.boardResult, State.boardFine, hf, hc, Bool.false_eq_true, if_false]

end

/-- R376: VIN conversions add up over a control period. -/
theorem State.boardAnalog_vin (he : s.engineOn = true) (hfull : s.convFull = true) (code : Nat) :
    s.boardAnalog .vin code = { s with cg := { s.cg with
      vinSum := s.cg.vinSum + vinOfCode code 1, vinCnt := s.cg.vinCnt + 1, vinLast := vinOfCode code 1 } } := by
  simp only [State.boardAnalog, he, hfull, Bool.and_self, b2n, if_true, Nat.one_mul]

/-- R190: an end of the scale is no reading. -/
theorem State.boardAnalog_trim {code : Nat} (h : code = 0 ∨ code = 4095) : s.boardAnalog .trim code =
    { s with cg := { s.cg with trimCode := code }, eng := { s.eng with baBad := s.eng.baBad + 1 } } :=
  if_pos (h.imp_right .inl)

/-- R376: the second deviation in a row fails the converter. -/
theorem State.boardAnalog_ref (hf : s.cg.baFailed = false) (hb : s.cg.baBad = 1) {code : Nat}
    (h : s.getN Obj.ref_tolerance < ((code : Int) - s.cg.baRef).natAbs) : s.boardAnalog .ref code =
      State.fire { s with cg := { s.cg with refCode := code, baFailed := true } } 36 0 (srcConv 70) := by
  have hbad : ¬ s.cg.baBad = 0 := by rw [hb]; decide
  show (if s.cg.baFailed then _ else if ((code : Int) - s.cg.baRef).natAbs ≤ s.getN Obj.ref_tolerance then _
    else if s.cg.baBad = 0 then _ else State.failConverter _ 70) = _
  rw [if_neg (by rw [hf]; exact Bool.false_ne_true), if_neg (Nat.not_le.mpr h), if_neg hbad]
  exact State.failConverter_board hf

/-- R190: after a code at an end of the scale the raw trim stays. -/
theorem State.boardConversion_trim (h : (s.boardResult .trim (some (nv, true))).cg.trimCode = 0 ∨
    (s.boardResult .trim (some (nv, true))).cg.trimCode = 4095) :
    s.boardConversion .trim (some (nv, true)) = s.boardResult .trim (some (nv, true)) := by
  refine if_neg ?_
  rcases h with h | h <;> (rw [h]; simp)

theorem exec_energyQuarter (hi : s.cfg.hasIin = true) (hr : s.convRuns = true) (vs : Int) :
    exec (.energyQuarter vs) s = .next (s.energyQuarter vs) := next_when (by rw [hi, hr]; rfl)

/-- R377, R378: the charge and the energy of a quarter, with the remainder of the charge. -/
theorem State.energyQuarter_cap (s : State) (vs : Int) :
    let v := clampI (-20000000) 20000000 vs
    let q := v * 10000 + s.cap.chargeRem
    let pc := q / s.getN Obj.iin_shunt
    (s.energyQuarter vs).cap = { s.cap with
      chargeRem := q % s.getN Obj.iin_shunt, inFj := s.cap.inFj + pc * s.cg.vinLast, inPc := s.cap.inPc + pc
      pcRem := (s.cap.pcRem + pc) % 1000000, overRange := s.cap.overRange || v != vs } := by
  unfold State.energyQuarter
  dsimp only
  split <;> rfl

end

/-- Settles O42: a result by the entry that it belongs to, a code of the board-analog converter by its input, and the
energy quarter as it is written (logs 20, 32, 51, 92 and 95). -/
theorem conversionResults : Obligations.ConversionResults := by
  unfold Obligations.ConversionResults
  refine ⟨fun s n nv hp hlen hfull => ⟨fun i => exec_conversionResult_waits hp nv, fun hu hsync hB hh ht hf i hi hin hstr hl =>
      exec_conversionResult_fire hp hlen hfull nv hu hsync hB hh ht hf hi hin hstr hl,
      fun u => exec_conversionResult_urgent hp hlen hfull nv⟩,
    fun s nv hfull hf code hcode => ⟨fun he => ?_, fun h => ?_, fun hb h => ?_⟩, fun s vs hi hr _ v q hv hq => ?_⟩
  · rw [exec_boardAnalogConversion hfull]
    exact congrArg Host.Outcome.next ((State.boardResult_good hf (hcode .vin)).trans (State.boardAnalog_vin (s := s.boardFine) he hfull _))
  · rw [exec_boardAnalogConversion hfull]
    have hres := (State.boardResult_good hf (hcode .trim)).trans (State.boardAnalog_trim (s := s.boardFine) h)
    rw [State.boardConversion_trim (by rw [hres]; exact h), hres]
    rfl
  · rw [exec_boardAnalogConversion hfull]
    exact congrArg Host.Outcome.next ((State.boardResult_good hf (hcode .ref)).trans (State.boardAnalog_ref (s := s.boardFine) hf hb h))
  · subst hv hq
    have hcap := s.energyQuarter_cap vs
    exact ⟨_, exec_energyQuarter hi hr vs, by rw [hcap], by rw [hcap], by rw [hcap], by rw [hcap],
      (State.moves_energyQuarter s vs).frame⟩

end Sys2Proof.Machine
end
